-- ==== Sys2Proof/Word.lean ====
section
/-! DEFINITION. The word and byte types of the ORX-1310, and the plainest arithmetic on them. -/

namespace Sys2Proof

/-- One byte of SRAM, OTP or a packet. -/
abbrev Byte := BitVec 8

/-- One register word (R58). -/
abbrev Word := BitVec 32

/-- A period number (CLS_PNOW, R83). -/
abbrev Period := BitVec 32

/-- The little-endian number that a list of bytes spells. -/
def leNat : List Byte → Nat
  | [] => 0
  | b :: bs => b.toNat + 256 * leNat bs

/-- The `n` little-endian bytes of a number. -/
def leBytes : Nat → Nat → List Byte
  | 0, _ => []
  | n + 1, v => BitVec.ofNat 8 v :: leBytes n (v / 256)

/-- Bits `lo` to `lo + w - 1` of a number. -/
def bits (v lo w : Nat) : Nat := v / 2 ^ lo % 2 ^ w

/-- A number read as two's complement of `w` bits. -/
def signed (w v : Nat) : Int :=
  if v % 2 ^ w < 2 ^ (w - 1) then (v % 2 ^ w : Nat) else ((v % 2 ^ w : Nat) : Int) - (2 ^ w : Nat)

/-- The `w`-bit two's complement pattern of an integer. -/
def unsigned (w : Nat) (v : Int) : Nat := (v % (2 ^ w : Nat)).toNat

/-- `v` held between `lo` and `hi`. -/
def clampNat (lo hi v : Nat) : Nat := max lo (min hi v)

/-- `v` held between `lo` and `hi`. -/
def clampInt (lo hi v : Int) : Int := max lo (min hi v)

/-- Division rounded up. -/
def ceilDiv (a b : Nat) : Nat := (a + b - 1) / b

end Sys2Proof
end

