-- ==== Sys2Proof/Syntax.lean ====
section
/-! DEFINITION. The commands the ORX-1310 takes: one constructor per row of spec/opcode_table.json, with what arrives
with the command (a packet, a frame, the samples of the pins, what the silicon measured) as its operands. -/

namespace Sys2Proof

/-- Where a register access comes from (R62, R69, R144): a plain link packet, the SPI port, or a WRITE item of an accepted
safe PDU. -/
inductive Src where
  | lane | spi | pdu
deriving DecidableEq, Repr

/-- A Galair link packet (R113) whose type byte the command's row fixes: header byte 1, the len field, the body bytes that
arrived, the CRC-32 field that arrived, and whether EOP ended it (EBP otherwise). -/
structure Pkt where
  hdr  : Byte
  len  : BitVec 16
  body : List Byte
  crc  : Word
  eop  : Bool
deriving DecidableEq, Repr

/-- A chain packet or returned chain item (R252): header bytes 0 and 1, seq, the body, the CRC-16 field, whether EBP ended
it. The code groups of the two data pairs, as received, come beside these: `gap` since the item before, IDL symbols and period markers
among them, and `syms` of the item itself (R248, R249). -/
structure ChainPkt where
  h0      : Byte
  h1      : Byte
  seq     : BitVec 16
  body    : List Byte
  crc     : BitVec 16
  ebp     : Bool
  gap     : List (BitVec 10 × BitVec 10) := []
  syms    : List (BitVec 10 × BitVec 10) := []
deriving DecidableEq, Repr

/-- One segment of a SENSE_BLOCK (R261): its data bytes and its CRC-16. -/
structure Segment where
  data : List Byte
  crc  : BitVec 16
deriving DecidableEq, Repr

/-- A SENSE_BLOCK (R261): common header, symbols 5 to 13, the header CRC-16 and the eight segments, and the code groups since the item
before and of its own, as received (R248, R249). -/
structure SenseBlk where
  h0   : Byte
  h1   : Byte
  seq  : BitVec 16
  hdr  : Vector Byte 9
  hcrc : BitVec 16
  ebp  : Bool
  segs : Vector Segment 8
  gap  : List (BitVec 10 × BitVec 10) := []
  syms : List (BitVec 10 × BitVec 10) := []
deriving DecidableEq, Repr

/-- A period marker as received (R251): pnum, D, ph and crc8. -/
structure Marker where
  pnum : BitVec 16
  d    : Byte
  ph   : Byte
  crc8 : Byte
deriving DecidableEq, Repr

/-- What the safety island samples at one tick (R20, R41, R367, R373): the pins, the cycle counts and the junction
temperature in degrees Celsius. -/
structure TickIn where
  sia   : BitVec 8
  sib   : BitVec 8
  soRb  : BitVec 8
  tpsRb : BitVec 4
  ackN  : Bool
  fcore : BitVec 16
  fchain : BitVec 16
  fconv : BitVec 16
  fltx  : BitVec 16
  temp  : Int
deriving DecidableEq, Repr

/-- What a SELFTEST step found (R34, R55): pass or fail, the failing instance, its duration in units of 0.5 ms, the total
duration so far in units of 10 us, and the words of the BIST registers that the step writes, in ascending offset (step 5:
then the four coefficient words). -/
structure StepRes where
  pass  : Bool
  inst  : BitVec 12
  half  : Nat
  tot10 : Nat
  words : List Word
deriving DecidableEq, Repr

/-- One window sample or conversion as the slice gives it (R338, R346): the raw code, the range comparators and the
overdrive comparator. -/
structure Sample where
  raw  : BitVec 12
  ovr  : Bool
  unr  : Bool
  odv  : Bool
deriving DecidableEq, Repr

/-- What an eye operation measured (R103): the disagreements of its last point, and for a full scan, phase by phase from −32, those at
the codes 0, +1, +2 and so on, and those at −1, −2 and so on, as far as it measured. -/
structure EyeRes where
  errs : Nat
  up   : List (List Nat)
  down : List (List Nat)
deriving DecidableEq, Repr

/-- A skip set received on a lane (R98): its number of SKP, and by how much the elastic buffer's fill has drifted since the last. -/
structure SkipRx where
  lane  : Fin 4
  skps  : Nat
  drift : Int
deriving DecidableEq, Repr

/-- A chain's loss of inward lock (R249), with the symbol pairs in error that no item brought with it. -/
structure LockLoss where
  chain : Fin 20
  errs  : Nat
deriving DecidableEq, Repr

/-- What a foreground calibration found on one slice (R340): the lowest and highest code of the 256 conversions of the ground, the
mid-scale and the band gap reference, and the offset, gain and skew that it computed. -/
structure CalSlice where
  gnd  : Nat × Nat
  mid  : Nat × Nat
  gap  : Nat × Nat
  ofs  : Int
  gain : Int
  skew : Int
deriving DecidableEq, Repr

/-- The step of a coefficient (R101, R339). -/
inductive Move where
  | down | stay | up
deriving DecidableEq, Repr

/-- The commands of the ORX-1310. -/
inductive Instr where
  | powerOnReset (vsafeFell : Bool)
  | resetNFall (ns : Nat)
  | partnerRstNFall (ns : Nat)
  | resetGlitch
  | resetRelease (ackN role : Bool)
  | pllLock
  | pllLockTimeout
  | pllRestart
  | selftestStepComplete (r : StepRes)
  | selftestTimerExpiry
  | safetyTick (p : TickIn)
  | clockFault
  | watchdogExpiry
  | supplyFault (rail : Fin 5)
  | vddhLossBypassClose
  | thermalTrip
  | crossingParityError (x : Fin 10)
  | periodStart
  | permitGrant
  | modereqHold (src : Src)
  | modereqConfigure (src : Src)
  | softReset (src : Src)
  | darkReleaseEnd
  | hostLoss
  | cfgTimeout
  | ackNRelease
  | ackNStuck
  | ackNStuckClear
  | sysAckWrite (src : Src) (val : Word)
  | ackArmTimeout
  | registerWrite (src : Src) (addr : Nat) (val : Word)
  | pctrlSrst (src : Src) (page : Fin 31)
  | pctrlFreeze (src : Src) (page : Fin 31) (on : Bool)
  | pctrlPerrClr (src : Src) (page : Fin 31)
  | pirqSet (src : Src) (page : Fin 31) (val : Word)
  | pirqStatClear (src : Src) (page : Fin 31) (val : Word)
  | pageLock (src : Src) (page : Fin 31)
  | stagedWrite (src : Src) (addr : Nat) (val : Word)
  | clauseCommit (src : Src) (val : Word)
  | clauseCheckDone
  | clauseApply
  | clauseAbort (src : Src)
  | clauseLaneLossAbort
  | implicitClauseApply
  | windowWrite (src : Src) (addr : Nat) (w64 : Bool) (data : BitVec 64)
  | detectProbe (l : Fin 4) (found : Bool)
  | tsSetReceive (l : Fin 4) (ts2 : Bool) (rate : Byte) (align : Fin 10) (inv : Bool) (ok : Bool) (sent : Nat)
  | pollTimeout (l : Fin 4)
  | capSetReceive (l : Fin 4) (set : Vector Byte 16)
  | capsTimeout (l : Fin 4)
  | electricalIdle (l : Fin 4)
  | eiosReceive (l : Fin 4)
  | errorBucketFull (l : Fin 4)
  | laneWordReceive (l : Fin 4) (w : Vector (BitVec 10) 4)
  | exitWaitDone (l : Fin 4)
  | downRetry (l : Fin 4)
  | skipSetSend (l : Fin 4)
  | skipSetReceive (x : SkipRx)
  | bndSetReceive (l : Fin 4) (mask : BitVec 2) (seq : Byte) (skew : Nat)
  | ebOverflow (l : Fin 4)
  | rateChange (src : Src) (val : Word)
  | rateChangeStart
  | lanePllRelock
  | rateRevert
  | lnkRetrain (src : Src) (l : Fin 4)
  | lnkRestart (src : Src) (l : Fin 4)
  | lnkReadapt (src : Src) (l : Fin 4)
  | lnkEyeAbort (src : Src) (l : Fin 4)
  | lnkClrcnt (src : Src) (l : Fin 4)
  | eyePoint (src : Src) (l : Fin 4) (val : Word)
  | eyeScan (src : Src) (l : Fin 4) (val : Word)
  | eyeOpComplete (l : Fin 4) (r : EyeRes)
  | marginCheck (l : Fin 4)
  | marginCheckDone (l : Fin 4) (width : BitVec 7) (height : BitVec 7)
  | adaptUpdate (l : Fin 4) (ctle h1 h2 h3 : Move)
  | adaptFreeze (l : Fin 4)
  | adaptResume (l : Fin 4)
  | readaptEnd (l : Fin 4)
  | rdreq (l : Fin 4) (p : Pkt)
  | wrreq (l : Fin 4) (p : Pkt)
  | returnPacketReceive (l : Fin 4) (typ : Byte) (p : Pkt)
  | vline (l : Fin 4) (p : Pkt)
  | fend (l : Fin 4) (p : Pkt)
  | maskupd (l : Fin 4) (p : Pkt)
  | symupdData (l : Fin 4) (p : Pkt)
  | symupdDescriptor (l : Fin 4) (p : Pkt)
  | aspupd (l : Fin 4) (p : Pkt)
  | fcSend
  | irqmsgSend
  | irqmsgRepeat
  | spiFrameStart
  | spiFrameEnd (cycles : Nat) (mosi : BitVec 64)
  | spiNop
  | spiRead
  | spiWrite
  | spiAccessComplete
  | pktClrcnt (src : Src)
  | safePdu (l : Fin 4) (p : Pkt)
  | nop
  | write (addr : Word) (val : Word)
  | beam
  | confirm (lock : Bool) (ccv : Word)
  | ccvComputeDone
  | otpcom (blk : Vector Byte 32)
  | otpfb (blk : Vector Byte 232)
  | otpProgramDone (readbackOk : Bool)
  | deadlineMiss
  | spdResync (src : Src)
  | spdClrcnt (src : Src)
  | statusPduSend
  | ccvRecheckStart
  | ccvRecheckDone
  | fsyncEdge (rising : Bool)
  | swapTakeEffect
  | passStart
  | passComplete (cycles : Nat)
  | placementComplete (cycles : Nat)
  | scrubRead
  | vinClrcnt (src : Src)
  | cmpClrcnt (src : Src)
  | cmpCapclr (src : Src)
  | mskClrcnt (src : Src)
  | aspCtlWrite (src : Src) (a : Fin 160) (val : Word)
  | fadeGroupWrite (src : Src) (val : Word)
  | fadeGroupChange (a : Fin 160)
  | calClrcnt (src : Src)
  | plcClrcnt (src : Src)
  | codesSend (c : Fin 20)
  | latchSend (frame : Bool) (only : Option (Fin 20))
  | proofSend (c : Fin 20) (pos : Fin 8)
  | senseTokenSend (c : Fin 20) (pos : Fin 8)
  | tileRegGo (src : Src) (i : Fin 80) (val : Word)
  | ackReturn (c : Fin 20) (it : ChainPkt)
  | latchReturn (c : Fin 20) (it : ChainPkt) (rtt : Nat)
  | regrReply (c : Fin 20) (it : ChainPkt)
  | statusReply (c : Fin 20) (it : ChainPkt)
  | senseBlock (c : Fin 20) (b : SenseBlk)
  | returnTimeout (c : Fin 20)
  | firstCodesTimeout (c : Fin 20)
  | chainLockLoss (x : LockLoss)
  | statusStale (t : Fin 80)
  | chnClrcnt (src : Src)
  | judgementRelease (cycles : Nat)
  | senseStale (t : Fin 80)
  | supClrcnt (src : Src)
  | prfClrcnt (src : Src)
  | debounceExpiry (cls : Fin 64) (inst : BitVec 16)
  | fltClrcnt (src : Src)
  | fltLogclr (src : Src)
  | fastBurst (slot : Nat) (win : Vector Sample 64)
  | conversionComplete (x : Sample)
  | adcRstart (src : Src)
  | adcRstop (src : Src)
  | adcIstart (src : Src)
  | adcCalreq (src : Src)
  | adcCaparm (src : Src)
  | adcCapforce (src : Src)
  | adcClrcnt (src : Src)
  | regularTimer
  | injectedSlotTrigger
  | calibrationComplete (r : Vector CalSlice 4)
  | calibrationPeriod
  | bgcUpdate (ofs : Vector Move 4) (gainSkew : Vector (Move × Move) 4)
  | adcDataRead (src : Src)
  | adcInjRead (src : Src) (k : Fin 4)
  | winClrcnt (src : Src)
  | balanceWindowEnd
  | balClrcnt (src : Src)
  | tempNodata
  | splClrcnt (src : Src)
  | discrepancy (k : Fin 8)
  | testPulseStart (n : Fin 4)
  | offPulseStart (k : Fin 8)
  | testMissed (k : Fin 8)
  | sioClrcnt (src : Src)
  | crcLoad (src : Src) (ctx : Fin 64)
  | crcValWrite (src : Src) (ctx : Fin 64) (val : Word)
  | crcDin8 (src : Src) (ctx : Fin 64) (val : Word)
  | crcDin32 (src : Src) (ctx : Fin 64) (val : Word)
  | skinkGo (src : Src) (first : BitVec 10)
  | skinkAbort (src : Src)
  | skinkWord
  | crcClrcnt (src : Src)
  | psyncEdge (offset : Int)
  | digest (l : Fin 4) (p : Pkt)
  | lists (l : Fin 4) (p : Pkt)
  | heartbeat (l : Fin 4) (p : Pkt)
  | digestTimeout
  | unnamedEffectDiscard
  | takeoverDecision
  | axoTakeover (src : Src)
  | axoRealign (src : Src)
  | axoClrcnt (src : Src)
  | partnerRstRelease
  | chainInwardLock (c : Fin 20)
  | bypassLegsOpen (c : Fin 20)
  | pollTs2TimeLimit (l : Fin 4)
  | testPulseEnd (n : Fin 4)
  | offPulseEnd (k : Fin 8)
  | snoopedChainItem (c : Fin 20) (it : ChainPkt)
  | inwardPeriodMarker (c : Fin 20) (m : Marker)
deriving DecidableEq, Repr

end Sys2Proof
end

