-- ==== Sys2Proof/Decode.lean ====
section
/-! DEFINITION. What the host asks of a decoder. The command table gives no row any bits: commands arrive as operands of the
constructors of `Instr`, so no word spells one. -/

namespace Sys2Proof

/-- The command that a word spells by the bits of the command table: none, since no row of the table has bits. -/
def decodeTableWord (_nbits _w : Nat) : Option Instr := none

end Sys2Proof
end

