-- ==== Sys2Proof/Config.lean ====
section
/-! DEFINITION. What the spec leaves to the device: constants with no body, so that nothing can be proved of their values. -/

namespace Sys2Proof

/-- Whether a low level of a reset input that lasts between 50 ns and 200 ns resets the device (R30), draw by draw. -/
opaque Config.pulseResets : Nat → Bool

/-- The syndrome that an uncorrectable SRAM word shows (R192: the syndrome's coding is not given), draw by draw. -/
opaque Config.eccSyndrome : Nat → BitVec 8

/-- The check of R46, less one, that finds a fallback descriptor whose programming was cut short (R158 gives no content), draw by
draw. -/
opaque Config.cutCheck : Nat → Fin 9

/-- CLS_ISTAT.inst of an implicit clause that fails R131, for which R78 names no instance, draw by draw. -/
opaque Config.istatInst : Nat → BitVec 8

/-- The conversions that a calibration completed on each slice before an injected start ended it (R341, R347: the spec gives no instant),
draw by draw. -/
opaque Config.calConversions : Nat → BitVec 8

end Sys2Proof
end

