-- ==== Sys2Proof/Machine/Fields.lean ====
section
/-! DEFINITION. The addresses of the registers in the register space, and the named fields of the registers, as the register
and field tables of every chapter give them (R57 and the tables of each page). An index is taken modulo the number of instances, so
that every address lies on its block's page. -/

namespace Sys2Proof.Machine

/-- A field of a register word: the register's address in the register space, the field's lowest bit and its width. -/
structure Fld where
  addr : Nat
  lo   : Nat
  w    : Nat
deriving DecidableEq, Repr

/-- The base address of a page (R57). -/
def pageAddr (p : Nat) : Nat := p * 0x1000

/-- The page of lane `n` (R57). -/
def lnkAddr (n : Nat) : Nat := 0x4000 + n % 4 * 0x1000

/-- The context of aspect `a` (R219). -/
def aspAddr (a : Nat) : Nat := 0x10400 + a / 80 % 2 * 0x1000 + a % 80 * 32

/-- The registers of chain `c` (R275). -/
def chnAddr (c : Nat) : Nat := 0x14400 + c / 10 % 2 * 0x1000 + c % 10 * 64

/-- The registers of TIL instance `i` (R278). -/
def tilAddr (i : Nat) : Nat := 0x16400 + i / 40 % 2 * 0x1000 + i % 40 * 32

namespace R

def PID (p : Nat) : Nat := pageAddr p + 0x0
def PVER (p : Nat) : Nat := pageAddr p + 0x4
def PCTRL (p : Nat) : Nat := pageAddr p + 0x8
def PSTAT (p : Nat) : Nat := pageAddr p + 0xC
def PIRQ_RAW (p : Nat) : Nat := pageAddr p + 0x10
def PIRQ_EN (p : Nat) : Nat := pageAddr p + 0x14
def PIRQ_STAT (p : Nat) : Nat := pageAddr p + 0x18
def PIRQ_SET (p : Nat) : Nat := pageAddr p + 0x1C
def PLOCK (p : Nat) : Nat := pageAddr p + 0x20
def PSTAGE (p : Nat) : Nat := pageAddr p + 0x24
def PERR (p : Nat) : Nat := pageAddr p + 0x28
def CLK_STAT : Nat := 0x01040
def CLK_FCORE : Nat := 0x01044
def CLK_FCHAIN : Nat := 0x01048
def CLK_FCONV : Nat := 0x0104C
def CLK_FLTX : Nat := 0x01050
def CLK_XERR : Nat := 0x01054
def CLK_LOSS : Nat := 0x01058
def SYS_ID0 : Nat := 0x00040
def SYS_ID1 : Nat := 0x00044
def SYS_STAT : Nat := 0x00048
def SYS_MODEREQ : Nat := 0x0004C
def SYS_RSTCAUSE : Nat := 0x00050
def SYS_RSTCNT : Nat := 0x00054
def SYS_HOLDCAUSE : Nat := 0x00058
def SYS_STRES : Nat := 0x0005C
def SYS_STDETAIL : Nat := 0x00060
def SYS_ACK : Nat := 0x00064
def SYS_ACKSTAT : Nat := 0x00068
def SYS_HOSTTO : Nat := 0x0006C
def SYS_CFGTO : Nat := 0x00070
def SYS_RESET : Nat := 0x00074
def SYS_FBSTAT : Nat := 0x00078
def BIST_TIME0 : Nat := 0x02040
def BIST_TIME1 : Nat := 0x02044
def BIST_TIME2 : Nat := 0x02048
def BIST_SAFE : Nat := 0x0204C
def BIST_LBSIG : Nat := 0x02050
def BIST_LBEXP : Nat := 0x02054
def BIST_LBPART : Nat := 0x02058
def BIST_MBFAIL : Nat := 0x0205C
def BIST_MBBANK : Nat := 0x02060
def BIST_ADC : Nat := 0x02064
def BIST_LANE : Nat := 0x02068
def BIST_CHAIN : Nat := 0x0206C
def BIST_BYP : Nat := 0x02070
def BIST_BYPV : Nat := 0x02074
def BIST_PAGE : Nat := 0x02078
def SYS_WINBASE : Nat := 0x00100
def SYS_OWN0 : Nat := 0x00104
def SYS_OWN1 : Nat := 0x00108
def SYS_LOCK : Nat := 0x0010C
def SYS_LOCKPG : Nat := 0x00110
def SYS_IRQSUM : Nat := 0x00114
def SYS_WINERR : Nat := 0x00118
def CLS_COMMIT : Nat := 0x03040
def CLS_ABORT : Nat := 0x03044
def CLS_PTGT : Nat := 0x03048
def CLS_STAT : Nat := 0x0304C
def CLS_PNOW : Nat := 0x03050
def CLS_RDSHD : Nat := 0x03054
def CLS_COUNT : Nat := 0x03058
def CLS_ISTAT : Nat := 0x0305C
def CLS_APPLY : Nat := 0x03060
def CLS_FAIL : Nat := 0x03064
def LNK_ROLE (n : Nat) : Nat := lnkAddr n + 0x040
def LNK_RATE (n : Nat) : Nat := lnkAddr n + 0x044
def LNK_CFG (n : Nat) : Nat := lnkAddr n + 0x048
def LNK_CTRL (n : Nat) : Nat := lnkAddr n + 0x04C
def LNK_STAT (n : Nat) : Nat := lnkAddr n + 0x050
def LNK_CAPRX (n : Nat) (k : Nat) : Nat := lnkAddr n + 0x54 + 4 * (k % 3)
def LNK_ADAPT (n : Nat) : Nat := lnkAddr n + 0x060
def LNK_ERRCNT (n : Nat) : Nat := lnkAddr n + 0x064
def LNK_EBCNT (n : Nat) : Nat := lnkAddr n + 0x068
def LNK_TRCNT (n : Nat) : Nat := lnkAddr n + 0x06C
def LNK_EYECTL (n : Nat) : Nat := lnkAddr n + 0x070
def LNK_EYESTAT (n : Nat) : Nat := lnkAddr n + 0x074
def LNK_EYEMRG (n : Nat) : Nat := lnkAddr n + 0x078
def LNK_EYETHR (n : Nat) : Nat := lnkAddr n + 0x07C
def LNK_FWDDROP (n : Nat) : Nat := lnkAddr n + 0x080
def LNK_EYEMAP (n : Nat) (k : Nat) : Nat := lnkAddr n + 0x100 + 4 * (k % 64)
def PKT_CFG : Nat := 0x08040
def PKT_CTRL : Nat := 0x08044
def PKT_POS : Nat := 0x08048
def PKT_DISC : Nat := 0x0804C
def PKT_MALF : Nat := 0x08050
def PKT_OVR : Nat := 0x08054
def PKT_TAGS : Nat := 0x08058
def PKT_VSTAT : Nat := 0x0805C
def PKT_VCNT : Nat := 0x08060
def PKT_VCRC : Nat := 0x08064
def PKT_VCALC : Nat := 0x08068
def PKT_IRQSEQ : Nat := 0x0806C
def PKT_SPICNT : Nat := 0x08070
def SPD_RXID : Nat := 0x09040
def SPD_TXID : Nat := 0x09044
def SPD_RXCFG : Nat := 0x09048
def SPD_TXCFG : Nat := 0x0904C
def SPD_CCVCFG : Nat := 0x09050
def SPD_RXSTAT : Nat := 0x09054
def SPD_DISC : Nat := 0x09058
def SPD_LOST : Nat := 0x0905C
def SPD_LASTRES : Nat := 0x09060
def SPD_CCVSTAT : Nat := 0x09064
def SPD_CCVCALC : Nat := 0x09068
def SPD_CCVSUP : Nat := 0x0906C
def SPD_CCVOTP : Nat := 0x09070
def SPD_OTPSTAT : Nat := 0x09074
def SPD_TXSEQ : Nat := 0x09078
def SPD_CTRL : Nat := 0x0907C
def VIN_CFG : Nat := 0x0A040
def VIN_RATE : Nat := 0x0A044
def VIN_STAT : Nat := 0x0A048
def VIN_CNT : Nat := 0x0A04C
def VIN_MISS : Nat := 0x0A050
def VIN_SWPER : Nat := 0x0A054
def VIN_CTRL : Nat := 0x0A058
def CMP_STAT : Nat := 0x0B040
def CMP_PASS : Nat := 0x0B044
def CMP_LAST : Nat := 0x0B048
def CMP_LASTT : Nat := 0x0B04C
def CMP_ARB : Nat := 0x0B050
def CMP_WAIT : Nat := 0x0B054
def CMP_SCRUB : Nat := 0x0B058
def CMP_ECCCFG : Nat := 0x0B05C
def CMP_SCRPASS : Nat := 0x0B060
def CMP_ECCCNT (k : Nat) : Nat := 0x0B064 + 4 * (k % 4)
def CMP_UECNT : Nat := 0x0B074
def CMP_ECCCAP : Nat := 0x0B078
def CMP_ECCSYN : Nat := 0x0B07C
def CMP_CTRL : Nat := 0x0B080
def MSK_STAT : Nat := 0x0C040
def MSK_GEN : Nat := 0x0C044
def MSK_CNT : Nat := 0x0C048
def MSK_LATE : Nat := 0x0C04C
def MSK_CTRL : Nat := 0x0C050
def MSK_RECTLo (k : Nat) : Nat := 0x0C100 + 8 * (k % 32)
def MSK_RECTHi (k : Nat) : Nat := 0x0C104 + 8 * (k % 32)
def MSK_SYMLo (k : Nat) : Nat := 0x0C800 + 8 * (k % 256)
def MSK_SYMHi (k : Nat) : Nat := 0x0C804 + 8 * (k % 256)
def ASP_FGRP : Nat := 0x10040
def ASP_FGPEND : Nat := 0x10044
def ASP_NUM : Nat := 0x10048
def ASP_OFF (k : Nat) : Nat := 0x1004C + 4 * (k % 5)
def ASP_CFG (a : Nat) : Nat := aspAddr a + 0x00
def ASP_MEMB (a : Nat) : Nat := aspAddr a + 0x04
def ASP_FADE (a : Nat) : Nat := aspAddr a + 0x08
def ASP_SUPV (a : Nat) : Nat := aspAddr a + 0x0C
def ASP_CTL (a : Nat) : Nat := aspAddr a + 0x10
def ASP_POS (a : Nat) : Nat := aspAddr a + 0x14
def ASP_FST (a : Nat) : Nat := aspAddr a + 0x18
def ASP_FLT (a : Nat) : Nat := aspAddr a + 0x1C
def CAL_CFG : Nat := 0x0D040
def CAL_TCFG : Nat := 0x0D044
def CAL_TCURV (k : Nat) : Nat := 0x0D048 + 4 * (k % 5)
def CAL_CTRL : Nat := 0x0D05C
def CAL_TCHG : Nat := 0x0D060
def CAL_TIDX (k : Nat) : Nat := 0x0D080 + 4 * (k % 20)
def PLC_PWM : Nat := 0x0E040
def PLC_CFG : Nat := 0x0E044
def PLC_GEOM : Nat := 0x0E048
def PLC_PHASE : Nat := 0x0E04C
def PLC_RUN : Nat := 0x0E050
def PLC_CNT : Nat := 0x0E054
def PLC_WRAP : Nat := 0x0E058
def PLC_OFFPER : Nat := 0x0E05C
def PLC_CTRL : Nat := 0x0E060
def PLC_PEAK (k : Nat) : Nat := 0x0E070 + 4 * (k % 4)
def PLC_OFF (k : Nat) : Nat := 0x0E100 + 4 * (k % 40)
def CHN_GSTAT : Nat := 0x14040
def CHN_GLOCK : Nat := 0x14044
def CHN_GFLT : Nat := 0x14048
def CHN_GCTRL : Nat := 0x1404C
def CHN_LTAG : Nat := 0x14050
def CHN_CTRL (c : Nat) : Nat := chnAddr c + 0x00
def CHN_CFG (c : Nat) : Nat := chnAddr c + 0x04
def CHN_STAT (c : Nat) : Nat := chnAddr c + 0x08
def CHN_ERR (c : Nat) : Nat := chnAddr c + 0x0C
def CHN_RETX (c : Nat) : Nat := chnAddr c + 0x10
def CHN_SENSE (c : Nat) : Nat := chnAddr c + 0x14
def CHN_RTT (c : Nat) : Nat := chnAddr c + 0x18
def CHN_LOAD (c : Nat) : Nat := chnAddr c + 0x1C
def TIL_MAP (i : Nat) : Nat := tilAddr i + 0x00
def TIL_ID0 (i : Nat) : Nat := tilAddr i + 0x04
def TIL_ID1 (i : Nat) : Nat := tilAddr i + 0x08
def TIL_STAT (i : Nat) : Nat := tilAddr i + 0x0C
def TIL_FLAGS (i : Nat) : Nat := tilAddr i + 0x10
def TIL_RACC (i : Nat) : Nat := tilAddr i + 0x14
def TIL_RDATA (i : Nat) : Nat := tilAddr i + 0x18
def TIL_SYNC (i : Nat) : Nat := tilAddr i + 0x1C
def SUP_CFG : Nat := 0x0F040
def SUP_STAT : Nat := 0x0F044
def SUP_CNT0 : Nat := 0x0F048
def SUP_CNT1 : Nat := 0x0F04C
def SUP_CNT2 : Nat := 0x0F050
def SUP_CNT3 : Nat := 0x0F054
def SUP_CONF : Nat := 0x0F058
def SUP_LAST : Nat := 0x0F05C
def SUP_JRUN : Nat := 0x0F060
def SUP_SKIP : Nat := 0x0F064
def SUP_CTRL : Nat := 0x0F068
def SUP_STALE (k : Nat) : Nat := 0x0F070 + 4 * (k % 3)
def PRF_CFG : Nat := 0x13040
def PRF_GEOM : Nat := 0x13044
def PRF_CNT : Nat := 0x13048
def PRF_PIX : Nat := 0x1304C
def PRF_UNV0 : Nat := 0x13050
def PRF_UNV1 : Nat := 0x13054
def PRF_UNV2 : Nat := 0x13058
def PRF_LOW : Nat := 0x1305C
def PRF_SUR : Nat := 0x13060
def PRF_REPL : Nat := 0x13064
def PRF_CTRL : Nat := 0x13068
def PRF_OCC (k : Nat) : Nat := 0x13100 + 4 * (k % 40)
def FLT_LATCH0 : Nat := 0x12040
def FLT_LATCH1 : Nat := 0x12044
def FLT_PRES0 : Nat := 0x12048
def FLT_PRES1 : Nat := 0x1204C
def FLT_ACT : Nat := 0x12050
def FLT_GOFF : Nat := 0x12054
def FLT_CNT : Nat := 0x12058
def FLT_LOGPTR : Nat := 0x1205C
def FLT_CTRL : Nat := 0x12060
def FLT_SOMAPLo (k : Nat) : Nat := 0x12080 + 8 * (k % 8)
def FLT_SOMAPHi (k : Nat) : Nat := 0x12084 + 8 * (k % 8)
def FLT_RCT (k : Nat) : Nat := 0x12100 + 4 * (k % 64)
def FLT_FLR (k : Nat) : Nat := 0x12200 + 4 * (k % 64)
def FLT_LOGLo (k : Nat) : Nat := 0x12300 + 8 * (k % 16)
def FLT_LOGHi (k : Nat) : Nat := 0x12304 + 8 * (k % 16)
def ADC_CFG : Nat := 0x18040
def ADC_CTRL : Nat := 0x18044
def ADC_STAT : Nat := 0x18048
def ADC_RCFG : Nat := 0x1804C
def ADC_ICFG : Nat := 0x18050
def ADC_DATA : Nat := 0x18054
def ADC_DPEEK : Nat := 0x18058
def ADC_CALCFG : Nat := 0x1805C
def ADC_CALSTAT : Nat := 0x18060
def ADC_CAPCFG : Nat := 0x18064
def ADC_CAPSTAT : Nat := 0x18068
def ADC_CNT : Nat := 0x1806C
def ADC_RNG : Nat := 0x18070
def ADC_BURST : Nat := 0x18074
def ADC_COEF (k : Nat) : Nat := 0x18080 + 4 * (k % 4)
def ADC_TRG (k : Nat) : Nat := 0x180C0 + 4 * (k % 8)
def ADC_RSEQ (k : Nat) : Nat := 0x18100 + 4 * (k % 16)
def ADC_ISEQ (k : Nat) : Nat := 0x18140 + 4 * (k % 4)
def ADC_INJ (k : Nat) : Nat := 0x18150 + 4 * (k % 4)
def ADC_CH (k : Nat) : Nat := 0x18200 + 4 * (k % 64)
def WIN_STAT : Nat := 0x19040
def WIN_CTRL : Nat := 0x19044
def WIN_CFG (k : Nat) : Nat := 0x19080 + 8 * (k % 16)
def WIN_LIM (k : Nat) : Nat := 0x19084 + 8 * (k % 16)
def WIN_LAST (k : Nat) : Nat := 0x19100 + 4 * (k % 16)
def BAL_CTRL : Nat := 0x1A040
def BAL_CFG : Nat := 0x1A044
def BAL_STAT : Nat := 0x1A048
def BAL_CNT : Nat := 0x1A04C
def BAL_CMD : Nat := 0x1A050
def BAL_SENSE (g : Nat) : Nat := 0x1A100 + 32 * (g % 4) + 0x00
def BAL_THR (g : Nat) : Nat := 0x1A100 + 32 * (g % 4) + 0x04
def BAL_DEF (g : Nat) : Nat := 0x1A100 + 32 * (g % 4) + 0x08
def BAL_EXC (g : Nat) : Nat := 0x1A100 + 32 * (g % 4) + 0x0C
def BAL_WORST (g : Nat) : Nat := 0x1A100 + 32 * (g % 4) + 0x10
def BAL_LAST (g : Nat) : Nat := 0x1A100 + 32 * (g % 4) + 0x14
def SPL_GCFG : Nat := 0x1B040
def SPL_TEMP : Nat := 0x1B044
def SPL_CMD : Nat := 0x1B048
def SPL_CNT : Nat := 0x1B04C
def SPL_CTRL (g : Nat) : Nat := 0x1B100 + 32 * (g % 4) + 0x00
def SPL_TGT (g : Nat) : Nat := 0x1B100 + 32 * (g % 4) + 0x04
def SPL_LOOP (g : Nat) : Nat := 0x1B100 + 32 * (g % 4) + 0x08
def SPL_LIM (g : Nat) : Nat := 0x1B100 + 32 * (g % 4) + 0x0C
def SPL_INIT (g : Nat) : Nat := 0x1B100 + 32 * (g % 4) + 0x10
def SPL_STAT (g : Nat) : Nat := 0x1B100 + 32 * (g % 4) + 0x14
def SPL_NEEDY (g : Nat) : Nat := 0x1B100 + 32 * (g % 4) + 0x18
def SIO_GCFG : Nat := 0x1C040
def SIO_STAT : Nat := 0x1C044
def SIO_INVAL : Nat := 0x1C048
def SIO_OUTVAL : Nat := 0x1C04C
def SIO_OCTL : Nat := 0x1C050
def SIO_CNT : Nat := 0x1C054
def SIO_TCNT : Nat := 0x1C058
def SIO_CTRL : Nat := 0x1C05C
def SIO_INCFG (k : Nat) : Nat := 0x1C100 + 8 * (k % 8)
def SIO_INST (k : Nat) : Nat := 0x1C104 + 8 * (k % 8)
def SIO_OCFG (k : Nat) : Nat := 0x1C180 + 8 * (k % 8)
def SIO_OST (k : Nat) : Nat := 0x1C184 + 8 * (k % 8)
def CRC_SKCTL : Nat := 0x1D040
def CRC_SKSTAT : Nat := 0x1D044
def CRC_SKCNT : Nat := 0x1D048
def CRC_SKPOS : Nat := 0x1D04C
def CRC_CCVRUN : Nat := 0x1D050
def CRC_STAT : Nat := 0x1D054
def CRC_CTRL : Nat := 0x1D058
def CRC_CFG (k : Nat) : Nat := 0x1D400 + 32 * (k % 64) + 0x00
def CRC_POLY (k : Nat) : Nat := 0x1D400 + 32 * (k % 64) + 0x04
def CRC_INIT (k : Nat) : Nat := 0x1D400 + 32 * (k % 64) + 0x08
def CRC_XOUT (k : Nat) : Nat := 0x1D400 + 32 * (k % 64) + 0x0C
def CRC_VAL (k : Nat) : Nat := 0x1D400 + 32 * (k % 64) + 0x10
def CRC_RES (k : Nat) : Nat := 0x1D400 + 32 * (k % 64) + 0x14
def CRC_DIN8 (k : Nat) : Nat := 0x1D400 + 32 * (k % 64) + 0x18
def CRC_DIN32 (k : Nat) : Nat := 0x1D400 + 32 * (k % 64) + 0x1C
def AXO_CFG : Nat := 0x1E040
def AXO_CTRL : Nat := 0x1E044
def AXO_STAT : Nat := 0x1E048
def AXO_PSER : Nat := 0x1E04C
def AXO_HB : Nat := 0x1E050
def AXO_DIV : Nat := 0x1E054
def AXO_DIVCAP : Nat := 0x1E058
def AXO_TKCNT : Nat := 0x1E05C
def AXO_RSTATE : Nat := 0x1E060
def AXO_DIVCFG : Nat := 0x1E064
def AXO_PSYNC : Nat := 0x1E068
def AXO_CNT : Nat := 0x1E06C
def AXO_PSDLY : Nat := 0x1E070

end R

namespace F

def CLK_STAT_core_lock : Fld := ⟨R.CLK_STAT, 0, 1⟩
def CLK_STAT_chain_lock : Fld := ⟨R.CLK_STAT, 1, 1⟩
def CLK_STAT_conv_lock : Fld := ⟨R.CLK_STAT, 2, 1⟩
def CLK_STAT_ltx_lock : Fld := ⟨R.CLK_STAT, 3, 1⟩
def CLK_STAT_lrx_clk : Fld := ⟨R.CLK_STAT, 4, 4⟩
def CLK_STAT_safe_osc : Fld := ⟨R.CLK_STAT, 8, 1⟩
def CLK_STAT_fmon_ok : Fld := ⟨R.CLK_STAT, 9, 1⟩
def CLK_STAT_permit : Fld := ⟨R.CLK_STAT, 10, 1⟩
def SYS_STAT_mode : Fld := ⟨R.SYS_STAT, 0, 4⟩
def BIST_TIME2_total : Fld := ⟨R.BIST_TIME2, 16, 16⟩
def SYS_STAT_role_pin : Fld := ⟨R.SYS_STAT, 4, 1⟩
def SYS_STAT_cfg_ok : Fld := ⟨R.SYS_STAT, 5, 1⟩
def SYS_STAT_cfg_fail : Fld := ⟨R.SYS_STAT, 6, 1⟩
def SYS_STAT_host_lost : Fld := ⟨R.SYS_STAT, 7, 1⟩
def SYS_STAT_refused : Fld := ⟨R.SYS_STAT, 8, 8⟩
def SYS_STAT_permit : Fld := ⟨R.SYS_STAT, 16, 1⟩
def SYS_STAT_dark_rel : Fld := ⟨R.SYS_STAT, 17, 1⟩
def SYS_RSTCAUSE_por : Fld := ⟨R.SYS_RSTCAUSE, 0, 1⟩
def SYS_RSTCAUSE_pin : Fld := ⟨R.SYS_RSTCAUSE, 1, 1⟩
def SYS_RSTCAUSE_partner : Fld := ⟨R.SYS_RSTCAUSE, 2, 1⟩
def SYS_RSTCAUSE_soft : Fld := ⟨R.SYS_RSTCAUSE, 3, 1⟩
def SYS_RSTCAUSE_pll : Fld := ⟨R.SYS_RSTCAUSE, 4, 1⟩
def SYS_RSTCAUSE_last_hold : Fld := ⟨R.SYS_RSTCAUSE, 16, 8⟩
def SYS_ACKSTAT_count : Fld := ⟨R.SYS_ACKSTAT, 0, 8⟩
def SYS_ACKSTAT_ack_level : Fld := ⟨R.SYS_ACKSTAT, 8, 1⟩
def SYS_ACKSTAT_stuck : Fld := ⟨R.SYS_ACKSTAT, 9, 1⟩
def SYS_ACKSTAT_armed : Fld := ⟨R.SYS_ACKSTAT, 10, 1⟩
def SYS_ACKSTAT_src : Fld := ⟨R.SYS_ACKSTAT, 12, 2⟩
def BIST_SAFE_wdog : Fld := ⟨R.BIST_SAFE, 0, 1⟩
def BIST_SAFE_permit : Fld := ⟨R.BIST_SAFE, 1, 1⟩
def BIST_SAFE_clk : Fld := ⟨R.BIST_SAFE, 2, 1⟩
def BIST_SAFE_supply : Fld := ⟨R.BIST_SAFE, 3, 1⟩
def BIST_SAFE_ack : Fld := ⟨R.BIST_SAFE, 4, 1⟩
def BIST_SAFE_sio : Fld := ⟨R.BIST_SAFE, 5, 1⟩
def BIST_SAFE_rel : Fld := ⟨R.BIST_SAFE, 8, 8⟩
def BIST_LBPART_pass : Fld := ⟨R.BIST_LBPART, 0, 5⟩
def BIST_LBPART_part : Fld := ⟨R.BIST_LBPART, 8, 3⟩
def BIST_MBFAIL_word : Fld := ⟨R.BIST_MBFAIL, 0, 17⟩
def BIST_MBFAIL_bank : Fld := ⟨R.BIST_MBFAIL, 17, 4⟩
def BIST_MBFAIL_element : Fld := ⟨R.BIST_MBFAIL, 21, 3⟩
def BIST_MBFAIL_check : Fld := ⟨R.BIST_MBFAIL, 24, 1⟩
def BIST_MBFAIL_valid : Fld := ⟨R.BIST_MBFAIL, 31, 1⟩
def BIST_ADC_bg : Fld := ⟨R.BIST_ADC, 0, 4⟩
def BIST_ADC_mid : Fld := ⟨R.BIST_ADC, 4, 4⟩
def BIST_ADC_gnd : Fld := ⟨R.BIST_ADC, 8, 4⟩
def BIST_ADC_cal : Fld := ⟨R.BIST_ADC, 12, 4⟩
def BIST_ADC_dac : Fld := ⟨R.BIST_ADC, 16, 4⟩
def PCTRL_en (p : Nat) : Fld := ⟨R.PCTRL p, 0, 1⟩
def PCTRL_srst (p : Nat) : Fld := ⟨R.PCTRL p, 1, 1⟩
def PCTRL_freeze (p : Nat) : Fld := ⟨R.PCTRL p, 2, 1⟩
def PCTRL_perr_clr (p : Nat) : Fld := ⟨R.PCTRL p, 3, 1⟩
def PSTAT_en (p : Nat) : Fld := ⟨R.PSTAT p, 0, 1⟩
def PSTAT_locked (p : Nat) : Fld := ⟨R.PSTAT p, 1, 1⟩
def PSTAT_staged (p : Nat) : Fld := ⟨R.PSTAT p, 2, 1⟩
def PSTAT_busy (p : Nat) : Fld := ⟨R.PSTAT p, 3, 1⟩
def PSTAT_block (p : Nat) : Fld := ⟨R.PSTAT p, 8, 8⟩
def PLOCK_locked (p : Nat) : Fld := ⟨R.PLOCK p, 0, 1⟩
def PLOCK_by_cl (p : Nat) : Fld := ⟨R.PLOCK p, 1, 1⟩
def PLOCK_lockable (p : Nat) : Fld := ⟨R.PLOCK p, 2, 1⟩
def PLOCK_key (p : Nat) : Fld := ⟨R.PLOCK p, 0, 32⟩
def PSTAGE_count (p : Nat) : Fld := ⟨R.PSTAGE p, 0, 10⟩
def PSTAGE_armed (p : Nat) : Fld := ⟨R.PSTAGE p, 16, 1⟩
def PERR_offset (p : Nat) : Fld := ⟨R.PERR p, 0, 12⟩
def PERR_type (p : Nat) : Fld := ⟨R.PERR p, 12, 4⟩
def PERR_src (p : Nat) : Fld := ⟨R.PERR p, 16, 2⟩
def PERR_wr (p : Nat) : Fld := ⟨R.PERR p, 18, 1⟩
def PERR_more (p : Nat) : Fld := ⟨R.PERR p, 30, 1⟩
def PERR_valid (p : Nat) : Fld := ⟨R.PERR p, 31, 1⟩
def SYS_WINERR_addr : Fld := ⟨R.SYS_WINERR, 0, 22⟩
def SYS_WINERR_type : Fld := ⟨R.SYS_WINERR, 22, 4⟩
def SYS_WINERR_src : Fld := ⟨R.SYS_WINERR, 26, 2⟩
def SYS_WINERR_wr : Fld := ⟨R.SYS_WINERR, 28, 1⟩
def SYS_WINERR_more : Fld := ⟨R.SYS_WINERR, 30, 1⟩
def SYS_WINERR_valid : Fld := ⟨R.SYS_WINERR, 31, 1⟩
def CLS_COMMIT_when : Fld := ⟨R.CLS_COMMIT, 0, 2⟩
def CLS_COMMIT_key : Fld := ⟨R.CLS_COMMIT, 16, 16⟩
def CLS_STAT_state : Fld := ⟨R.CLS_STAT, 0, 3⟩
def CLS_STAT_owner : Fld := ⟨R.CLS_STAT, 3, 2⟩
def CLS_STAT_when : Fld := ⟨R.CLS_STAT, 5, 2⟩
def CLS_STAT_late : Fld := ⟨R.CLS_STAT, 7, 1⟩
def CLS_STAT_fail : Fld := ⟨R.CLS_STAT, 8, 1⟩
def CLS_STAT_sysabort : Fld := ⟨R.CLS_STAT, 9, 1⟩
def CLS_STAT_regs : Fld := ⟨R.CLS_STAT, 16, 16⟩
def CLS_FAIL_rule : Fld := ⟨R.CLS_FAIL, 0, 8⟩
def CLS_FAIL_inst : Fld := ⟨R.CLS_FAIL, 8, 16⟩
def CLS_FAIL_phase : Fld := ⟨R.CLS_FAIL, 28, 2⟩
def CLS_ISTAT_rule : Fld := ⟨R.CLS_ISTAT, 0, 8⟩
def CLS_ISTAT_inst : Fld := ⟨R.CLS_ISTAT, 8, 8⟩
def CLS_ISTAT_kind : Fld := ⟨R.CLS_ISTAT, 16, 2⟩
def CLS_ISTAT_count : Fld := ⟨R.CLS_ISTAT, 24, 8⟩
def LNK_ROLE_role (n : Nat) : Fld := ⟨R.LNK_ROLE n, 0, 2⟩
def LNK_ROLE_dir (n : Nat) : Fld := ⟨R.LNK_ROLE n, 4, 2⟩
def LNK_ROLE_bond (n : Nat) : Fld := ⟨R.LNK_ROLE n, 8, 1⟩
def LNK_RATE_rate (n : Nat) : Fld := ⟨R.LNK_RATE n, 0, 3⟩
def LNK_RATE_reverted (n : Nat) : Fld := ⟨R.LNK_RATE n, 8, 1⟩
def LNK_RATE_busy (n : Nat) : Fld := ⟨R.LNK_RATE n, 9, 1⟩
def LNK_CFG_scr_off (n : Nat) : Fld := ⟨R.LNK_CFG n, 0, 1⟩
def LNK_CFG_readapt (n : Nat) : Fld := ⟨R.LNK_CFG n, 1, 1⟩
def LNK_CFG_mon (n : Nat) : Fld := ⟨R.LNK_CFG n, 2, 1⟩
def LNK_CFG_adapt_hold (n : Nat) : Fld := ⟨R.LNK_CFG n, 3, 1⟩
def LNK_CFG_fwd (n : Nat) : Fld := ⟨R.LNK_CFG n, 4, 1⟩
def LNK_CTRL_retrain (n : Nat) : Fld := ⟨R.LNK_CTRL n, 0, 1⟩
def LNK_CTRL_restart (n : Nat) : Fld := ⟨R.LNK_CTRL n, 1, 1⟩
def LNK_CTRL_readapt (n : Nat) : Fld := ⟨R.LNK_CTRL n, 2, 1⟩
def LNK_CTRL_eye_abort (n : Nat) : Fld := ⟨R.LNK_CTRL n, 3, 1⟩
def LNK_CTRL_clrcnt (n : Nat) : Fld := ⟨R.LNK_CTRL n, 4, 1⟩
def LNK_STAT_state (n : Nat) : Fld := ⟨R.LNK_STAT n, 0, 3⟩
def LNK_STAT_fails (n : Nat) : Fld := ⟨R.LNK_STAT n, 3, 5⟩
def LNK_STAT_far_term (n : Nat) : Fld := ⟨R.LNK_STAT n, 8, 1⟩
def LNK_STAT_sym_lock (n : Nat) : Fld := ⟨R.LNK_STAT n, 9, 1⟩
def LNK_STAT_inv (n : Nat) : Fld := ⟨R.LNK_STAT n, 10, 1⟩
def LNK_STAT_ratemis (n : Nat) : Fld := ⟨R.LNK_STAT n, 11, 1⟩
def LNK_STAT_freason (n : Nat) : Fld := ⟨R.LNK_STAT n, 12, 4⟩
def LNK_STAT_xreason (n : Nat) : Fld := ⟨R.LNK_STAT n, 16, 3⟩
def LNK_STAT_end (n : Nat) : Fld := ⟨R.LNK_STAT n, 20, 2⟩
def LNK_STAT_txw (n : Nat) : Fld := ⟨R.LNK_STAT n, 22, 2⟩
def LNK_STAT_rxw (n : Nat) : Fld := ⟨R.LNK_STAT n, 24, 2⟩
def LNK_ADAPT_ctle (n : Nat) : Fld := ⟨R.LNK_ADAPT n, 0, 4⟩
def LNK_ADAPT_conv (n : Nat) : Fld := ⟨R.LNK_ADAPT n, 22, 1⟩
def LNK_ADAPT_frozen (n : Nat) : Fld := ⟨R.LNK_ADAPT n, 23, 1⟩
def LNK_ADAPT_readapt (n : Nat) : Fld := ⟨R.LNK_ADAPT n, 24, 1⟩
def LNK_EYECTL_op (n : Nat) : Fld := ⟨R.LNK_EYECTL n, 0, 2⟩
def LNK_EYECTL_phase (n : Nat) : Fld := ⟨R.LNK_EYECTL n, 8, 6⟩
def LNK_EYECTL_volt (n : Nat) : Fld := ⟨R.LNK_EYECTL n, 16, 7⟩
def LNK_EYECTL_dwell (n : Nat) : Fld := ⟨R.LNK_EYECTL n, 24, 4⟩
def LNK_EYECTL_maxerr (n : Nat) : Fld := ⟨R.LNK_EYECTL n, 28, 4⟩
def LNK_EYESTAT_busy (n : Nat) : Fld := ⟨R.LNK_EYESTAT n, 0, 1⟩
def LNK_EYESTAT_wait (n : Nat) : Fld := ⟨R.LNK_EYESTAT n, 1, 1⟩
def LNK_EYESTAT_done (n : Nat) : Fld := ⟨R.LNK_EYESTAT n, 2, 1⟩
def LNK_EYESTAT_aborted (n : Nat) : Fld := ⟨R.LNK_EYESTAT n, 3, 1⟩
def LNK_EYESTAT_errs (n : Nat) : Fld := ⟨R.LNK_EYESTAT n, 16, 16⟩
def LNK_EYEMAP_top (n : Nat) (k : Nat) : Fld := ⟨R.LNK_EYEMAP n k, 0, 6⟩
def LNK_EYEMAP_bottom (n : Nat) (k : Nat) : Fld := ⟨R.LNK_EYEMAP n k, 8, 6⟩
def LNK_EYEMAP_open (n : Nat) (k : Nat) : Fld := ⟨R.LNK_EYEMAP n k, 15, 1⟩
def PKT_CFG_irq_en : Fld := ⟨R.PKT_CFG, 0, 1⟩
def PKT_CFG_holdoff : Fld := ⟨R.PKT_CFG, 8, 8⟩
def PKT_CFG_repeat : Fld := ⟨R.PKT_CFG, 16, 8⟩
def PKT_VSTAT_good : Fld := ⟨R.PKT_VSTAT, 0, 8⟩
def PKT_VSTAT_cur : Fld := ⟨R.PKT_VSTAT, 8, 8⟩
def PKT_VSTAT_open : Fld := ⟨R.PKT_VSTAT, 16, 1⟩
def PKT_VSTAT_bad : Fld := ⟨R.PKT_VSTAT, 17, 1⟩
def PKT_VSTAT_held : Fld := ⟨R.PKT_VSTAT, 24, 8⟩
def SPD_RXSTAT_synced : Fld := ⟨R.SPD_RXSTAT, 0, 1⟩
def SPD_RXSTAT_miss : Fld := ⟨R.SPD_RXSTAT, 8, 8⟩
def SPD_RXSTAT_last : Fld := ⟨R.SPD_RXSTAT, 16, 16⟩
def SPD_LASTRES_done : Fld := ⟨R.SPD_LASTRES, 0, 7⟩
def SPD_LASTRES_parse : Fld := ⟨R.SPD_LASTRES, 7, 1⟩
def SPD_LASTRES_status : Fld := ⟨R.SPD_LASTRES, 8, 4⟩
def SPD_LASTRES_seq : Fld := ⟨R.SPD_LASTRES, 16, 16⟩
def SPD_CCVSTAT_state : Fld := ⟨R.SPD_CCVSTAT, 0, 2⟩
def SPD_CCVSTAT_reason : Fld := ⟨R.SPD_CCVSTAT, 4, 4⟩
def SPD_CCVSTAT_cfg_ok : Fld := ⟨R.SPD_CCVSTAT, 8, 1⟩
def SPD_CCVSTAT_lockreq : Fld := ⟨R.SPD_CCVSTAT, 9, 1⟩
def SPD_CCVSTAT_count : Fld := ⟨R.SPD_CCVSTAT, 16, 16⟩
def SPD_OTPSTAT_com : Fld := ⟨R.SPD_OTPSTAT, 0, 2⟩
def SPD_OTPSTAT_require : Fld := ⟨R.SPD_OTPSTAT, 2, 1⟩
def SPD_OTPSTAT_auto_lock : Fld := ⟨R.SPD_OTPSTAT, 3, 1⟩
def SPD_OTPSTAT_busy : Fld := ⟨R.SPD_OTPSTAT, 4, 1⟩
def SPD_OTPSTAT_err : Fld := ⟨R.SPD_OTPSTAT, 5, 1⟩
def SPD_OTPSTAT_prog : Fld := ⟨R.SPD_OTPSTAT, 6, 2⟩
def VIN_CFG_swap : Fld := ⟨R.VIN_CFG, 0, 2⟩
def VIN_CFG_hold_lim : Fld := ⟨R.VIN_CFG, 8, 4⟩
def VIN_RATE_max_hz : Fld := ⟨R.VIN_RATE, 0, 9⟩
def VIN_STAT_front : Fld := ⟨R.VIN_STAT, 0, 1⟩
def VIN_STAT_back : Fld := ⟨R.VIN_STAT, 1, 2⟩
def VIN_STAT_fsync : Fld := ⟨R.VIN_STAT, 3, 1⟩
def VIN_STAT_pend : Fld := ⟨R.VIN_STAT, 4, 1⟩
def VIN_STAT_fnum : Fld := ⟨R.VIN_STAT, 8, 8⟩
def CMP_STAT_state : Fld := ⟨R.CMP_STAT, 0, 2⟩
def CMP_STAT_target : Fld := ⟨R.CMP_STAT, 2, 1⟩
def CMP_STAT_inforce : Fld := ⟨R.CMP_STAT, 3, 1⟩
def CMP_STAT_full : Fld := ⟨R.CMP_STAT, 4, 1⟩
def CMP_STAT_wait_rel : Fld := ⟨R.CMP_STAT, 5, 1⟩
def CMP_ECCCAP_word : Fld := ⟨R.CMP_ECCCAP, 0, 21⟩
def CMP_ECCCAP_req : Fld := ⟨R.CMP_ECCCAP, 24, 4⟩
def CMP_ECCCAP_valid : Fld := ⟨R.CMP_ECCCAP, 31, 1⟩
def MSK_RECTLo_x0 (k : Nat) : Fld := ⟨R.MSK_RECTLo k, 0, 11⟩
def MSK_RECTLo_x1 (k : Nat) : Fld := ⟨R.MSK_RECTLo k, 11, 11⟩
def MSK_RECTLo_y0 (k : Nat) : Fld := ⟨R.MSK_RECTLo k, 22, 10⟩
def MSK_RECTHi_y1 (k : Nat) : Fld := ⟨R.MSK_RECTHi k, 0, 10⟩
def MSK_RECTHi_owner (k : Nat) : Fld := ⟨R.MSK_RECTHi k, 10, 8⟩
def MSK_RECTHi_en (k : Nat) : Fld := ⟨R.MSK_RECTHi k, 18, 1⟩
def ASP_CFG_def (a : Nat) : Fld := ⟨R.ASP_CFG a, 0, 1⟩
def ASP_CFG_class (a : Nat) : Fld := ⟨R.ASP_CFG a, 1, 2⟩
def ASP_CFG_policy (a : Nat) : Fld := ⟨R.ASP_CFG a, 3, 2⟩
def ASP_CFG_mode (a : Nat) : Fld := ⟨R.ASP_CFG a, 5, 2⟩
def ASP_CFG_src (a : Nat) : Fld := ⟨R.ASP_CFG a, 7, 2⟩
def ASP_CFG_prio (a : Nat) : Fld := ⟨R.ASP_CFG a, 9, 8⟩
def ASP_CFG_group (a : Nat) : Fld := ⟨R.ASP_CFG a, 17, 4⟩
def ASP_CFG_count_n (a : Nat) : Fld := ⟨R.ASP_CFG a, 21, 11⟩
def ASP_MEMB_kind (a : Nat) : Fld := ⟨R.ASP_MEMB a, 0, 1⟩
def ASP_MEMB_base (a : Nat) : Fld := ⟨R.ASP_MEMB a, 1, 15⟩
def ASP_MEMB_len (a : Nat) : Fld := ⟨R.ASP_MEMB a, 16, 13⟩
def ASP_MEMB_sym (a : Nat) : Fld := ⟨R.ASP_MEMB a, 1, 8⟩
def ASP_FADE_time (a : Nat) : Fld := ⟨R.ASP_FADE a, 0, 16⟩
def ASP_FADE_curve (a : Nat) : Fld := ⟨R.ASP_FADE a, 16, 3⟩
def ASP_FADE_fgrp (a : Nat) : Fld := ⟨R.ASP_FADE a, 19, 4⟩
def ASP_FADE_delay (a : Nat) : Fld := ⟨R.ASP_FADE a, 23, 9⟩
def ASP_SUPV_unv (a : Nat) : Fld := ⟨R.ASP_SUPV a, 0, 2⟩
def ASP_SUPV_proof (a : Nat) : Fld := ⟨R.ASP_SUPV a, 2, 1⟩
def ASP_SUPV_dkreq (a : Nat) : Fld := ⟨R.ASP_SUPV a, 3, 1⟩
def ASP_CTL_en (a : Nat) : Fld := ⟨R.ASP_CTL a, 0, 1⟩
def ASP_CTL_ft (a : Nat) : Fld := ⟨R.ASP_CTL a, 1, 13⟩
def ASP_CTL_cst (a : Nat) : Fld := ⟨R.ASP_CTL a, 16, 12⟩
def ASP_POS_px (a : Nat) : Fld := ⟨R.ASP_POS a, 0, 12⟩
def ASP_POS_py (a : Nat) : Fld := ⟨R.ASP_POS a, 16, 12⟩
def ASP_FST_f (a : Nat) : Fld := ⟨R.ASP_FST a, 0, 13⟩
def ASP_FST_fading (a : Nat) : Fld := ⟨R.ASP_FST a, 13, 1⟩
def ASP_FST_gpend (a : Nat) : Fld := ⟨R.ASP_FST a, 14, 1⟩
def ASP_FST_ps (a : Nat) : Fld := ⟨R.ASP_FST a, 16, 16⟩
def ASP_FLT_faulty (a : Nat) : Fld := ⟨R.ASP_FLT a, 0, 12⟩
def ASP_FLT_unv (a : Nat) : Fld := ⟨R.ASP_FLT a, 12, 12⟩
def ASP_FLT_off (a : Nat) : Fld := ⟨R.ASP_FLT a, 24, 1⟩
def PLC_PWM_div : Fld := ⟨R.PLC_PWM, 0, 8⟩
def PLC_CFG_flat : Fld := ⟨R.PLC_CFG, 0, 1⟩
def PLC_GEOM_slots : Fld := ⟨R.PLC_GEOM, 0, 11⟩
def PLC_GEOM_w : Fld := ⟨R.PLC_GEOM, 11, 5⟩
def PLC_GEOM_cyc : Fld := ⟨R.PLC_GEOM, 16, 3⟩
def PLC_GEOM_tail : Fld := ⟨R.PLC_GEOM, 20, 9⟩
def PLC_PHASE_dark : Fld := ⟨R.PLC_PHASE, 0, 1⟩
def PLC_PHASE_half : Fld := ⟨R.PLC_PHASE, 1, 1⟩
def PLC_PHASE_pos : Fld := ⟨R.PLC_PHASE, 2, 2⟩
def PLC_PHASE_d : Fld := ⟨R.PLC_PHASE, 8, 8⟩
def CHN_CTRL_en (c : Nat) : Fld := ⟨R.CHN_CTRL c, 0, 1⟩
def CHN_CTRL_tiles (c : Nat) : Fld := ⟨R.CHN_CTRL c, 4, 4⟩
def CHN_CFG_retry (c : Nat) : Fld := ⟨R.CHN_CFG c, 0, 3⟩
def CHN_CFG_rto (c : Nat) : Fld := ⟨R.CHN_CFG c, 8, 8⟩
def CHN_CFG_errthr (c : Nat) : Fld := ⟨R.CHN_CFG c, 16, 8⟩
def CHN_STAT_state (c : Nat) : Fld := ⟨R.CHN_STAT c, 0, 2⟩
def CHN_STAT_lock (c : Nat) : Fld := ⟨R.CHN_STAT c, 2, 1⟩
def CHN_STAT_drv (c : Nat) : Fld := ⟨R.CHN_STAT c, 3, 1⟩
def CHN_STAT_byp (c : Nat) : Fld := ⟨R.CHN_STAT c, 4, 1⟩
def CHN_STAT_slow (c : Nat) : Fld := ⟨R.CHN_STAT c, 5, 1⟩
def CHN_STAT_hop (c : Nat) : Fld := ⟨R.CHN_STAT c, 8, 4⟩
def CHN_STAT_cnt (c : Nat) : Fld := ⟨R.CHN_STAT c, 12, 4⟩
def CHN_STAT_ltag (c : Nat) : Fld := ⟨R.CHN_STAT c, 16, 8⟩
def CHN_STAT_lpend (c : Nat) : Fld := ⟨R.CHN_STAT c, 24, 1⟩
def TIL_MAP_en (i : Nat) : Fld := ⟨R.TIL_MAP i, 0, 1⟩
def TIL_MAP_chain (i : Nat) : Fld := ⟨R.TIL_MAP i, 1, 5⟩
def TIL_MAP_pos (i : Nat) : Fld := ⟨R.TIL_MAP i, 6, 3⟩
def TIL_MAP_index (i : Nat) : Fld := ⟨R.TIL_MAP i, 9, 7⟩
def TIL_MAP_rail (i : Nat) : Fld := ⟨R.TIL_MAP i, 16, 2⟩
def TIL_FLAGS_flags (i : Nat) : Fld := ⟨R.TIL_FLAGS i, 0, 8⟩
def TIL_FLAGS_stale (i : Nat) : Fld := ⟨R.TIL_FLAGS i, 8, 1⟩
def TIL_FLAGS_idfail (i : Nat) : Fld := ⟨R.TIL_FLAGS i, 9, 1⟩
def TIL_FLAGS_pnum (i : Nat) : Fld := ⟨R.TIL_FLAGS i, 16, 16⟩
def TIL_RACC_addr (i : Nat) : Fld := ⟨R.TIL_RACC i, 0, 16⟩
def TIL_RACC_wr (i : Nat) : Fld := ⟨R.TIL_RACC i, 16, 1⟩
def TIL_RACC_go (i : Nat) : Fld := ⟨R.TIL_RACC i, 17, 1⟩
def TIL_RACC_busy (i : Nat) : Fld := ⟨R.TIL_RACC i, 18, 1⟩
def TIL_RACC_done (i : Nat) : Fld := ⟨R.TIL_RACC i, 19, 1⟩
def TIL_RACC_astat (i : Nat) : Fld := ⟨R.TIL_RACC i, 20, 3⟩
def TIL_RACC_fail (i : Nat) : Fld := ⟨R.TIL_RACC i, 23, 1⟩
def SUP_CFG_count : Fld := ⟨R.SUP_CFG, 0, 4⟩
def SUP_CFG_stale : Fld := ⟨R.SUP_CFG, 8, 8⟩
def SUP_LAST_tile : Fld := ⟨R.SUP_LAST, 0, 7⟩
def SUP_LAST_pixel : Fld := ⟨R.SUP_LAST, 7, 14⟩
def SUP_LAST_state : Fld := ⟨R.SUP_LAST, 21, 3⟩
def SUP_LAST_aspect : Fld := ⟨R.SUP_LAST, 24, 8⟩
def PRF_CFG_interval : Fld := ⟨R.PRF_CFG, 0, 11⟩
def PRF_GEOM_f : Fld := ⟨R.PRF_GEOM, 0, 8⟩
def PRF_GEOM_cap : Fld := ⟨R.PRF_GEOM, 16, 11⟩
def FLT_RCT_action (k : Nat) : Fld := ⟨R.FLT_RCT k, 0, 3⟩
def FLT_RCT_latch (k : Nat) : Fld := ⟨R.FLT_RCT k, 3, 1⟩
def FLT_RCT_group (k : Nat) : Fld := ⟨R.FLT_RCT k, 4, 4⟩
def FLT_RCT_debounce (k : Nat) : Fld := ⟨R.FLT_RCT k, 8, 8⟩
def FLT_FLR_floor (k : Nat) : Fld := ⟨R.FLT_FLR k, 0, 3⟩
def FLT_FLR_edge (k : Nat) : Fld := ⟨R.FLT_FLR k, 3, 1⟩
def FLT_FLR_kind (k : Nat) : Fld := ⟨R.FLT_FLR k, 4, 4⟩
def FLT_FLR_dmax (k : Nat) : Fld := ⟨R.FLT_FLR k, 8, 8⟩
def FLT_FLR_scope (k : Nat) : Fld := ⟨R.FLT_FLR k, 16, 4⟩
def FLT_ACT_high : Fld := ⟨R.FLT_ACT, 0, 3⟩
def FLT_ACT_mclass : Fld := ⟨R.FLT_ACT, 8, 6⟩
def FLT_ACT_mvalid : Fld := ⟨R.FLT_ACT, 15, 1⟩
def FLT_LOGLo_class (k : Nat) : Fld := ⟨R.FLT_LOGLo k, 0, 6⟩
def FLT_LOGLo_what (k : Nat) : Fld := ⟨R.FLT_LOGLo k, 6, 2⟩
def FLT_LOGLo_action (k : Nat) : Fld := ⟨R.FLT_LOGLo k, 8, 3⟩
def FLT_LOGLo_inst (k : Nat) : Fld := ⟨R.FLT_LOGLo k, 16, 16⟩
def ADC_CFG_ilv : Fld := ⟨R.ADC_CFG, 0, 1⟩
def ADC_CFG_fmask : Fld := ⟨R.ADC_CFG, 4, 4⟩
def ADC_CFG_bgc : Fld := ⟨R.ADC_CFG, 8, 1⟩
def ADC_STAT_rnext : Fld := ⟨R.ADC_STAT, 8, 4⟩
def ADC_RCFG_count : Fld := ⟨R.ADC_RCFG, 0, 5⟩
def ADC_RCFG_trig : Fld := ⟨R.ADC_RCFG, 5, 3⟩
def ADC_RCFG_tsel : Fld := ⟨R.ADC_RCFG, 8, 3⟩
def ADC_RCFG_tmr : Fld := ⟨R.ADC_RCFG, 16, 8⟩
def ADC_ICFG_count : Fld := ⟨R.ADC_ICFG, 0, 3⟩
def ADC_ICFG_trig : Fld := ⟨R.ADC_ICFG, 3, 2⟩
def ADC_ICFG_tsel : Fld := ⟨R.ADC_ICFG, 5, 3⟩
def ADC_ICFG_slot : Fld := ⟨R.ADC_ICFG, 8, 11⟩
def ADC_RSEQ_ch (k : Nat) : Fld := ⟨R.ADC_RSEQ k, 0, 6⟩
def ADC_RSEQ_slice (k : Nat) : Fld := ⟨R.ADC_RSEQ k, 6, 2⟩
def ADC_RSEQ_acq (k : Nat) : Fld := ⟨R.ADC_RSEQ k, 8, 4⟩
def ADC_DATA_code : Fld := ⟨R.ADC_DATA, 0, 12⟩
def ADC_DATA_OVR_IN : Fld := ⟨R.ADC_DATA, 12, 1⟩
def ADC_DATA_UNR_IN : Fld := ⟨R.ADC_DATA, 13, 1⟩
def ADC_DATA_SETTLE : Fld := ⟨R.ADC_DATA, 14, 1⟩
def ADC_DATA_VALID : Fld := ⟨R.ADC_DATA, 15, 1⟩
def ADC_DATA_channel : Fld := ⟨R.ADC_DATA, 16, 6⟩
def ADC_DATA_DOVR : Fld := ⟨R.ADC_DATA, 31, 1⟩
def ADC_CALCFG_period : Fld := ⟨R.ADC_CALCFG, 0, 16⟩
def ADC_CALCFG_drift : Fld := ⟨R.ADC_CALCFG, 16, 8⟩
def ADC_CALCFG_autocal : Fld := ⟨R.ADC_CALCFG, 24, 1⟩
def ADC_CALSTAT_result : Fld := ⟨R.ADC_CALSTAT, 0, 4⟩
def ADC_CALSTAT_slice : Fld := ⟨R.ADC_CALSTAT, 4, 2⟩
def ADC_CALSTAT_aband : Fld := ⟨R.ADC_CALSTAT, 8, 4⟩
def ADC_CALSTAT_done : Fld := ⟨R.ADC_CALSTAT, 16, 16⟩
def ADC_COEF_ofs (k : Nat) : Fld := ⟨R.ADC_COEF k, 0, 8⟩
def ADC_COEF_gain (k : Nat) : Fld := ⟨R.ADC_COEF k, 8, 12⟩
def ADC_COEF_skew (k : Nat) : Fld := ⟨R.ADC_COEF k, 20, 8⟩
def ADC_TRG_en (k : Nat) : Fld := ⟨R.ADC_TRG k, 0, 1⟩
def ADC_TRG_dir (k : Nat) : Fld := ⟨R.ADC_TRG k, 1, 2⟩
def ADC_TRG_act (k : Nat) : Fld := ⟨R.ADC_TRG k, 3, 3⟩
def ADC_TRG_fast (k : Nat) : Fld := ⟨R.ADC_TRG k, 7, 1⟩
def ADC_TRG_ch (k : Nat) : Fld := ⟨R.ADC_TRG k, 8, 6⟩
def ADC_TRG_level (k : Nat) : Fld := ⟨R.ADC_TRG k, 16, 12⟩
def ADC_TRG_hyst (k : Nat) : Fld := ⟨R.ADC_TRG k, 28, 4⟩
def ADC_CAPCFG_ch : Fld := ⟨R.ADC_CAPCFG, 0, 6⟩
def ADC_CAPCFG_fast : Fld := ⟨R.ADC_CAPCFG, 6, 1⟩
def ADC_CAPCFG_post : Fld := ⟨R.ADC_CAPCFG, 16, 12⟩
def ADC_CAPSTAT_trg : Fld := ⟨R.ADC_CAPSTAT, 0, 12⟩
def ADC_CAPSTAT_state : Fld := ⟨R.ADC_CAPSTAT, 16, 2⟩
def ADC_CAPSTAT_pre : Fld := ⟨R.ADC_CAPSTAT, 20, 12⟩
def WIN_CFG_en (k : Nat) : Fld := ⟨R.WIN_CFG k, 0, 1⟩
def WIN_CFG_ch (k : Nat) : Fld := ⟨R.WIN_CFG k, 8, 6⟩
def WIN_CFG_hyst (k : Nat) : Fld := ⟨R.WIN_CFG k, 16, 4⟩
def WIN_LIM_low (k : Nat) : Fld := ⟨R.WIN_LIM k, 0, 12⟩
def WIN_LIM_high (k : Nat) : Fld := ⟨R.WIN_LIM k, 16, 12⟩
def WIN_LAST_value (k : Nat) : Fld := ⟨R.WIN_LAST k, 0, 16⟩
def WIN_LAST_exits (k : Nat) : Fld := ⟨R.WIN_LAST k, 16, 16⟩
def SIO_GCFG_frame : Fld := ⟨R.SIO_GCFG, 0, 14⟩
def SIO_GCFG_tpsen : Fld := ⟨R.SIO_GCFG, 16, 4⟩
def SIO_STAT_cfg : Fld := ⟨R.SIO_STAT, 0, 1⟩
def SIO_STAT_fbin : Fld := ⟨R.SIO_STAT, 1, 1⟩
def SIO_STAT_tpsact : Fld := ⟨R.SIO_STAT, 4, 4⟩
def SIO_STAT_tpsrb : Fld := ⟨R.SIO_STAT, 8, 4⟩
def SIO_INCFG_en (k : Nat) : Fld := ⟨R.SIO_INCFG k, 0, 1⟩
def SIO_INCFG_mode (k : Nat) : Fld := ⟨R.SIO_INCFG k, 1, 1⟩
def SIO_INCFG_safe (k : Nat) : Fld := ⟨R.SIO_INCFG k, 2, 1⟩
def SIO_INCFG_tested (k : Nat) : Fld := ⟨R.SIO_INCFG k, 3, 1⟩
def SIO_INCFG_sa (k : Nat) : Fld := ⟨R.SIO_INCFG k, 4, 2⟩
def SIO_INCFG_sb (k : Nat) : Fld := ⟨R.SIO_INCFG k, 6, 2⟩
def SIO_INCFG_disc (k : Nat) : Fld := ⟨R.SIO_INCFG k, 16, 14⟩
def SIO_INST_val (k : Nat) : Fld := ⟨R.SIO_INST k, 0, 1⟩
def SIO_INST_lat (k : Nat) : Fld := ⟨R.SIO_INST k, 1, 1⟩
def SIO_INST_agree (k : Nat) : Fld := ⟨R.SIO_INST k, 2, 1⟩
def SIO_INST_a (k : Nat) : Fld := ⟨R.SIO_INST k, 3, 1⟩
def SIO_INST_b (k : Nat) : Fld := ⟨R.SIO_INST k, 4, 1⟩
def SIO_INST_fbval (k : Nat) : Fld := ⟨R.SIO_INST k, 5, 1⟩
def SIO_INST_cause (k : Nat) : Fld := ⟨R.SIO_INST k, 6, 2⟩
def SIO_INST_dcnt (k : Nat) : Fld := ⟨R.SIO_INST k, 16, 14⟩
def SIO_OCFG_en (k : Nat) : Fld := ⟨R.SIO_OCFG k, 0, 1⟩
def SIO_OCFG_src (k : Nat) : Fld := ⟨R.SIO_OCFG k, 1, 2⟩
def SIO_OCFG_inp (k : Nat) : Fld := ⟨R.SIO_OCFG k, 4, 3⟩
def SIO_OCFG_test (k : Nat) : Fld := ⟨R.SIO_OCFG k, 7, 1⟩
def SIO_OCFG_width (k : Nat) : Fld := ⟨R.SIO_OCFG k, 8, 4⟩
def SIO_OCFG_tper (k : Nat) : Fld := ⟨R.SIO_OCFG k, 16, 16⟩
def SIO_OST_drv (k : Nat) : Fld := ⟨R.SIO_OST k, 0, 1⟩
def SIO_OST_rb (k : Nat) : Fld := ⟨R.SIO_OST k, 1, 1⟩
def SIO_OST_lat (k : Nat) : Fld := ⟨R.SIO_OST k, 2, 1⟩
def SIO_OST_pulse (k : Nat) : Fld := ⟨R.SIO_OST k, 3, 1⟩
def SIO_OST_cause (k : Nat) : Fld := ⟨R.SIO_OST k, 4, 2⟩
def SIO_OST_retry (k : Nat) : Fld := ⟨R.SIO_OST k, 6, 1⟩
def SIO_OST_tclk (k : Nat) : Fld := ⟨R.SIO_OST k, 16, 16⟩
def CRC_CFG_w (k : Nat) : Fld := ⟨R.CRC_CFG k, 0, 6⟩
def CRC_CFG_refin (k : Nat) : Fld := ⟨R.CRC_CFG k, 8, 1⟩
def CRC_CFG_refout (k : Nat) : Fld := ⟨R.CRC_CFG k, 9, 1⟩
def CRC_CFG_ld (k : Nat) : Fld := ⟨R.CRC_CFG k, 16, 1⟩
def CRC_SKSTAT_state : Fld := ⟨R.CRC_SKSTAT, 0, 2⟩
def CRC_SKSTAT_ccv : Fld := ⟨R.CRC_SKSTAT, 2, 1⟩
def CRC_SKSTAT_ecc : Fld := ⟨R.CRC_SKSTAT, 3, 1⟩
def CRC_SKSTAT_err : Fld := ⟨R.CRC_SKSTAT, 4, 4⟩
def CRC_SKSTAT_desc : Fld := ⟨R.CRC_SKSTAT, 8, 10⟩
def AXO_STAT_role : Fld := ⟨R.AXO_STAT, 0, 2⟩
def AXO_STAT_partner : Fld := ⟨R.AXO_STAT, 2, 1⟩
def AXO_STAT_sync : Fld := ⟨R.AXO_STAT, 3, 1⟩
def AXO_STAT_aligned : Fld := ⟨R.AXO_STAT, 4, 1⟩
def AXO_STAT_ready : Fld := ⟨R.AXO_STAT, 5, 1⟩
def AXO_STAT_restating : Fld := ⟨R.AXO_STAT, 6, 1⟩
def AXO_STAT_afail : Fld := ⟨R.AXO_STAT, 7, 1⟩
def AXO_STAT_pos : Fld := ⟨R.AXO_STAT, 8, 2⟩
def AXO_STAT_markers : Fld := ⟨R.AXO_STAT, 10, 1⟩
def AXO_STAT_tk : Fld := ⟨R.AXO_STAT, 11, 1⟩
def AXO_STAT_cfgmis : Fld := ⟨R.AXO_STAT, 12, 1⟩
def AXO_STAT_pmode : Fld := ⟨R.AXO_STAT, 16, 4⟩
def AXO_STAT_pready : Fld := ⟨R.AXO_STAT, 20, 1⟩
def AXO_DIVCAP_what : Fld := ⟨R.AXO_DIVCAP, 0, 4⟩
def AXO_DIVCAP_chain : Fld := ⟨R.AXO_DIVCAP, 4, 5⟩
def AXO_DIVCAP_pos : Fld := ⟨R.AXO_DIVCAP, 9, 3⟩
def AXO_DIVCAP_row : Fld := ⟨R.AXO_DIVCAP, 12, 7⟩
def AXO_DIVCAP_valid : Fld := ⟨R.AXO_DIVCAP, 31, 1⟩
def LNK_ADAPT_h1 (n : Nat) : Fld := ⟨R.LNK_ADAPT n, 4, 6⟩
def LNK_ADAPT_h2 (n : Nat) : Fld := ⟨R.LNK_ADAPT n, 10, 6⟩
def LNK_ADAPT_h3 (n : Nat) : Fld := ⟨R.LNK_ADAPT n, 16, 6⟩
def ADC_STAT_rbusy : Fld := ⟨R.ADC_STAT, 0, 1⟩
def ADC_STAT_ibusy : Fld := ⟨R.ADC_STAT, 1, 1⟩
def ADC_STAT_ipend : Fld := ⟨R.ADC_STAT, 2, 1⟩
def ADC_STAT_cal_run : Fld := ⟨R.ADC_STAT, 3, 1⟩
def ADC_STAT_cal_pend : Fld := ⟨R.ADC_STAT, 4, 1⟩
def ADC_STAT_cal_ok : Fld := ⟨R.ADC_STAT, 5, 1⟩
def ADC_STAT_fast : Fld := ⟨R.ADC_STAT, 6, 1⟩
def ADC_STAT_rpaused : Fld := ⟨R.ADC_STAT, 7, 1⟩
def ADC_ISEQ_ch (k : Nat) : Fld := ⟨R.ADC_ISEQ k, 0, 6⟩
def ADC_ISEQ_slice (k : Nat) : Fld := ⟨R.ADC_ISEQ k, 6, 2⟩
def ADC_ISEQ_acq (k : Nat) : Fld := ⟨R.ADC_ISEQ k, 8, 4⟩
def SYS_STRES_complete : Fld := ⟨R.SYS_STRES, 31, 1⟩
def SYS_STDETAIL_step : Fld := ⟨R.SYS_STDETAIL, 12, 4⟩
def SYS_STDETAIL_inst : Fld := ⟨R.SYS_STDETAIL, 0, 12⟩
def SYS_HOLDCAUSE_code : Fld := ⟨R.SYS_HOLDCAUSE, 0, 8⟩
def SYS_HOLDCAUSE_detail : Fld := ⟨R.SYS_HOLDCAUSE, 8, 16⟩
def SYS_HOLDCAUSE_more : Fld := ⟨R.SYS_HOLDCAUSE, 31, 1⟩
def SYS_HOSTTO_ms : Fld := ⟨R.SYS_HOSTTO, 0, 10⟩
def SYS_CFGTO_ms : Fld := ⟨R.SYS_CFGTO, 0, 16⟩
def SYS_FBSTAT_valid : Fld := ⟨R.SYS_FBSTAT, 0, 1⟩
def SYS_FBSTAT_check : Fld := ⟨R.SYS_FBSTAT, 4, 4⟩
def SYS_FBSTAT_faulty : Fld := ⟨R.SYS_FBSTAT, 8, 8⟩
def SYS_RSTCNT_cnt : Fld := ⟨R.SYS_RSTCNT, 0, 16⟩
def SYS_LOCK_cl : Fld := ⟨R.SYS_LOCK, 0, 1⟩
def SYS_ID1_serialHi : Fld := ⟨R.SYS_ID1, 0, 16⟩
def SYS_ID1_grade : Fld := ⟨R.SYS_ID1, 16, 4⟩
def SYS_ID1_rev : Fld := ⟨R.SYS_ID1, 20, 8⟩
def CLS_PNOW_all : Fld := ⟨R.CLS_PNOW, 0, 32⟩
def CLS_PTGT_all : Fld := ⟨R.CLS_PTGT, 0, 32⟩
def CLS_APPLY_all : Fld := ⟨R.CLS_APPLY, 0, 32⟩
def CLS_COUNT_applied : Fld := ⟨R.CLS_COUNT, 0, 16⟩
def CLS_COUNT_failed : Fld := ⟨R.CLS_COUNT, 16, 16⟩
def CLK_FCORE_n : Fld := ⟨R.CLK_FCORE, 0, 16⟩
def CLK_FCHAIN_n : Fld := ⟨R.CLK_FCHAIN, 0, 16⟩
def CLK_FCONV_n : Fld := ⟨R.CLK_FCONV, 0, 16⟩
def CLK_FLTX_n : Fld := ⟨R.CLK_FLTX, 0, 16⟩
def CLK_LOSS_core : Fld := ⟨R.CLK_LOSS, 0, 8⟩
def CLK_LOSS_chain : Fld := ⟨R.CLK_LOSS, 8, 8⟩
def CLK_LOSS_conv : Fld := ⟨R.CLK_LOSS, 16, 8⟩
def CLK_LOSS_ltx : Fld := ⟨R.CLK_LOSS, 24, 8⟩
def LNK_ERRCNT_code (n : Nat) : Fld := ⟨R.LNK_ERRCNT n, 0, 16⟩
def LNK_ERRCNT_disp (n : Nat) : Fld := ⟨R.LNK_ERRCNT n, 16, 16⟩
def LNK_EBCNT_ins (n : Nat) : Fld := ⟨R.LNK_EBCNT n, 0, 8⟩
def LNK_EBCNT_del (n : Nat) : Fld := ⟨R.LNK_EBCNT n, 8, 8⟩
def LNK_EBCNT_ovf (n : Nat) : Fld := ⟨R.LNK_EBCNT n, 16, 8⟩
def LNK_TRCNT_act (n : Nat) : Fld := ⟨R.LNK_TRCNT n, 0, 16⟩
def LNK_TRCNT_fail (n : Nat) : Fld := ⟨R.LNK_TRCNT n, 16, 16⟩
def LNK_EYEMRG_width (n : Nat) : Fld := ⟨R.LNK_EYEMRG n, 0, 7⟩
def LNK_EYEMRG_height (n : Nat) : Fld := ⟨R.LNK_EYEMRG n, 8, 7⟩
def LNK_EYEMRG_valid (n : Nat) : Fld := ⟨R.LNK_EYEMRG n, 15, 1⟩
def LNK_EYETHR_width (n : Nat) : Fld := ⟨R.LNK_EYETHR n, 0, 7⟩
def LNK_EYETHR_height (n : Nat) : Fld := ⟨R.LNK_EYETHR n, 8, 7⟩
def LNK_FWDDROP_drop (n : Nat) : Fld := ⟨R.LNK_FWDDROP n, 0, 16⟩
def LNK_FWDDROP_ebp (n : Nat) : Fld := ⟨R.LNK_FWDDROP n, 16, 16⟩
def PKT_POS_pos : Fld := ⟨R.PKT_POS, 0, 1⟩
def PKT_POS_valid : Fld := ⟨R.PKT_POS, 1, 1⟩
def PKT_DISC_crc : Fld := ⟨R.PKT_DISC, 0, 16⟩
def PKT_DISC_frame : Fld := ⟨R.PKT_DISC, 16, 16⟩
def PKT_MALF_malf : Fld := ⟨R.PKT_MALF, 0, 16⟩
def PKT_MALF_tag : Fld := ⟨R.PKT_MALF, 16, 16⟩
def PKT_OVR_video : Fld := ⟨R.PKT_OVR, 0, 8⟩
def PKT_OVR_update : Fld := ⟨R.PKT_OVR, 8, 8⟩
def PKT_OVR_safe : Fld := ⟨R.PKT_OVR, 16, 8⟩
def PKT_OVR_pair : Fld := ⟨R.PKT_OVR, 24, 4⟩
def PKT_OVR_ret : Fld := ⟨R.PKT_OVR, 28, 4⟩
def PKT_TAGS_now : Fld := ⟨R.PKT_TAGS, 0, 8⟩
def PKT_TAGS_high : Fld := ⟨R.PKT_TAGS, 8, 8⟩
def PKT_VCNT_good : Fld := ⟨R.PKT_VCNT, 0, 16⟩
def PKT_VCNT_dropped : Fld := ⟨R.PKT_VCNT, 16, 16⟩
def PKT_IRQSEQ_seq : Fld := ⟨R.PKT_IRQSEQ, 0, 8⟩
def PKT_SPICNT_ok : Fld := ⟨R.PKT_SPICNT, 0, 16⟩
def PKT_SPICNT_err : Fld := ⟨R.PKT_SPICNT, 16, 16⟩
def SPD_RXCFG_window : Fld := ⟨R.SPD_RXCFG, 0, 8⟩
def SPD_RXCFG_maxmiss : Fld := ⟨R.SPD_RXCFG, 8, 8⟩
def SPD_TXCFG_period : Fld := ⟨R.SPD_TXCFG, 0, 8⟩
def SPD_CCVCFG_recheck : Fld := ⟨R.SPD_CCVCFG, 0, 16⟩
def SPD_DISC_conn : Fld := ⟨R.SPD_DISC, 0, 8⟩
def SPD_DISC_form : Fld := ⟨R.SPD_DISC, 8, 8⟩
def SPD_DISC_crc : Fld := ⟨R.SPD_DISC, 16, 8⟩
def SPD_DISC_seq : Fld := ⟨R.SPD_DISC, 24, 8⟩
def SPD_LOST_gap : Fld := ⟨R.SPD_LOST, 0, 16⟩
def SPD_LOST_late : Fld := ⟨R.SPD_LOST, 16, 16⟩
def SPD_TXSEQ_seq : Fld := ⟨R.SPD_TXSEQ, 0, 16⟩
def VIN_CNT_swaps : Fld := ⟨R.VIN_CNT, 0, 16⟩
def VIN_CNT_superseded : Fld := ⟨R.VIN_CNT, 16, 16⟩
def VIN_MISS_nosync : Fld := ⟨R.VIN_MISS, 0, 16⟩
def VIN_MISS_early : Fld := ⟨R.VIN_MISS, 16, 16⟩
def CMP_PASS_done : Fld := ⟨R.CMP_PASS, 0, 16⟩
def CMP_PASS_abandoned : Fld := ⟨R.CMP_PASS, 16, 16⟩
def CMP_LAST_composed : Fld := ⟨R.CMP_LAST, 0, 14⟩
def CMP_LAST_copied : Fld := ⟨R.CMP_LAST, 16, 14⟩
def CMP_LASTT_t : Fld := ⟨R.CMP_LASTT, 0, 24⟩
def CMP_ARB_age : Fld := ⟨R.CMP_ARB, 0, 13⟩
def CMP_WAIT_longest : Fld := ⟨R.CMP_WAIT, 0, 16⟩
def CMP_WAIT_aged : Fld := ⟨R.CMP_WAIT, 16, 16⟩
def CMP_SCRUB_interval : Fld := ⟨R.CMP_SCRUB, 0, 13⟩
def CMP_ECCCFG_thr : Fld := ⟨R.CMP_ECCCFG, 0, 8⟩
def CMP_SCRPASS_passes : Fld := ⟨R.CMP_SCRPASS, 0, 16⟩
def CMP_SCRPASS_errs : Fld := ⟨R.CMP_SCRPASS, 16, 16⟩
def CMP_UECNT_data : Fld := ⟨R.CMP_UECNT, 0, 16⟩
def CMP_UECNT_table : Fld := ⟨R.CMP_UECNT, 16, 16⟩
def CMP_ECCSYN_syn : Fld := ⟨R.CMP_ECCSYN, 0, 8⟩
def MSK_STAT_busy : Fld := ⟨R.MSK_STAT, 0, 1⟩
def MSK_STAT_off : Fld := ⟨R.MSK_STAT, 1, 1⟩
def MSK_STAT_rows : Fld := ⟨R.MSK_STAT, 16, 16⟩
def MSK_GEN_applied : Fld := ⟨R.MSK_GEN, 0, 16⟩
def MSK_GEN_inforce : Fld := ⟨R.MSK_GEN, 16, 16⟩
def MSK_CNT_inforce : Fld := ⟨R.MSK_CNT, 0, 16⟩
def MSK_CNT_folded : Fld := ⟨R.MSK_CNT, 16, 16⟩
def MSK_LATE_late : Fld := ⟨R.MSK_LATE, 0, 16⟩
def ASP_NUM_def : Fld := ⟨R.ASP_NUM, 0, 8⟩
def ASP_NUM_fading : Fld := ⟨R.ASP_NUM, 8, 8⟩
def CAL_CFG_byp : Fld := ⟨R.CAL_CFG, 0, 1⟩
def CAL_TCFG_dwell : Fld := ⟨R.CAL_TCFG, 0, 8⟩
def CAL_TCFG_q0 : Fld := ⟨R.CAL_TCFG, 8, 7⟩
def CAL_TCHG_n : Fld := ⟨R.CAL_TCHG, 0, 16⟩
def PLC_RUN_last : Fld := ⟨R.PLC_RUN, 0, 16⟩
def PLC_RUN_longest : Fld := ⟨R.PLC_RUN, 16, 16⟩
def PLC_CNT_done : Fld := ⟨R.PLC_CNT, 0, 16⟩
def PLC_CNT_changes : Fld := ⟨R.PLC_CNT, 16, 16⟩
def PLC_WRAP_n : Fld := ⟨R.PLC_WRAP, 0, 16⟩
def PLC_PEAK_lit (k : Nat) : Fld := ⟨R.PLC_PEAK k, 0, 16⟩
def PLC_PEAK_dark (k : Nat) : Fld := ⟨R.PLC_PEAK k, 16, 16⟩
def CHN_LTAG_ltag : Fld := ⟨R.CHN_LTAG, 0, 8⟩
def CHN_LTAG_target : Fld := ⟨R.CHN_LTAG, 16, 16⟩
def CHN_ERR_pairs (c : Nat) : Fld := ⟨R.CHN_ERR c, 0, 16⟩
def CHN_ERR_items (c : Nat) : Fld := ⟨R.CHN_ERR c, 16, 16⟩
def CHN_RETX_again (c : Nat) : Fld := ⟨R.CHN_RETX c, 0, 16⟩
def CHN_RETX_failed (c : Nat) : Fld := ⟨R.CHN_RETX c, 16, 16⟩
def CHN_SENSE_blocks (c : Nat) : Fld := ⟨R.CHN_SENSE c, 0, 16⟩
def CHN_SENSE_segs (c : Nat) : Fld := ⟨R.CHN_SENSE c, 16, 16⟩
def CHN_RTT_last (c : Nat) : Fld := ⟨R.CHN_RTT c, 0, 12⟩
def CHN_RTT_longest (c : Nat) : Fld := ⟨R.CHN_RTT c, 16, 12⟩
def CHN_LOAD_last (c : Nat) : Fld := ⟨R.CHN_LOAD c, 0, 16⟩
def CHN_LOAD_highest (c : Nat) : Fld := ⟨R.CHN_LOAD c, 16, 16⟩
def TIL_STAT_headroom (i : Nat) : Fld := ⟨R.TIL_STAT i, 0, 16⟩
def TIL_STAT_temp (i : Nat) : Fld := ⟨R.TIL_STAT i, 16, 16⟩
def TIL_SYNC_ltag (i : Nat) : Fld := ⟨R.TIL_SYNC i, 0, 8⟩
def TIL_SYNC_offset (i : Nat) : Fld := ⟨R.TIL_SYNC i, 8, 11⟩
def TIL_SYNC_fails (i : Nat) : Fld := ⟨R.TIL_SYNC i, 24, 8⟩
def SUP_STAT_used : Fld := ⟨R.SUP_STAT, 0, 13⟩
def SUP_STAT_ovf : Fld := ⟨R.SUP_STAT, 16, 1⟩
def SUP_CNT0_open : Fld := ⟨R.SUP_CNT0, 0, 16⟩
def SUP_CNT0_short : Fld := ⟨R.SUP_CNT0, 16, 16⟩
def SUP_CNT1_stuck : Fld := ⟨R.SUP_CNT1, 0, 16⟩
def SUP_CNT1_sensefail : Fld := ⟨R.SUP_CNT1, 16, 16⟩
def SUP_CNT2_unv : Fld := ⟨R.SUP_CNT2, 0, 21⟩
def SUP_CNT3_exempt : Fld := ⟨R.SUP_CNT3, 0, 21⟩
def SUP_CONF_conf : Fld := ⟨R.SUP_CONF, 0, 16⟩
def SUP_CONF_glare : Fld := ⟨R.SUP_CONF, 16, 16⟩
def SUP_JRUN_t : Fld := ⟨R.SUP_JRUN, 0, 16⟩
def SUP_SKIP_rows : Fld := ⟨R.SUP_SKIP, 0, 16⟩
def SUP_SKIP_proto : Fld := ⟨R.SUP_SKIP, 16, 16⟩
def PRF_CNT_ok : Fld := ⟨R.PRF_CNT, 0, 16⟩
def PRF_CNT_abandoned : Fld := ⟨R.PRF_CNT, 16, 16⟩
def PRF_PIX_n : Fld := ⟨R.PRF_PIX, 0, 21⟩
def PRF_UNV0_n : Fld := ⟨R.PRF_UNV0, 0, 21⟩
def PRF_UNV1_n : Fld := ⟨R.PRF_UNV1, 0, 21⟩
def PRF_UNV2_n : Fld := ⟨R.PRF_UNV2, 0, 21⟩
def PRF_LOW_pixels : Fld := ⟨R.PRF_LOW, 0, 16⟩
def PRF_LOW_frames : Fld := ⟨R.PRF_LOW, 16, 16⟩
def PRF_SUR_high : Fld := ⟨R.PRF_SUR, 0, 16⟩
def PRF_SUR_low : Fld := ⟨R.PRF_SUR, 16, 16⟩
def PRF_REPL_n : Fld := ⟨R.PRF_REPL, 0, 16⟩
def PRF_REPL_pixels : Fld := ⟨R.PRF_REPL, 16, 16⟩
def FLT_CNT_actions : Fld := ⟨R.FLT_CNT, 0, 16⟩
def FLT_CNT_cleared : Fld := ⟨R.FLT_CNT, 16, 16⟩
def FLT_LOGPTR_next : Fld := ⟨R.FLT_LOGPTR, 0, 4⟩
def FLT_LOGPTR_written : Fld := ⟨R.FLT_LOGPTR, 8, 8⟩
def FLT_GOFF_off : Fld := ⟨R.FLT_GOFF, 0, 16⟩
def ADC_CNT_abort : Fld := ⟨R.ADC_CNT, 0, 8⟩
def ADC_CNT_rmiss : Fld := ⟨R.ADC_CNT, 8, 8⟩
def ADC_CNT_imiss : Fld := ⟨R.ADC_CNT, 16, 8⟩
def ADC_CNT_dovr : Fld := ⟨R.ADC_CNT, 24, 8⟩
def ADC_RNG_ovr : Fld := ⟨R.ADC_RNG, 0, 16⟩
def ADC_RNG_unr : Fld := ⟨R.ADC_RNG, 16, 16⟩
def ADC_BURST_taken : Fld := ⟨R.ADC_BURST, 0, 16⟩
def ADC_BURST_lost : Fld := ⟨R.ADC_BURST, 16, 16⟩
def WIN_STAT_out : Fld := ⟨R.WIN_STAT, 0, 16⟩
def BAL_CTRL_en : Fld := ⟨R.BAL_CTRL, 0, 1⟩
def BAL_CFG_win : Fld := ⟨R.BAL_CFG, 0, 8⟩
def BAL_CFG_nmin : Fld := ⟨R.BAL_CFG, 8, 8⟩
def BAL_STAT_judging : Fld := ⟨R.BAL_STAT, 0, 1⟩
def BAL_STAT_mirror : Fld := ⟨R.BAL_STAT, 1, 1⟩
def BAL_STAT_windows : Fld := ⟨R.BAL_STAT, 8, 8⟩
def BAL_CNT_used : Fld := ⟨R.BAL_CNT, 0, 16⟩
def BAL_CNT_excl : Fld := ⟨R.BAL_CNT, 16, 16⟩
def BAL_SENSE_zero (g : Nat) : Fld := ⟨R.BAL_SENSE g, 0, 12⟩
def BAL_SENSE_scale (g : Nat) : Fld := ⟨R.BAL_SENSE g, 16, 16⟩
def BAL_THR_thr (g : Nat) : Fld := ⟨R.BAL_THR g, 0, 16⟩
def BAL_WORST_m (g : Nat) : Fld := ⟨R.BAL_WORST g, 0, 16⟩
def BAL_WORST_group (g : Nat) : Fld := ⟨R.BAL_WORST g, 16, 5⟩
def BAL_WORST_dark (g : Nat) : Fld := ⟨R.BAL_WORST g, 21, 1⟩
def BAL_LAST_im (g : Nat) : Fld := ⟨R.BAL_LAST g, 0, 16⟩
def BAL_LAST_pred (g : Nat) : Fld := ⟨R.BAL_LAST g, 16, 16⟩
def SPL_GCFG_limn : Fld := ⟨R.SPL_GCFG, 0, 8⟩
def SPL_GCFG_twarn : Fld := ⟨R.SPL_GCFG, 16, 8⟩
def SPL_TEMP_s0 : Fld := ⟨R.SPL_TEMP, 0, 8⟩
def SPL_TEMP_s1 : Fld := ⟨R.SPL_TEMP, 8, 8⟩
def SPL_TEMP_warn : Fld := ⟨R.SPL_TEMP, 16, 1⟩
def SPL_TEMP_nodata : Fld := ⟨R.SPL_TEMP, 17, 1⟩
def SPL_CNT_hi : Fld := ⟨R.SPL_CNT, 0, 16⟩
def SPL_CNT_lo : Fld := ⟨R.SPL_CNT, 16, 16⟩
def SPL_CTRL_en (g : Nat) : Fld := ⟨R.SPL_CTRL g, 0, 1⟩
def SPL_TGT_tgt (g : Nat) : Fld := ⟨R.SPL_TGT g, 0, 12⟩
def SPL_TGT_band (g : Nat) : Fld := ⟨R.SPL_TGT g, 16, 12⟩
def SPL_LOOP_kg (g : Nat) : Fld := ⟨R.SPL_LOOP g, 0, 8⟩
def SPL_LOOP_up (g : Nat) : Fld := ⟨R.SPL_LOOP g, 8, 8⟩
def SPL_LOOP_dn (g : Nat) : Fld := ⟨R.SPL_LOOP g, 16, 8⟩
def SPL_LIM_lo (g : Nat) : Fld := ⟨R.SPL_LIM g, 0, 10⟩
def SPL_LIM_hi (g : Nat) : Fld := ⟨R.SPL_LIM g, 16, 10⟩
def SPL_INIT_code (g : Nat) : Fld := ⟨R.SPL_INIT g, 0, 10⟩
def SPL_STAT_code (g : Nat) : Fld := ⟨R.SPL_STAT g, 0, 10⟩
def SPL_STAT_at_hi (g : Nat) : Fld := ⟨R.SPL_STAT g, 12, 1⟩
def SPL_STAT_at_lo (g : Nat) : Fld := ⟨R.SPL_STAT g, 13, 1⟩
def SPL_STAT_nodata (g : Nat) : Fld := ⟨R.SPL_STAT g, 14, 1⟩
def SPL_STAT_limit (g : Nat) : Fld := ⟨R.SPL_STAT g, 15, 1⟩
def SPL_STAT_h (g : Nat) : Fld := ⟨R.SPL_STAT g, 16, 16⟩
def SPL_NEEDY_tile (g : Nat) : Fld := ⟨R.SPL_NEEDY g, 0, 7⟩
def SPL_NEEDY_valid (g : Nat) : Fld := ⟨R.SPL_NEEDY g, 7, 1⟩
def SIO_GCFG_w0 : Fld := ⟨R.SIO_GCFG, 24, 2⟩
def SIO_OCTL_req : Fld := ⟨R.SIO_OCTL, 0, 8⟩
def SIO_CNT_disc : Fld := ⟨R.SIO_CNT, 0, 8⟩
def SIO_CNT_echo : Fld := ⟨R.SIO_CNT, 8, 8⟩
def SIO_CNT_out : Fld := ⟨R.SIO_CNT, 16, 8⟩
def SIO_CNT_missed : Fld := ⟨R.SIO_CNT, 24, 8⟩
def SIO_TCNT_done : Fld := ⟨R.SIO_TCNT, 0, 16⟩
def SIO_TCNT_discarded : Fld := ⟨R.SIO_TCNT, 16, 16⟩
def CRC_SKCNT_ok : Fld := ⟨R.CRC_SKCNT, 0, 16⟩
def CRC_SKCNT_err : Fld := ⟨R.CRC_SKCNT, 16, 16⟩
def CRC_SKPOS_addr : Fld := ⟨R.CRC_SKPOS, 0, 24⟩
def CRC_CCVRUN_done : Fld := ⟨R.CRC_CCVRUN, 0, 16⟩
def CRC_CCVRUN_aband : Fld := ⟨R.CRC_CCVRUN, 16, 16⟩
def CRC_STAT_clash : Fld := ⟨R.CRC_STAT, 0, 1⟩
def AXO_CFG_pair : Fld := ⟨R.AXO_CFG, 0, 1⟩
def AXO_CFG_hbmiss : Fld := ⟨R.AXO_CFG, 4, 4⟩
def AXO_CFG_alone : Fld := ⟨R.AXO_CFG, 16, 16⟩
def AXO_HB_hseq : Fld := ⟨R.AXO_HB, 0, 16⟩
def AXO_HB_missed : Fld := ⟨R.AXO_HB, 16, 16⟩
def AXO_TKCNT_takeovers : Fld := ⟨R.AXO_TKCNT, 0, 8⟩
def AXO_TKCNT_cold : Fld := ⟨R.AXO_TKCNT, 8, 8⟩
def AXO_TKCNT_p1 : Fld := ⟨R.AXO_TKCNT, 16, 16⟩
def AXO_RSTATE_block : Fld := ⟨R.AXO_RSTATE, 0, 8⟩
def AXO_RSTATE_offset : Fld := ⟨R.AXO_RSTATE, 8, 16⟩
def AXO_DIVCFG_slipmax : Fld := ⟨R.AXO_DIVCFG, 0, 8⟩
def AXO_PSYNC_offset : Fld := ⟨R.AXO_PSYNC, 0, 8⟩
def AXO_PSYNC_errs : Fld := ⟨R.AXO_PSYNC, 16, 16⟩
def AXO_CNT_unnamed : Fld := ⟨R.AXO_CNT, 0, 16⟩
def AXO_CNT_restatements : Fld := ⟨R.AXO_CNT, 16, 16⟩
def AXO_PSDLY_dly : Fld := ⟨R.AXO_PSDLY, 0, 8⟩

end F

end Sys2Proof.Machine
end

