-- ==== Sys2Proof/Machine/Kv.lean ====
section
/-! DEFINITION. Sparse tables: lists of key and value pairs in rising order of key, and the byte memory in canonical form. -/

namespace Sys2Proof.Machine

/-- The value listed for key `a`. -/
def kvFind {α : Type} : List (Nat × α) → Nat → Option α
  | [], _ => none
  | (k, v) :: r, a => if a = k then some v else kvFind r a

/-- The table with `x` listed for key `a`. -/
def kvPut {α : Type} : List (Nat × α) → Nat → α → List (Nat × α)
  | [], a, x => [(a, x)]
  | (k, v) :: r, a, x =>
    if a = k then (a, x) :: r else if a < k then (a, x) :: (k, v) :: r else (k, v) :: kvPut r a x

/-- The number listed for key `a`, 0 where none is. -/
def kvNat (t : List (Nat × Nat)) (a : Nat) : Nat := (kvFind t a).getD 0

/-- A byte memory, in canonical form: addresses strictly rising, and no entry equal to 0, which is what an unlisted address
reads as (R35: at the end of SELFTEST every SRAM word is zero). -/
abbrev Memory := List Host.Cell

/-- Whether the entries lie strictly above `lo`, rise, and hold no zero. -/
def memWfFrom : Nat → Memory → Bool
  | _, [] => true
  | lo, (k, v) :: r => decide (lo ≤ k) && (v != 0) && memWfFrom (k + 1) r

/-- The canonical form of a memory. -/
def Memory.wf (m : Memory) : Bool := memWfFrom 0 m

/-- One byte of a memory. -/
def memByte : Memory → Nat → Byte
  | [], _ => 0
  | (k, v) :: r, a => if a = k then v else if a < k then 0 else memByte r a

/-- The memory with byte `x` at `a`. -/
def memPut : Memory → Nat → Byte → Memory
  | [], a, x => if x = 0 then [] else [(a, x)]
  | (k, v) :: r, a, x =>
    if a = k then (if x = 0 then r else (a, x) :: r)
    else if a < k then (if x = 0 then (k, v) :: r else (a, x) :: (k, v) :: r)
    else (k, v) :: memPut r a x

/-- `n` bytes of a memory from `a` up. -/
def memBytes (m : Memory) (a n : Nat) : List Byte := (List.range n).map fun i => memByte m (a + i)

/-- The little-endian number of `n` bytes from `a` up. -/
def memLe (m : Memory) (a n : Nat) : Nat := leNat (memBytes m a n)

/-- The memory with the bytes of a list written from `a` up. -/
def memPutBytes (m : Memory) (a : Nat) : List Byte → Memory
  | [] => m
  | b :: bs => memPutBytes (memPut m a b) (a + 1) bs

/-- The memory with `n` bytes of a number written from `a` up, lowest first. -/
def memPutLe (m : Memory) (a n v : Nat) : Memory := memPutBytes m a (leBytes n v)

/-- The memory with the `n` bytes from `a` up set to zero. -/
def memZero (m : Memory) (a n : Nat) : Memory := m.filter fun c => c.1 < a || a + n ≤ c.1

end Sys2Proof.Machine
end

