-- ==== Sys2Proof/Machine/RegMap.lean ====
section
/-! DEFINITION. The register map: every register of the 31 pages with its offset, its reset value, the access type of each
of its bits (R57 to R69 and the register tables of every chapter), and the values that read back changed. -/

namespace Sys2Proof.Machine

/-- A field rule of the form "reads back as" (R78: such a field saturates or wraps as its table states). -/
inductive Norm where
  /-- The field is held between two values. -/
  | clamp (lo w mn mx : Nat)
  /-- A value at or above `k` reads back as `r`. -/
  | above (lo w k r : Nat)
  /-- The value `k` reads back as `r`. -/
  | eq (lo w k r : Nat)
  /-- Only 0 and `k` are allowed; any other value reads back as 0. -/
  | only (lo w k : Nat)
deriving DecidableEq, Repr

/-- One register, or `cnt` equal registers `stride` bytes apart, of a page: offset, reset value, and one mask of bits for
each access type (R59). A bit in no mask is reserved (R9). -/
structure RegSpec where
  name   : String
  off    : Nat
  cnt    : Nat := 1
  stride : Nat := 4
  reset  : Nat := 0
  rw     : Nat := 0
  rwl    : Nat := 0
  rws    : Nat := 0
  wo     : Nat := 0
  w1c    : Nat := 0
  ro     : Nat := 0
  norms  : List Norm := []
deriving DecidableEq, Repr

/-- Every bit of a word. -/
def full : Nat := 0xFFFFFFFF

/-- The common page header (R57, R63 to R68), but for PID and PLOCK, whose reset differs by page. -/
def headerRegs : List RegSpec := [
  { name := "PID", off := 0x000, ro := full },
  { name := "PVER", off := 0x004, reset := 1, ro := full },
  { name := "PCTRL", off := 0x008, reset := 1, rwl := 0x1, wo := 0xA, rw := 0x4 },
  { name := "PSTAT", off := 0x00C, reset := 1, ro := full },
  { name := "PIRQ_RAW", off := 0x010, ro := full },
  { name := "PIRQ_EN", off := 0x014, rw := full },
  { name := "PIRQ_STAT", off := 0x018, w1c := full },
  { name := "PIRQ_SET", off := 0x01C, wo := full },
  { name := "PLOCK", off := 0x020, ro := 0x7, wo := full },
  { name := "PSTAGE", off := 0x024, ro := full },
  { name := "PERR", off := 0x028, ro := full }]

/-- SYS (R51, R81). -/
def sysRegs : List RegSpec := [
  { name := "SYS_ID0", off := 0x040, ro := full },
  { name := "SYS_ID1", off := 0x044, ro := full },
  { name := "SYS_STAT", off := 0x048, ro := full },
  { name := "SYS_MODEREQ", off := 0x04C, wo := 0xF },
  { name := "SYS_RSTCAUSE", off := 0x050, reset := 1, w1c := 0x1F, ro := 0xFF0000 },
  { name := "SYS_RSTCNT", off := 0x054, ro := full },
  { name := "SYS_HOLDCAUSE", off := 0x058, ro := full },
  { name := "SYS_STRES", off := 0x05C, ro := full },
  { name := "SYS_STDETAIL", off := 0x060, ro := full },
  { name := "SYS_ACK", off := 0x064, wo := full },
  { name := "SYS_ACKSTAT", off := 0x068, reset := 0x200, ro := full },
  { name := "SYS_HOSTTO", off := 0x06C, reset := 0x64, rwl := 0x3FF, norms := [.clamp 0 10 10 1000] },
  { name := "SYS_CFGTO", off := 0x070, reset := 0x3E8, rwl := 0xFFFF },
  { name := "SYS_RESET", off := 0x074, wo := full },
  { name := "SYS_FBSTAT", off := 0x078, ro := full },
  { name := "SYS_WINBASE", off := 0x100, rw := 0x1F },
  { name := "SYS_OWN0", off := 0x104, reset := 0xFFFFFFFF, rwl := full },
  { name := "SYS_OWN1", off := 0x108, reset := 0x3FFFFFFF, rwl := 0x3FFFFFFF },
  { name := "SYS_LOCK", off := 0x10C, ro := full },
  { name := "SYS_LOCKPG", off := 0x110, ro := full },
  { name := "SYS_IRQSUM", off := 0x114, ro := full },
  { name := "SYS_WINERR", off := 0x118, ro := full }]

/-- CLK (01_architecture.md, CLK register page). -/
def clkRegs : List RegSpec := [
  { name := "CLK_STAT", off := 0x040, ro := full },
  { name := "CLK_FCORE", off := 0x044, ro := full },
  { name := "CLK_FCHAIN", off := 0x048, ro := full },
  { name := "CLK_FCONV", off := 0x04C, ro := full },
  { name := "CLK_FLTX", off := 0x050, ro := full },
  { name := "CLK_XERR", off := 0x054, w1c := 0x3FF },
  { name := "CLK_LOSS", off := 0x058, ro := full }]

/-- BIST (R55, R56): fifteen read-only words. -/
def bistRegs : List RegSpec := [
  { name := "BIST_TIME0, BIST_TIME1", off := 0x040, cnt := 2, ro := full },
  { name := "BIST_TIME2", off := 0x048, ro := 0xFFFF01FF },
  { name := "BIST_SAFE", off := 0x04C, ro := 0xFF3F },
  { name := "BIST_LBSIG, BIST_LBEXP", off := 0x050, cnt := 2, ro := full },
  { name := "BIST_LBPART", off := 0x058, ro := 0x71F },
  { name := "BIST_MBFAIL", off := 0x05C, ro := 0x81FFFFFF },
  { name := "BIST_MBBANK", off := 0x060, ro := 0xFFFF },
  { name := "BIST_ADC", off := 0x064, ro := 0xFFFFF },
  { name := "BIST_LANE", off := 0x068, ro := 0xFF },
  { name := "BIST_CHAIN, BIST_BYP", off := 0x06C, cnt := 2, ro := 0xFFFFF },
  { name := "BIST_BYPV", off := 0x074, ro := 0x7FFF },
  { name := "BIST_PAGE", off := 0x078, ro := 0x8000003F }]

/-- CLS (R83). -/
def clsRegs : List RegSpec := [
  { name := "CLS_COMMIT", off := 0x040, wo := 0xFFFF0003 },
  { name := "CLS_ABORT", off := 0x044, wo := 0x1 },
  { name := "CLS_PTGT", off := 0x048, rw := full },
  { name := "CLS_STAT", off := 0x04C, ro := full },
  { name := "CLS_PNOW", off := 0x050, ro := full },
  { name := "CLS_RDSHD", off := 0x054, rw := 0x3 },
  { name := "CLS_COUNT", off := 0x058, ro := full },
  { name := "CLS_ISTAT", off := 0x05C, ro := full },
  { name := "CLS_APPLY", off := 0x060, ro := full },
  { name := "CLS_FAIL", off := 0x064, ro := full }]

/-- LNK of lane `n` (R107 to R111). -/
def lnkRegs (n : Nat) : List RegSpec := [
  { name := "LNK_ROLE", off := 0x040, reset := if n < 2 then 0x21 else 0x32,
    rws := 0x133,
    norms := [if n < 2 then .only 0 2 1 else .only 0 2 2] ++ (if n < 2 then [.clamp 4 2 2 2] else []) ++
      (if n % 2 = 0 then [] else [.clamp 8 1 0 0]) },
  { name := "LNK_RATE", off := 0x044, rw := if n = 0 then 0x7 else 0, ro := if n = 0 then 0x300 else 0x307,
    norms := [.above 0 3 5 4] },
  { name := "LNK_CFG", off := 0x048, reset := 0x4, rw := if n = 2 then 0x1F else 0xF },
  { name := "LNK_CTRL", off := 0x04C, wo := 0x1F },
  { name := "LNK_STAT", off := 0x050, ro := full },
  { name := "LNK_CAPRX0 to LNK_CAPRX2", off := 0x054, cnt := 3, ro := full },
  { name := "LNK_ADAPT", off := 0x060, reset := 0x8, ro := full },
  { name := "LNK_ERRCNT", off := 0x064, ro := full },
  { name := "LNK_EBCNT", off := 0x068, ro := full },
  { name := "LNK_TRCNT", off := 0x06C, ro := full },
  { name := "LNK_EYECTL", off := 0x070, rw := 0xFF7F3F03,
    norms := [.eq 0 2 3 0, .eq 16 7 64 65, .eq 24 4 15 14] },
  { name := "LNK_EYESTAT", off := 0x074, ro := full },
  { name := "LNK_EYEMRG", off := 0x078, ro := full },
  { name := "LNK_EYETHR", off := 0x07C, reset := 0xA10, rw := 0x7F7F },
  { name := "LNK_FWDDROP", off := 0x080, ro := full },
  { name := "LNK_EYEMAP0 to LNK_EYEMAP63", off := 0x100, cnt := 64, ro := full }]

/-- PKT (R138, R139). -/
def pktRegs : List RegSpec := [
  { name := "PKT_CFG", off := 0x040, reset := 0x000A0A01, rw := 0x00FFFF01, norms := [.clamp 8 8 1 255] },
  { name := "PKT_CTRL", off := 0x044, wo := 0x1 },
  { name := "PKT_POS to PKT_SPICNT", off := 0x048, cnt := 11, ro := full }]

/-- SPD (R160). -/
def spdRegs : List RegSpec := [
  { name := "SPD_RXID", off := 0x040, rwl := full },
  { name := "SPD_TXID", off := 0x044, rwl := full },
  { name := "SPD_RXCFG", off := 0x048, reset := 0x304, rwl := 0xFFFF, norms := [.clamp 0 8 1 255, .clamp 8 8 1 255] },
  { name := "SPD_TXCFG", off := 0x04C, reset := 0xA, rwl := 0xFF, norms := [.clamp 0 8 1 255] },
  { name := "SPD_CCVCFG", off := 0x050, reset := 0x3E8, rwl := 0xFFFF, norms := [.clamp 0 16 250 65535] },
  { name := "SPD_RXSTAT to SPD_TXSEQ", off := 0x054, cnt := 10, ro := full },
  { name := "SPD_CTRL", off := 0x07C, wo := 0x3 }]

/-- VIN (R189, R190). -/
def vinRegs : List RegSpec := [
  { name := "VIN_CFG", off := 0x040, reset := 0x400, rwl := 0xF03, norms := [.eq 0 2 3 0, .clamp 8 4 1 15] },
  { name := "VIN_RATE", off := 0x044, reset := 0x1E0, rws := 0x1FF },
  { name := "VIN_STAT", off := 0x048, ro := full },
  { name := "VIN_CNT", off := 0x04C, ro := full },
  { name := "VIN_MISS", off := 0x050, ro := full },
  { name := "VIN_SWPER", off := 0x054, ro := full },
  { name := "VIN_CTRL", off := 0x058, wo := 0x1 }]

/-- CMP (R192, R193). -/
def cmpRegs : List RegSpec := [
  { name := "CMP_STAT", off := 0x040, ro := full },
  { name := "CMP_PASS", off := 0x044, ro := full },
  { name := "CMP_LAST", off := 0x048, ro := full },
  { name := "CMP_LASTT", off := 0x04C, ro := full },
  { name := "CMP_ARB", off := 0x050, reset := 0x400, rwl := 0x1FFF, norms := [.clamp 0 13 64 4096] },
  { name := "CMP_WAIT", off := 0x054, ro := full },
  { name := "CMP_SCRUB", off := 0x058, reset := 0x100, rwl := 0x1FFF, norms := [.clamp 0 13 16 4096] },
  { name := "CMP_ECCCFG", off := 0x05C, reset := 0x10, rwl := 0xFF, norms := [.clamp 0 8 1 255] },
  { name := "CMP_SCRPASS", off := 0x060, ro := full },
  { name := "CMP_ECCCNT0 to CMP_ECCCNT3", off := 0x064, cnt := 4, ro := full },
  { name := "CMP_UECNT", off := 0x074, ro := full },
  { name := "CMP_ECCCAP", off := 0x078, ro := full },
  { name := "CMP_ECCSYN", off := 0x07C, ro := full },
  { name := "CMP_CTRL", off := 0x080, wo := 0x3 }]

/-- MSK (R195, R196). -/
def mskRegs : List RegSpec := [
  { name := "MSK_STAT", off := 0x040, ro := full },
  { name := "MSK_GEN", off := 0x044, ro := full },
  { name := "MSK_CNT", off := 0x048, ro := full },
  { name := "MSK_LATE", off := 0x04C, ro := full },
  { name := "MSK_CTRL", off := 0x050, wo := 0x1 },
  { name := "MSK_RECTk_LO", off := 0x100, cnt := 32, stride := 8, rws := full },
  { name := "MSK_RECTk_HI", off := 0x104, cnt := 32, stride := 8, rws := 0x7FFFF },
  { name := "MSK_SYMs", off := 0x800, cnt := 512, ro := full }]

/-- CAL (R223). -/
def calRegs : List RegSpec := [
  { name := "CAL_CFG", off := 0x040, rws := 0x1 },
  { name := "CAL_TCFG", off := 0x044, reset := 0x2210, rws := 0x7FFF, norms := [.clamp 0 8 1 255, .clamp 8 7 0 120] },
  { name := "CAL_TCURV0 to CAL_TCURV4", off := 0x048, cnt := 5, rws := full },
  { name := "CAL_CTRL", off := 0x05C, wo := 0x1 },
  { name := "CAL_TCHG", off := 0x060, ro := full },
  { name := "CAL_TIDX0 to CAL_TIDX19", off := 0x080, cnt := 20, ro := full }]

/-- PLC (R242, R243). -/
def plcRegs : List RegSpec := [
  { name := "PLC_PWM", off := 0x040, reset := 0x32, rws := 0xFF },
  { name := "PLC_CFG", off := 0x044, reset := 0x1, rws := 0x1 },
  { name := "PLC_GEOM to PLC_OFFPER", off := 0x048, cnt := 6, ro := full },
  { name := "PLC_CTRL", off := 0x060, wo := 0x1 },
  { name := "PLC_PEAK0 to PLC_PEAK3", off := 0x070, cnt := 4, ro := full },
  { name := "PLC_OFF0 to PLC_OFF39", off := 0x100, cnt := 40, ro := full }]

/-- SUP (R306, R307). -/
def supRegs : List RegSpec := [
  { name := "SUP_CFG", off := 0x040, reset := 0x1002, rws := 0xFF0F, norms := [.clamp 8 8 2 255] },
  { name := "SUP_STAT to SUP_SKIP", off := 0x044, cnt := 9, ro := full },
  { name := "SUP_CTRL", off := 0x068, wo := 0x1 },
  { name := "SUP_STALE0 to SUP_STALE2", off := 0x070, cnt := 3, ro := full }]

/-- The aspect contexts of one ASP page (R219, R220). -/
def aspCtxRegs : List RegSpec := [
  { name := "ASP_CFG", off := 0x400, cnt := 80, stride := 32, rws := full,
    norms := [.eq 3 2 3 0, .eq 7 2 3 0] },
  { name := "ASP_MEMB", off := 0x404, cnt := 80, stride := 32, rws := 0x1FFFFFFF },
  { name := "ASP_FADE", off := 0x408, cnt := 80, stride := 32, rws := full },
  { name := "ASP_SUPV", off := 0x40C, cnt := 80, stride := 32, reset := 0x4, rws := 0xF, norms := [.eq 0 2 3 0] },
  { name := "ASP_CTL", off := 0x410, cnt := 80, stride := 32, reset := 0x0FFF2000, rw := 0x0FFF3FFF,
    norms := [.clamp 1 13 0 4096] },
  { name := "ASP_POS", off := 0x414, cnt := 80, stride := 32, rw := 0x0FFF0FFF },
  { name := "ASP_FST", off := 0x418, cnt := 80, stride := 32, ro := full },
  { name := "ASP_FLT", off := 0x41C, cnt := 80, stride := 32, ro := full }]

/-- The first ASP page (R219). -/
def aspRegs0 : List RegSpec := [
  { name := "ASP_FGRP", off := 0x040, wo := 0x3F },
  { name := "ASP_FGPEND", off := 0x044, ro := full },
  { name := "ASP_NUM", off := 0x048, ro := full },
  { name := "ASP_OFF0 to ASP_OFF4", off := 0x04C, cnt := 5, ro := full }] ++ aspCtxRegs

/-- FLT (R329, R330); FLT_RCT and FLT_FLR reset by class (`RegMap.reset`). -/
def fltRegs : List RegSpec := [
  { name := "FLT_LATCH0 to FLT_LOGPTR", off := 0x040, cnt := 8, ro := full },
  { name := "FLT_CTRL", off := 0x060, wo := 0x3 },
  { name := "FLT_SOMAPk_LO and HI", off := 0x080, cnt := 16, rwl := full },
  { name := "FLT_RCTk", off := 0x100, cnt := 64, rws := 0xFFFF, norms := [.above 0 3 5 4] },
  { name := "FLT_FLRk", off := 0x200, cnt := 64, ro := full },
  { name := "FLT_LOGk_LO and HI", off := 0x300, cnt := 32, ro := full }]

/-- PRF (R309, R310). -/
def prfRegs : List RegSpec := [
  { name := "PRF_CFG", off := 0x040, reset := 0x40, rws := 0x7FF },
  { name := "PRF_GEOM to PRF_REPL", off := 0x044, cnt := 9, ro := full },
  { name := "PRF_CTRL", off := 0x068, wo := 0x1 },
  { name := "PRF_OCC0 to PRF_OCC39", off := 0x100, cnt := 40, ro := full }]

/-- The chains of one CHN page (R275, R276). -/
def chnChainRegs : List RegSpec := [
  { name := "CHN_CTRL", off := 0x400, cnt := 10, stride := 64, rws := 0xF1 },
  { name := "CHN_CFG", off := 0x404, cnt := 10, stride := 64, reset := 0x00102803, rwl := 0x00FFFF07,
    norms := [.clamp 8 8 10 255, .clamp 16 8 1 255] },
  { name := "CHN_STAT", off := 0x408, cnt := 10, stride := 64, ro := full },
  { name := "CHN_ERR", off := 0x40C, cnt := 10, stride := 64, ro := full },
  { name := "CHN_RETX", off := 0x410, cnt := 10, stride := 64, ro := full },
  { name := "CHN_SENSE", off := 0x414, cnt := 10, stride := 64, ro := full },
  { name := "CHN_RTT", off := 0x418, cnt := 10, stride := 64, ro := full },
  { name := "CHN_LOAD", off := 0x41C, cnt := 10, stride := 64, ro := full }]

/-- The first CHN page (R275). -/
def chnRegs0 : List RegSpec := [
  { name := "CHN_GSTAT", off := 0x040, ro := full },
  { name := "CHN_GLOCK", off := 0x044, ro := full },
  { name := "CHN_GFLT", off := 0x048, ro := full },
  { name := "CHN_GCTRL", off := 0x04C, wo := 0x1 },
  { name := "CHN_LTAG", off := 0x050, ro := full }] ++ chnChainRegs

/-- TIL (R278, R279). -/
def tilRegs : List RegSpec := [
  { name := "TIL_MAP", off := 0x400, cnt := 40, stride := 32, rws := 0x3FFFF },
  { name := "TIL_ID0", off := 0x404, cnt := 40, stride := 32, ro := full },
  { name := "TIL_ID1", off := 0x408, cnt := 40, stride := 32, ro := full },
  { name := "TIL_STAT", off := 0x40C, cnt := 40, stride := 32, ro := full },
  { name := "TIL_FLAGS", off := 0x410, cnt := 40, stride := 32, ro := full },
  { name := "TIL_RACC", off := 0x414, cnt := 40, stride := 32, rw := 0x1FFFF, wo := 0x20000, ro := 0xFC0000 },
  { name := "TIL_RDATA", off := 0x418, cnt := 40, stride := 32, rw := full },
  { name := "TIL_SYNC", off := 0x41C, cnt := 40, stride := 32, ro := full }]

/-- ADC (R351, R352). -/
def adcRegs : List RegSpec := [
  { name := "ADC_CFG", off := 0x040, reset := 0x1F0, rws := 0x1F1 },
  { name := "ADC_CTRL", off := 0x044, wo := 0x7F },
  { name := "ADC_STAT", off := 0x048, ro := full },
  { name := "ADC_RCFG", off := 0x04C, reset := 0x1, rwl := 0x00FF07FF, norms := [.clamp 0 5 1 16, .above 5 3 5 0] },
  { name := "ADC_ICFG", off := 0x050, reset := 0x1, rwl := 0x7FFFF, norms := [.clamp 0 3 1 4, .eq 3 2 3 0] },
  { name := "ADC_DATA", off := 0x054, ro := full },
  { name := "ADC_DPEEK", off := 0x058, ro := full },
  { name := "ADC_CALCFG", off := 0x05C, reset := 0x01080000, rwl := 0x01FFFFFF, norms := [.clamp 16 8 1 255] },
  { name := "ADC_CALSTAT", off := 0x060, ro := full },
  { name := "ADC_CAPCFG", off := 0x064, rwl := 0x0FFF007F },
  { name := "ADC_CAPSTAT", off := 0x068, ro := full },
  { name := "ADC_CNT", off := 0x06C, ro := full },
  { name := "ADC_RNG", off := 0x070, ro := full },
  { name := "ADC_BURST", off := 0x074, ro := full },
  { name := "ADC_COEF0 to ADC_COEF3", off := 0x080, cnt := 4, ro := full },
  { name := "ADC_TRG0 to ADC_TRG7", off := 0x0C0, cnt := 8, rwl := 0xFFFF3FBF, norms := [.eq 1 2 0 1] },
  { name := "ADC_RSEQ0 to ADC_RSEQ15", off := 0x100, cnt := 16, rwl := 0xFFF, norms := [.above 0 6 53 50] },
  { name := "ADC_ISEQ0 to ADC_ISEQ3", off := 0x140, cnt := 4, rwl := 0xFFF, norms := [.above 0 6 53 50] },
  { name := "ADC_INJ0 to ADC_INJ3", off := 0x150, cnt := 4, ro := full },
  { name := "ADC_CHk", off := 0x200, cnt := 53, ro := full }]

/-- WIN (R354, R355). -/
def winRegs : List RegSpec := [
  { name := "WIN_STAT", off := 0x040, ro := full },
  { name := "WIN_CTRL", off := 0x044, wo := 0x1 },
  { name := "WIN_CFGk", off := 0x080, cnt := 16, stride := 8, rwl := 0x000F3F01, norms := [.above 8 6 53 50] },
  { name := "WIN_LIMk", off := 0x084, cnt := 16, stride := 8, reset := 0x0FFF0000, rwl := 0x0FFF0FFF },
  { name := "WIN_LASTk", off := 0x100, cnt := 16, ro := full }]

/-- BAL (R368). -/
def balRegs : List RegSpec := [
  { name := "BAL_CTRL", off := 0x040, rws := 0x1 },
  { name := "BAL_CFG", off := 0x044, reset := 0x1040, rwl := 0xFFFF, norms := [.clamp 0 8 4 255, .clamp 8 8 1 255] },
  { name := "BAL_STAT", off := 0x048, ro := full },
  { name := "BAL_CNT", off := 0x04C, ro := full },
  { name := "BAL_CMD", off := 0x050, wo := 0x1 },
  { name := "BAL_SENSEg", off := 0x100, cnt := 4, stride := 32, reset := 0x01000000, rwl := 0xFFFF0FFF },
  { name := "BAL_THRg", off := 0x104, cnt := 4, stride := 32, reset := 0x64, rwl := 0xFFFF, norms := [.clamp 0 16 1 65535] },
  { name := "BAL_DEFg", off := 0x108, cnt := 4, stride := 32, ro := full },
  { name := "BAL_EXCg", off := 0x10C, cnt := 4, stride := 32, ro := full },
  { name := "BAL_WORSTg", off := 0x110, cnt := 4, stride := 32, ro := full },
  { name := "BAL_LASTg", off := 0x114, cnt := 4, stride := 32, ro := full }]

/-- SPL (R370). -/
def splRegs : List RegSpec := [
  { name := "SPL_GCFG", off := 0x040, reset := 0x008C0010, rwl := 0x00FF00FF,
    norms := [.clamp 0 8 1 255, .clamp 16 8 0 160] },
  { name := "SPL_TEMP", off := 0x044, ro := full },
  { name := "SPL_CMD", off := 0x048, wo := 0x1 },
  { name := "SPL_CNT", off := 0x04C, ro := full },
  { name := "SPL_CTRL", off := 0x100, cnt := 4, stride := 32, rws := 0x1 },
  { name := "SPL_TGT", off := 0x104, cnt := 4, stride := 32, reset := 0x00320258, rwl := 0x0FFF0FFF },
  { name := "SPL_LOOP", off := 0x108, cnt := 4, stride := 32, reset := 0x00021040, rwl := 0x00FFFFFF,
    norms := [.clamp 0 8 1 255, .clamp 8 8 1 255, .clamp 16 8 1 255] },
  { name := "SPL_LIM", off := 0x10C, cnt := 4, stride := 32, reset := 0x03FF0000, rwl := 0x03FF03FF },
  { name := "SPL_INIT", off := 0x110, cnt := 4, stride := 32, rwl := 0x3FF },
  { name := "SPL_STAT", off := 0x114, cnt := 4, stride := 32, ro := full },
  { name := "SPL_NEEDY", off := 0x118, cnt := 4, stride := 32, ro := full }]

/-- SIO (R391, R392). -/
def sioRegs : List RegSpec := [
  { name := "SIO_GCFG", off := 0x040, reset := 0x55000064, rws := 0xFF0F3FFF,
    norms := [.clamp 0 14 20 10000, .clamp 24 2 1 3, .clamp 26 2 1 3, .clamp 28 2 1 3, .clamp 30 2 1 3] },
  { name := "SIO_STAT", off := 0x044, ro := full },
  { name := "SIO_INVAL", off := 0x048, ro := full },
  { name := "SIO_OUTVAL", off := 0x04C, ro := full },
  { name := "SIO_OCTL", off := 0x050, rw := 0xFF },
  { name := "SIO_CNT", off := 0x054, ro := full },
  { name := "SIO_TCNT", off := 0x058, ro := full },
  { name := "SIO_CTRL", off := 0x05C, wo := 0x1 },
  { name := "SIO_INCFGk", off := 0x100, cnt := 8, stride := 8, reset := 0x00640000, rws := 0x3FFF00FF },
  { name := "SIO_INSTk", off := 0x104, cnt := 8, stride := 8, ro := full },
  { name := "SIO_OCFGk", off := 0x180, cnt := 8, stride := 8, reset := 0x27100100, rws := 0xFFFF0FF7,
    norms := [.eq 1 2 3 0, .clamp 16 16 10 30000] },
  { name := "SIO_OSTk", off := 0x184, cnt := 8, stride := 8, ro := full }]

/-- CRC (R405, R406). -/
def crcRegs : List RegSpec := [
  { name := "CRC_SKCTL", off := 0x040, wo := 0x303FF },
  { name := "CRC_SKSTAT to CRC_STAT", off := 0x044, cnt := 5, ro := full },
  { name := "CRC_CTRL", off := 0x058, wo := 0x1 },
  { name := "CRC_CFG", off := 0x400, cnt := 64, stride := 32, reset := 0x20, rw := 0x33F, wo := 0x10000,
    norms := [.clamp 0 6 3 32] },
  { name := "CRC_POLY", off := 0x404, cnt := 64, stride := 32, rw := full },
  { name := "CRC_INIT", off := 0x408, cnt := 64, stride := 32, rw := full },
  { name := "CRC_XOUT", off := 0x40C, cnt := 64, stride := 32, rw := full },
  { name := "CRC_VAL", off := 0x410, cnt := 64, stride := 32, rw := full },
  { name := "CRC_RES", off := 0x414, cnt := 64, stride := 32, ro := full },
  { name := "CRC_DIN8", off := 0x418, cnt := 64, stride := 32, wo := 0xFF },
  { name := "CRC_DIN32", off := 0x41C, cnt := 64, stride := 32, wo := full }]

/-- AXO (R435, R436). -/
def axoRegs : List RegSpec := [
  { name := "AXO_CFG", off := 0x040, reset := 0x01F40040, rws := 0xFFFF00F1, norms := [.clamp 4 4 2 15, .clamp 16 16 1 65535] },
  { name := "AXO_CTRL", off := 0x044, wo := 0x7 },
  { name := "AXO_STAT to AXO_RSTATE", off := 0x048, cnt := 7, ro := full },
  { name := "AXO_DIVCFG", off := 0x064, reset := 0x8, rwl := 0xFF, norms := [.clamp 0 8 1 255] },
  { name := "AXO_PSYNC", off := 0x068, ro := full },
  { name := "AXO_CNT", off := 0x06C, ro := full },
  { name := "AXO_PSDLY", off := 0x070, rw := 0xFF }]

/-- The block registers of a page (R57). -/
def blockRegs : Nat → List RegSpec
  | 0 => sysRegs
  | 1 => clkRegs
  | 2 => bistRegs
  | 3 => clsRegs
  | 4 => lnkRegs 0
  | 5 => lnkRegs 1
  | 6 => lnkRegs 2
  | 7 => lnkRegs 3
  | 8 => pktRegs
  | 9 => spdRegs
  | 10 => vinRegs
  | 11 => cmpRegs
  | 12 => mskRegs
  | 13 => calRegs
  | 14 => plcRegs
  | 15 => supRegs
  | 16 => aspRegs0
  | 17 => aspCtxRegs
  | 18 => fltRegs
  | 19 => prfRegs
  | 20 => chnRegs0
  | 21 => chnChainRegs
  | 22 => tilRegs
  | 23 => tilRegs
  | 24 => adcRegs
  | 25 => winRegs
  | 26 => balRegs
  | 27 => splRegs
  | 28 => sioRegs
  | 29 => crcRegs
  | 30 => axoRegs
  | _ => []

/-- The page of an address (R57). -/
def pageOf (a : Nat) : Nat := a / 0x1000

/-- Whether a page can be locked (R57). -/
def lockable (p : Nat) : Bool :=
  p = 0 || (9 ≤ p && p ≤ 11) || (13 ≤ p && p ≤ 28) || p = 30

/-- Whether PCTRL.en and PCTRL.srst can be written on a page (R63): LNK, ADC, WIN, BAL, SPL, SIO and AXO. -/
def enWritable (p : Nat) : Bool :=
  (4 ≤ p && p ≤ 7) || (24 ≤ p && p ≤ 28) || p = 30

/-- The pages whose registers can all be written in HOLD (R37). -/
def holdWritable (p : Nat) : Bool :=
  p ≤ 2 || (4 ≤ p && p ≤ 9) || p = 24 || p = 25 || p = 29

/-- PID of a page (R57). -/
def pidOf (p : Nat) : Nat :=
  let block := if p ≤ 3 then p + 1 else if p ≤ 7 then 5 else if p ≤ 16 then p - 2
    else if p = 17 then 0xE else if p ≤ 20 then p - 3 else if p = 21 then 0x11
    else if p = 22 then 0x12 else if p = 23 then 0x12 else p - 5
  let inst := if 4 ≤ p && p ≤ 7 then p - 4 else if p = 17 || p = 21 || p = 23 then 1 else 0
  block * 0x10000 + inst * 0x100 + p

/-- What R314 fixes for a fault class: its floor action, whether its latch type is fixed at edge-acknowledge, its kind
(1 condition, 2 event, 0 reserved), its highest debounce and its scope code (R330). -/
structure ClsInfo where
  floor : Nat
  edge  : Bool
  kind  : Nat
  dmax  : Nat
  scope : Nat
deriving DecidableEq, Repr

/-- The table of fault classes (R314). -/
def clsInfo : Nat → ClsInfo
  | 0 => ⟨0, false, 1, 0, 1⟩
  | 1 => ⟨0, false, 1, 0, 1⟩
  | 2 => ⟨0, false, 1, 0, 1⟩
  | 3 => ⟨0, false, 1, 0, 1⟩
  | 4 => ⟨1, true, 1, 0, 1⟩
  | 5 => ⟨0, false, 1, 255, 1⟩
  | 6 => ⟨0, false, 1, 255, 1⟩
  | 8 => ⟨4, false, 1, 0, 2⟩
  | 9 => ⟨3, false, 1, 0, 0⟩
  | 10 => ⟨4, false, 2, 0, 3⟩
  | 11 => ⟨0, false, 2, 255, 3⟩
  | 12 => ⟨0, false, 2, 255, 2⟩
  | 13 => ⟨0, false, 1, 255, 2⟩
  | 14 => ⟨0, false, 1, 16, 2⟩
  | 15 => ⟨0, false, 1, 255, 2⟩
  | 16 => ⟨3, false, 2, 0, 0⟩
  | 17 => ⟨3, false, 2, 0, 0⟩
  | 18 => ⟨0, false, 2, 255, 0⟩
  | 19 => ⟨0, false, 2, 255, 0⟩
  | 20 => ⟨3, false, 2, 0, 0⟩
  | 21 => ⟨0, false, 1, 255, 0⟩
  | 22 => ⟨0, false, 1, 255, 5⟩
  | 24 => ⟨0, false, 1, 255, 4⟩
  | 25 => ⟨0, false, 1, 255, 4⟩
  | 26 => ⟨0, false, 1, 255, 0⟩
  | 28 => ⟨0, false, 2, 255, 0⟩
  | 29 => ⟨0, false, 1, 255, 6⟩
  | 32 => ⟨0, true, 2, 0, 7⟩
  | 33 => ⟨0, true, 2, 0, 7⟩
  | 34 => ⟨0, true, 2, 0, 8⟩
  | 35 => ⟨0, true, 2, 0, 8⟩
  | 36 => ⟨0, false, 1, 255, 0⟩
  | 40 => ⟨0, false, 2, 255, 0⟩
  | 41 => ⟨0, false, 1, 255, 0⟩
  | 42 => ⟨0, false, 2, 255, 0⟩
  | _ => ⟨0, false, 0, 0, 0⟩

/-- Whether a class number is reserved (R314). -/
def clsReserved (k : Nat) : Bool := (clsInfo k).kind == 0

/-- Whether `r` holds the register at page offset `off`. -/
def RegSpec.holds (r : RegSpec) (off : Nat) : Bool :=
  r.off ≤ off && off < r.off + r.cnt * r.stride && (off - r.off) % r.stride == 0

/-- The register at a register-space address; none where the address is unmapped or its offset is reserved. -/
def regSpec (a : Nat) : Option RegSpec :=
  if pageOf a < 31 then (headerRegs ++ blockRegs (pageOf a)).find? (fun r => r.holds (a % 0x1000)) else none

/-- The reset value of FLT_RCTk (R316). -/
def rctReset (k : Nat) : Nat := if clsReserved k then 0 else 8 + (clsInfo k).floor

/-- FLT_FLRk (R330). -/
def flrWord (k : Nat) : Nat :=
  let c := clsInfo k
  if clsReserved k then 0
  else c.floor + (if c.edge then 8 else 0) + c.kind * 16 + c.dmax * 256 + c.scope * 65536

/-- The reset value of every register word (R57, R316 and the register tables): 0 for a reserved offset (R9). -/
def resetWord (a : Nat) : Word :=
  let p := pageOf a
  let o := a % 0x1000
  if 31 ≤ p then 0
  else if o = 0x000 then BitVec.ofNat 32 (pidOf p)
  else if o = 0x020 then (if lockable p then 4 else 0)
  else if p = 18 && 0x100 ≤ o && o < 0x200 && o % 4 = 0 then BitVec.ofNat 32 (rctReset ((o - 0x100) / 4))
  else if p = 18 && 0x200 ≤ o && o < 0x300 && o % 4 = 0 then BitVec.ofNat 32 (flrWord ((o - 0x200) / 4))
  else if p = 29 && 0x400 + 63 * 32 ≤ o && o < 0x400 + 63 * 32 + 16 then
    (if o % 32 = 0 then 0x20 else if o % 32 = 4 then 0xF4ACFB13 else 0xFFFFFFFF)
  else match regSpec a with
    | some r => BitVec.ofNat 32 r.reset
    | none => 0

/-- One field rule applied to a word. -/
def Norm.apply (n : Norm) (v : Nat) : Nat :=
  let put (lo w x : Nat) : Nat := v - bits v lo w * 2 ^ lo + x * 2 ^ lo
  match n with
  | .clamp lo w mn mx => put lo w (clampNat mn mx (bits v lo w))
  | .above lo w k r => if k ≤ bits v lo w then put lo w r else v
  | .eq lo w k r => if bits v lo w = k then put lo w r else v
  | .only lo w k => if bits v lo w = k then v else put lo w 0

/-- Whether an address is that of a reserved entry of FLT_RCT, which ignores writes (R316). -/
def reservedEntry (a : Nat) : Bool :=
  pageOf a == 18 && 0x100 ≤ a % 0x1000 && a % 0x1000 < 0x200 && clsReserved ((a % 0x1000 - 0x100) / 4)

/-- FLT_RCTk as it reads back (R316, R330): the debounce of the class's maximum at most, latch 1 on an edge class, and
zero on a reserved class. -/
def rctNorm (k v : Nat) : Nat :=
  let c := clsInfo k
  if clsReserved k then 0
  else
    let act := bits v 0 3
    let lat := if c.edge then 1 else bits v 3 1
    act + lat * 8 + bits v 4 4 * 16 + (min (bits v 8 8) c.dmax) * 256

/-- A written word as it reads back (the field tables' "reads back as"; SYS_CFGTO by R51, SYS_OWN0 by R69). -/
def normWord (a v : Nat) : Nat :=
  let w := match regSpec a with
    | some r => r.norms.foldl (fun x n => n.apply x) v
    | none => v
  if a = 0x00070 then (if w = 0 then 0 else clampNat 100 60000 w)
  else if a = 0x00104 then w ||| 0xC3
  else if pageOf a = 18 && 0x100 ≤ a % 0x1000 && a % 0x1000 < 0x200 then rctNorm ((a % 0x1000 - 0x100) / 4) w
  else w

/-- The words of the safety parameter set that lie on pages (R152), each with its mask of RWL and RWS bits, in ascending
page and offset. -/
def ccvOffsets (p : Nat) : List (Nat × Nat) :=
  (List.range 1022).filterMap fun i =>
    match regSpec (p * 0x1000 + 8 + 4 * i) with
    | some r => if (r.rwl ||| r.rws) = 0 then none else some (p * 0x1000 + 8 + 4 * i, r.rwl ||| r.rws)
    | none => none

/-- The words of the safety parameter set (R152, item 1). -/
def ccvWords : List (Nat × Nat) := ((List.range 31).filter (fun p => lockable p)).flatMap ccvOffsets

end Sys2Proof.Machine
end

