-- ==== Sys2Proof/Machine/State.lean ====
section
/-! DEFINITION. The state of the ORX-1310 as plain data: the register file, the memories, and the state that each chapter
implies beside its registers. Every field's default is its value at reset. -/

namespace Sys2Proof.Machine

/-- Why the model stops with a fault. No command does: an error of the hardware's interface is a completion status, a counter
or a fault class, all of them state. -/
inductive Fault where
deriving DecidableEq, Repr

/-- Why the model has no meaning for a command. -/
inductive Refusal where
  /-- The command has no meaning yet. Raised by its arm of `exec`; safe, since no step is taken. -/
  | notModelled (mnemonic : String)
deriving DecidableEq, Repr

/-- The six modes (R25). -/
inductive Mode where
  | selftest | hold | configure | operate | mirror | fallback
deriving DecidableEq, Repr

/-- The mode's code (R25). -/
def Mode.code : Mode → Nat
  | .selftest => 0
  | .hold => 1
  | .configure => 2
  | .operate => 3
  | .mirror => 4
  | .fallback => 5

/-- The mode of a code (R25); no state of the device holds a code above 5. -/
def modeOf : Nat → Mode
  | 0 => .selftest
  | 2 => .configure
  | 3 => .operate
  | 4 => .mirror
  | 5 => .fallback
  | _ => .hold

/-- How far the device has come from its reset (R30, R31). -/
inductive Phase where
  /-- A reset cause holds it in reset. -/
  | held
  /-- Released; the PLLs are locking. -/
  | locking
  /-- No lock 2 ms after release; the core is held in reset. -/
  | noLock
  /-- The PLLs have locked: SYS_STAT.mode governs. -/
  | up
deriving DecidableEq, Repr

/-- What a dark release leads to (R28, R39): a mode request or a reset. -/
inductive DarkTarget where
  | configure | reset
  | hold (detail : Nat)
deriving DecidableEq, Repr

/-- The state of reset, SELFTEST and the pins that go with them (R30 to R36). -/
structure Boot where
  phase    : Phase := .held
  /-- SELFTEST steps passed since reset release (R34). -/
  step     : Nat := 0
  /-- The level of the ROLE pin, a strap (R408). -/
  rolePin  : Bool := false
  /-- A reset input pulse that reached the permit path without a reset: 1 RESET_N, 2 PARTNER_RST_N, 0 none (R30). -/
  glitch   : Nat := 0
  /-- ACK_N was low at reset release, or flagged stuck in SELFTEST (R41, R42). -/
  ackLow   : Bool := false
  /-- The dark release in progress and whether its all-dark frame has been latched in every running chain (R28). -/
  dark     : Option DarkTarget := none
  darkFrom : Option Nat := none
  /-- The present failure-to-host-loss measure of R49: a configuration failure occurred, and a safe PDU came since. -/
  cfgFailed : Bool := false
  /-- A cause of HOLD found before SELFTEST began (R27, R367): code and detail. -/
  early    : Option (Nat × Nat) := none
  /-- Safety ticks since SELFTEST began (R55). -/
  selfT    : Nat := 0
  /-- VDDH was below 1.20 V (R441). -/
  vddhLow  : Bool := false
deriving DecidableEq, Repr

/-- The safety island's clocks, watchdog, permit and acknowledgement (R18 to R20, R41 to R44, R367). -/
structure Island where
  /-- The core's permit request (R18). -/
  req      : Bool := false
  wdogExp  : Bool := false
  clkBad   : Bool := false
  supBad   : Bool := false
  /-- The core's heartbeat sequence count and the one the island saw last (R19). -/
  hbSeq    : Nat := 0
  hbLast   : Nat := 0
  /-- Ticks since the last heartbeat (R19). -/
  hbGap    : Nat := 0
  /-- Supervision released a judgement since the previous heartbeat (R19). -/
  hbFlag   : Bool := false
  /-- Heartbeats in a row with the flag clear while sense collection runs (R19). -/
  hbClear  : Nat := 0
  /-- Period starts since the period of the first SENSE_TOKEN of this mastership, none before it (R19). -/
  sense    : Option Nat := none
  /-- A watchdog case holds (R19). -/
  wdogDue  : Bool := false
  /-- Consecutive ticks in which each clock's count was off: core, chain, converter, lane transmit (R20). -/
  clkOff   : Vector Nat 4 := Vector.replicate 4 0
  /-- Consecutive temperature samples at or above the shutdown level (R367). -/
  hot      : Nat := 0
  /-- That run of samples has tripped (R367). -/
  hotTrip  : Bool := false
  /-- The last temperature sample in °C (R367). -/
  tempC    : Int := 0
  /-- The last two ACK_N samples before the present one, the filtered level (R41). -/
  ackH1    : Bool := true
  ackH2    : Bool := true
  ackLvl   : Bool := false
  /-- Ticks of the running press; consecutive high samples (R41). -/
  ackLen   : Nat := 0
  ackHigh  : Nat := 0
  /-- The press that ended and is not yet judged, in ticks (R41). -/
  ackRel   : Option Nat := none
  /-- The running press began while stuck, so its release acknowledges nothing (R41, R42). -/
  ackVoid  : Bool := false
  /-- An acknowledgement event waits for the next period start (R44). -/
  ackEvent : Bool := false
  /-- The source that armed SYS_ACK (R43). -/
  ackSrc   : Option Src := none
deriving DecidableEq, Repr

/-- When a clause is applied (R74, R176, R221). -/
inductive Due where
  | now
  | period (p : Nat)
  | frameLatch
deriving DecidableEq, Repr

/-- An implicit clause (R76): its kind (1 mask, 2 symbol, 3 aspect), its register words with their new values, its point of
application, the tag of its packet (R414) and its place in core arrival order (R207). -/
structure ImpClause where
  kind  : Nat
  words : List (Nat × Word)
  due   : Due
  tag   : Nat
  nth   : Nat := 0
deriving DecidableEq, Repr

/-- The clause machine beside the CLS page (R72 to R77). -/
structure Clauses where
  /-- The registers that the open clause holds, with their shadow values (R72). -/
  shadow  : List (Nat × Word) := []
  /-- The time choice that CLS_COMMIT gave, and the point of application once armed (R74). -/
  due     : Option Due := none
  /-- The implicit clauses that wait for their point of application, oldest first (R76). -/
  implicit : List ImpClause := []
  /-- The update packets and timed writes that have arrived, which gives them their order (R207). -/
  arrived : Nat := 0
  /-- The SPI port's copy of SYS_WINBASE (R79); the register file holds the lane host's. -/
  winSpi  : Word := 0
  /-- For each page that PCTRL.freeze holds, the RO words at the write (R63). -/
  frozen  : List (Nat × Word) := []
deriving DecidableEq, Repr

/-- An aspect context as a composition pass holds it (R205): its index, words 0, 1, 4 and 5, its fade level, and the
descriptor of the symbol it names. -/
structure Ctx where
  idx  : Nat
  w0   : Word
  w1   : Word
  w4   : Word
  w5   : Word
  f    : Nat
  desc : Nat
deriving DecidableEq, Repr

/-- What a frame shows: the layers (R169), the fallback beam (R47), or nothing (R28). -/
inductive FrameKind where
  | layers | fallback | dark
deriving DecidableEq, Repr

/-- The snapshot held beside a code slot (R205): what the frame shows and the defined contexts in the order of
application. -/
structure Snap where
  kind : FrameKind := .dark
  ctxs : List Ctx := []
  /-- The pixels whose code in the slot is lowered (R300). -/
  low  : List Nat := []
deriving DecidableEq, Repr

/-- A pending group change of an aspect (R211, R212): its period, its value of en, whether an accepted safe PDU carried the ASP_FGRP
write, and the place of that write in core arrival order. -/
structure GroupChange where
  per : Nat
  on  : Bool
  pdu : Bool
  nth : Nat
deriving DecidableEq, Repr

/-- The fade of an aspect beside ASP_FST (R207 to R212): the start period, the start value and the target of the running
fade, and those of the fade before it, the target changes that wait for their period, and the pending group change. -/
structure Fade where
  ps    : Nat := 0
  f0    : Nat := 0
  tgt   : Nat := 0
  was   : Nat × Nat × Nat := (0, 0, 0)
  waits : List (Nat × Nat) := []
  group : Option GroupChange := none
deriving DecidableEq, Repr

/-- A lit pixel of a code slot as the compositor reports it to the placement engine (R236, R240): the pixel, the aspect that owns it, its
code and its current in µA. -/
structure LitPixel where
  pix  : Nat
  own  : Option Nat
  code : Nat
  cur  : Nat
deriving DecidableEq, Repr

/-- Video input, composition and mask beside the VIN, CMP and MSK pages (R163 to R197). -/
structure Video where
  /-- The period at which the last swap event takes effect (R167). -/
  swapDue  : Option Nat := none
  /-- The period at which a swap last took effect, for condition 5 of R171. -/
  swapAt   : Option Nat := none
  /-- Core cycles at the last swap event (R168). -/
  swapEv   : Option Nat := none
  /-- The frame number of the frame in the back buffer (R190). -/
  backNum  : Nat := 0
  /-- The tile rows that are dirty (R170). -/
  dirty    : List Nat := []
  /-- The slot that holds the newest codes of a tile row; both where none is listed (R172). -/
  newest   : List (Nat × Nat) := []
  /-- The snapshot beside each slot (R205). -/
  snap     : Vector Snap 2 := Vector.replicate 2 {}
  /-- The rows that the running or last pass composes, and copies (R172). -/
  rows     : List Nat := []
  copied   : Nat := 0
  /-- The period in which the last pass started, its nominal start in chain clocks (R171). -/
  passPer  : Option Nat := none
  nominal  : Nat := 0
  /-- Composition has ended and placement runs (R10); PLC_CFG.flat as the placement took it (R75, R243). -/
  placing  : Bool := false
  flat     : Bool := true
  /-- The rows of the last pass in which a pixel was composed with prf = 0b10 (R300). -/
  again    : List Nat := []
  /-- The frame that was swapped in has not come into force (R174, VIN_CNT). -/
  fresh    : Bool := false
  /-- Chain clocks at the present period start (R171). -/
  clk      : Nat := 0
  /-- The last fade evaluation point: period and chain clocks (R208). -/
  evalPer  : Option Nat := none
  evalClk  : Nat := 0
  /-- The dead pixels that the last pass filled, and the aspects with a fill loss in it (R325, R314). -/
  filled   : List Nat := []
  lossy    : List Nat := []
  /-- The dead pixels that the last pass found unfillable (R323, R325). -/
  unfill   : List Nat := []
  /-- What the placement engine holds of each slot: its lit pixels (R236, R240). -/
  lit      : Vector (List LitPixel) 2 := Vector.replicate 2 []
  /-- The 64 rectangle words of the mask generation in force, and the period at which the newest was applied while it is not in force
  (R175 to R178). -/
  maskNow  : List Word := []
  maskGen  : Option Nat := none
  /-- The newest generation was applied at a period start (R175). -/
  maskStart : Bool := false
  /-- The next word of each bank that the scrubber reads, errors found in this pass, and the words that had an error in
  the last pass and have one in this (R188). -/
  scrubAt  : Nat := 0
  scrubErr : Nat := 0
  scrubOld : List Nat := []
  scrubNew : List Nat := []
  /-- Consecutive STATUS packets in which the computed index of a tile differed on one side: twice the count, plus 1 above
  (R215). -/
  tidxRun  : List (Nat × Nat) := []
deriving DecidableEq, Repr

/-- A chain packet that has been sent and whose answer is expected (R256): type, position, seq, the CRC-16 with hop = 0, how
often it was sent again, what it concerns (CODES: the tile row; PROOF, token, STATUS: the array tile; REGR, REGW: the array
tile; LATCH: the ltag; REGR, REGW of TIL_RACC: the TIL instance), the bank (CODES), the kind (LATCH: 1 frame) or the register (REGR,
REGW: 0 TIL_RACC, 1 and 2 identity), the class of a row (0 fault reaction, 1 urgent mask, 2 frame), 3 for a row or LATCH that nothing
waits for any more (R174, R266), or 1 for a PROOF that replaces another, the period it names, and its body. The bank of such a PROOF
counts the pixels that its list drops (R299). -/
structure Sent where
  typ   : Nat
  pos   : Nat
  seq   : Nat
  ccrc  : Nat
  tries : Nat := 0
  key   : Nat := 0
  bank  : Nat := 0
  cls   : Nat := 0
  per   : Nat := 0
  body  : List Byte := []
deriving DecidableEq, Repr

/-- A LATCH that waits for its period on a chain (R264, R266): ltag, the period it names, whether it came back intact, the
times it was sent again, and what it brings into force: the slot (frame kind), the mask generation and the aspects off. -/
structure WaitLatch where
  ltag   : Nat
  target : Nat
  ok     : Bool := false
  tries  : Nat := 0
  body   : List Byte := []
deriving DecidableEq, Repr

/-- One chain beside its CHN registers (R250 to R274). -/
structure Chain where
  /-- The seq of the next packet (R252). -/
  seq      : Nat := 0
  /-- The items whose answers are expected, oldest first; the packets that wait to be sent again (R256). -/
  expect   : List Sent := []
  again    : List Sent := []
  /-- The tile rows queued by class, in the order of queueing: fault reaction, urgent mask, frame (R270); the tile register requests
  that wait for their turn; and the rows whose delivery failed for good, with their class (R256). -/
  react    : List Nat := []
  urgent   : List Nat := []
  frame    : List Nat := []
  regq     : List Sent := []
  failed   : List (Nat × Nat) := []
  /-- The rows delivered and verified in the frame bank and in the urgent bank since the last LATCH that moves it (R264). -/
  bankF    : List Nat := []
  bankU    : List Nat := []
  /-- The rows that joined a waiting LATCH (R265, rule 4), and those not verified at its period. -/
  joined   : List Nat := []
  unsure   : List Nat := []
  latchF   : Option WaitLatch := none
  latchU   : Option WaitLatch := none
  /-- The ltag that the chain's tiles applied last. -/
  tag      : Nat := 0
  /-- The period of the first marker since the chain started; the period its first frame LATCH names (R250). -/
  marked   : Option Nat := none
  lit      : Option Nat := none
  /-- The identity reads of this start are done or not yet sent (R273). -/
  idsSent  : Bool := false
  /-- The period in which inward lock was lost and not regained (R274). -/
  unlockAt : Option Nat := none
  /-- The corrupted items, discarded segments and abandoned proofs of each of the last 1,024 periods (R274). -/
  errs     : List (Nat × Nat) := []
  /-- Non-IDL symbols of the running period (R275). -/
  load     : Nat := 0
  /-- No CODES or LATCH has been verified since a takeover (R427). -/
  silent   : Bool := false
  /-- The period after which the chain stops, since the settings that govern give it no tile (R47). -/
  stopAt   : Option Nat := none
  /-- The last period whose LATCHes applied, and the rows that they moved out of the frame bank and the urgent bank (R428). -/
  movedAt  : Option Nat := none
  movedF   : List Nat := []
  movedU   : List Nat := []
  /-- The running disparities of the inward receiver's two data pairs, true for positive (R248). -/
  rd       : Bool × Bool := (false, false)
deriving DecidableEq, Repr

/-- One array tile beside its registers (R232, R267 to R269, R295, R297). -/
structure Tile where
  /-- The offset carried by the last frame LATCH issued, the newly placed one, and the offset in force (R232). -/
  prev     : Nat := 0
  next     : Nat := 0
  off      : Nat := 0
  /-- The last block that passed its header CRC failed the header check (R268). -/
  syncBad  : Bool := false
  /-- STATUS requests in a row without a valid reply (R269). -/
  statMiss : Nat := 0
  /-- The periods, and code slots, of the senses whose judgement is not released (R11). -/
  due      : List (Nat × Nat) := []
  /-- The period of the last result that each row reported, plus one; 0 for none (R268). -/
  rowPer   : List (Nat × Nat) := []
  /-- Cycle ends since each row last gave an accepted result, counting the start of its cycle where it gave it in the first
  period of one; whole cycles are one less (R295). -/
  rowAge   : List (Nat × Nat) := []
  /-- The rows that have given no accepted result since SENSE_STALE was raised (R295). -/
  staleRows : List Nat := []
  /-- The candidate queue of the proof ledger (R297). -/
  queue    : List Nat := []
  /-- The headroom of a valid STATUS reply in this period (R362), and its thermal flag (R365). -/
  head     : Option Nat := none
  hot      : Bool := false
  /-- Flags of the last valid STATUS; no valid reply in 16 requests; an identity read failed (R269, R273). -/
  flags    : Nat := 0
  stale    : Bool := false
  idfail   : Bool := false
  /-- The temperature index in use since its first change (R215); none before it, when the index is q0 (R223). -/
  idx      : Option Nat := none
deriving DecidableEq, Repr

/-- What was in force in a period (R11, R282): its number, D, code slot, whether the descriptor's settings governed, the
aspects forced dark, the tile offsets, the ltag each chain's tiles applied, the rows not judged (R265), the pixels with an
active proof and those whose proof is uncertain (R283, R299); the tiles whose PROOF was verified; and of the blocks whose tokens
were sent in it, the accepted segments by tile and the failing judgements by pixel with their kind (R414, R415). -/
structure PerRec where
  per    : Nat := 0
  d      : Nat := 0
  slot   : Nat := 0
  fb     : Bool := false
  off    : List Nat := []
  offs   : List Nat := []
  tags   : List Nat := []
  unsure : List Nat := []
  proof  : List Nat := []
  vague  : List Nat := []
  prf    : List Nat := []
  acc    : List (Nat × Nat) := []
  fails  : List (Nat × Nat) := []
deriving DecidableEq, Repr

/-- A sense block handed to supervision (R268, R284): array tile, period of the token, and for each row of an accepted segment
that is no repeat, its number, the period of its result and its 32 bytes. -/
structure Block where
  tile : Nat
  per  : Nat
  rows : List (Nat × Nat × List Byte)
deriving DecidableEq, Repr

/-- The chain output stage and supervision beside their pages (R225 to R311). -/
structure Light where
  /-- The descriptor's settings govern the chains (R47). -/
  fb       : Bool := false
  /-- The aspects whose dark state is in force on the tiles (R321). -/
  offForce : List Nat := []
  /-- The mask generations and the sets of aspects off that wait for their period, oldest first: the period from which each is in force;
  of a generation the period at which it applied, its number and its rectangle words; and the set (R176 to R178, R321). -/
  maskDue  : List (Nat × Nat × Nat × List Word) := []
  offDue   : List (Nat × List Nat) := []
  /-- The frame LATCH event that was issued: its target, the slot, the mask and aspects off it brings, and whether the slot
  shows the fallback frame; none once its period has begun (R10, R48). -/
  frameDue : Option (Nat × Nat × FrameKind) := none
  /-- The latch tag of the next LATCH event (R258), and the target of the last frame LATCH event (R414). -/
  ltag     : Nat := 1
  ftgt     : Nat := 0
  /-- The next frame LATCH carries the initial offsets (R233). -/
  initial  : Bool := true
  /-- The last periods, newest first. -/
  hist     : List PerRec := []
  /-- The blocks handed to supervision and not yet released (R284). -/
  blocks   : List Block := []
  /-- The pixels of each tile's last PROOF for the coming lit-check period, of its last verified one, and those that a PROOF
  not yet verified leaves uncertain (R298, R299). -/
  proofSent : List (Nat × List Nat) := []
  proofOk  : List (Nat × List Nat) := []
  proofBad : List (Nat × List Nat) := []
  /-- The form of the judgements that conf counts: 1 lit, 2 dark (R285). -/
  form     : List (Nat × Nat) := []
  /-- UNVERIFIED pixels and their aspects by the cycle of their senses: the running and the previous cycle (R305). -/
  unvNow   : List (Nat × Nat) := []
  unvOld   : List (Nat × Nat) := []
  unvCycle : Nat := 0
  /-- The reason, 0 to 2, for which each pixel is UNVERIFIED (PRF_UNV0 to PRF_UNV2). -/
  unvWhy   : List (Nat × Nat) := []
  /-- The pixels confirmed faulty in FALLBACK and counted (R47). -/
  fbFaults : List Nat := []
  /-- A change from FALLBACK to OPERATE awaits its frame (R50); the LATCH of that frame has been issued; the aspects off that its
  rows carry (R322); and the mask that they carry since the LATCH: the period at which its generation applied, where that is not in
  force, its number and its rectangle words (R176, R178). -/
  back     : Bool := false
  backDue  : Bool := false
  backOff  : List Nat := []
  backMask : Option (Option Nat × Nat × List Word) := none
  /-- The pixels now in each state (R306). -/
  counts   : List (Nat × Nat) := []
deriving DecidableEq, Repr

/-- One instance of a fault class (R312, R317, R318). -/
structure FltInst where
  present : Bool := false
  /-- An event class had an event in this period (R313). -/
  event   : Bool := false
  latched : Bool := false
  /-- The debounce count: period starts for a condition, events for an event class; none while no count runs (R317). -/
  count   : Option Nat := none
  /-- The count is reached and the action is not taken yet: the mode at that moment (R317, R319). -/
  due     : Option Mode := none
  /-- The action taken (R319), and the aspects that the instance holds off; none while they are still to be resolved
  (R320). -/
  act     : Nat := 0
  holds   : Option (List Nat) := some []
deriving DecidableEq, Repr

/-- Fault reaction beside the FLT page (R312 to R332). -/
structure Flt where
  /-- The instances by 65,536 times the class plus the instance. -/
  insts   : List (Nat × FltInst) := []
  /-- The aspects whose policy holds them off (R323). -/
  policy  : List Nat := []
  /-- The mode at the start of the running core cycle, while actions of one cycle are taken (R326). -/
  cyc     : Option Mode := none
  /-- The log entries that have not been read (R332). -/
  unread  : List Nat := []
deriving DecidableEq, Repr

/-- The converter beside the ADC and WIN pages (R333 to R350). -/
structure Adc where
  /-- The conversion in progress: injected or regular, and its entry (R334). -/
  running : Option (Bool × Nat) := none
  /-- The entries that the running sequences took at their start (R345), and the next injected entry. -/
  rseq    : List Word := []
  iseq    : List Word := []
  ipos    : Nat := 0
  /-- The regular sequence ends with its running conversion (R342). -/
  rstop   : Bool := false
  /-- An aborted regular conversion starts again (R343). -/
  rback   : Bool := false
  /-- Conversions left in each slice's settle run (R347). -/
  settle  : Vector Nat 4 := Vector.replicate 4 0
  /-- The coefficient words of the last completed foreground calibration (R339). -/
  base    : Vector Word 4 := Vector.replicate 4 0
  /-- What each trigger comparator is armed for: 1 rising, 2 falling, 3 both (R348). -/
  armed   : Vector Nat 8 := Vector.replicate 8 0
  /-- The next entry of the capture buffer, the entries written since caparm, and those left to write in POST (R349). -/
  capAt   : Nat := 0
  capN    : Nat := 0
  capLeft : Nat := 0
  /-- A burst has reserved the four slices (R335, R336). -/
  reserved : Bool := false
  /-- The burst samples of the running background correction, and their lowest and highest code (R339). -/
  bgcN    : Nat := 0
  bgcLo   : Nat := 4095
  bgcHi   : Nat := 0
  /-- Conversions of each channel so far, and bursts so far (R349). -/
  chanN   : List (Nat × Nat) := []
  burstN  : Nat := 0
  /-- The latest code of each die temperature sensor (R366). -/
  temp0   : Option Nat := none
  temp1   : Option Nat := none
deriving DecidableEq, Repr

/-- The balance engine beside the BAL page (R357 to R361): residual sums and burst counts by 64 times the rail plus twice
the group plus the type, the result of each (1 deficit, 2 excess), the rails judged, and the period of each rail's window start. -/
structure Bal where
  sums    : List (Nat × Int) := []
  counts  : List (Nat × Nat) := []
  result  : List (Nat × Nat) := []
  judged  : List Nat := []
  start   : Vector Nat 4 := Vector.replicate 4 0
deriving DecidableEq, Repr

/-- Supply control beside the SPL page: the period starts in a row at a limit, by channel (R364). -/
structure Spl where
  atLimit : Vector Nat 4 := Vector.replicate 4 0
deriving DecidableEq, Repr

/-- The pulse of a test-pulse source (R378, R379): whether its blanking window runs, whether the source is off, samples since
its start, its width, and the raw channel samples before it and at its judged sample. -/
structure TestPulse where
  runs : Bool := false
  low  : Bool := false
  tick : Nat := 0
  w    : Nat := 0
  a0   : BitVec 8 := 0
  b0   : BitVec 8 := 0
  aJ   : BitVec 8 := 0
  bJ   : BitVec 8 := 0
deriving DecidableEq, Repr

/-- A safety output beside SIO_OST (R384 to R388): ticks at the present level, samples not judged after a pulse, differing
judged samples in a row, judged samples off while undriven, ticks driven on without a break, the width and the sample number
of the running test (0 none), whether the test is discarded, and a missed test not yet raised. -/
structure SioOut where
  steady  : Nat := 0
  skip    : Nat := 0
  bad     : Nat := 0
  offOk   : Nat := 0
  onFor   : Nat := 0
  test    : Bool := false
  w       : Nat := 0
  tick    : Nat := 0
  dropped : Bool := false
  missDue : Bool := false
deriving DecidableEq, Repr

/-- The safety inputs and outputs beside the SIO page (R372 to R390). -/
structure Sio where
  /-- The words of SIO_GCFG, SIO_INCFG0 to 7 and SIO_OCFG0 to 7 that the island uses (R373), none before the first tick; and the core
  cycle of an application whose values it has not taken yet. -/
  cfg     : List Word := []
  fresh   : Option Nat := none
  /-- Ticks since the frame's start (R378). -/
  fpos    : Nat := 0
  tps     : Vector TestPulse 4 := Vector.replicate 4 {}
  /-- The raw samples of the last tick (R380). -/
  rawA    : BitVec 8 := 0
  rawB    : BitVec 8 := 0
  /-- The inputs that have agreed since reset (R374). -/
  seen    : List Nat := []
  /-- The inputs whose disagreement reached its count and is not yet raised: the input's own, and the fallback evaluation
  (R375, R382). -/
  due     : List Nat := []
  fbDue   : Bool := false
  /-- The fallback evaluation: disagreement count and latch, with its cause (R382). -/
  fbCnt   : Nat := 0
  fbCause : Nat := 0
  /-- The channel values that the fallback evaluation uses: a blanked channel keeps its last (R382). -/
  fbA     : Bool := false
  fbB     : Bool := false
  /-- The inputs with an echo finding at the last tick (R390). -/
  echoed  : List Nat := []
  outs    : Vector SioOut 8 := Vector.replicate 8 {}
deriving DecidableEq, Repr

/-- Skink beside the CRC page (R399 to R402): the four words of the running descriptor, the address of its next byte and the
bytes left, how many descriptors the job has started and the contexts they named, and the CCV computation: its kind (1 a CONFIRM,
2 a recheck pass) and how many words of its sequence it has fed. -/
structure Skink where
  desc  : Vector Word 4 := Vector.replicate 4 0
  at'   : Nat := 0
  left  : Nat := 0
  count : Nat := 0
  used  : List Nat := []
  ccv   : Nat := 0
  pos   : Nat := 0
deriving DecidableEq, Repr

/-- A lane beside its LNK page (R90 to R104). -/
structure Lane where
  /-- POLL: the alignment of the last COM and how many COMs in a row lay at it; valid TS sets and valid TS2 sets in a row;
  20 ms have passed since entry. -/
  comAt   : Nat := 0
  comN    : Nat := 0
  validN  : Nat := 0
  ts2N    : Nat := 0
  past20  : Bool := false
  /-- CAPS: the last valid set with seen = 1 and how many identical ones came in a row; sets received since the first valid
  one; a host-path lane was ACTIVE at entry. -/
  capLast : List Byte := []
  capN    : Nat := 0
  capSent : Nat := 0
  hostUp  : Bool := false
  /-- The running EXIT wait follows a training failure (R95). -/
  failed  : Bool := false
  /-- The lane is marked down (R95). -/
  down    : Bool := false
  /-- The next entry into POLL starts the equaliser afresh (R101). -/
  fresh   : Bool := true
  /-- Packet data is unscrambled since the last entry into POLL (LNK_CFG.scr_off). -/
  scrOff  : Bool := false
  /-- The equaliser values of the last updates, newest first: CTLE and three taps; and those in use when the lane last left ACTIVE
  (R101). -/
  eqHist  : List (Nat × Int × Int × Int) := []
  eqKept  : Nat × Int × Int × Int := (8, 0, 0, 0)
  /-- The two counters of R102: consecutive symbols that are not scrambled data, up to 256, and consecutive scrambled data symbols,
  up to 64; whether they have frozen adaptation; the scrambled data symbols since the last update, and since re-adaptation
  started (R101, R104). -/
  plainN  : Nat := 0
  dataN   : Nat := 0
  iced    : Bool := false
  fed     : Nat := 0
  readN   : Nat := 0
  /-- A margin check runs; an eye operation waits for its end (R103, R104). -/
  margin  : Bool := false
  eyeWait : Bool := false
  /-- Skip and BND sets sent since ACTIVE (R97), whether a BND set was sent (R100), and the sequence number of the next (R91). -/
  sets    : Nat := 0
  bndSent : Bool := false
  bndSeq  : Nat := 0
  /-- The packets that wait for the first BND set of the link of which this is the lower lane: type, header byte 1, body (R100). -/
  txWait  : List (Nat × Nat × List Byte) := []
  /-- The transmit scrambler (R92). -/
  txLfsr  : Nat := 0xFFFF
  /-- The receiver's running disparity, true for positive (R90). -/
  rd      : Bool := false
  /-- The fill of the elastic buffer after the last skip set, and whether it is re-centred at the next (R98). -/
  fill    : Nat := 12
  recenter : Bool := false
  /-- The error bucket (R96). -/
  bucket  : Nat := 0
  /-- The descrambler (R92). -/
  lfsr    : Nat := 0xFFFF
  /-- The packet being received on the link of which this is the lower lane: whether one is open, its bytes, whether a symbol
  of it was in error, so that it fails its CRC (R98), and whether it is forwarded (R105). -/
  rxOpen  : Bool := false
  rxBytes : List Byte := []
  rxBad   : Bool := false
  rxFwd   : Bool := false
  /-- Credits returned when the link entered ACTIVE: video, update, safe; and the first FC is out (R124). -/
  fcBase  : Nat × Nat × Nat := (0, 0, 0)
  fcSent  : Bool := false
deriving DecidableEq, Repr

/-- A request in the queue of R122: the lane, the packet type and the packet. -/
structure Req where
  lane : Nat
  typ  : Nat
  pkt  : Pkt
deriving DecidableEq, Repr

/-- The lanes' common state and the packet layer beside LNK and PKT (R88, R89, R113 to R134). -/
structure Link where
  lanes   : Vector Lane 4 := Vector.replicate 4 {}
  /-- The line rate code in use, the rate to return to, the change awaited or run (1 written, 2 relocking, 3 relocking with another
  written), whether a failed change may still revert, and the safety ticks for which the lane clock is not judged (R89). -/
  rate    : Nat := 0
  oldRate : Nat := 0
  change  : Nat := 0
  watch   : Bool := false
  unjudged : Nat := 0
  /-- The queue of R122 while a CONFIRM or OTP item holds its head. -/
  queue   : List Req := []
  /-- Charges returned so far: video units, update packets, safe PDUs (R124); a limit advanced since the last FC. -/
  retV    : Nat := 0
  retU    : Nat := 0
  retS    : Nat := 0
  /-- The frame CRC over the open frame's VLINE bodies (R127). -/
  vcrc    : Nat := 0
  /-- The video packets that wait in the pool while the back buffer is sealed (R165): 0 VLINE, 1 FEND, 2 a VLINE that failed. -/
  vwait   : List (Nat × Pkt) := []
  /-- The SYS_IRQSUM of the last IRQMSG (R134). -/
  irqLast : Word := 0
  /-- The return buffer: the packets stored for the host link, by type, header byte 1 and body (R117). -/
  ret     : List (Nat × Nat × List Byte) := []
  /-- PAIR packets received in this period (R133). -/
  pairN   : Nat := 0
deriving DecidableEq, Repr

/-- An access of the SPI port (R135, R137): op, seq, address, write data; then its status and read data. -/
structure SpiAcc where
  op     : Nat
  seq    : Nat
  addr   : Nat
  data   : Word
  status : Nat := 0
  res    : Word := 0
deriving DecidableEq, Repr

/-- The SPI port (R135 to R137): SPI_CS_N is low, the request of this frame is to be discarded, the MISO frame, the access that waits
to execute, the access executed but not complete, and the completed accesses not yet reported. -/
structure Spi where
  low     : Bool := false
  discard : Bool := false
  miso    : BitVec 64 := 0
  waiting : Option SpiAcc := none
  running : Option SpiAcc := none
  done    : List SpiAcc := []
deriving DecidableEq, Repr

/-- An item of a safe PDU (R143). -/
inductive Item where
  | nop
  | write (addr val : Word)
  | beam
  | confirm (lock : Bool) (ccv : Word)
  | otpcom (blk : List Byte)
  | otpfb (blk : List Byte)
deriving DecidableEq, Repr

/-- A safe PDU whose items run: its seq, the items done, and the rest (R146). -/
structure Pdu where
  seq  : Nat
  idx  : Nat
  rest : List Item
deriving DecidableEq, Repr

/-- Safe PDUs and commissioning beside the SPD page (R146 to R158). Times count safety ticks from a reference between two ticks:
n tick lengths have passed at tick n + 1. -/
structure Spd where
  /-- Ticks since the last accepted PDU or the end of SELFTEST, since the last configuration failure, and since entry into
  CONFIGURE (R49); SYS_CFGTO has expired in this stay. -/
  host    : Nat := 0
  failT   : Nat := 0
  cfgT    : Nat := 0
  cfgOver : Bool := false
  /-- Ticks since the last accepted PDU or deadline miss, and texp of the last accepted PDU; 0 before the first (R148). -/
  dl      : Nat := 0
  texp    : Nat := 0
  /-- The PDU whose items wait behind a CONFIRM or OTP item. -/
  pdu     : Option Pdu := none
  /-- A CONFIRM runs, and its lock bit (R154). -/
  conf    : Bool := false
  lock    : Bool := false
  /-- The OTP block being programmed: whether it is the fallback descriptor, and its bytes (R158). -/
  otp     : Option (Bool × List Byte) := none
  /-- A programming of the commissioned block, or of the descriptor, was cut short (R158). -/
  cutCom  : Bool := false
  cutFb   : Bool := false
  /-- The words of the last status PDU; status PDUs sent (R151). -/
  sent    : List Word := []
  txN     : Nat := 0
deriving DecidableEq, Repr

/-- An effect that a standby holds until a DIGEST names it (R418): its name as in tw, the period in which its active partner may
apply it, whether it is an ASP_FGRP write (else the target change of aspect `arg`), its value, whether a safe PDU carried it, its place
in core arrival order, and of an ASP_FGRP write the members with their delays (R212). -/
structure Held where
  name : Nat
  per  : Nat
  grp  : Bool
  arg  : Nat := 0
  val  : Nat := 0
  pdu  : Bool := false
  nth  : Nat := 0
  mem  : List (Nat × Nat) := []
deriving DecidableEq, Repr

/-- A LATCH that a standby observed: chain, kind (1 frame), target, ltag and body (R421, R428); once it has been compared in its period,
the rows that it brought into force: 2 × row + bank (R423). -/
structure SeenLatch where
  chain  : Nat
  frame  : Bool
  target : Nat
  ltag   : Nat
  body   : List Byte
  done   : Bool := false
  rows   : List Nat := []
deriving DecidableEq, Repr

/-- The Axolotl unit beside the AXO page (R410 to R434). The counts of periods start as if nothing had ever been heard. -/
structure Pair where
  hseq    : Nat := 0
  /-- Period starts since the last valid PAIR packet, one from a partner in OPERATE or FALLBACK, one from a partner in
  CONFIGURE or HOLD, the last HEARTBEAT with ready = 1, the last DIGEST, and the last inward period marker. -/
  noPair  : Nat := 65535
  noAct   : Nat := 65535
  noConf  : Nat := 65535
  noReady : Nat := 65535
  noDig   : Nat := 65535
  noMark  : Nat := 65535
  /-- The partner's role pin; the divergence and acknowledgement counts of its last HEARTBEAT, none before the first. -/
  pin     : Bool := false
  divSeen : Option Nat := none
  ackSeen : Option Nat := none
  /-- A PSYNC_IO edge lay within 8 chain clocks of the present period start, or lay so close before the next one; an inward marker came
  in this period; bad edges in a row; chain clocks by which the tail is lengthened; it has been, or will be, lengthened, and CLS_PNOW takes
  the next DIGEST's pnum (R410). -/
  edge    : Bool := false
  early   : Bool := false
  mark    : Bool := false
  badEdge : Nat := 0
  shift   : Nat := 0
  setNow  : Bool := false
  /-- The bodies of the DIGEST and LISTS received for the present period, and whether the period is followed (R417). -/
  dig     : List Byte := []
  lst     : List Byte := []
  followed : Bool := false
  /-- The two have not come in time for the present period (R417). -/
  missed  : Bool := false
  /-- The mode of the last DIGEST (R427), and that the standby composes for FALLBACK, as in the last one followed (R417). -/
  digMode : Nat := 0
  forFb   : Bool := false
  /-- The restatement that an active device runs, by the block and byte offset of its next chunk (R420), and the state-change
  records that wait to be sent (R415). -/
  restAt  : Option (Nat × Nat) := none
  recs    : List (List Byte) := []
  /-- The chunk that a standby expects next, the context block so far, and that it has had the last chunk and waits for a frame
  LATCH (R421). -/
  nextAt  : Option (Nat × Nat) := none
  ctx     : List Byte := []
  joined  : Bool := false
  /-- State-change records signalled as waiting (R423). -/
  backlog : Bool := false
  /-- Packets snooped so far, and whether one carried dir = 1 (R422). -/
  snN     : Nat := 0
  snDir   : Bool := false
  /-- Chains whose ACK comparisons are suspended (R424), and the periods of the slips of the last 1,024 periods. -/
  susp    : List Nat := []
  slips   : List Nat := []
  seen    : List SeenLatch := []
  /-- The last CODES seen for each tile row and bank: key 2 x row + bank, and its body (R423). -/
  rows    : List (Nat × List Byte) := []
  held    : List Held := []
  /-- The name of the write that runs, 0 for none; the names of the timed writes of an active device, with their periods (R414);
  the names and implicit clause tags of a DIGEST that a standby has not matched, with its period (R418). -/
  name    : Nat := 0
  names   : List (Nat × Nat) := []
  lost    : List (Nat × Nat) := []
  /-- The aspects that the active device switches off, by its last DIGEST (R417). -/
  off     : List Nat := []
  /-- The core cycle of a takeover write (R426); the period P of the takeover in progress; PARTNER_RST_N is driven low. -/
  tkReq   : Option Nat := none
  tkP     : Option Nat := none
  rstLow  : Bool := false
  /-- The token period up to which judgements of a pixel are ignored, and the period of the last result taken from a digest for each
  row, plus one (R419). -/
  upTo    : List (Nat × Nat) := []
  rowPer  : List (Nat × Nat) := []
deriving DecidableEq, Repr

/-- What the device sends or shows: the model's own record, newest first. -/
inductive Out where
  /-- A packet handed to a lane's transmitter: type byte, header byte 1, body (R113). -/
  | packet (lane : Nat) (typ : Nat) (hdr : Nat) (body : List Byte)
  /-- A word of a packet sent on a lane, after scrambling: control flag and value of each symbol (R91, R92, R105). -/
  | word (lane : Nat) (syms : List (Bool × Nat))
  /-- An ordered set sent on a lane: 1 TS1, 2 TS2, 3 CAP, 4 skip, 5 BND, 6 EIOS; control flag and value of each symbol (R91). -/
  | ordered (lane : Nat) (kind : Nat) (syms : List (Bool × Nat))
  /-- A chain packet: chain, header bytes, body and CRC-16 (R252). -/
  | chain (c : Nat) (h0 h1 seq : Nat) (body : List Byte) (crc : Nat)
  /-- A period marker: chain, pnum, D, ph and crc8 (R251). -/
  | marker (c : Nat) (pnum d ph crc8 : Nat)
  /-- A pulse on PSYNC_IO at a period start (R410). -/
  | psync (pnum : Nat)
deriving DecidableEq, Repr

/-- The state of the ORX-1310. -/
structure State where
  /-- The commands that wait, oldest first. -/
  pending : List Instr := []
  /-- Core cycles since the model began, and at the last period start. -/
  now     : Nat := 0
  pstart  : Nat := 0
  /-- The register words that differ from reset, or were written, by register-space address (R57). -/
  regs    : List (Nat × Word) := []
  /-- The SRAM (R21). -/
  sram    : Memory := []
  /-- The SRAM words, by byte address divided by 8, with a correctable and with an uncorrectable error (R186, R187). -/
  ecc1    : List Nat := []
  ecc2    : List Nat := []
  /-- The OTP (R457, R157, R45); a device with serial 0, grade A0 and nothing else programmed (DESIGN CHOICE, log entry 5). -/
  otp     : Memory := [(0x1C, 0x24), (0x1D, 0x44), (0x1E, 0x0A), (0x1F, 0x53)]
  boot    : Boot := {}
  isl     : Island := {}
  cl      : Clauses := {}
  vid     : Video := {}
  fades   : Vector Fade 160 := Vector.replicate 160 {}
  chains  : Vector Chain 20 := Vector.replicate 20 {}
  tiles   : Vector Tile 80 := Vector.replicate 80 {}
  light   : Light := {}
  flt     : Flt := {}
  adc     : Adc := {}
  bal     : Bal := {}
  spl     : Spl := {}
  sio     : Sio := {}
  skink   : Skink := {}
  link    : Link := {}
  spi     : Spi := {}
  spd     : Spd := {}
  pair    : Pair := {}
  /-- What the device has sent, newest first. -/
  out     : List Out := []
  /-- How many free values have been drawn. -/
  draws   : Nat := 0
deriving DecidableEq, Repr

/-- The machine right after power-on reset, before reset release (R31, R40). -/
def State.reset : State := {}

end Sys2Proof.Machine
end

