-- ==== Sys2Proof/Machine/Ops.lean ====
section
/-! DEFINITION. The named operations over the register file, the memories, the clock of periods and the output record. -/

namespace Sys2Proof.Machine

/-- Ones in bits `lo` to `lo + w - 1`. -/
def fieldMask (lo w : Nat) : Word := ((BitVec.allOnes w).setWidth 32) <<< lo

/-- The value of bits `lo` to `lo + w - 1`. -/
def getBits (x : Word) (lo w : Nat) : Nat := (x.extractLsb' lo w).toNat

/-- The word with `v` in bits `lo` to `lo + w - 1`. -/
def insBits (x : Word) (lo w v : Nat) : Word :=
  (x &&& ~~~(fieldMask lo w)) ||| ((BitVec.ofNat w v).setWidth 32 <<< lo)

/-- The value a register word holds: its reset value until something is put there (R59). -/
def State.reg (s : State) (a : Nat) : Word := (kvFind s.regs a).getD (resetWord a)

/-- The value of a register word as a number. -/
def State.regN (s : State) (a : Nat) : Nat := (s.reg a).toNat

/-- A register word takes a value. -/
def State.setReg (s : State) (a : Nat) (v : Word) : State := { s with regs := kvPut s.regs a v }

/-- A register word takes a number. -/
def State.setRegN (s : State) (a v : Nat) : State := s.setReg a (BitVec.ofNat 32 v)

/-- The value of a field. -/
def State.get (s : State) (f : Fld) : Nat := getBits (s.reg f.addr) f.lo f.w

/-- A field takes a value. -/
def State.put (s : State) (f : Fld) (v : Nat) : State := s.setReg f.addr (insBits (s.reg f.addr) f.lo f.w v)

/-- Whether a field is not zero. -/
def State.on (s : State) (f : Fld) : Bool := s.get f != 0

/-- A one-bit field takes a truth value. -/
def State.flag (s : State) (f : Fld) (b : Bool) : State := s.put f b.toNat

/-- A saturating counter field rises by `n` (R78: a field saturates as its table states). -/
def State.incBy (s : State) (f : Fld) (n : Nat) : State := s.put f (min (s.get f + n) (2 ^ f.w - 1))

/-- A saturating counter field rises by one. -/
def State.inc (s : State) (f : Fld) : State := s.incBy f 1

/-- A wrapping counter field rises by one. -/
def State.incWrap (s : State) (f : Fld) : State := s.put f (s.get f + 1)

/-- A field keeps the highest value it is given. -/
def State.peak (s : State) (f : Fld) (v : Nat) : State := s.put f (max (s.get f) (min v (2 ^ f.w - 1)))

/-- Bit `n` of a register word. -/
def State.bit (s : State) (a n : Nat) : Bool := (s.reg a).getLsbD n

/-- Bit `n` of a register word takes a truth value. -/
def State.setBit (s : State) (a n : Nat) (b : Bool) : State := s.setReg a (insBits (s.reg a) n 1 b.toNat)

/-- Every word of a list takes zero. -/
def State.zeroRegs (s : State) (as : List Nat) : State := as.foldl (fun t a => t.setReg a 0) s

/-- An event of a page sets its bit in PIRQ_RAW (R65). -/
def State.event (s : State) (p n : Nat) : State := s.setBit (R.PIRQ_RAW p) n true

/-- An event happens where its condition holds. -/
def State.eventIf (s : State) (c : Bool) (p n : Nat) : State := if c then s.event p n else s

/-- The present mode (R25, R52). -/
def State.mode (s : State) : Mode := modeOf (s.get F.SYS_STAT_mode)

/-- The mode becomes `m`. -/
def State.setMode (s : State) (m : Mode) : State := s.put F.SYS_STAT_mode m.code

/-- Whether the device is past SELFTEST, so that its interfaces answer and period timing runs (R25). -/
def State.live (s : State) : Bool := s.mode != .selftest

/-- Whether the device drives its chains: OPERATE or FALLBACK (R25). -/
def State.driving (s : State) : Bool := s.mode == .operate || s.mode == .fallback

/-- Whether composition and supervision run: OPERATE, MIRROR or FALLBACK (R25). -/
def State.lightMode (s : State) : Bool := s.mode == .operate || s.mode == .mirror || s.mode == .fallback

/-- CLS_PNOW (R83). -/
def State.pnow (s : State) : Nat := s.regN R.CLS_PNOW

/-- The state where `c` holds, else another. -/
def State.when (s : State) (c : Bool) (f : State → State) : State := if c then f s else s

/-- The device sends something. -/
def State.emit (s : State) (o : Out) : State := { s with out := o :: s.out }

/-- A period number `n` periods after another, wrapping (R83). -/
def perAdd (p n : Nat) : Nat := (p + n) % 2 ^ 32

/-- Whether period `p` has been reached at period `now`, with the half-window comparison of R74. -/
def perReached (p now : Nat) : Bool := (now + 2 ^ 32 - p % 2 ^ 32) % 2 ^ 32 < 2 ^ 31

/-- One byte of SRAM. -/
def State.byte (s : State) (a : Nat) : Byte := memByte s.sram a

/-- A little-endian number of `n` bytes of SRAM. -/
def State.le (s : State) (a n : Nat) : Nat := memLe s.sram a n

/-- Whether the SRAM word numbered `w` meets the `n` bytes at `a`. -/
def wordIn (a n w : Nat) : Bool := a < 8 * w + 8 && 8 * w < a + n

/-- What a write of `n` bytes at `a` does to the words in error that it meets (R186, R187): they take valid check bits, and an
uncorrectable one is zero but for the bytes written. -/
def State.mend (s : State) (a n : Nat) : State :=
  { s with sram := (s.ecc2.filter (wordIn a n)).foldl (fun m w => memZero m (8 * w) 8) s.sram,
           ecc1 := s.ecc1.filter fun w => !wordIn a n w, ecc2 := s.ecc2.filter fun w => !wordIn a n w }

/-- SRAM takes a list of bytes. -/
def State.setBytes (s : State) (a : Nat) (bs : List Byte) : State :=
  let t := s.mend a bs.length
  { t with sram := memPutBytes t.sram a bs }

/-- `n` bytes of SRAM take a number, lowest byte first. -/
def State.setLe (s : State) (a n v : Nat) : State := s.setBytes a (leBytes n v)

/-- A range of SRAM becomes zero. -/
def State.zero (s : State) (a n : Nat) : State :=
  let t := s.mend a n
  { t with sram := memZero t.sram a n }

/-- A free value is drawn: the counter that selects it rises. -/
def State.draw (s : State) : State := { s with draws := s.draws + 1 }

/-- An entry of a table with structures as entries changes. -/
def vecSet {α : Type} {n : Nat} (v : Vector α n) (i : Fin n) (f : α → α) : Vector α n := v.set i (f v[i])

/-- The state of an array tile. -/
def State.tile (s : State) (t : Nat) : Tile := s.tiles.toArray.getD t {}

end Sys2Proof.Machine
end

