-- ==== Sys2Proof/Machine/Pixels.lean ====
section
/-! DEFINITION. The pixel array and one composed pixel: the layout of the per-pixel regions (R22), membership, sources and
priority of aspects (R199 to R206), Chameleon calibration and the dimming curves (R213 to R217). -/

namespace Sys2Proof.Machine

/-- The array tile of pixel (x, y) (R22). -/
def tileOf (x y : Nat) : Nat := 16 * (y / 128) + x / 128

/-- The index of pixel (x, y) within its tile (R22). -/
def idxOf (x y : Nat) : Nat := 128 * (y % 128) + x % 128

/-- A pixel by its number, 16,384 times its array tile plus its index within the tile (R22). -/
def pixOf (x y : Nat) : Nat := 16384 * tileOf x y + idxOf x y

/-- The column of a pixel number. -/
def pixX (p : Nat) : Nat := p / 16384 % 16 * 128 + p % 128

/-- The line of a pixel number. -/
def pixY (p : Nat) : Nat := p / 16384 / 16 * 128 + p % 16384 / 128

/-- The tile row of a pixel number, 128 times its tile plus its row (R170). -/
def rowOf (p : Nat) : Nat := p / 128

/-- The SRAM address of a pixel's video word in buffer `b` (R21, R22). -/
def videoAddr (b p : Nat) : Nat := b * 0x280000 + 2 * p

/-- The SRAM address of the code group that holds a pixel's code in a slot (R21, R22). -/
def codeAddr (slot p : Nat) : Nat := 0x500000 + slot * 0x1E0000 + 24576 * (p / 16384) + 3 * (p % 16384 / 2)

/-- A byte of SRAM as an on-chip requester reads it: zero in a word with an uncorrectable error (R187). -/
def State.rdByte (s : State) (a : Nat) : Nat := if s.ecc2.contains (a / 8) then 0 else (s.byte a).toNat

/-- A little-endian number of bytes as an on-chip requester reads them. -/
def State.rdLe (s : State) (a : Nat) : Nat → Nat
  | 0 => 0
  | n + 1 => s.rdByte a + 256 * s.rdLe (a + 1) n

/-- The code of a pixel in a slot (R22: even pixel in [11:0], odd pixel in [23:12] of its group). -/
def State.codeIn (s : State) (slot p : Nat) : Nat := bits (s.rdLe (codeAddr slot p) 3) (p % 2 * 12) 12

/-- The 192 bytes of a row of 128 codes (R22). -/
def packCodes : List Nat → List Byte
  | a :: b :: r => leBytes 3 (a % 4096 + 4096 * (b % 4096)) ++ packCodes r
  | [a] => leBytes 3 (a % 4096)
  | [] => []

/-- A symbol descriptor's 64 bits (R181). -/
def State.symDesc (s : State) (k : Nat) : Nat := s.regN (R.MSK_SYMLo k) + 2 ^ 32 * s.regN (R.MSK_SYMHi k)

/-- Bits per pixel of a symbol format (R182). -/
def symBpp (d : Nat) : Nat := match bits d 18 2 with | 0 => 1 | 1 => 4 | _ => 8

/-- The stride of a symbol's rows in bytes (R182). -/
def symStride (d : Nat) : Nat := 8 * ceilDiv ((bits d 20 11 + 1) * symBpp d) 64

/-- The extent of a symbol in bytes (R182). -/
def symExtent (d : Nat) : Nat := symStride d * (bits d 32 10 + 1)

/-- Whether a symbol descriptor is valid (R181). -/
def symValid (d : Nat) : Bool := bits d 31 1 == 1

/-- The bitmap value of column `u`, row `v` of a symbol (R182). -/
def State.symValue (s : State) (d u v : Nat) : Nat :=
  let bit := u * symBpp d
  bits (s.rdByte (0xE00000 + 8 * bits d 0 18 + v * symStride d + bit / 8)) (bit % 8) (symBpp d)

/-- The greyscale level of a bitmap value (R203). -/
def greyLevel (d v : Nat) : Nat :=
  match bits d 18 2 with | 0 => 4095 | 1 => 273 * v | _ => v * 16 + v / 16

/-- A field of a context's configuration word. -/
def Ctx.cfg (c : Ctx) (lo w : Nat) : Nat := getBits c.w0 lo w

/-- The column and row of a pixel in a kind 1 context's symbol (R201). -/
def Ctx.symCol (c : Ctx) (x : Nat) : Int := (x : Int) - signed 12 (getBits c.w5 0 12)
def Ctx.symRow (c : Ctx) (y : Nat) : Int := (y : Int) - signed 12 (getBits c.w5 16 12)

/-- Whether a pixel lies in the extent of a kind 1 context's valid symbol (R170, R201). -/
def Ctx.inExtent (c : Ctx) (x y : Nat) : Bool :=
  symValid c.desc && decide (0 ≤ c.symCol x) && decide (c.symCol x ≤ bits c.desc 20 11) &&
    decide (0 ≤ c.symRow y) && decide (c.symRow y ≤ bits c.desc 32 10)

/-- The value of a symbol at a pixel for a kind 1 context; 0 outside its extent or when invalid (R201). -/
def Ctx.symAt (c : Ctx) (s : State) (x y : Nat) : Nat :=
  if c.inExtent x y then s.symValue c.desc (c.symCol x).toNat (c.symRow y).toNat else 0

/-- Whether entry `k` of a rectangle list at `base` covers a pixel (R201). -/
def State.rectCovers (s : State) (addr x y : Nat) : Bool :=
  let w := s.rdLe addr 8
  bits w 0 11 ≤ x && x ≤ bits w 11 11 && bits w 22 10 ≤ y && y ≤ bits w 32 10

/-- Whether a context covers a pixel (R201). -/
def Ctx.covers (c : Ctx) (s : State) (x y : Nat) : Bool :=
  if getBits c.w1 0 1 = 0 then
    (List.range (getBits c.w1 16 13 / 8)).any fun k => s.rectCovers (0x8C0000 + 8 * (getBits c.w1 1 15 + k)) x y
  else c.symAt s x y != 0

/-- The intensity source of a covered pixel (R203). -/
def Ctx.source (c : Ctx) (s : State) (video x y : Nat) : Nat :=
  let cst := getBits c.w4 16 12
  match c.cfg 7 2 with
  | 1 => video
  | 2 => (if getBits c.w1 0 1 = 0 then 4095 else greyLevel c.desc (c.symAt s x y)) * cst / 4095
  | _ => cst

/-- What an aspect that covers a pixel makes of the level beneath (R204). -/
def Ctx.contribute (c : Ctx) (s : State) (video x y level : Nat) : Nat :=
  let src := c.source s video x y
  let t := src * c.f / 4096
  match c.cfg 5 2 with
  | 0 => (clampInt 0 4095 ((level : Int) + (((src : Int) - level) * c.f).tdiv 4096)).toNat
  | 1 => max level t
  | 2 => min 4095 (level + t)
  | _ => min 4095 (level * t / 4095)

/-- Whether context `c` is applied after `d`: higher priority, then higher index (R204). -/
def Ctx.after (c d : Ctx) : Bool := d.cfg 9 8 < c.cfg 9 8 || (d.cfg 9 8 == c.cfg 9 8 && d.idx < c.idx)

/-- A context into its place in the order of application. -/
def ctxInsert (c : Ctx) : List Ctx → List Ctx
  | [] => [c]
  | d :: r => if c.after d then d :: ctxInsert c r else c :: d :: r

/-- The contexts of a snapshot in the order of application (R204). -/
def ctxOrder (l : List Ctx) : List Ctx := l.foldr ctxInsert []

/-- The owning aspect of a pixel among ordered contexts (R206): the last that covers it with f above 0, else the last that
covers it. -/
def ownerOf (s : State) (ctxs : List Ctx) (x y : Nat) : Option Nat :=
  let cov := ctxs.filter fun c => c.covers s x y
  match (cov.filter fun c => c.f > 0).getLast? with
  | some c => some c.idx
  | none => cov.getLast?.map fun c => c.idx

/-- The temperature index in use of an array tile (R215, R223). -/
def State.tidx (s : State) (t : Nat) : Nat := (s.tile t).idx.getD (s.get F.CAL_TCFG_q0)

/-- The calibrated level of a pixel (R213, R214). -/
def State.calibrate (s : State) (p level : Nat) : Nat :=
  if s.on F.CAL_CFG_byp then level
  else
    let e := s.rdLe (0x900000 + 2 * p) 2
    let b := 0xB80000 + 64 * bits e 10 6
    let q := s.tidx (p / 16384)
    let j := q / 8
    let r := q % 8
    let k := (s.rdLe (b + 2 * j) 2 * (8 - r) + s.rdLe (b + 2 * min (j + 1) 15) 2 * r) / 8
    min 4095 (level * bits e 0 10 * k / 2 ^ 24)

/-- The number of the dimming curve of a pixel's tile (R216). -/
def State.dimCurve (s : State) (p : Nat) : Nat := getBits (s.reg (R.CAL_TCURV (p / 16384 / 16))) (2 * (p / 16384 % 16)) 2

/-- The dimming curve's code for a pixel's level (R216). -/
def State.dim (s : State) (p level : Nat) : Nat :=
  bits (s.rdLe (0xB88000 + 8192 * s.dimCurve p + 2 * level) 2) 0 12

/-- The video level of a pixel in a buffer (R163). -/
def State.video (s : State) (buf p : Nat) : Nat := bits (s.rdLe (videoAddr buf p) 2) 0 12

/-- The calibrated level of a pixel, from the front buffer and the ordered contexts of the pass (R169). -/
def State.layerLevel (s : State) (buf : Nat) (ctxs : List Ctx) (p : Nat) : Nat :=
  let x := pixX p
  let y := pixY p
  let v := s.video buf p
  s.calibrate p ((ctxs.filter fun c => c.covers s x y).foldl (fun l c => c.contribute s v x y l) v)

/-- The code of a pixel up to the dimming curve (R169). -/
def State.layerCode (s : State) (buf : Nat) (ctxs : List Ctx) (p : Nat) : Nat := s.dim p (s.layerLevel buf ctxs p)

/-- Whether a context's membership of pixels is read from an SRAM word: its rectangle list, or the bitmap bits of one of `ps` (R187,
R201). -/
def Ctx.reads (c : Ctx) (ps : List Nat) (w : Nat) : Bool :=
  if getBits c.w1 0 1 = 0 then wordIn (0x8C0000 + 8 * getBits c.w1 1 15) (8 * (getBits c.w1 16 13 / 8)) w
  else ps.any fun p => c.inExtent (pixX p) (pixY p) &&
    wordIn (0xE00000 + 8 * bits c.desc 0 18 + (c.symRow (pixY p)).toNat * symStride c.desc +
      (c.symCol (pixX p)).toNat * symBpp c.desc / 8) 1 w

/-- Whether the code of a pixel is computed from an SRAM word: its video, calibration entry and bin record, and its dimming curve
(R187, R213 to R216). -/
def State.pixelReads (s : State) (buf : Nat) (ctxs : List Ctx) (p w : Nat) : Bool :=
  let b := 0xB80000 + 64 * bits (s.rdLe (0x900000 + 2 * p) 2) 10 6
  let j := s.tidx (p / 16384) / 8
  wordIn (videoAddr buf p) 2 w ||
    (!s.on F.CAL_CFG_byp && (wordIn (0x900000 + 2 * p) 2 w || wordIn (b + 2 * j) 2 w || wordIn (b + 2 * min (j + 1) 15) 2 w)) ||
    wordIn (0xB88000 + 8192 * s.dimCurve p + 2 * s.layerLevel buf ctxs p) 2 w

end Sys2Proof.Machine
end

