-- ==== Sys2Proof/Machine/Settings.lean ====
section
/-! DEFINITION. The timing of a period at a divider D (R225 to R231), and the settings that govern the chains: the CHN, TIL and
PLC registers, or the fallback descriptor in their place (R45 to R47). -/

namespace Sys2Proof.Machine

/-- Slots in a period (R226). -/
def slotsOf (d : Nat) : Nat := 4096 * d / 500

/-- The tail of a period in chain clocks (R226). -/
def tailOf (d : Nat) : Nat := 4096 * d - 500 * slotsOf d

/-- The minimum provable on-time in ticks (R226). -/
def windowTicks (d : Nat) : Nat := ceilDiv 500 d

/-- The supervision cycle in periods (R227). -/
def cycleOf (d : Nat) : Nat := if slotsOf d ≥ 384 then 2 else 4

/-- Periods in a frame at the highest frame rate (R300). -/
def framePeriods (d maxHz : Nat) : Nat := ceilDiv 80000 (d * maxHz)

/-- The start slot of row `r` at offset `o` (R228). -/
def startSlot (d r o : Nat) : Nat :=
  let S := slotsOf d
  if S ≥ 384 then (3 * r + o) % S else (3 * (r % 64) + r / 64 + o) % S

/-- Whether period `p` is a dark-check period (R229). -/
def darkPeriod (p : Nat) : Bool := p % 2 == 1

/-- Whether row `r` is sensed in period `p` (R229). -/
def rowSensed (d p r : Nat) : Bool := slotsOf d ≥ 384 || r / 64 == p % 4 / 2

/-- The token slot of a tile at offset `o` (R267). -/
def tokenSlot (d o : Nat) : Nat :=
  let S := slotsOf d
  if S ≥ 384 then (o + 382) % S else (o + 191) % S

/-- The descriptor's byte at an offset (R45). -/
def State.fbByte (s : State) (o : Nat) : Nat := (memByte s.otp (0x40 + o)).toNat

/-- A little-endian field of the descriptor (R45). -/
def State.fbLe (s : State) (o n : Nat) : Nat := memLe s.otp (0x40 + o) n

/-- The descriptor's tile count of chain `c` (R45). -/
def State.fbPop (s : State) (c : Nat) : Nat := bits (s.fbByte (8 + c / 2)) (4 * (c % 2)) 4

/-- Rectangle `k` of the descriptor (R45). -/
def State.fbRect (s : State) (k : Nat) : Nat := s.fbLe (0x64 + 8 * k) 8

/-- D in use (R225). -/
def State.dNow (s : State) : Nat := s.get F.PLC_PHASE_d

/-- Core cycles in a period: 12.5 × D µs (R225). -/
def State.periodCycles (s : State) : Nat := 5000 * s.dNow

/-- The number of the first period start that lies at least `n` core cycles from now (2 µs is 800 core cycles). -/
def State.periodAfter (s : State) (n : Nat) : Nat :=
  if s.now + n ≤ s.pstart + s.periodCycles then perAdd s.pnow 1 else perAdd s.pnow 2

/-- The number of the first period start at least 2 µs from now (R74, R167, R207, R266). -/
def State.nextStart (s : State) : Nat := s.periodAfter 800

/-- The enabled TIL instances (R278). -/
def State.instances (s : State) : List Nat := (List.range 80).filter fun i => s.on (F.TIL_MAP_en i)

/-- The TIL instance that shows array tile `t`: the first enabled one whose index names it (R47, R278). -/
def State.instOf (s : State) (t : Nat) : Option Nat := s.instances.find? fun i => s.get (F.TIL_MAP_index i) == t

/-- Tiles on chain `c` under the settings `fb`: the descriptor's, or the CHN pages' (R47, R276). -/
def State.popIn (s : State) (fb : Bool) (c : Nat) : Nat :=
  if fb then s.fbPop c else if s.on (F.CHN_CTRL_en c) then s.get (F.CHN_CTRL_tiles c) else 0

/-- The array tile at a position of a chain under the settings `fb` (R45, R278). -/
def State.tileIn (s : State) (fb : Bool) (c pos : Nat) : Option Nat :=
  if fb then (List.range 80).find? fun t => s.fbByte (0x12 + t) == 8 * c + pos
  else (s.instances.find? fun i => s.get (F.TIL_MAP_chain i) == c && s.get (F.TIL_MAP_pos i) == pos).map
    fun i => s.get (F.TIL_MAP_index i)

/-- The chain and position of an array tile under the settings `fb`. -/
def State.placeIn (s : State) (fb : Bool) (t : Nat) : Option (Nat × Nat) :=
  if fb then (if s.fbByte (0x12 + t) = 0xFF then none else some (s.fbByte (0x12 + t) / 8, s.fbByte (0x12 + t) % 8))
  else (s.instOf t).map fun i => (s.get (F.TIL_MAP_chain i), s.get (F.TIL_MAP_pos i))

/-- The array tiles enabled under the settings `fb`, in ascending order. -/
def State.tilesIn (s : State) (fb : Bool) : List Nat := (List.range 80).filter fun t => (s.placeIn fb t).isSome

/-- Tiles on chain `c` under the settings in use. -/
def State.pop (s : State) (c : Nat) : Nat := s.popIn s.light.fb c

/-- The array tile at a position of a chain under the settings in use. -/
def State.tileAt (s : State) (c pos : Nat) : Option Nat := s.tileIn s.light.fb c pos

/-- The chain and position of an array tile under the settings in use. -/
def State.place (s : State) (t : Nat) : Option (Nat × Nat) := s.placeIn s.light.fb t

/-- The array tiles enabled under the settings in use. -/
def State.tileList (s : State) : List Nat := s.tilesIn s.light.fb

/-- The array tiles of a chain under the settings in use, by position. -/
def State.chainTiles (s : State) (c : Nat) : List Nat := (List.range (s.pop c)).filterMap fun p => s.tileAt c p

/-- The supply channel of an array tile (R278, R279); 0 where no enabled instance shows the tile. -/
def State.rail (s : State) (t : Nat) : Nat := match s.instOf t with | some i => s.get (F.TIL_MAP_rail i) | none => 0

/-- The initial offset of an array tile (R233). -/
def State.initialOff (s : State) (d : Nat) (fb : Bool) (t : Nat) : Nat :=
  match s.placeIn fb t with
  | some (c, q) => slotsOf d * q / s.popIn fb c
  | none => 0

/-- Whether the FALLBACK rules of supervision and of the mask hold: in FALLBACK, and in a standby whose partner is in FALLBACK (R47, R180,
R417). -/
def State.fbMode (s : State) : Bool := s.mode == .fallback || (s.mode == .mirror && s.pair.forFb)

/-- The proof interval in use (R47, R296). -/
def State.proofN (s : State) : Nat := if s.fbMode then 64 else s.get F.PRF_CFG_interval

/-- The usable ledger entries of a tile (R297). -/
def State.ledgerCap (s : State) : Nat := min 1024 (64 * s.proofN / cycleOf s.dNow)

/-- The confirmation count in use (R47, R285). -/
def State.confN (s : State) : Nat := if s.fbMode then s.fbByte 6 else s.get F.SUP_CFG_count

/-- Chain clocks between two passes (R171): 1 ÷ max_hz, rounded down. -/
def State.passGap (s : State) : Nat := 327680000 / s.get F.VIN_RATE_max_hz

/-- The starts of the token slots of tiles at given offsets, in core cycles from the period start (R267). A slot is 500 chain clocks. -/
def tokenTimes (d : Nat) (offs : List Nat) : List Nat := offs.map fun o => ceilDiv (tokenSlot d o * 2500000) 4096

/-- PLC_GEOM, PRF_GEOM and PLC_PHASE at the D in use in period `p` (R243, R310). -/
def State.showTiming (s : State) (d p : Nat) : State :=
  ((((((((s.put F.PLC_GEOM_slots (slotsOf d)).put F.PLC_GEOM_w (windowTicks d)).put F.PLC_GEOM_cyc (cycleOf d)).put
    F.PLC_GEOM_tail (tailOf d)).put F.PLC_PHASE_dark (p % 2)).put F.PLC_PHASE_half
      (if slotsOf d ≥ 384 then 0 else p % 4 / 2)).put F.PLC_PHASE_pos (p % cycleOf d)).put F.PLC_PHASE_d d).put
    F.PRF_GEOM_f (framePeriods d (s.get F.VIN_RATE_max_hz)) |>.put F.PRF_GEOM_cap (min 1024 (64 * s.proofN / cycleOf d))

end Sys2Proof.Machine
end

