-- ==== Sys2Proof/Machine/Placement.lean ====
section
/-! DEFINITION. The placement engine: current profiles, admissible offsets, the search, and the predicted rail current (R232 to
R240). -/

namespace Sys2Proof.Machine

/-- Slots that a pulse of code `c` covers (R236). -/
def coverSlots (d c : Nat) : Nat := min (slotsOf d) ((c * d + 249) / 500)

/-- Whether a pulse covers slot `j` of a tile at offset 0 (R236). -/
def profileHit (d : Nat) (dark : Bool) (row c j : Nat) : Bool :=
  let S := slotsOf d
  let s0 := startSlot d row 0
  if dark then (s0 + 2 * S - 1 - j) % S < coverSlots d c else (j + S - s0) % S < coverSlots d c

/-- The current of a pixel in µA (R214, R236): i_nom of its bin record, or 1 under the descriptor (R239). -/
def State.pixelCurrent (s : State) (fb : Bool) (p : Nat) : Nat :=
  if fb then 1 else s.rdLe (0xB80000 + 64 * bits (s.rdLe (0x900000 + 2 * p) 2) 10 6 + 32) 2

/-- What the placement engine holds on chip of a code slot (R236, R238): the pixels that its latest pass lit. -/
def State.litIn (s : State) (slot : Nat) : List LitPixel := s.vid.lit.toArray.getD slot []

/-- The pixels of an array tile that light in some slot: row, code and current (R236). -/
def litPixels (px : List LitPixel) (d t : Nat) : List (Nat × Nat × Nat) :=
  px.filterMap fun e =>
    if e.pix / 16384 ≠ t ∨ coverSlots d e.code = 0 then none else some (e.pix % 16384 / 128, e.code, e.cur)

/-- The current that pixels draw in slot `j` of their tile at offset 0 (R236). -/
def slotCurrent (d : Nat) (dark : Bool) (px : List (Nat × Nat × Nat)) (j : Nat) : Nat :=
  (px.map fun (e : Nat × Nat × Nat) => if profileHit d dark e.1 e.2.1 j then e.2.2 else 0).sum

/-- The profile of an array tile over lit pixels (R236). -/
def profile (px : List LitPixel) (d : Nat) (dark : Bool) (t : Nat) : List Nat :=
  (List.range (slotsOf d)).map (slotCurrent d dark (litPixels px d t))

/-- Entry `j` of a profile. -/
def profileAt (l : List Nat) (j : Nat) : Nat := l.getD j 0

/-- Whether two token slots are spaced (R234). -/
def spaced (S u v : Nat) : Bool := 22 ≤ (v + S - u) % S && 22 ≤ (u + S - v) % S

/-- What the search works on: D, the chain of each tile, its previous offset, its rail and its two profiles. -/
structure PlaceIn where
  d     : Nat
  tiles : List Nat
  chain : List (Nat × Nat)
  prev  : List (Nat × Nat)
  rail  : List (Nat × Nat)
  lit   : List (Nat × List Nat)
  dark  : List (Nat × List Nat)
deriving DecidableEq, Repr

/-- A profile of the search. -/
def profOf (l : List (Nat × List Nat)) (t : Nat) : List Nat := (kvFind l t).getD []

/-- The token slot of tile `u` while others are placed: its new offset where it is placed (R234). -/
def PlaceIn.token (pi : PlaceIn) (done : List (Nat × Nat)) (u : Nat) : Nat :=
  tokenSlot pi.d ((kvFind done u).getD (kvNat pi.prev u))

/-- Whether a tile wraps at advance `k` (R234). -/
def PlaceIn.wraps (pi : PlaceIn) (t k : Nat) : Bool := slotsOf pi.d ≤ tokenSlot pi.d (kvNat pi.prev t) + k

/-- Whether advance `k` is admissible for tile `t` (R234). -/
def PlaceIn.admissible (pi : PlaceIn) (done : List (Nat × Nat)) (t k : Nat) : Bool :=
  let S := slotsOf pi.d
  let y := tokenSlot pi.d ((kvNat pi.prev t + k) % S)
  let others := pi.tiles.filter fun u => u != t && kvNat pi.chain u == kvNat pi.chain t
  let wrapped := (others.filter fun u => match kvFind done u with
    | some o => pi.wraps u ((o + S - kvNat pi.prev u) % S)
    | none => false)
  let clear (w : Nat) (l : List Nat) : Bool := l.all fun v => let g := (v + S - w) % S; g == 0 || 42 < g
  (others.all fun u => spaced S y (pi.token done u)) &&
    (!pi.wraps t k || clear y (others.map (pi.token done))) &&
    wrapped.all fun u => clear (pi.token done u) (y :: (others.filter (· != u)).map (pi.token done))

/-- The cost of offset `o` for tile `t` over the accumulators of its rail (R237). -/
def PlaceIn.cost (pi : PlaceIn) (al ad : List Nat) (t o : Nat) : Nat :=
  let S := slotsOf pi.d
  ((List.range S).map fun j => profileAt al ((j + o) % S) * profileAt (profOf pi.lit t) j +
    profileAt ad ((j + o) % S) * profileAt (profOf pi.dark t) j).sum

/-- An accumulator with a profile added at offset `o` (R237). -/
def accumulate (S : Nat) (a prof : List Nat) (o : Nat) : List Nat :=
  (List.range S).map fun j => profileAt a j + profileAt prof ((j + S - o % S) % S)

/-- The weight of a tile (R236). -/
def PlaceIn.weight (pi : PlaceIn) (t : Nat) : Nat := (profOf pi.lit t).sum + (profOf pi.dark t).sum

/-- A tile into its place by descending weight, ties to the lower index (R237). -/
def PlaceIn.insert (pi : PlaceIn) (t : Nat) : List Nat → List Nat
  | [] => [t]
  | u :: r => if pi.weight u > pi.weight t || (pi.weight u == pi.weight t && u < t) then u :: pi.insert t r else t :: u :: r

/-- The best advance of a tile: the first of the lowest cost (R237). -/
def PlaceIn.best (pi : PlaceIn) (done : List (Nat × Nat)) (al ad : List Nat) (t : Nat) : Nat :=
  let S := slotsOf pi.d
  let cand := ((List.range 16).filter fun k => pi.admissible done t k).map fun k =>
    (k, pi.cost al ad t ((kvNat pi.prev t + k) % S))
  (cand.foldl (fun b c => match b with
    | some (k, v) => if c.2 < v then some c else some (k, v)
    | none => some c) none).elim 0 Prod.fst

/-- The state of the search: new offsets, and the two accumulators of each rail. -/
structure PlaceAcc where
  done : List (Nat × Nat) := []
  lit  : List (Nat × List Nat) := []
  dark : List (Nat × List Nat) := []
deriving DecidableEq, Repr

/-- One tile placed (R237). -/
def PlaceIn.step (pi : PlaceIn) (a : PlaceAcc) (t : Nat) : PlaceAcc :=
  let S := slotsOf pi.d
  let g := kvNat pi.rail t
  let o := (kvNat pi.prev t + pi.best a.done (profOf a.lit g) (profOf a.dark g) t) % S
  { done := kvPut a.done t o,
    lit := kvPut a.lit g (accumulate S (profOf a.lit g) (profOf pi.lit t) o),
    dark := kvPut a.dark g (accumulate S (profOf a.dark g) (profOf pi.dark t) o) }

/-- The new offsets of every tile (R237). -/
def PlaceIn.search (pi : PlaceIn) : List (Nat × Nat) :=
  ((pi.tiles.foldr pi.insert []).foldl pi.step {}).done

/-- What the placement of the frame in slot `slot` works on, under the settings `fb` at divider `d` (R236, R239). -/
def State.placeInput (s : State) (fb : Bool) (d slot : Nat) : PlaceIn :=
  let ts := s.tilesIn fb
  let by' (f : Nat → Nat) : List (Nat × Nat) := ts.map fun t => (t, f t)
  { d := d, tiles := ts,
    chain := by' fun t => ((s.placeIn fb t).getD (0, 0)).1,
    prev := by' fun t => (s.tiles.toArray.getD t {}).prev,
    rail := by' fun t => if fb then 0 else s.rail t,
    lit := ts.map fun t => (t, profile (s.litIn slot) d false t),
    dark := ts.map fun t => (t, profile (s.litIn slot) d true t) }

/-- The offset and the profile of every tile of rail `g` (R240). -/
def State.railProfiles (s : State) (fb : Bool) (d : Nat) (dark : Bool) (px : List LitPixel) (off : Nat → Nat) (g : Nat) :
    List (Nat × List Nat) :=
  ((s.tilesIn fb).filter fun t => (if fb then 0 else s.rail t) == g).map fun t =>
    (off t % slotsOf d, profile px d dark t)

/-- The predicted current of slot `k` over offsets and profiles (R240), in µA. -/
def predictAt (d : Nat) (ps : List (Nat × List Nat)) (k : Nat) : Nat :=
  (ps.map fun (e : Nat × List Nat) => profileAt e.2 ((k + slotsOf d - e.1) % slotsOf d)).sum

/-- The predicted current of rail `g` in slot `k` for lit pixels and offsets (R240), in µA. -/
def State.predict (s : State) (fb : Bool) (d : Nat) (dark : Bool) (px : List LitPixel) (off : Nat → Nat) (g k : Nat) : Nat :=
  predictAt d (s.railProfiles fb d dark px off g) k

end Sys2Proof.Machine
end

