-- ==== Sys2Proof/Machine/Compose.lean ====
section
/-! DEFINITION. Composition: dirty rows (R170), the snapshot (R205), neighbour fill (R324, R325), the codes of a row (R169,
R47), the mask (R175) and the codes that the tiles drive. -/

namespace Sys2Proof.Machine

/-- A number into a rising list without repeats. -/
def addNum (a : Nat) : List Nat → List Nat
  | [] => [a]
  | b :: r => if a = b then b :: r else if a < b then a :: b :: r else b :: addNum a r

/-- New members of a list behind it, in their order. -/
def addLast (new l : List Nat) : List Nat := l ++ new.filter fun r => !l.contains r

/-- Rows marked dirty (R170). -/
def State.markRows (s : State) (rs : List Nat) : State :=
  { s with vid := { s.vid with dirty := rs.foldr addNum s.vid.dirty } }

/-- Every row marked dirty (R170). -/
def State.markAll (s : State) : State := { s with vid := { s.vid with dirty := List.range 10240 } }

/-- The rows of an array tile. -/
def tileRows (t : Nat) : List Nat := (List.range 128).map fun r => 128 * t + r

/-- The context of an aspect as the registers hold it, with its fade level (R198, R205). -/
def State.ctxOf (s : State) (a : Nat) : Ctx :=
  let w1 := s.reg (R.ASP_MEMB a)
  { idx := a, w0 := s.reg (R.ASP_CFG a), w1 := w1, w4 := s.reg (R.ASP_CTL a), w5 := s.reg (R.ASP_POS a),
    f := s.get (F.ASP_FST_f a), desc := if getBits w1 0 1 = 1 then s.symDesc (getBits w1 1 8) else 0 }

/-- The defined aspects (R199). -/
def State.defined (s : State) : List Nat := (List.range 160).filter fun a => s.on (F.ASP_CFG_def a)

/-- The rows that a context's membership touches. -/
def State.rowsCovered (s : State) (c : Ctx) : List Nat :=
  (List.range 10240).filter fun r => (List.range 128).any fun k => c.covers s (pixX (128 * r + k)) (pixY (128 * r + k))

/-- The rows of an aspect's membership, none while it is not defined (R199). -/
def State.aspectRows (s : State) (a : Nat) : List Nat :=
  if s.on (F.ASP_CFG_def a) then s.rowsCovered (s.ctxOf a) else []

/-- The rows of the extent of the symbol that a kind 1 aspect shows (R170). -/
def State.extentRows (s : State) (a : Nat) : List Nat :=
  let c := s.ctxOf a
  (List.range 10240).filter fun r => (List.range 128).any fun k => c.inExtent (pixX (128 * r + k)) (pixY (128 * r + k))

/-- The contexts that a pass starting now takes, in the order of application (R204, R205). -/
def State.takeCtxs (s : State) : List Ctx := ctxOrder (s.defined.map s.ctxOf)

/-- The slot in force (R193). -/
def State.slotNow (s : State) : Nat := s.get F.CMP_STAT_inforce

/-- The snapshot beside a slot (R205). -/
def State.snapOf (s : State) (slot : Nat) : Snap := s.vid.snap.toArray.getD slot {}

/-- The mask that the rows in force carry: none where they show no layers (R180). -/
def State.maskShown (s : State) : List Word := if (s.snapOf s.slotNow).kind = .layers then s.vid.maskNow else []

/-- The owner of a pixel by the snapshot beside a slot (R206); none where the slot shows the fallback beam. -/
def State.owner (s : State) (slot p : Nat) : Option Nat :=
  match (s.snapOf slot).kind with
  | .fallback => none
  | _ => ownerOf s (s.snapOf slot).ctxs (pixX p) (pixY p)

/-- Entry `k` of the fault list (R290). -/
def State.faultEntry (s : State) (k : Nat) : Nat := s.rdLe (0xDE8000 + 8 * k) 8

/-- The entries of the fault list in use: their numbers and values. An entry in use holds a fault state (R290). -/
def State.faultList (s : State) : List (Nat × Nat) :=
  ((List.range 4096).map fun k => (k, s.faultEntry k)).filter fun e => bits e.2 21 3 != 0

/-- The pixel of a fault list entry. -/
def entryPix (e : Nat) : Nat := 16384 * bits e 0 7 + bits e 7 14

/-- The state byte of a pixel (R289). -/
def State.pixByte (s : State) (p : Nat) : Nat := s.rdByte (0xC00000 + p)

/-- The state of a pixel (R289: 0x7 is treated as SENSEFAIL). -/
def State.pixState (s : State) (p : Nat) : Nat := if bits (s.pixByte p) 0 3 = 7 then 4 else bits (s.pixByte p) 0 3

/-- conf of a pixel (R289). -/
def State.pixConf (s : State) (p : Nat) : Nat := bits (s.pixByte p) 3 3

/-- prf of a pixel (R289: 0b11 is treated as 0b00). -/
def State.pixPrf (s : State) (p : Nat) : Nat := if bits (s.pixByte p) 6 2 = 3 then 0 else bits (s.pixByte p) 6 2

/-- A pixel's state byte takes a state, conf and prf. -/
def State.setPix (s : State) (p st conf prf : Nat) : State := s.setLe (0xC00000 + p) 1 (st + 8 * conf + 64 * prf)

/-- The dead pixels of a pass with contexts `ctxs`, in ascending order: OPEN or SHORT, charged to a FAIL_FILL aspect that
owns them in the pass (R324). -/
def State.deadPixels (s : State) (ctxs : List Ctx) : List Nat :=
  (s.faultList.filterMap fun e =>
    let p := entryPix e.2
    let a := bits e.2 24 8
    if (bits e.2 21 3 = 1 ∨ bits e.2 21 3 = 2) ∧ a < 160 ∧ s.get (F.ASP_CFG_policy a) = 2 ∧
      ownerOf s ctxs (pixX p) (pixY p) = some a then some p else none).foldr addNum []

/-- The four neighbours of a pixel in the array, in the order of R324. -/
def neighbours (p : Nat) : List Nat :=
  let x := pixX p
  let y := pixY p
  (if 0 < x then [pixOf (x - 1) y] else []) ++ (if x < 2047 then [pixOf (x + 1) y] else []) ++
    (if 0 < y then [pixOf x (y - 1)] else []) ++ (if y < 639 then [pixOf x (y + 1)] else [])

/-- The fill neighbours of a dead pixel (R324). -/
def State.fillNeighbours (s : State) (ctxs : List Ctx) (dead : List Nat) (p : Nat) : List Nat :=
  (neighbours p).filter fun q => !dead.contains q && [0, 5, 6].contains (s.pixState q) &&
    ownerOf s ctxs (pixX q) (pixY q) == ownerOf s ctxs (pixX p) (pixY p)

/-- The dead pixels that are filled: those of the previous pass first, each while every fill window holds at most 16
(R325). -/
def fillChoice (before dead : List Nat) : List Nat :=
  let order := dead.filter before.contains ++ dead.filter fun p => !before.contains p
  order.foldl (fun l p =>
    let full (y : Int) : Bool := 16 ≤ (l.filter fun q => pixX q / 128 == pixX p / 128 &&
      decide (((pixY q : Int) - y).natAbs ≤ 1)).length
    let y : Int := pixY p
    if full (y - 1) && decide (0 < y) || full y || full (y + 1) && decide (y < 639) then l else l ++ [p]) []

/-- What a pass works on: what it shows, the array tiles that are lit, the ordered contexts, the front buffer, the dead pixels and
those it fills. -/
structure PassIn where
  kind   : FrameKind
  tiles  : List Nat
  ctxs   : List Ctx
  buf    : Nat
  dead   : List Nat
  filled : List Nat
deriving DecidableEq, Repr

/-- The fill that pixel `q` gains, by dead pixel, with its code after the fill (R324). -/
def State.fillGains (s : State) (pi : PassIn) (q : Nat) : Nat × List (Nat × Nat) :=
  (neighbours q).foldl (fun acc p =>
    if pi.filled.contains p then
      let ns := s.fillNeighbours pi.ctxs pi.dead p
      match ns.findIdx? (· == q) with
      | some j =>
        let cd := s.layerCode pi.buf pi.ctxs p
        let share := cd / ns.length + (if j < cd % ns.length then 1 else 0)
        let gained := min share (4095 - acc.1)
        (acc.1 + gained, acc.2 ++ [(p, gained)])
      | none => acc
    else acc) (s.layerCode pi.buf pi.ctxs q, [])

/-- The fill delivered to a dead pixel (R324). -/
def State.delivered (s : State) (pi : PassIn) (p : Nat) : Nat :=
  ((s.fillNeighbours pi.ctxs pi.dead p).map fun q =>
    (((s.fillGains pi q).2.filter fun g => g.1 == p).map Prod.snd).sum).sum

/-- The aspects with a fill loss in a pass: a dead pixel of theirs that is unfillable or got less than its code (R314,
R324). -/
def State.fillLosses (s : State) (pi : PassIn) : List Nat :=
  (pi.dead.filter fun p => (if pi.filled.contains p then s.delivered pi p else 0) < s.layerCode pi.buf pi.ctxs p).filterMap
    fun p => ownerOf s pi.ctxs (pixX p) (pixY p)

/-- The code of the descriptor's beam at a pixel: the highest of the rectangles that cover it (R45). -/
def State.beamCode (s : State) (p : Nat) : Nat :=
  ((List.range (s.fbByte 2)).map fun k =>
    let w := s.fbRect k
    if bits w 0 11 ≤ pixX p ∧ pixX p ≤ bits w 11 11 ∧ bits w 22 10 ≤ pixY p ∧ pixY p ≤ bits w 32 10
    then bits w 42 12 else 0).foldl max 0

/-- Whether the fallback beam is shown: always, or while the descriptor's safety input is on (R47, R382). -/
def State.fbShown (s : State) : Bool := s.fbByte 4 < 128 || s.on (F.SIO_INST_fbval (s.fbByte 4 % 8))

/-- The code that a pass gives a pixel before the proof adjustment (R169, R324, R47, R28). -/
def State.baseCode (s : State) (pi : PassIn) (p : Nat) : Nat :=
  if !pi.tiles.contains (p / 16384) then 0
  else match pi.kind with
  | .dark => 0
  | .fallback => if s.fbShown then s.beamCode p else 0
  | .layers => if pi.dead.contains p then 0 else (s.fillGains pi p).1

/-- The code that a pass gives a pixel: lowered by one tick where its prf says so (R169, R289). -/
def State.composed (s : State) (pi : PassIn) (p : Nat) : Nat := s.baseCode pi p - (if s.pixPrf p = 2 then 1 else 0)

/-- Whether a pass lowers the code of a pixel (R300). -/
def State.lowers (s : State) (pi : PassIn) (p : Nat) : Bool := s.pixPrf p == 2 && s.baseCode pi p != 0

/-- A row composed into a slot (R169, R172). -/
def State.composeRow (s : State) (pi : PassIn) (slot r : Nat) : State :=
  s.setBytes (codeAddr slot (128 * r)) (packCodes ((List.range 128).map fun k => s.composed pi (128 * r + k)))

/-- What the compositor reports of a pixel that a pass lights: its owner in the pass, its code and its current (R169, R236, R239, R240). -/
def State.litPixel (s : State) (pi : PassIn) (p : Nat) : Option LitPixel :=
  if s.baseCode pi p = 0 then none
  else
    let fb := pi.kind == .fallback
    some { pix := p, own := if fb then none else ownerOf s pi.ctxs (pixX p) (pixY p), code := s.composed pi p,
           cur := s.pixelCurrent fb p }

/-- What the placement engine holds of the slot of a pass (R236): the composed rows anew, the copied ones from the other slot, the rest as
it was. -/
def State.passLit (s : State) (pi : PassIn) (slot : Nat) (rows copies : List Nat) : List LitPixel :=
  ((s.litIn slot).filter fun e => !rows.contains (rowOf e.pix) && !copies.contains (rowOf e.pix)) ++
    ((s.litIn (1 - slot)).filter fun e => copies.contains (rowOf e.pix)) ++
    rows.flatMap fun r => (List.range 128).filterMap fun k => s.litPixel pi (128 * r + k)

/-- The 64 words of the mask registers: the newest generation applied (R175). -/
def State.maskWords (s : State) : List Word :=
  (List.range 32).flatMap fun k => [s.reg (R.MSK_RECTLo k), s.reg (R.MSK_RECTHi k)]

/-- Whether rectangle `k` of a mask is enabled and covers a pixel (R175, R196). -/
def maskRect (m : List Word) (k x y : Nat) : Bool :=
  let lo := m.getD (2 * k) 0
  let hi := m.getD (2 * k + 1) 0
  getBits hi 18 1 == 1 && getBits lo 0 11 ≤ x && x ≤ getBits lo 11 11 && getBits lo 22 10 ≤ y && y ≤ getBits hi 0 10

/-- Whether a mask covers a pixel (R175). -/
def masked (m : List Word) (p : Nat) : Bool := (List.range 32).any fun k => maskRect m k (pixX p) (pixY p)

/-- Whether a lit pixel stays lit under a mask and a set of aspects off (R240). -/
def LitPixel.shown (m : List Word) (off : List Nat) (e : LitPixel) : Bool :=
  !masked m e.pix && !(match e.own with | some a => off.contains a | none => false)

/-- The code a tile drives for a pixel: that of the slot, zero where the mask covers it or its owner is forced dark (R169,
R321). -/
def State.driven (s : State) (slot : Nat) (m : List Word) (off : List Nat) (p : Nat) : Nat :=
  if masked m p then 0
  else match s.owner slot p with
    | some a => if off.contains a then 0 else s.codeIn slot p
    | none => s.codeIn slot p

/-- The rows of some tiles in which the set of masked pixels differs between two masks (R176). -/
def maskRows (ts : List Nat) (m n : List Word) : List Nat :=
  (ts.flatMap tileRows).filter fun r => (List.range 128).any fun k => masked m (128 * r + k) != masked n (128 * r + k)

/-- The rows of some tiles with a pixel owned, in a slot, by an aspect of the list (R321). -/
def State.rowsOwned (s : State) (ts : List Nat) (slot : Nat) (as : List Nat) : List Nat :=
  (ts.flatMap tileRows).filter fun r => (List.range 128).any fun k =>
    match s.owner slot (128 * r + k) with | some a => as.contains a | none => false

/-- The rows of enabled tiles with a pixel owned, in the slot in force, by an aspect of the list (R321). -/
def State.ownedRows (s : State) (as : List Nat) : List Nat := s.rowsOwned s.tileList s.slotNow as

/-- A change of one chain. -/
def State.onChain (s : State) (c : Nat) (f : Chain → Chain) : State :=
  if h : c < 20 then { s with chains := vecSet s.chains ⟨c, h⟩ f } else s

/-- A change of one array tile. -/
def State.onTile (s : State) (t : Nat) (f : Tile → Tile) : State :=
  if h : t < 80 then { s with tiles := vecSet s.tiles ⟨t, h⟩ f } else s

/-- The state of a chain. -/
def State.chain (s : State) (c : Nat) : Chain := s.chains.toArray.getD c {}

/-- Whether a standby BEHIND runs its chain output stage as a replica (R422, R424). -/
def State.replica (s : State) : Bool := s.mode == .mirror && s.get F.AXO_STAT_pos == 2

/-- Rows queued on the chains of their tiles (R265, R270); a standby AHEAD, or one that does not yet know, streams none (R424). -/
def State.queueRows (s : State) (rs : List Nat) (f : Chain → List Nat → Chain) : State :=
  if s.mode = .mirror ∧ s.replica = false then s
  else (List.range 20).foldl (fun t c =>
    let mine := rs.filter fun r => match s.place (r / 128) with | some (d, _) => d == c | none => false
    if mine = [] then t else t.onChain c fun ch => f ch mine) s

/-- Rows into the fault-reaction queues (R265). -/
def State.queueReact (s : State) (rs : List Nat) : State :=
  s.queueRows rs fun ch l => { ch with react := addLast l ch.react }

/-- Rows into the urgent mask queues (R176). -/
def State.queueUrgent (s : State) (rs : List Nat) : State :=
  s.queueRows rs fun ch l => { ch with urgent := addLast l ch.urgent }

/-- Rows into the frame queues (R265). -/
def State.queueFrame (s : State) (rs : List Nat) : State :=
  s.queueRows rs fun ch l => { ch with frame := addLast l ch.frame }

/-- Frame rows that were already sent and whose content has changed are sent again before any frame LATCH (R176, R177). Once the LATCH is
issued they are not: the rows that follow join it. -/
def State.resendFrame (s : State) (rs : List Nat) : State :=
  s.queueRows rs fun ch l =>
    let sent (r : Nat) : Bool := ch.bankF.contains r || ch.expect.any fun e => e.typ == 1 && e.bank == 0 && e.key == r
    if ch.latchF.isSome then ch
    else { ch with frame := addLast (l.filter sent) ch.frame, bankF := ch.bankF.filter fun r => !l.contains r }

/-- The number of urgent mask rows queued (MSK_STAT.rows, R195). -/
def State.urgentCount (s : State) : Nat := ((List.range 20).map fun c => (s.chain c).urgent.length).sum

/-- Whether rows of a class are queued, not yet verified or failed for good on a chain. -/
def Chain.owes (ch : Chain) (cls : Nat) : Bool :=
  (if cls = 0 then !ch.react.isEmpty else if cls = 1 then !ch.urgent.isEmpty else !ch.frame.isEmpty) ||
    ((ch.expect ++ ch.again).any fun e => e.typ == 1 && e.cls == cls) || ch.failed.any fun e => e.2 == cls

/-- Whether urgent rows of an applied mask generation are in flight (R195). -/
def State.maskBusy (s : State) : Bool := (List.range 20).any fun c => (s.chain c).owes 1

/-- A chain gives up the frame rows of a pass (R174): those queued, those on the way, and those that its tiles hold pending, which no
LATCH of their pass will move. -/
def Chain.dropFrame (ch : Chain) : Chain :=
  { ch with frame := [], bankF := if ch.latchF.isSome then ch.bankF else [],
            again := ch.again.filter fun e => !(e.typ == 1 && e.cls == 2), failed := ch.failed.filter fun e => e.2 != 2,
            expect := ch.expect.map fun e => if e.typ = 1 ∧ e.cls = 2 then { e with cls := 3 } else e }

/-- Codes of a pass that has not come into force are dropped: the stage stops streaming it, and its placement is discarded, so that the
previous offsets stay (R174, R232). -/
def State.dropFrameRows (s : State) : State :=
  let s := { s with tiles := s.tiles.map fun (t : Tile) => ({ t with next := t.prev } : Tile) }
  (List.range 20).foldl (fun t c => t.onChain c Chain.dropFrame) s

/-- A running pass is abandoned, or a completed pass without a LATCH discarded (R174). -/
def State.dropPass (s : State) : State :=
  let st := s.get F.CMP_STAT_state
  if st = 0 then s
  else
    let s := ((s.inc F.CMP_PASS_abandoned).event 11 1).put F.CMP_STAT_state 0
    let s := s.markRows s.vid.rows
    { s.dropFrameRows with vid := { s.vid with placing := false } }

/-- A pass is discarded so that another starts at the first period start at which R171 allows it, with no gap after it (R48, R50). -/
def State.passAfresh (s : State) : State :=
  let t := s.dropPass
  { t with vid := { t.vid with passPer := none } }

/-- A swap event that supersedes a frame (R174). -/
def State.supersede (s : State) : State := (s.inc F.VIN_CNT_superseded).event 10 3

end Sys2Proof.Machine
end

