-- ==== Sys2Proof/Machine/Held.lean ====
section
/-! DEFINITION. The instances of the fault classes (R312), and the aspects that reaction and policy hold off (R320, R321, R323). -/

namespace Sys2Proof.Machine

/-- The key of an instance of a class. -/
def fltKey (cls inst : Nat) : Nat := 65536 * cls + inst

/-- An instance of a class (R312). -/
def State.fltInst (s : State) (cls inst : Nat) : FltInst := (kvFind s.flt.insts (fltKey cls inst)).getD {}

/-- An instance of a class changes. -/
def State.setInst (s : State) (cls inst : Nat) (i : FltInst) : State :=
  { s with flt := { s.flt with insts := kvPut s.flt.insts (fltKey cls inst) i } }

/-- Whether some instance of a class satisfies a test. -/
def State.anyInst (s : State) (cls : Nat) (f : FltInst → Bool) : Bool :=
  s.flt.insts.any fun e => e.1 / 65536 == cls && f e.2

/-- Whether a class is latched (R312). -/
def State.latched (s : State) (cls : Nat) : Bool := s.anyInst cls fun i => i.latched

/-- The defined aspects of a reaction group (R320). -/
def State.groupAspects (s : State) (g : Nat) : List Nat := s.defined.filter fun a => s.get (F.ASP_CFG_group a) == g

/-- The reaction groups switched off: those of latched classes whose action is aspect group off (R320). -/
def State.groupsOff (s : State) : List Nat :=
  (List.range 64).filterMap fun k =>
    if s.latched k ∧ s.get (F.FLT_RCT_action k) = 2 then some (s.get (F.FLT_RCT_group k)) else none

/-- The reaction groups that FLT_GOFF shows: group off acts in OPERATE and MIRROR alone, elsewhere it is recorded (R319, R320, R329). -/
def State.groupsShown (s : State) : List Nat := if s.mode = .operate ∨ s.mode = .mirror then s.groupsOff else []

/-- The owners of the pixels of an array tile, by the snapshot of a slot (R320). -/
def State.tileOwners (s : State) (slot t : Nat) : List Nat :=
  (List.range 16384).filterMap fun i => s.owner slot (16384 * t + i)

/-- The aspects that aspect off switches off for an instance (R320). Tiles, chains and rails are those of the registers, since no aspect
is composed under the descriptor. -/
def State.scopeAspects (s : State) (slot cls inst : Nat) : List Nat :=
  match (clsInfo cls).scope with
  | 1 => if inst = 0xFF then [] else [inst]
  | 2 => s.tileOwners slot inst
  | 3 => ((List.range (s.popIn false inst)).filterMap (s.tileIn false inst)).flatMap (s.tileOwners slot)
  | 4 => ((s.tilesIn false).filter fun t => s.rail t == inst).flatMap (s.tileOwners slot)
  | _ => s.defined

/-- The aspects that latched instances and their groups hold off in OPERATE and MIRROR (R319, R320). -/
def State.heldOff (s : State) : List Nat :=
  (s.flt.insts.flatMap fun e =>
    if e.2.latched ∧ s.get (F.FLT_RCT_action (e.1 / 65536)) = 1 then e.2.holds.getD [] else []) ++
    s.groupsOff.flatMap s.groupAspects

/-- F of an aspect (R323). -/
def State.faultCount (s : State) (a : Nat) : Nat :=
  s.get (F.ASP_FLT_faulty a) + (if s.get (F.ASP_SUPV_unv a) = 1 then s.get (F.ASP_FLT_unv a) else 0)

/-- Whether the condition of a defined aspect's policy holds (R323). -/
def State.policyHolds (s : State) (a : Nat) : Bool :=
  let n := s.get (F.ASP_CFG_count_n a)
  let f := s.faultCount a
  s.on (F.ASP_CFG_def a) &&
    (match s.get (F.ASP_CFG_policy a) with
    | 0 => 1 ≤ f
    | 1 => n ≤ f
    | _ => (s.faultList.any fun e => bits e.2 24 8 == a && 3 ≤ bits e.2 21 3) || (1 ≤ n && n ≤ f) ||
        s.faultList.any fun e => bits e.2 24 8 == a && s.vid.unfill.contains (entryPix e.2) && bits e.2 21 3 ≤ 2)

/-- The aspects switched off: held by a latched instance or by their group in the modes in which that acts, or by their policy (R319,
R321). -/
def State.aspectsOff (s : State) : List Nat :=
  ((if s.mode = .operate ∨ s.mode = .mirror then s.heldOff else []) ++ s.flt.policy).foldr addNum []

/-- The aspects that would be switched off in OPERATE (R322, R323). -/
def State.offThen (s : State) : List Nat := (s.heldOff ++ (List.range 160).filter s.policyHolds).foldr addNum []

/-- The aspects shown as switched off (R220, R321). -/
def State.shownOff (s : State) : List Nat := (List.range 160).filter fun a => s.on (F.ASP_FLT_off a)

/-- The aspects in which two sets differ. -/
def offDiff (a b : List Nat) : List Nat := (List.range 160).filter fun x => a.contains x != b.contains x

/-- The slot that a frame row sent now carries: that of the pass, else the one in force (R265). -/
def State.frameSlot (s : State) : Nat := if s.get F.CMP_STAT_state = 0 then s.slotNow else s.get F.CMP_STAT_target

/-- The rows that an aspect in a list owns in the slot in force, or in the one that a waiting frame LATCH brings (R265, rule 3). -/
def State.reactRows (s : State) (as : List Nat) : List Nat :=
  match s.light.frameDue with
  | some (_, slot, _) => addLast (s.rowsOwned s.tileList slot as) (s.ownedRows as)
  | none => s.ownedRows as

/-- Reaction rows carry a change of the aspects off `changed` to the set `now` (R265, R321): rows of the slot in force and of the frame
that waits for its period, and rows already sent of a frame that is not yet latched. Where no row of an enabled tile changes, the change is
in force from the next period. -/
def State.streamOff (s : State) (changed now : List Nat) : State :=
  let rows := s.reactRows changed
  let last := match s.light.offDue.getLast? with | some e => e.2 | none => s.light.offForce
  let next := (last.filter fun a => !changed.contains a) ++ changed.filter now.contains
  let s := s.queueReact rows
  let s := if rows = [] then { s with light := { s.light with offDue := s.light.offDue ++ [(s.nextStart, next)] } } else s
  s.resendFrame (s.rowsOwned s.tileList s.frameSlot changed)

/-- While a change from FALLBACK to OPERATE awaits its frame, the rows of that frame carry the aspects that will be off (R322). -/
def State.updateBack (s : State) : State :=
  if s.mode = .fallback ∧ s.light.back ∧ s.light.backDue = false then
    let changed := offDiff s.offThen s.light.backOff
    if changed = [] then s
    else
      let s := { s with light := { s.light with backOff := s.offThen } }
      s.resendFrame (s.rowsOwned (s.tilesIn false) (s.get F.CMP_STAT_target) changed)
  else s

/-- ASP_FLT.off shows a set of aspects off, with the events of each change (R222, R321, R332). -/
def State.showOff (s : State) (now : List Nat) : State :=
  (offDiff now s.shownOff).foldl (fun t a =>
    let t := (t.flag (F.ASP_FLT_off a) (now.contains a)).event 18 4
    t.eventIf (now.contains a) (if a < 80 then 16 else 17) 2) s

/-- The aspects switched off are brought up to date: ASP_FLT.off, the events, and in OPERATE the rows that change (R321). In MIRROR the
rows follow the partner's digest (R417), and in FALLBACK the set in force ends with the frame in force. -/
def State.updateOff (s : State) : State :=
  let now := s.aspectsOff
  let changed := offDiff now s.shownOff
  if changed = [] then s.updateBack
  else
    let s := s.showOff now
    match s.mode with
    | .operate => s.streamOff changed now
    | .mirror => s
    | .fallback => s.updateBack
    | _ => { s with light := { s.light with offForce := now, offDue := [] } }

/-- The policies of every aspect are evaluated (R323). In FALLBACK no policy acts. -/
def State.evalPolicies (s : State) : State :=
  ({ s with flt := { s.flt with policy := if s.fbMode then [] else (List.range 160).filter s.policyHolds } }).updateOff

end Sys2Proof.Machine
end

