-- ==== Sys2Proof/Machine/Control.lean ====
section
/-! DEFINITION. The transitions of the mode and what goes with them: the permit (R18), the chains stopped (R250), the explicit
clause aborted (R77), entry into HOLD, CONFIGURE, OPERATE and FALLBACK (R25 to R28, R48 to R50). -/

namespace Sys2Proof.Machine

/-- A chain stops: its drivers go to high impedance and its legs close; a tile register access in progress fails (R18, R250,
R246). -/
def State.chainOff (s : State) (c : Nat) : State :=
  let ch := s.chain c
  let s := (ch.expect ++ ch.again ++ ch.regq).foldl (fun t e =>
    if (e.typ = 4 ∨ e.typ = 5) ∧ e.bank = 0 then
      ((((t.put (F.TIL_RACC_busy e.key) 0).put (F.TIL_RACC_done e.key) 1).put (F.TIL_RACC_fail e.key) 1).event
        (22 + e.key / 40) 1) else t) s
  let s := (((s.put (F.CHN_STAT_state c) 0).put (F.CHN_STAT_drv c) 0).put (F.CHN_STAT_byp c) 0).put (F.CHN_STAT_lpend c) 0
  s.onChain c fun ch => { seq := ch.seq, tag := ch.tag, errs := ch.errs }

/-- Every chain stops. -/
def State.chainsOff (s : State) : State := (List.range 20).foldl State.chainOff s

/-- A word of the SIO configuration that the island uses (R373): 0 SIO_GCFG, 1 to 8 SIO_INCFG, 9 to 16 SIO_OCFG. -/
def State.sioWord (s : State) (n : Nat) : Word :=
  s.sio.cfg.getD n (if n = 0 then 0x55000064 else if n ≤ 8 then 0x00640000 else 0x27100100)

/-- A safety output changes beside its registers. -/
def State.onOut (s : State) (k : Nat) (f : SioOut → SioOut) : State :=
  if h : k < 8 then { s with sio := { s.sio with outs := vecSet s.sio.outs ⟨k, h⟩ f } } else s

/-- A safety output beside its registers. -/
def State.sioOut (s : State) (k : Nat) : SioOut := s.sio.outs.toArray.getD k {}

/-- A running output test is discarded and counted; it waits to be tried again (R386). -/
def State.dropTest (s : State) (k : Nat) : State :=
  let o := s.sioOut k
  if o.test && !o.dropped then
    (((s.inc F.SIO_TCNT_discarded).event 28 4).put (F.SIO_OST_retry k) 1).onOut k fun o => { o with dropped := true }
  else s

/-- A safety output is driven on or off (R383 to R385). -/
def State.driveOut (s : State) (k : Nat) (b : Bool) : State :=
  if s.on (F.SIO_OST_drv k) = b then s
  else
    let s := (s.flag (F.SIO_OST_drv k) b).onOut k fun o => { o with steady := 0, bad := 0, offOk := 0, onFor := 0 }
    if b = false ∧ (s.sioOut k).test = false ∧ getBits (s.sioWord (9 + k)) 16 16 ≤ s.get (F.SIO_OST_tclk k) ∧
      getBits (s.sioWord (9 + k)) 7 1 = 1 then s.put (F.SIO_OST_retry k) 1 else s

/-- A safety output is off for a reason other than its off-pulse: a running test is discarded (R386, R390). -/
def State.outOff (s : State) (k : Nat) : State := (s.dropTest k).driveOut k false

/-- The safety outputs are off (R19, R25, R372, R383). -/
def State.outputsOff (s : State) : State := (List.range 8).foldl State.outOff s

/-- The master permit is withdrawn: the drivers go to high impedance, the bypass legs close and the safety outputs are off (R18, R372,
R390). -/
def State.withdraw (s : State) : State :=
  (((s.put F.CLK_STAT_permit 0).put F.SYS_STAT_permit 0).chainsOff).outputsOff

/-- Whether the safety island gives the permit (R18). -/
def State.permitOk (s : State) : Bool :=
  s.isl.req && !s.isl.wdogExp && !s.isl.clkBad && !s.isl.supBad && s.boot.phase == .up && !s.boot.vddhLow

/-- The explicit clause is aborted and its shadows return to the effective values (R77, R84). -/
def State.abortClause (s : State) (sys : Bool) : State :=
  if s.get F.CLS_STAT_state = 0 then s
  else
    let s := ((((s.put F.CLS_STAT_state 0).put F.CLS_STAT_owner 0).put F.CLS_STAT_when 0).put F.CLS_STAT_regs 0).put F.CLS_STAT_fail 0
    let s := if sys then (s.put F.CLS_STAT_sysabort 1).event 3 4 else s
    { s with cl := { s.cl with shadow := [], due := none } }

/-- The fallback evaluation of its safety input starts afresh (R382). -/
def State.clearFbInput (s : State) : State :=
  let s := ((List.range 8).foldl (fun t k => t.put (F.SIO_INST_fbval k) 0) s).put F.SIO_STAT_fbin 0
  { s with sio := { s.sio with fbDue := false, fbCnt := 0, fbCause := 0, fbA := false, fbB := false } }

/-- Composition and supervision stop: the running pass, the waiting LATCH and the blocks in hand are dropped (R25, R37). -/
def State.stopLight (s : State) : State :=
  let s := if s.get F.CMP_STAT_state = 0 then s else s.markRows s.vid.rows
  let s := (s.put F.CMP_STAT_state 0).put F.CMP_STAT_wait_rel 0
  { s with vid := { s.vid with placing := false },
           light := { s.light with frameDue := none, blocks := [], back := false, backDue := false, backMask := none, maskDue := [],
                                   offDue := [],
                                   proofOk := [], proofBad := [] },
           tiles := s.tiles.map fun t => { t with due := [] } }

/-- A dark release ends or is cancelled (R28, R52). -/
def State.darkOff (s : State) : State :=
  { (s.put F.SYS_STAT_dark_rel 0) with boot := { s.boot with dark := none, darkFrom := none } }

/-- A lane with a role and its page enabled goes from OFF to DETECT; on a bonded link the lower lane's role governs (R87, R93). -/
def State.laneEnable (s : State) (n : Nat) : State :=
  let r := if s.on (F.LNK_ROLE_bond (n / 2 * 2)) then n / 2 * 2 else n
  if s.get (F.LNK_STAT_state n) = 0 ∧ s.get (F.LNK_ROLE_role r) ≠ 0 ∧ s.on (F.PCTRL_en (4 + n)) then
    s.put (F.LNK_STAT_state n) 1 else s

/-- What SELFTEST does as it ends, in CONFIGURE or in HOLD (R26, R35, R93, R225, R242): the SRAM is zero, the ROLE pin is sampled, a lane
in LOOPBACK goes to OFF, the lanes train, the watchdog is armed, and period timing runs. -/
def State.leaveSelftest (s : State) : State :=
  let s := s.flag F.SYS_STAT_role_pin s.boot.rolePin
  let s := (List.range 4).foldl (fun t l => if t.get (F.LNK_STAT_state l) = 6 then t.put (F.LNK_STAT_state l) 0 else t) s
  let s := s.showTiming (s.get F.PLC_PWM_div) s.pnow
  let s := (List.range 4).foldl State.laneEnable s
  { s with pstart := s.now, sram := [], ecc1 := [], ecc2 := [], spd := { s.spd with host := 0, cfgT := 0, cfgOver := false },
           isl := { s.isl with hbGap := 0, hbClear := 0, wdogDue := false, sense := none } }

/-- OTP programming that runs is cut short: its block is neither blank nor valid (R158). -/
def State.cutOtp (s : State) : State :=
  match s.spd.otp with
  | some (true, _) => { s with spd := { s.spd with cutFb := true } }
  | some (false, _) => { s with spd := { s.spd with cutCom := true } }
  | none => s

/-- Skink changes beside its page. -/
def State.onSkink (s : State) (f : Skink → Skink) : State := { s with skink := f s.skink }

/-- The computation is over: a suspended job resumes (R402). -/
def State.ccvOff (s : State) : State :=
  let s := (s.put F.CRC_SKSTAT_ccv 0).onSkink fun k => { k with ccv := 0, pos := 0 }
  if s.get F.CRC_SKSTAT_state = 2 then s.put F.CRC_SKSTAT_state 1 else s

/-- A recheck pass is abandoned (R156, R402, R405, R407). -/
def State.ccvAbandon (s : State) : State :=
  if s.skink.ccv = 2 then ((s.ccvOff).inc F.CRC_CCVRUN_aband).event 29 4 else s

/-- The result of a PDU with items (R146, R161): the items done, or the index of the one that failed, and its status. -/
def State.pduResult (s : State) (seq done status : Nat) : State :=
  ((((s.put F.SPD_LASTRES_done done).put F.SPD_LASTRES_parse 0).put F.SPD_LASTRES_status status).put F.SPD_LASTRES_seq seq).eventIf
    (status != 0) 9 3

/-- Entry into HOLD stops OTP programming at once: the item completes with data-error (R158). -/
def State.holdOtp (s : State) : State :=
  if s.spd.otp.isSome then
    let t := (((s.cutOtp.put F.SPD_OTPSTAT_busy 0).put F.SPD_OTPSTAT_err 1).event 9 9)
    let t := match t.spd.pdu with | some p => t.pduResult p.seq p.idx 9 | none => t
    { t with spd := { t.spd with otp := none, pdu := none } }
  else s

/-- A standby that leaves MIRROR takes a swap that waits for its partner's digest into its own hands: it takes effect at its own next period
start (R167). -/
def State.ownSwap (s : State) : State :=
  if s.mode = .mirror ∧ s.on F.VIN_STAT_pend ∧ s.vid.swapDue.isNone then { s with vid := { s.vid with swapDue := some s.nextStart } } else s

/-- Entry into HOLD with a cause and its detail (R38). In HOLD, a later cause sets SYS_HOLDCAUSE.more. -/
def State.enterHold (s : State) (code detail : Nat) : State :=
  if s.mode = .hold then s.put F.SYS_HOLDCAUSE_more 1
  else
    let s := if s.mode = .selftest then s.leaveSelftest else s
    let s := ((s.ownSwap).put F.SYS_HOLDCAUSE_code code).put F.SYS_HOLDCAUSE_detail detail
    let s := ((((((s.setMode .hold).withdraw.abortClause true).stopLight).darkOff).holdOtp).clearFbInput).ccvAbandon
    ({ s with isl := { s.isl with req := false, sense := none }, light := { s.light with fb := false } }).evalPolicies

/-- The state store, the proof ledger, the fault list and the fault counters of every aspect are cleared (R292). -/
def State.clearStore (s : State) : State :=
  let s := ((s.zero 0xC00000 0x140000).zero 0xD48000 0xA0000).zero 0xDE8000 0x8000
  let s := (((((s.put F.SUP_STAT_used 0).put F.SUP_STAT_ovf 0).setReg R.SUP_CNT0 0).setReg R.SUP_CNT1 0).setReg
    R.SUP_CNT2 0).setReg R.SUP_CNT3 0
  let s := (List.range 160).foldl (fun t a => (t.put (F.ASP_FLT_faulty a) 0).put (F.ASP_FLT_unv a) 0) s
  let s := (((s.put F.PRF_LOW_pixels 0).setReg R.PRF_UNV0 0).setReg R.PRF_UNV1 0).setReg R.PRF_UNV2 0
  let s := s.put F.SYS_FBSTAT_faulty 0
  { s with light := { s.light with form := [], unvNow := [], unvOld := [], unvWhy := [], fbFaults := [], counts := [], proofOk := [],
                                   proofBad := [] },
           tiles := s.tiles.map fun t => { t with queue := [], rowPer := [], rowAge := [] } }

/-- Every tile takes its initial offset with the first frame LATCH that follows (R233). -/
def State.initOffsets (s : State) : State := { s with light := { s.light with initial := true } }

/-- Entry into CONFIGURE from a driving mode or MIRROR (R26, R52): the permit request is lowered, the chains stop. -/
def State.enterConfigure (s : State) : State :=
  let s := ((((((s.ownSwap).setMode .configure).withdraw).stopLight).darkOff).clearFbInput).ccvAbandon
  let s := s.put F.SYS_STAT_cfg_fail 0
  ({ s with isl := { s.isl with req := false, sense := none }, light := { s.light with fb := false },
            boot := { s.boot with cfgFailed := false }, spd := { s.spd with cfgT := 0, cfgOver := false } }).evalPolicies

/-- A dark release begins (R28): an all-dark frame is composed and latched. -/
def State.startDark (s : State) (t : DarkTarget) : State :=
  let s := ((s.put F.SYS_STAT_dark_rel 1).dropPass).markAll
  { s with boot := { s.boot with dark := some t, darkFrom := none }, light := { s.light with back := false, backDue := false } }

/-- Whether a dark release is in progress (R28). -/
def State.darkRel (s : State) : Bool := s.boot.dark.isSome

/-- Entry into OPERATE or FALLBACK from CONFIGURE, before the permit is given (R26, R292, R233, R170). -/
def State.enterDriving (s : State) (m : Mode) : State :=
  let s := ((((s.setMode m).clearStore).initOffsets).markAll).clearFbInput
  { s with light := { s.light with fb := m == .fallback, hist := [], frameDue := none, offForce := [], offDue := [] },
           vid := { s.vid with passPer := none } }

/-- Entry into FALLBACK from OPERATE (R48), or HOLD where the descriptor is not valid (R49). During a dark release nothing
changes (R28, R326). The pixels confirmed in an earlier FALLBACK stay counted (R47, R292; DESIGN CHOICE, log entry 51). -/
def State.enterFallback (s : State) : State :=
  if s.mode ≠ .operate ∨ s.darkRel then s
  else if s.get F.SYS_FBSTAT_valid = 0 then s.enterHold 0x08 (s.get F.SYS_FBSTAT_check)
  else (((((s.passAfresh).setMode .fallback).initOffsets).markAll).clearFbInput).evalPolicies

/-- A change to OPERATE that was waiting for its frame is cancelled (R50). -/
def State.cancelBack (s : State) : State :=
  if s.light.back then
    let s := { s with light := { s.light with back := false, backDue := false } }
    ((s.passAfresh).initOffsets).markAll
  else s

/-- SYS_STAT.cfg_ok clears, with the reason and state that SPD_CCVSTAT shows (R155). -/
def State.loseCfg (s : State) : State :=
  if s.on F.SYS_STAT_cfg_ok then
    ((((s.put F.SYS_STAT_cfg_ok 0).put F.SPD_CCVSTAT_cfg_ok 0).event 9 6).cancelBack).ccvAbandon
  else s

end Sys2Proof.Machine
end

