-- ==== Sys2Proof/Machine/Fault.lean ====
section
/-! DEFINITION. Fault classes and reaction (R312 to R332): instances, debounce, latches, actions, the aspects held off, the
aspect policies and the log. -/

namespace Sys2Proof.Machine

/-- Whether a class that FLT_SOMAP selects for output `k` is latched (R328). -/
def State.mapped (s : State) (k : Nat) : Bool :=
  (List.range 64).any fun c => s.latched c && s.bit (if c < 32 then R.FLT_SOMAPLo k else R.FLT_SOMAPHi k) (c % 32)

/-- Whether output `k` is to be driven on, its off-pulse apart (R383, conditions 1 to 4). -/
def State.outDemand (s : State) (k : Nat) : Bool :=
  let w := s.sioWord (9 + k)
  s.on (F.PCTRL_en 28) && (s.mode == .operate || (s.mode == .fallback && s.on F.SIO_STAT_cfg)) &&
    s.on F.CLK_STAT_permit && getBits w 0 1 == 1 &&
    (match getBits w 1 2 with
    | 0 => s.bit R.SIO_OCTL k
    | 1 => true
    | _ => s.on (F.SIO_INST_val (getBits w 4 3))) &&
    !s.mapped k && !s.on (F.SIO_OST_lat k)

/-- The safety outputs follow their conditions (R383, R386). -/
def State.sioDrive (s : State) : State :=
  (List.range 8).foldl (fun t k =>
    if t.outDemand k then t.driveOut k (!t.on (F.SIO_OST_pulse k)) else t.outOff k) s

/-- Whether a class is present for an instance: its condition holds, or an event came in this period (R313). -/
def FltInst.here (i : FltInst) : Bool := i.present || i.event

/-- Whether a class is a ring class: scope aspect, tile or chain (R314). -/
def ringClass (cls : Nat) : Bool := let k := (clsInfo cls).scope; 1 ≤ k && k ≤ 3

/-- The actions that follow are of one core cycle, at whose start the present mode held, as long as no cycle runs already (R326). -/
def State.cycleOn (s : State) : State := { s with flt := { s.flt with cyc := some (s.flt.cyc.getD s.mode) } }

/-- The core cycle is over, unless it began before (R326). -/
def State.cycleOff (s : State) (was : Option Mode) : State := { s with flt := { s.flt with cyc := was } }

/-- The mode in which an action is taken: that at the start of its core cycle (R319, R326). -/
def State.actMode (s : State) : Mode := s.flt.cyc.getD s.mode

/-- The action of a class in the present mode: its floor in FALLBACK, else its entry (R319, R47). -/
def State.actionOf (s : State) (cls : Nat) : Nat :=
  if s.actMode = .fallback then (clsInfo cls).floor else s.get (F.FLT_RCT_action cls)

/-- A record in the fault log (R331, R332). -/
def State.logFault (s : State) (cls inst what act : Nat) : State :=
  let k := s.get F.FLT_LOGPTR_next
  let s := s.eventIf (s.get (F.FLT_LOGLo_what k) ≠ 0 ∧ s.flt.unread.contains k) 18 5
  let s := (s.setRegN (R.FLT_LOGLo k) (cls + 64 * what + 256 * act + 65536 * inst)).setRegN (R.FLT_LOGHi k) s.pnow
  let s := (s.put F.FLT_LOGPTR_next (k + 1)).inc F.FLT_LOGPTR_written
  { s with flt := { s.flt with unread := addNum k s.flt.unread } }

/-- The pixels in a fault state, in ascending order (R288). -/
def State.faultPixels (s : State) : List Nat :=
  (s.sram.filter fun (c : Host.Cell) => 0xC00000 ≤ c.1 && c.1 < 0xD40000).filterMap fun (c : Host.Cell) =>
    let p := c.1 - 0xC00000
    if 1 ≤ s.pixState p ∧ s.pixState p ≤ 4 then some p else none

/-- A mode action shows in FLT_ACT and as an event (R331, R332). -/
def State.modeTook (s : State) (cls : Nat) : State := ((s.put F.FLT_ACT_mclass cls).put F.FLT_ACT_mvalid 1).event 18 3

/-- A HOLD action (R319, R326): HOLD with cause FAULT. Where an action of the same core cycle has led to HOLD already, HOLD prevails over
FALLBACK, and the lowest class is named. -/
def State.holdAction (s : State) (cls : Nat) : State :=
  if s.mode = .hold ∧ s.actMode ≠ .hold then
    if s.get F.SYS_HOLDCAUSE_code = 6 ∧ s.get F.SYS_HOLDCAUSE_detail ≤ cls then s
    else ((s.put F.SYS_HOLDCAUSE_code 6).put F.SYS_HOLDCAUSE_detail cls).modeTook cls
  else if s.mode = .hold then s.enterHold 6 cls
  else (s.enterHold 6 cls).modeTook cls

/-- A FALLBACK action in OPERATE (R319, R326): where an action of the same core cycle has led to FALLBACK already, or to HOLD since the
descriptor is not valid, the lowest class is named. During a dark release and during a takeover it waits (R28, R434). -/
def State.fallbackAction (s : State) (cls : Nat) : State :=
  if s.mode = .operate then (if s.darkRel ∨ s.pair.tkP.isSome then s else (s.enterFallback).modeTook cls)
  else if (s.mode = .fallback ∨ (s.mode = .hold ∧ s.get F.SYS_HOLDCAUSE_code = 8)) ∧ cls < s.get F.FLT_ACT_mclass then
    s.put F.FLT_ACT_mclass cls
  else s

/-- The mode action of a class (R319, R326). -/
def State.modeAction (s : State) (cls act : Nat) : State :=
  match s.actMode, act with
  | .operate, 3 => s.fallbackAction cls
  | .operate, 4 => s.holdAction cls
  | .fallback, 4 => s.holdAction cls
  | .configure, 4 => s.holdAction cls
  | .hold, 4 => s.holdAction cls
  | .mirror, 3 => if ringClass cls then s else s.holdAction cls
  | .mirror, 4 => if ringClass cls then s else s.holdAction cls
  | _, _ => s

/-- The action of an instance is taken: it latches, is logged, holds its aspects off and may change the mode (R318 to
R320). -/
def State.takeAction (s : State) (cls inst : Nat) : State :=
  let act := s.actionOf cls
  let i := s.fltInst cls inst
  let local' := let k := (clsInfo cls).scope; 2 ≤ k && k ≤ 4
  let holds := if local' && !(s.actMode == .operate || s.actMode == .mirror) then none
    else some (s.scopeAspects s.slotNow cls inst)
  let s := s.setInst cls inst { i with latched := true, count := none, due := none, act := act, holds := holds }
  let s := ((s.inc F.FLT_CNT_actions).event 18 1).logFault cls inst 1 act
  (s.updateOff.modeAction cls act).sioDrive

/-- A condition class becomes present or absent for an instance (R313, R317). An absence ends a running count only at a period start.
A latched instance takes no further action (R318; DEDUCED). Fault reaction starts at the end of SELFTEST (R326). -/
def State.setCond (s : State) (cls inst : Nat) (b : Bool) : State :=
  let i := s.fltInst cls inst
  if s.mode = .selftest ∨ i.present = b then s
  else if b then
    let d := s.get (F.FLT_RCT_debounce cls)
    let n := if d = 0 ∨ i.latched then none else some (i.count.getD 0)
    let s := (s.setInst cls inst { i with present := true, count := n }).event 18 0
    if d = 0 ∧ i.latched = false then s.takeAction cls inst else s
  else s.setInst cls inst { i with present := false }

/-- An event of an event class for an instance (R313, R317). A latched instance takes no further action (R318; DEDUCED). -/
def State.raise (s : State) (cls inst : Nat) : State :=
  if s.mode = .selftest then s
  else
    let i := s.fltInst cls inst
    let s := s.eventIf (!i.event) 18 0
    if i.latched then s.setInst cls inst { i with event := true }
    else
      let n := i.count.getD 0 + 1
      let d := s.get (F.FLT_RCT_debounce cls)
      let s := s.setInst cls inst { i with event := true, count := some n, due := if n = d + 1 ∧ d ≠ 0 then some s.actMode else i.due }
      if n = 1 ∧ d = 0 then s.takeAction cls inst else s

/-- An instance clears (R318). -/
def State.clearInst (s : State) (cls inst : Nat) : State :=
  let i := s.fltInst cls inst
  let s := s.setInst cls inst { i with latched := false, count := none, due := none, holds := some [] }
  ((s.inc F.FLT_CNT_cleared).event 18 2).logFault cls inst 2 i.act

/-- Whether the latch of a class is edge-acknowledge (R315, R316). -/
def State.edgeLatch (s : State) (cls : Nat) : Bool := (clsInfo cls).edge || s.on (F.FLT_RCT_latch cls)

/-- The latched instances of the named latch type whose class is absent clear (R318). -/
def State.clearAbsent (s : State) (edge : Bool) : State :=
  (s.flt.insts.foldl (fun t e =>
    if e.2.latched ∧ e.2.here = false ∧ t.edgeLatch (e.1 / 65536) = edge then t.clearInst (e.1 / 65536) (e.1 % 65536)
    else t) s).updateOff.sioDrive

/-- The events of the period before end (R313). -/
def State.fltEvents (s : State) : State :=
  { s with flt := { s.flt with insts := s.flt.insts.map fun (e : Nat × FltInst) => (e.1, ({ e.2 with event := false } : FltInst)) } }

/-- The debounce count of a condition class at a period start in mode `m`, with debounce `d`: it advances while the condition is present,
else it ends (R317). -/
def FltInst.advance (i : FltInst) (d : Nat) (m : Mode) : FltInst :=
  match i.count with
  | none => i
  | some n =>
    if i.present = false then { i with count := none }
    else if d ≤ n + 1 then { i with count := none, due := some m } else { i with count := some (n + 1) }

/-- The instances whose debounce count runs. -/
def State.counting (s : State) : List Nat := (s.flt.insts.filter fun e => e.2.count.isSome).map Prod.fst

/-- The debounce counts that ran before a period start, `ran`, advance at it; those of classes raised at it do not (R317). -/
def State.fltPeriod (s : State) (ran : List Nat) : State :=
  { s with flt := { s.flt with insts := s.flt.insts.map fun (e : Nat × FltInst) =>
      (e.1, if (clsInfo (e.1 / 65536)).kind = 1 ∧ ran.contains e.1 then
        e.2.advance (s.get (F.FLT_RCT_debounce (e.1 / 65536))) s.actMode else e.2) } }

/-- What an acknowledgement event does in fault reaction: event counts clear, and edge-acknowledge instances whose class is
absent clear (R317, R318). -/
def State.fltAck (s : State) : State :=
  let s := { s with flt := { s.flt with insts := s.flt.insts.map fun (e : Nat × FltInst) =>
      (e.1, if (clsInfo (e.1 / 65536)).kind = 2 then { e.2 with count := none, due := none } else e.2) } }
  s.clearAbsent true

/-- FLT classes 0 to 4 of an aspect follow the fault list, for 0xFF also the faulty pixels that have no entry (R290, R304, R312, R314). -/
def State.pixelClasses (s : State) (a : Nat) : State :=
  let es := s.faultList.filter fun e => bits e.2 24 8 == a
  let bare := if a = 0xFF then s.faultPixels.filter fun p => !s.faultList.any fun e => entryPix e.2 == p else []
  let was := s.flt.cyc
  let s := (List.range 4).foldl (fun t k => t.setCond k a
    (es.any (fun e => bits e.2 21 3 == k + 1 && bits e.2 32 1 == 0) || bare.any fun p => t.pixState p == k + 1)) s.cycleOn
  (s.setCond 4 a (es.any fun e => bits e.2 32 1 == 1)).cycleOff was

/-- The classes of supervision become absent as the store is cleared (R292, R304). -/
def State.clearPixelClasses (s : State) : State :=
  (s.flt.insts.foldl (fun u e =>
    let cls := e.1 / 65536
    if cls ≤ 5 ∨ cls = 9 then u.setCond cls (e.1 % 65536) false else u) s).evalPolicies

/-- An uncorrectable SRAM word is read by a requester (R187, R192): it counts, is captured, and raises the class of its
region. -/
def State.uncorrectable (s : State) (word req : Nat) : State :=
  let a := 8 * word
  let data := a < 0x500000 || (0xD40000 ≤ a && a < 0xD48000)
  let s := ((if data then s.inc F.CMP_UECNT_data else s.inc F.CMP_UECNT_table).event 11 3)
  let s := if s.on F.CMP_ECCCAP_valid then s
    else ((((s.put F.CMP_ECCCAP_word word).put F.CMP_ECCCAP_req req).put F.CMP_ECCCAP_valid 1).put F.CMP_ECCSYN_syn
      (Config.eccSyndrome s.draws).toNat).draw
  s.raise (if data then 18 else 17) 0

/-- An on-chip requester reads the SRAM words that `f` selects: correctable errors count by bank and stay, uncorrectable words raise
their class (R186, R187, R192). -/
def State.readWords (s : State) (f : Nat → Bool) (req : Nat) : State :=
  let s := (s.ecc1.filter f).foldl (fun t w => (t.inc ⟨R.CMP_ECCCNT (w / 131072 / 4), 8 * (w / 131072 % 4), 8⟩).event 11 2) s
  (s.ecc2.filter f).foldl (fun t w => t.uncorrectable w req) s

/-- An on-chip requester reads `n` bytes of SRAM at `a` (R186, R187). -/
def State.readRange (s : State) (a n req : Nat) : State := s.readWords (wordIn a n) req

/-- Instances whose aspects are still to be resolved take them from the first frame composed with aspects (R320). -/
def State.resolveHolds (s : State) (slot : Nat) : State :=
  ({ s with flt := { s.flt with insts := s.flt.insts.map fun (e : Nat × FltInst) =>
      match e.2.holds with
      | none => (e.1, { e.2 with holds := some (s.scopeAspects slot (e.1 / 65536) (e.1 % 65536)) })
      | some _ => e } }).updateOff

/-- On entry into OPERATE, the action of each latched class whose action is FALLBACK is taken again (R322). -/
def State.retakeFallback (s : State) : State :=
  let was := s.flt.cyc
  ((s.flt.insts.filter fun e => e.2.latched && s.get (F.FLT_RCT_action (e.1 / 65536)) == 3).foldl
    (fun t e => t.takeAction (e.1 / 65536) (e.1 % 65536)) s.cycleOn).cycleOff was

end Sys2Proof.Machine
end

