-- ==== Sys2Proof/Machine/Aspects.lean ====
section
/-! DEFINITION. Fades and fade groups (R207 to R212) and the temperature index of a tile (R215). -/

namespace Sys2Proof.Machine

/-- The fade of an aspect. -/
def State.fade (s : State) (a : Nat) : Fade := s.fades.toArray.getD a {}

/-- The fade of an aspect changes. -/
def State.onFade (s : State) (a : Nat) (f : Fade → Fade) : State :=
  if h : a < 160 then { s with fades := vecSet s.fades ⟨a, h⟩ f } else s

/-- An aspect's target: ft while enabled, else 0 (R207). -/
def State.target (s : State) (a : Nat) : Nat := if s.on (F.ASP_CTL_en a) then s.get (F.ASP_CTL_ft a) else 0

/-- Entry `i` of fade curve `k`, at most 4,096 (R209). -/
def State.curve (s : State) (k i : Nat) : Nat := min 4096 (s.rdLe (0x8DF000 + 512 * k + 2 * i) 2)

/-- A fade's level at period `p`, with the time and curve of aspect `a` (R208), and whether it still runs. -/
def State.fadeAt (s : State) (a : Nat) (fd : Fade) (p : Nat) : Nat × Bool :=
  let T := s.get (F.ASP_FADE_time a)
  let e := (p + 2 ^ 32 - fd.ps % 2 ^ 32) % 2 ^ 32
  if T = 0 ∨ T ≤ e then (fd.tgt, false)
  else
    let k := s.get (F.ASP_FADE_curve a)
    let x := e * 65280 / T
    let i := x / 256
    let r := x % 256
    let c := (s.curve k i * (256 - r) + s.curve k (i + 1) * r) / 256
    (((fd.f0 : Int) + (((fd.tgt : Int) - fd.f0) * c).tdiv 4096).toNat, true)

/-- The two curve entries that the evaluation of a running fade reads, for the compositor (R187, R208; DEDUCED, log entry 62). -/
def State.curveReads (s : State) (a : Nat) : State :=
  let T := s.get (F.ASP_FADE_time a)
  let e := (s.pnow + 2 ^ 32 - (s.fade a).ps % 2 ^ 32) % 2 ^ 32
  if e < T then s.readRange (0x8DF000 + 512 * s.get (F.ASP_FADE_curve a) + 2 * (e * 65280 / T / 256)) 4 3 else s

/-- An aspect's fade level is evaluated at the present period (R208): a change marks its rows dirty, and the end of a fade
is an event (R222). -/
def State.refade (s : State) (a : Nat) : State :=
  if s.on (F.ASP_CFG_def a) then
    let s := s.curveReads a
    let now := s.fadeAt a (s.fade a) s.pnow
    let t := ((s.put (F.ASP_FST_f a) now.1).flag (F.ASP_FST_fading a) now.2).eventIf (s.on (F.ASP_FST_fading a) && !now.2)
      (if a < 80 then 16 else 17) 0
    if now.1 = s.get (F.ASP_FST_f a) then t else t.markRows (t.aspectRows a)
  else s

/-- A new target of an aspect from period `ps` on (R207): the last change for a period stands, and one that returns to the
running target starts no fade. -/
def Fade.retarget (fd : Fade) (ps tgt : Nat) : Fade :=
  let rest := fd.waits.filter fun w => w.1 != ps
  let running := match rest.getLast? with | some w => w.2 | none => fd.tgt
  { fd with waits := if tgt = running then rest else rest ++ [(ps, tgt)] }

/-- A fade starts at period `ps` from `f0` (R207). -/
def State.beginFade (s : State) (a ps f0 tgt : Nat) (was : Nat × Nat × Nat) : State :=
  let s := s.onFade a fun fd => { fd with ps := ps, f0 := f0, tgt := tgt, was := was }
  (s.put (F.ASP_FST_ps a) ps).put (F.ASP_FST_fading a) 1

/-- The fade that a target change starts at its period (R207). Where another started at the same period, the fade before both is the
previous one; a change that returns to its target starts none. -/
def State.startFade (s : State) (a ps tgt : Nat) : State :=
  let fd := s.fade a
  let was := if fd.ps = ps then fd.was else (fd.ps, fd.f0, fd.tgt)
  let prev : Fade := { ps := was.1, f0 := was.2.1, tgt := was.2.2 }
  if tgt ≠ prev.tgt then s.beginFade a ps (s.fadeAt a prev ps).1 tgt was
  else if fd.ps ≠ ps then s
  else
    let s := s.onFade a fun fd => { fd with ps := prev.ps, f0 := prev.f0, tgt := prev.tgt }
    (s.put (F.ASP_FST_ps a) prev.ps).flag (F.ASP_FST_fading a) (s.fadeAt a prev ps).2

/-- The target changes of an aspect whose period has come start their fades (R207). -/
def State.settleFade (s : State) (a : Nat) : State :=
  let due := (s.fade a).waits.filter fun w => perReached w.1 s.pnow
  let s := due.foldl (fun t w => t.startFade a w.1 w.2) s
  s.onFade a fun fd => { fd with waits := fd.waits.filter fun w => !perReached w.1 s.pnow }

/-- An aspect is evaluated again where the present period start was an evaluation point (R208, R75). -/
def State.refadeNow (s : State) (a : Nat) : State := if s.vid.evalPer = some s.pnow then s.refade a else s

/-- A change of an aspect's target to `tgt` is scheduled for period `ps` (R207). An update packet that arrived before it for the same
period leaves the enable and the target that were written last. -/
def State.retarget (s : State) (a ps tgt : Nat) : State :=
  if s.on (F.ASP_CFG_def a) then
    let w := s.reg (R.ASP_CTL a) &&& 0x3FFF
    let fix (e : Nat × Word) : Nat × Word := if e.1 = R.ASP_CTL a then (e.1, (e.2 &&& ~~~0x3FFF) ||| w) else e
    let s := { s with cl := { s.cl with implicit := s.cl.implicit.map fun (c : ImpClause) =>
      if (c.due == Due.period ps) then { c with words := c.words.map fix } else c } }
    s.onFade a fun fd => fd.retarget ps tgt
  else s

/-- The target changes of an aspect that still wait are overtaken: its enable or target has changed since (R207; DEDUCED, log entry 60). -/
def State.dropWaits (s : State) (a : Nat) : State := s.onFade a fun fd => { fd with waits := [] }

/-- An aspect has no group change pending any more (R212). -/
def State.endGroup (s : State) (a : Nat) : State :=
  (s.onFade a fun fd => { fd with group := none }).put (F.ASP_FST_gpend a) 0

/-- The pending group change of an aspect is dropped, also one of an ASP_FGRP write that a standby holds (R212, R418). -/
def State.dropGroup (s : State) (a : Nat) : State :=
  let s := s.endGroup a
  { s with pair := { s.pair with held := s.pair.held.map fun (h : Held) => { h with mem := h.mem.filter fun e => e.1 != a } } }

/-- An update packet or a timed write takes its place in core arrival order (R207). -/
def State.arrive (s : State) : State := { s with cl := { s.cl with arrived := s.cl.arrived + 1 } }

/-- Whether an aspect's class has regulatory weight: beam, signal or projection (R200). -/
def State.regulatory (s : State) (a : Nat) : Bool := s.get (F.ASP_CFG_class a) != 0

/-- The defined members of a fade group (R211). -/
def State.members (s : State) (g : Nat) : List Nat := s.defined.filter fun a => s.get (F.ASP_FADE_fgrp a) == g

/-- The members that an ASP_FGRP write of `v` changes, with their periods after Pt (R211). -/
def State.groupDelays (s : State) (v : Word) : List (Nat × Nat) :=
  if getBits v 0 4 = 0 then []
  else (s.members (getBits v 0 4)).map fun a => (a, if getBits v 5 1 = 1 then 0 else s.get (F.ASP_FADE_delay a))

/-- An ASP_FGRP write that passed its checks, the `nth` arrival, schedules its changes from period `pt` on (R211, R212). -/
def State.fadeGroup (s : State) (on pdu : Bool) (nth pt : Nat) (mem : List (Nat × Nat)) : State :=
  mem.foldl (fun t e =>
    (t.onFade e.1 fun fd => { fd with group := some { per := perAdd pt e.2, on := on, pdu := pdu, nth := nth } }).put
      (F.ASP_FST_gpend e.1) 1) s

/-- Whether some member of a group has a change pending. -/
def State.groupPending (s : State) (g : Nat) : Bool :=
  (List.range 160).any fun a => s.get (F.ASP_FADE_fgrp a) == g && (s.fade a).group.isSome

/-- A scheduled group change of a member falls due (R211): its en changes and its fade starts at the scheduled period. For a
member with regulatory weight it is cancelled unless an accepted safe PDU carried the write. -/
def State.groupChange (s : State) (a : Nat) : State :=
  match (s.fade a).group with
    | some c =>
      if perReached c.per s.pnow then
        let g := s.get (F.ASP_FADE_fgrp a)
        let s := s.endGroup a
        if s.get (F.ASP_CTL_en a) = c.on.toNat ∨ s.on (F.ASP_CFG_def a) = false then
          s.eventIf (!s.groupPending g) (if a < 80 then 16 else 17) 1
        else if s.regulatory a && !c.pdu then s
        else
          let s := ((s.flag (F.ASP_CTL_en a) c.on).markRows (s.aspectRows a)).dropWaits a
          let s := s.startFade a c.per (s.target a)
          (s.refadeNow a).eventIf (!s.groupPending g) (if a < 80 then 16 else 17) 1
      else s
    | none => s

/-- A group change of an aspect that arrived before the `n`-th update falls due before it (R207). -/
def State.groupBefore (s : State) (n a : Nat) : State :=
  match (s.fade a).group with
  | some c => if c.nth < n then s.groupChange a else s
  | none => s

/-- A scheduled group change of a member falls due (R211). PERIOD_START carries out what falls due at its start (R75, log entry 64); this
row takes a change that is still due. -/
def execFadeGroupChange (a : Fin 160) (s : State) : Host.Outcome State Fault Refusal := .next (s.groupChange a)

/-- The temperature index in use of an array tile changes (R215, R223, R224). -/
def State.setTidx (s : State) (t q : Nat) : State :=
  let s := s.onTile t fun x => { x with idx := some q }
  ((s.inc F.CAL_TCHG_n).event 13 0).markRows (tileRows t)

/-- The computed index of a reported temperature in units of 1/16 °C, and whether it was clamped (R215, R269). -/
def computedIdx (temp : Int) : Nat × Bool :=
  let q := ((temp + 640) * 8).fdiv 240
  ((clampInt 0 120 q).toNat, decide (q < 0) || decide (120 < q))

/-- A STATUS packet's temperature moves the tile's index (R215). -/
def State.feedTemp (s : State) (t : Nat) (temp : Int) : State :=
  let (qc, clamped) := computedIdx temp
  let s := s.eventIf clamped 13 1
  let q := s.tidx t
  let side := if q < qc then 1 else 0
  let old := kvNat s.vid.tidxRun t
  let run := if qc = q then 0 else if old % 2 = side ∧ old ≠ 0 then old / 2 + 1 else 1
  let note (u : State) (n : Nat) : State :=
    { u with vid := { u.vid with tidxRun := kvPut u.vid.tidxRun t (if n = 0 then 0 else 2 * n + side) } }
  if qc = q then note s 0
  else if 2 ≤ qc - q + (q - qc) ∨ s.get F.CAL_TCFG_dwell ≤ run then note (s.setTidx t qc) 0
  else note s run

end Sys2Proof.Machine
end

