-- ==== Sys2Proof/Machine/Crc.lean ====
section
/-! DEFINITION. Check values: the bit-serial computation of R394 with the parameters of R395. -/

namespace Sys2Proof.Machine

/-- One input bit taken into a running register of width `w` (R394). -/
def crcBit (w poly reg : Nat) (b : Bool) : Nat :=
  let r := 2 * reg % 2 ^ w
  if reg.testBit (w - 1) != b then r ^^^ poly else r

/-- One input byte taken in, bit 7 first, or bit 0 first where `refin` holds (R394). -/
def crcByte (w poly : Nat) (refin : Bool) (reg : Nat) (b : Nat) : Nat :=
  (if refin then [0, 1, 2, 3, 4, 5, 6, 7] else [7, 6, 5, 4, 3, 2, 1, 0]).foldl (fun r i => crcBit w poly r (b.testBit i)) reg

/-- Bytes taken in, in the order fed (R394). -/
def crcFeed (w poly : Nat) (refin : Bool) (reg : Nat) (bs : List Byte) : Nat :=
  bs.foldl (fun r b => crcByte w poly refin r b.toNat) reg

/-- The `w` bits of a number in reverse order. -/
def reverseBits : Nat → Nat → Nat
  | 0, _ => 0
  | w + 1, v => v % 2 * 2 ^ w + reverseBits w (v / 2)

/-- The finished result of a running register (R394). -/
def crcResult (w : Nat) (refout : Bool) (xorout reg : Nat) : Nat :=
  (if refout then reverseBits w reg else reg) ^^^ xorout

/-- The check value of link packets, capability sets and frames (R395). -/
def crcLink (bs : List Byte) : Nat := crcResult 32 true 0xFFFFFFFF (crcFeed 32 0x04C11DB7 true 0xFFFFFFFF bs)

/-- A running link check value taken on from a finished one (R127: the frame CRC runs over many packets). -/
def crcLinkOn (res : Nat) (bs : List Byte) : Nat :=
  crcResult 32 true 0xFFFFFFFF (crcFeed 32 0x04C11DB7 true (reverseBits 32 (res ^^^ 0xFFFFFFFF)) bs)

/-- The safety CRC-32 with a seed: safe PDUs, OTP blocks and the CCV (R142, R395). -/
def crcSafe (seed : Nat) (bs : List Byte) : Nat := crcResult 32 false 0xFFFFFFFF (crcFeed 32 0xF4ACFB13 false seed bs)

/-- The chain packet CRC-16 (R252, R395). -/
def crcChain (bs : List Byte) : Nat := crcFeed 16 0x1021 false 0xFFFF bs

/-- The CRC-8 of SPI frames and period markers (R136, R251, R395). -/
def crc8 (bs : List Byte) : Nat := crcResult 8 false 0xFF (crcFeed 8 0x2F false 0xFF bs)

end Sys2Proof.Machine
end

