-- ==== Sys2Proof/Machine/Line.lean ====
section
/-! DEFINITION. The line of a serial lane: the 8b/10b code with its running disparity (R90), the symbols of ordered sets and packets
(R91, R113), and the scrambler (R92). A symbol is a control flag and a value. -/

namespace Sys2Proof.Machine

/-- The 6-bit code of the five low bits of a data symbol at negative running disparity, first transmitted bit highest (R90; PRESUMED,
log entry 10). -/
def code6 : List Nat :=
  [0b100111, 0b011101, 0b101101, 0b110001, 0b110101, 0b101001, 0b011001, 0b111000, 0b111001, 0b100101, 0b010101, 0b110100, 0b001101,
   0b101100, 0b011100, 0b010111] ++
  [0b011011, 0b100011, 0b010011, 0b110010, 0b001011, 0b101010, 0b011010, 0b111010, 0b110011, 0b100110, 0b010110, 0b110110, 0b001110,
   0b101110, 0b011110, 0b101011]

/-- The 4-bit code of the three high bits of a data symbol, and of a control symbol, at negative running disparity (R90). -/
def code4 : List Nat := [0b1011, 0b1001, 0b0101, 0b1100, 0b1101, 0b1010, 0b0110, 0b1110]

def code4k : List Nat := [0b1011, 0b0110, 0b1010, 0b1100, 0b1101, 0b0101, 0b1001, 0b0111]

/-- The ones of the low `n` bits of a number. -/
def onesOf (n v : Nat) : Nat := ((List.range n).filter v.testBit).length

/-- The values of the control symbols of 8b/10b: K28.0 to K28.7, K23.7, K27.7, K29.7 and K30.7 (R90). -/
def controls : List Nat := [0x1C, 0x3C, 0x5C, 0x7C, 0x9C, 0xBC, 0xDC, 0xFC, 0xF7, 0xFB, 0xFD, 0xFE]

/-- The control symbols that the ORX-1310 uses (R90). -/
def usedControls : List Nat := [0x1C, 0x5C, 0x7C, 0x9C, 0xBC, 0xDC, 0xF7, 0xFB, 0xFD, 0xFE]

/-- The code group of a symbol at a running disparity, true for positive, and the running disparity after it (R90). -/
def encode10 (k : Bool) (val : Nat) (rd : Bool) : Nat × Bool :=
  let x := val % 32
  let y := val / 32 % 8
  let six := if k && x == 28 then 0b001111 else code6.getD x 0
  let six' := if rd && (onesOf 6 six != 3 || (x == 7 && !k)) then 63 - six else six
  let mid := if onesOf 6 six = 3 then rd else !rd
  let alt := y == 7 && (if mid then x == 11 || x == 13 || x == 14 else x == 17 || x == 18 || x == 20)
  let four := if k then code4k.getD y 0 else if alt then 0b0111 else code4.getD y 0
  let four' := if mid && (k || onesOf 4 four != 2 || y == 3) then 15 - four else four
  (16 * six' + four', if onesOf 4 four = 2 then mid else !mid)

/-- The running disparity after symbols sent or received without error (R90). -/
def rdAfter (l : List (Bool × Nat)) (rd : Bool) : Bool := l.foldl (fun r y => (encode10 y.1 y.2 r).2) rd

/-- The running disparity after a received sub-block of `n` bits (R90). -/
def disparity (n v : Nat) (rd : Bool) : Bool :=
  if n < 2 * onesOf n v then true
  else if 2 * onesOf n v < n then false
  else if v = 2 ^ (n / 2) - 1 then true
  else if v = 2 ^ n - 2 ^ (n / 2) then false else rd

/-- A lane symbol as it is received (R90): control or data, its byte, and the two errors it can carry. -/
structure Sym where
  k       : Bool
  val     : Nat
  codeErr : Bool
  dispErr : Bool
deriving DecidableEq, Repr

/-- The symbol that a code group carries in the column of a running disparity, if any (R90). -/
def symbolOf (g : Nat) (rd : Bool) : Option (Bool × Nat) :=
  let six := g / 16
  let xs := (List.range 32).filter fun x =>
    code6.getD x 0 == six || 63 - code6.getD x 0 == six || (x == 28 && (six == 15 || six == 48))
  (xs.flatMap fun x => (List.range 8).flatMap fun y => [(false, 32 * y + x), (true, 32 * y + x)]).find? fun e =>
    (!e.1 || controls.contains e.2) && (encode10 e.1 e.2 rd).1 == g

/-- The control symbols that a tile chain uses: IDL, PM, SOP, EOP, EBP and RSV (R248). -/
def chainControls : List Nat := [0xBC, 0xFC, 0xFB, 0xFD, 0xFE, 0x7C]

/-- A code group is received at a running disparity, where `used` are the control symbols in use: the symbol and the running disparity after
it. Any other control symbol and an invalid code group are code errors; a code group of the other column is a disparity error (R90,
R248). -/
def decodeIn (used : List Nat) (g : Nat) (rd : Bool) : Sym × Bool :=
  let after := disparity 4 (g % 16) (disparity 6 (g / 16) rd)
  match symbolOf g rd with
  | some (k, v) => (⟨k, v, k && !used.contains v, false⟩, after)
  | none =>
    match symbolOf g (!rd) with
    | some (k, v) => (⟨k, v, k && !used.contains v, true⟩, after)
    | none => (⟨false, 0, true, false⟩, after)

/-- A code group is received on a lane: K28.1 and K28.7 are code errors (R90). -/
def decode10 (g : Nat) (rd : Bool) : Sym × Bool := decodeIn usedControls g rd

/-- The symbol pairs of a tile chain that carry a code error, from the running disparities of its two data pairs, and these after them:
an unused control symbol, an invalid code group or a wrong running disparity is one (R248). -/
def pairErrs (l : List (BitVec 10 × BitVec 10)) (rd : Bool × Bool) : Nat × (Bool × Bool) :=
  l.foldl (fun acc g =>
    let (a, r0) := decodeIn chainControls g.1.toNat acc.2.1
    let (b, r1) := decodeIn chainControls g.2.toNat acc.2.2
    (acc.1 + (a.codeErr || a.dispErr || b.codeErr || b.dispErr).toNat, (r0, r1))) (0, rd)

/-- One data symbol through the scrambler: the value after the exclusive or, and the scrambler after 8 steps (R92). -/
def scramble (lfsr d : Nat) : Nat × Nat :=
  let step (e : Nat × Nat) (i : Nat) : Nat × Nat :=
    let b := e.2.testBit 15
    (e.1 + b.toNat * 2 ^ i, ((2 * e.2) % 65536) ^^^ (if b then 0x39 else 0))
  let (o, l) := (List.range 8).foldl step (0, lfsr)
  (d ^^^ o, l)

/-- The scrambler output for a run of data symbols, and the scrambler after them (R92). -/
def scrambleAll (lfsr : Nat) : List Nat → List Nat × Nat
  | [] => ([], lfsr)
  | d :: ds =>
    let (v, f) := scramble lfsr d
    let (vs, f') := scrambleAll f ds
    (v :: vs, f')

/-- The data symbols of a word leave scrambled, its control symbols as they are (R92). -/
def scrambleWord (lfsr : Nat) : List (Bool × Nat) → List (Bool × Nat) × Nat
  | [] => ([], lfsr)
  | (true, v) :: r => let (w, f) := scrambleWord lfsr r; ((true, v) :: w, f)
  | (false, v) :: r =>
    let (d, f) := scramble lfsr v
    let (w, f') := scrambleWord f r
    ((false, d) :: w, f')

/-- The first symbol of every ordered set (R90). -/
def comSym : Bool × Nat := (true, 0xBC)

/-- Idle fill (R90). -/
def idlSym : Bool × Nat := (true, 0x7C)

/-- A TS1 or TS2 set with a rate code (R91): D10.2 is the polarity probe, and the 12 fillers carry the scrambler output for zero. -/
def tsSet (ts2 : Bool) (rate : Nat) : List (Bool × Nat) :=
  [comSym, (true, if ts2 then 0x9C else 0x5C), (false, rate), (false, 0x4A)] ++
    (scrambleAll 0xFFFF (List.replicate 12 0)).1.map fun v => (false, v)

/-- The scrambler after a TS set (R92). -/
def tsLfsr : Nat := (scrambleAll 0xFFFF (List.replicate 12 0)).2

/-- A CAP set (R91). -/
def capSet (bs : List Byte) : List (Bool × Nat) :=
  [comSym, (true, 0xDC)] ++ bs.map (fun b => (false, b.toNat)) ++ [idlSym, idlSym]

/-- A skip set as it is sent (R91). -/
def skipSet : List (Bool × Nat) := [comSym, (true, 0x1C), (true, 0x1C), (true, 0x1C)]

/-- A BND set with a lane mask and a sequence number (R91). -/
def bndSet (mask seq : Nat) : List (Bool × Nat) := [comSym, (true, 0xF7), (false, mask), (false, seq)]

/-- The EIOS set (R91). -/
def eiosSet : List (Bool × Nat) := [comSym, idlSym, idlSym, idlSym]

/-- The bytes of a packet with its CRC-32 (R113). -/
def packetBytes (typ hdr : Nat) (body : List Byte) : List Byte :=
  let bs := leBytes 1 typ ++ leBytes 1 hdr ++ leBytes 2 body.length ++ body
  bs ++ leBytes 4 (crcLink bs)

/-- The symbols of a packet before scrambling, filled with IDL to the end of its last word (R91, R113). -/
def packetSyms (typ hdr : Nat) (body : List Byte) : List (Bool × Nat) :=
  let syms := [(true, 0xFB)] ++ (packetBytes typ hdr body).map (fun b => (false, b.toNat)) ++ [(true, 0xFD)]
  syms ++ List.replicate ((4 - syms.length % 4) % 4) idlSym

/-- A list of symbols as words of four. -/
def wordsOf {α : Type} : List α → List (List α)
  | a :: b :: c :: d :: r => [a, b, c, d] :: wordsOf r
  | [] => []
  | r => [r]

end Sys2Proof.Machine
end

