-- ==== Sys2Proof/Machine/Lanes.lean ====
section
/-! DEFINITION. The serial lanes: training, retry, rate, rate matching, bonding, equalisation and the eye monitor (R86 to
R112). The register rows of the LNK pages stand in Access.lean's families, since they pass the write checks. -/

namespace Sys2Proof.Machine

/-- A lane changes. -/
def State.onLane (s : State) (l : Nat) (f : Lane → Lane) : State :=
  if h : l < 4 then { s with link := { s.link with lanes := vecSet s.link.lanes ⟨l, h⟩ f } } else s

/-- A lane beside its page. -/
def State.lane (s : State) (l : Nat) : Lane := s.link.lanes.toArray.getD l {}

/-- The state code of a lane (R93). -/
def State.laneState (s : State) (l : Nat) : Nat := s.get (F.LNK_STAT_state l)

/-- Whether a lane is ACTIVE (R93). -/
def State.active (s : State) (l : Nat) : Bool := s.laneState l == 4

/-- The lower lane of a lane's link (R87). -/
def lowerLane (l : Nat) : Nat := l / 2 * 2

/-- Whether a lane is bonded with its neighbour (R87). -/
def State.bonded (s : State) (l : Nat) : Bool := s.on (F.LNK_ROLE_bond (lowerLane l))

/-- The lane whose role, dir and bond fields a lane uses (R87). -/
def State.roleLane (s : State) (l : Nat) : Nat := if s.bonded l then lowerLane l else l

/-- The role that a lane uses (R86, R87). -/
def State.laneRole (s : State) (l : Nat) : Nat := s.get (F.LNK_ROLE_role (s.roleLane l))

/-- Whether a lane may train: it has a role and its page is enabled (R93). -/
def State.laneOn (s : State) (l : Nat) : Bool := s.laneRole l != 0 && s.on (F.PCTRL_en (4 + l))

/-- Whether a lane is part of the host path (R87). -/
def State.hostPath (s : State) (l : Nat) : Bool :=
  s.laneRole l == 1 || (s.laneRole l == 2 && s.get (F.LNK_STAT_end l) == 2)

/-- The lane whose record holds what the link of lane `l` has in common: the lower lane of a bonded link (R87). -/
def State.linkLow (s : State) (l : Nat) : Nat := if s.bonded l then lowerLane l else l

/-- The lanes of the link that lane `l` belongs to (R87). -/
def State.linkLanes (s : State) (l : Nat) : List Nat := if s.bonded l then [lowerLane l, lowerLane l + 1] else [l]

/-- The ACTIVE lanes of the host path. -/
def State.hostLanes (s : State) : List Nat := (List.range 4).filter fun l => s.hostPath l && s.active l

/-- PKT_POS (R116): position 1 when the host path is a partner link resolved as downstream. -/
def State.showPos (s : State) : State :=
  let hosts := (List.range 4).filter s.hostPath
  let pos := hosts != [] && hosts.all fun l => s.laneRole l == 2
  (s.flag F.PKT_POS_pos pos).flag F.PKT_POS_valid (s.hostLanes != [])

/-- The lane on which the device sends to its host: the lowest ACTIVE lane of the host path. -/
def State.hostOut (s : State) : Option Nat := s.hostLanes.head?

/-- Whether a link has sent a BND set since it entered ACTIVE, so that packets may be sent on it (R100). -/
def State.linkOpen (s : State) (l : Nat) : Bool := (s.linkLanes l).any fun k => s.active k && (s.lane k).bndSent

/-- The lanes of a link's transmit width in force (R99, R100). -/
def State.txLanes (s : State) (l : Nat) : List Nat :=
  if s.bonded l then
    (List.range 2).filterMap fun k => if (s.get (F.LNK_STAT_txw (lowerLane l))).testBit k then some (lowerLane l + k) else none
  else [l]

/-- A word leaves on a lane: its data symbols are scrambled, unless scrambling of packets is off (R92). -/
def State.sendWord (s : State) (l : Nat) (w : List (Bool × Nat)) : State :=
  if (s.lane l).scrOff then s.emit (.word l w)
  else
    let (v, f) := scrambleWord (s.lane l).txLfsr w
    (s.onLane l fun ln => { ln with txLfsr := f }).emit (.word l v)

/-- A packet leaves on a link: its words alternate between the lanes of the width in force (R91, R99, R113). -/
def State.sendPacket (s : State) (l typ hdr : Nat) (body : List Byte) : State :=
  let on := s.txLanes l
  let s := (wordsOf (packetSyms typ hdr body)).zipIdx.foldl (fun t (e : List (Bool × Nat) × Nat) =>
    t.sendWord (on.getD (e.2 % max 1 on.length) l) e.1) s
  s.emit (.packet l typ hdr body)

/-- A packet is to be sent on a link: before its first BND set it waits (R100). -/
def State.transmit (s : State) (l typ hdr : Nat) (body : List Byte) : State :=
  if s.linkOpen l then s.sendPacket l typ hdr body
  else s.onLane (s.linkLow l) fun ln => { ln with txWait := ln.txWait ++ [(typ, hdr, body)] }

/-- The packets of the device and the stored ones in the order in which they are sent: its own FC packets first, then its own and
stored ones in turn, whole packets at a time (R117). -/
def mergeTurns {α : Type} : List α → List α → List α
  | [], r => r
  | o, [] => o
  | a :: o, b :: r => a :: b :: mergeTurns o r

/-- The packets that waited for a link's first BND set are sent; those stored for the host link leave with its own (R100, R117). -/
def State.flushLink (s : State) (l : Nat) : State :=
  let own := (s.lane (s.linkLow l)).txWait
  let host := s.hostOut.any fun h => s.linkLow h == s.linkLow l
  let stored := if host then s.link.ret else []
  let s := s.onLane (s.linkLow l) fun ln => { ln with txWait := [] }
  let s := if host then { s with link := { s.link with ret := [] } } else s
  ((own.filter fun e => e.1 == 0x50) ++ mergeTurns (own.filter fun e => e.1 != 0x50) stored).foldl
    (fun t (e : Nat × Nat × List Byte) => t.sendPacket l e.1 e.2.1 e.2.2) s

/-- The symbols that the receiver's loops and counters see: `plain` that are not scrambled data, then `data` that are (R101, R102). -/
def Lane.feed (ln : Lane) (plain data : Nat) : Lane :=
  let a := if plain = 0 then ln else { ln with plainN := min 256 (ln.plainN + plain), dataN := 0 }
  if data = 0 then a
  else { a with plainN := 0, dataN := min 64 (a.dataN + data), fed := a.fed + data, readN := a.readN + data }

/-- The words of an ordered set without error: its symbols move the running disparity, and each word subtracts 1 from the error bucket
(R90, R96). -/
def Lane.goodSet (ln : Lane) (set : List (Bool × Nat)) : Lane :=
  { ln with rd := rdAfter set ln.rd, bucket := ln.bucket - max 1 (set.length / 4) }

/-- A state of the lane machine is entered (R93). -/
def State.setLane (s : State) (l st : Nat) : State := (s.put (F.LNK_STAT_state l) st).showPos

/-- The lane stops being marked down, or starts (R95, R314 class 22). -/
def State.markDown (s : State) (l : Nat) (b : Bool) : State :=
  (s.onLane l fun ln => { ln with down := b }).setCond 22 l b

/-- DETECT is entered, or OFF where the lane may not train (R93). -/
def State.toDetect (s : State) (l : Nat) : State :=
  if s.laneOn l then s.setLane l 1 else (s.setLane l 0).markDown l false

/-- A running eye operation is aborted (R103). -/
def State.eyeAbort (s : State) (l : Nat) : State :=
  let s := s.put (F.LNK_EYECTL_op l) 0
  if s.on (F.LNK_EYESTAT_busy l) ∨ (s.lane l).eyeWait then
    let s := ((s.put (F.LNK_EYESTAT_busy l) 0).put (F.LNK_EYESTAT_wait l) 0).put (F.LNK_EYESTAT_aborted l) 1
    (s.onLane l fun ln => { ln with eyeWait := false }).event (4 + l) 7
  else s

/-- A lane enters EXIT: EIOS is sent and the transmitter idles (R93). -/
def State.toExit (s : State) (l : Nat) (failed : Bool) : State :=
  let s := (s.emit (.ordered l 6 eiosSet)).eyeAbort l
  (s.onLane l fun ln =>
    { ln with failed := failed, margin := false, rxOpen := false, rxBytes := [], rxBad := false, fcSent := false, sets := 0, bndSent := false,
              txWait := [] }).setLane l 7

/-- The stored packets are dropped where no lane of the host path is left ACTIVE (R117). -/
def State.dropReturns (s : State) : State :=
  if s.link.ret = [] ∨ s.hostOut.isSome then s
  else { (s.incBy F.PKT_OVR_ret s.link.ret.length).event 8 5 with link := { s.link with ret := [] } }

/-- CTLE and taps of a lane (R101). -/
def State.eqNow (s : State) (l : Nat) : Nat × Int × Int × Int :=
  (s.get (F.LNK_ADAPT_ctle l), signed 6 (s.get (F.LNK_ADAPT_h1 l)), signed 6 (s.get (F.LNK_ADAPT_h2 l)),
    signed 6 (s.get (F.LNK_ADAPT_h3 l)))

/-- A lane leaves ACTIVE for EXIT with a cause; its equaliser values are kept (R96, R101). -/
def State.leaveActive (s : State) (l cause : Nat) : State :=
  if s.active l then
    let v := s.eqNow l
    let s := s.onLane l fun ln => { ln with eqKept := v }
    (((s.put (F.LNK_STAT_xreason l) cause).event (4 + l) 1).toExit l false).dropReturns
  else s

/-- A lane fails in POLL or CAPS with a reason (R93, R95). -/
def State.trainFail (s : State) (l reason : Nat) : State :=
  let s := s.put (F.LNK_STAT_fails l) (min 16 (s.get (F.LNK_STAT_fails l) + 1))
  ((((s.put (F.LNK_STAT_freason l) reason).inc (F.LNK_TRCNT_fail l)).event (4 + l) 3).toExit l true)

/-- A lane that leaves DOWN starts its equaliser afresh at the next entry to POLL (R101). -/
def State.leaveDown (s : State) (l : Nat) : State :=
  if s.laneState l = 5 then s.onLane l fun ln => { ln with fresh := true } else s

/-- A lane leaves its state through EXIT for a change of rate or role (R87, R89, R93). From OFF there is nothing to leave; a lane in EXIT
stays there, and the change of role may move the host path (R116). -/
def State.reconfigLane (s : State) (l : Nat) : State :=
  match s.laneState l with
  | 0 => s.toDetect l
  | 4 => s.leaveActive l 5
  | 7 => (s.onLane l fun ln => { ln with failed := false }).showPos
  | _ => (s.leaveDown l).toExit l false

/-- Clearing PCTRL.en of a lane's page takes the lane to OFF, from ACTIVE through EXIT (R96, R107). -/
def State.disableLane (s : State) (l : Nat) : State :=
  match s.laneState l with
  | 4 => s.leaveActive l 6
  | 0 => s
  | _ => (((s.leaveDown l).eyeAbort l).setLane l 0).markDown l false

/-- CTLE and taps take values (R101). -/
def State.setEq (s : State) (l c : Nat) (a b d : Int) : State :=
  (((s.put (F.LNK_ADAPT_ctle l) c).put (F.LNK_ADAPT_h1 l) (unsigned 6 a)).put (F.LNK_ADAPT_h2 l) (unsigned 6 b)).put
    (F.LNK_ADAPT_h3 l) (unsigned 6 d)

/-- A training set is sent (R91, R92). -/
def State.sendTs (s : State) (l : Nat) (ts2 : Bool) : State :=
  (s.onLane l fun ln => { ln with txLfsr := tsLfsr }).emit (.ordered l (if ts2 then 2 else 1) (tsSet ts2 s.link.rate))

/-- POLL is entered (R93, R101): the equaliser starts afresh, or from the values in use when the lane last left ACTIVE. -/
def State.toPoll (s : State) (l : Nat) : State :=
  let k := (s.lane l).eqKept
  let s := if (s.lane l).fresh then s.setEq l 8 0 0 0 else s.setEq l k.1 k.2.1 k.2.2.1 k.2.2.2
  let s := ((((s.put (F.LNK_STAT_sym_lock l) 0).put (F.LNK_STAT_inv l) 0).put (F.LNK_STAT_ratemis l) 0).put
    (F.LNK_ADAPT_conv l) 0)
  let s := s.onLane l fun ln =>
    { ln with comAt := 0, comN := 0, validN := 0, ts2N := 0, past20 := false, fresh := false, eqHist := [],
              scrOff := s.on (F.LNK_CFG_scr_off l) }
  (s.setLane l 2).sendTs l false

/-- ACTIVE is entered (R93, R95, R124). -/
def State.toActive (s : State) (l : Nat) : State :=
  let s := ((s.put (F.LNK_STAT_fails l) 0).inc (F.LNK_TRCNT_act l)).event (4 + l) 0
  let other := if l % 2 = 0 then l + 1 else l - 1
  let joins := s.bonded l && s.active other
  let base := if joins then (s.lane other).fcBase else (s.link.retV, s.link.retU, s.link.retS)
  let sent := joins && (s.lane other).fcSent
  let s := s.onLane l fun ln =>
    { ln with bucket := 0, fcBase := base, fcSent := sent, sets := 0, bndSent := false,
              rxOpen := if joins then ln.rxOpen else false, rxBytes := if joins then ln.rxBytes else [] }
  let s := (s.markDown l false).setLane l 4
  if s.hostPath l then { s with link := { s.link with watch := false } } else s

/-- The device's own capability bytes 1 to 3 and 8 on a lane (R94): class; lane, bond, scr and rate; end; pair, role pin and
host_up. -/
def State.capByte2 (s : State) (l : Nat) : Nat :=
  (if s.bonded l && l % 2 == 1 then 1 else 0) + (if s.bonded l then 2 else 0) +
    (if (s.lane l).scrOff then 0 else 4) + 8 * s.link.rate

/-- The device's own end field on a lane (R94). -/
def State.capEnd (s : State) (l : Nat) : Nat :=
  if s.laneRole l = 1 then 2 else s.get (F.LNK_ROLE_dir (s.roleLane l))

/-- The capability bytes that the device sends on a lane (R94). -/
def State.capOwn (s : State) (l : Nat) : List Byte :=
  let flags := s.get F.AXO_CFG_pair + 2 * s.get F.SYS_STAT_role_pin + (if 0 < (s.lane l).capSent then 4 else 0) +
    (if (s.lane l).hostUp then 8 else 0)
  let bs := leBytes 1 1 ++ leBytes 1 1 ++ leBytes 1 (s.capByte2 l) ++ leBytes 1 (s.capEnd l) ++ leBytes 4 (s.regN R.SYS_ID0) ++
    leBytes 1 flags ++ leBytes 3 0
  bs ++ leBytes 4 (crcLink bs)

/-- A capability set is sent (R91, R92, R94). -/
def State.sendCap (s : State) (l : Nat) : State :=
  (s.onLane l fun ln => { ln with txLfsr := 0xFFFF }).emit (.ordered l 3 (capSet (s.capOwn l)))

/-- CAPS is entered (R93, R94). -/
def State.toCaps (s : State) (l : Nat) : State :=
  let up := s.hostLanes != []
  ((s.onLane l fun ln => { ln with capLast := [], capN := 0, capSent := 0, hostUp := up }).setLane l 3).sendCap l

/-- The end that the device resolves to, facing a far end's class, end, host_up and ident; none where the ends conflict
(R94). A far end field of 0, and an own LNK_ROLE.dir of 0 facing an ORX-1310, name no end and conflict; an own dir of 0 facing a
lighting host resolves as downstream (DESIGN CHOICE, log entry 45). -/
def resolveEnd (host : Bool) (mine theirs : Nat) (myUp theirUp : Bool) (myId theirId : Nat) : Option Nat :=
  if host then (if theirs = 2 ∨ theirs = 0 ∨ mine = 1 then none else some 2)
  else
    match mine, theirs with
    | 1, 2 => some 1
    | 1, 3 => some 1
    | 2, 1 => some 2
    | 2, 3 => some 2
    | 3, 1 => some 2
    | 3, 2 => some 1
    | 3, 3 =>
      if myUp && !theirUp then some 1
      else if theirUp && !myUp then some 2
      else if theirId < myId then some 1
      else if myId < theirId then some 2
      else none
    | _, _ => none

/-- The check of a valid capability set in order (R94): a failure reason, or the resolved end. -/
def State.capCheck (s : State) (l : Nat) (b : Nat → Nat) : Nat ⊕ Nat :=
  let own := s.capByte2 l
  if b 1 ≠ 1 ∧ b 1 ≠ 2 then .inl 8
  else if bits (b 2) 3 3 ≠ bits own 3 3 then .inl 4
  else if bits (b 2) 2 1 ≠ bits own 2 1 then .inl 5
  else if bits (b 2) 0 2 ≠ bits own 0 2 then .inl 6
  else
    let id := b 4 + 256 * b 5 + 65536 * b 6 + 16777216 * b 7
    match resolveEnd (b 1 == 2) (s.capEnd l) (bits (b 3) 0 2) (s.lane l).hostUp (bits (b 8) 3 1 == 1) (s.regN R.SYS_ID0) id with
    | some e => .inr e
    | none => .inl 3

/-- A far-end termination probe in DETECT (R93). -/
def execDetectProbe (l : Fin 4) (found : Bool) (s : State) : Host.Outcome State Fault Refusal :=
  .next (if s.laneState l = 1 then
    let s := s.flag (F.LNK_STAT_far_term l) found
    if found then s.toPoll l else s
  else s)

/-- The switch from TS1 to TS2 holds: 8 valid sets in a row, and converged or 20 ms passed (R93). -/
def State.sendsTs2 (s : State) (l : Nat) : Bool :=
  8 ≤ (s.lane l).validN && (s.on (F.LNK_ADAPT_conv l) || (s.lane l).past20)

/-- A training set arrives in POLL (R93); one without error moves the running disparity and the error bucket (R90, R96). `align` is the alignment of its COM, `inv` that its polarity probe came as D21.5,
`ok` that it decoded without error, and `sent` the TS2 sets sent since the first valid TS2. -/
def execTsSetReceive (l : Fin 4) (ts2 : Bool) (rate : Byte) (align : Fin 10) (inv ok : Bool) (sent : Nat) (s : State) :
    Host.Outcome State Fault Refusal :=
  .next (if s.laneState l = 2 then
    let ln := s.lane l
    let n := if ln.comAt = align.val then ln.comN + 1 else 1
    let locked := s.on (F.LNK_STAT_sym_lock l)
    let s := if ok then s.onLane l fun ln => ln.goodSet (tsSet ts2 rate.toNat) else s
    let s := if locked then s else
      (s.onLane l fun ln => { ln with comAt := align.val, comN := n }).flag (F.LNK_STAT_sym_lock l) (decide (3 ≤ n))
    if s.on (F.LNK_STAT_sym_lock l) then
      let s := if inv then s.put (F.LNK_STAT_inv l) 1 else s
      let good := ok && rate.toNat == s.link.rate
      let s := if ok && rate.toNat != s.link.rate then s.put (F.LNK_STAT_ratemis l) 1 else s
      let s := s.onLane l fun ln =>
        ({ ln with validN := if good then ln.validN + 1 else 0, ts2N := if good && ts2 then ln.ts2N + 1 else 0,
                   lfsr := tsLfsr } : Lane).feed 4 12
      let s := if s.sendsTs2 l then s.sendTs l true else s
      if 8 ≤ (s.lane l).ts2N ∧ 16 ≤ sent ∧ s.sendsTs2 l then s.toCaps l else s
    else s
  else s)

/-- 20 ms have passed since POLL entry (R93). -/
def execPollTs2TimeLimit (l : Fin 4) (s : State) : Host.Outcome State Fault Refusal :=
  .next (if s.laneState l = 2 then
    let s := s.onLane l fun ln => { ln with past20 := true }
    if s.sendsTs2 l then s.sendTs l true else s
  else s)

/-- 24 ms in POLL (R93). -/
def execPollTimeout (l : Fin 4) (s : State) : Host.Outcome State Fault Refusal :=
  .next (if s.laneState l = 2 then s.trainFail l 1 else s)

/-- A valid capability set of an ORX-1310 whose pair bit is not the device's own shows in AXO_STAT.cfgmis (R436; DESIGN CHOICE, log entry
76: it stays set until a reset). -/
def State.comparePair (s : State) (b : Nat → Nat) : State :=
  if b 1 = 1 ∧ bits (b 8) 0 1 ≠ s.get F.AXO_CFG_pair then s.put F.AXO_STAT_cfgmis 1 else s

/-- A capability set arrives in CAPS (R94); an invalid one is ignored. One set is taken to be sent for each received (DESIGN CHOICE,
log entry 12). The set with which the lane enters ACTIVE is the last set accepted, which LNK_CAPRX0 to LNK_CAPRX2 keep (DESIGN CHOICE,
log entry 67). -/
def execCapSetReceive (l : Fin 4) (set : Vector Byte 16) (s : State) : Host.Outcome State Fault Refusal :=
  let bs := set.toList
  let b (i : Nat) : Nat := (bs.getD i 0).toNat
  let ok := crcLink (bs.take 12) == leNat (bs.drop 12) && b 0 == 1
  .next (if s.laneState l = 3 then
    let s := s.onLane l fun ln =>
      (({ ln with lfsr := 0xFFFF, capSent := if 0 < ln.capSent || ok then ln.capSent + 1 else 0 } : Lane).goodSet (capSet bs)).feed 20 0
    let s := s.sendCap l
    if !ok then s
    else
      let s := s.comparePair b
      match s.capCheck l b with
      | .inl reason => s.trainFail l reason
      | .inr e =>
        let seen := bits (b 8) 2 1 == 1
        let s := s.onLane l fun ln =>
          { ln with capN := if !seen then 0 else if ln.capLast = bs then ln.capN + 1 else 1, capLast := if seen then bs else [] }
        if 4 ≤ (s.lane l).capN ∧ 8 ≤ (s.lane l).capSent then
          let s := (List.range 3).foldl (fun t k => t.setRegN (R.LNK_CAPRX l k) (leNat ((bs.drop (4 * k)).take 4))) s
          (s.put (F.LNK_STAT_end l) e).toActive l
        else s
  else s)

/-- 2 ms in CAPS (R93). -/
def execCapsTimeout (l : Fin 4) (s : State) : Host.Outcome State Fault Refusal :=
  .next (if s.laneState l = 3 then s.trainFail l 2 else s)

/-- Electrical idle at the receiver for 1 µs (R93, R96). -/
def execElectricalIdle (l : Fin 4) (s : State) : Host.Outcome State Fault Refusal :=
  .next (match s.laneState l with
    | 2 => if s.on (F.LNK_STAT_sym_lock l) then s.trainFail l 7 else s
    | 3 => s.trainFail l 7
    | 4 => s.leaveActive l 1
    | _ => s)

/-- An EIOS arrives (R96). -/
def execEiosReceive (l : Fin 4) (s : State) : Host.Outcome State Fault Refusal := .next (s.leaveActive l 3)

/-- The error bucket has reached 256 (R96). -/
def execErrorBucketFull (l : Fin 4) (s : State) : Host.Outcome State Fault Refusal :=
  .next (if 256 ≤ (s.lane l).bucket then s.leaveActive l 2 else s)

/-- The EXIT wait ends (R93, R95). -/
def execExitWaitDone (l : Fin 4) (s : State) : Host.Outcome State Fault Refusal :=
  .next (if s.laneState l = 7 ∧ s.link.change < 2 then
    if (s.lane l).failed ∧ s.get (F.LNK_STAT_fails l) = 16 ∧ s.laneOn l then
      ((s.setLane l 5).event (4 + l) 2).markDown l true
    else s.toDetect l
  else s)

/-- One second in DOWN (R93, R95). -/
def execDownRetry (l : Fin 4) (s : State) : Host.Outcome State Fault Refusal :=
  .next (if s.laneState l = 5 then (s.onLane l fun ln => { ln with fresh := true }).toDetect l else s)

/-- The mask of a link's lanes in ACTIVE (R100). -/
def State.txMask (s : State) (l : Nat) : Nat :=
  if s.bonded l then (if s.active (lowerLane l) then 1 else 0) + (if s.active (lowerLane l + 1) then 2 else 0) else 1

/-- A link in ACTIVE sends a skip set, or a BND set where `bnd`, on its ACTIVE lanes in the same word; after its first BND set the
packets that waited leave (R97, R99, R100). -/
def State.sendSet (s : State) (l : Nat) (bnd : Bool) : State :=
  let on := (s.linkLanes l).filter s.active
  let low := s.linkLow l
  let m := s.txMask l
  let seq := (s.lane low).bndSeq
  let s := on.foldl (fun t k =>
    (t.onLane k fun ln => { ln with sets := ln.sets + 1, bndSent := ln.bndSent || bnd, txLfsr := if bnd then 0xFFFF else ln.txLfsr }).emit
      (if bnd then .ordered k 5 (bndSet m seq) else .ordered k 4 skipSet)) s
  if bnd then
    let s := s.onLane low fun ln => { ln with bndSeq := (seq + 1) % 256 }
    let s := if low % 2 = 0 ∧ s.get (F.LNK_STAT_txw low) ≠ m then (s.put (F.LNK_STAT_txw low) m).event (4 + low) 8 else s
    s.flushLink l
  else s

/-- The transmitter starts a skip set or BND set (R97, R100): in ACTIVE every 16th is a BND set, and so is the first after a
change of width. The BND sequence number counts the link's BND sets (DESIGN CHOICE, log entry 46). On a bonded link the sets of both
ACTIVE lanes leave with the lower one's (R99). -/
def execSkipSetSend (l : Fin 4) (s : State) : Host.Outcome State Fault Refusal :=
  .next (match s.laneState l with
    | 2 => s.emit (.ordered l 4 skipSet)
    | 3 => s.emit (.ordered l 4 skipSet)
    | 4 =>
      if ((s.linkLanes l).find? s.active) = some l.val then
        let low := s.linkLow l
        let changed := low % 2 == 0 && s.get (F.LNK_STAT_txw low) != s.txMask l
        s.sendSet l (((s.lane l).sets + 1) % 16 == 0 || changed || !((s.linkLanes l).filter s.active).all fun k => (s.lane k).bndSent)
      else s
    | _ => s)

/-- The correction of a fill at a skip set with `skps` SKP, of which one is kept: SKP deleted, SKP inserted (R98). -/
def skipFix (fill skps : Nat) : Nat × Nat :=
  if 18 < fill then (min 2 (skps - 1), 0) else if 14 < fill then (min 1 (skps - 1), 0) else if 10 ≤ fill then (0, 0)
  else if 6 ≤ fill then (0, 1) else (0, 2)

/-- The elastic buffer's fill moves by what the references drifted, within its 24 symbols (R98). -/
def driftFill (fill : Nat) (drift : Int) : Nat := (max 0 (min 24 ((fill : Int) + drift))).toNat

/-- A lane's fill is corrected at a skip set, or re-centred (R98). -/
def State.fixFill (s : State) (l del ins : Nat) : State :=
  if (s.lane l).recenter then s.onLane l fun ln => { ln with fill := 12, recenter := false }
  else ((s.incBy (F.LNK_EBCNT_del l) del).incBy (F.LNK_EBCNT_ins l) ins).onLane l fun ln => { ln with fill := ln.fill + ins - del }

/-- A skip set arrives (R90, R96), the fill of the elastic buffer having drifted since the last: it is corrected, on a bonded
link by the lower lane's fill on both lanes in the same set (R98, R99). Outside a packet the set's symbols count as no scrambled data
(R102). -/
def execSkipSetReceive (x : SkipRx) (s : State) : Host.Outcome State Fault Refusal :=
  let l := x.lane
  .next (if 2 ≤ s.laneState l ∧ s.laneState l ≤ 4 then
    let plain := if (s.lane (s.linkLow l)).rxOpen then 0 else x.skps + 1
    let s := s.onLane l fun ln =>
      (({ ln with fill := driftFill ln.fill x.drift } : Lane).goodSet (comSym :: List.replicate x.skps (true, 0x1C))).feed plain 0
    let pair := s.bonded l && s.active (lowerLane l) && s.active (lowerLane l + 1)
    if pair && l.val != lowerLane l then s
    else
      let (del, ins) := skipFix (s.lane l).fill x.skps
      let s := s.fixFill l del ins
      if pair then s.fixFill (l + 1) del ins else s
  else s)

/-- A BND set arrives (R90, R92, R96, R99, R100): the descrambler is reset, the receive width follows its mask, and skew beyond 8 symbols
takes the upper lane of a bonded link out of ACTIVE. -/
def execBndSetReceive (l : Fin 4) (mask : BitVec 2) (seq : Byte) (skew : Nat) (s : State) : Host.Outcome State Fault Refusal :=
  .next (if s.active l then
    let low := s.linkLow l
    let plain := if (s.lane low).rxOpen then 0 else 4
    let s := s.onLane l fun ln => (({ ln with lfsr := 0xFFFF } : Lane).goodSet (bndSet mask.toNat seq.toNat)).feed plain 0
    let s := if low % 2 = 0 ∧ s.get (F.LNK_STAT_rxw low) ≠ mask.toNat then
      (s.put (F.LNK_STAT_rxw low) mask.toNat).event (4 + low) 8 else s
    if s.bonded l ∧ 8 < skew then s.leaveActive (lowerLane l + 1) 7 else s
  else s)

/-- A word in error on a lane: its counts, its event and the bucket (R96, R112). -/
def State.badWord (s : State) (l : Nat) (code disp : Bool) : State :=
  let s := if code then s.inc (F.LNK_ERRCNT_code l) else s
  let s := if disp then s.inc (F.LNK_ERRCNT_disp l) else s
  (s.event (4 + l) 6).onLane l fun ln => { ln with bucket := ln.bucket + 64 }

/-- The elastic buffer overflows or underflows: the current word is a code error (R98). -/
def execEbOverflow (l : Fin 4) (s : State) : Host.Outcome State Fault Refusal :=
  .next (if 2 ≤ s.laneState l ∧ s.laneState l ≤ 4 then
    let s := ((s.inc (F.LNK_EBCNT_ovf l)).event (4 + l) 5).badWord l true false
    let s := s.onLane l fun ln => { ln with recenter := true }
    s.onLane (s.linkLow l) fun ln => { ln with rxBad := true }
  else s)

/-- Every lane leaves its state for the new rate; the lane transmit PLL starts to relock (R89). -/
def State.startRate (s : State) (r : Nat) : State :=
  let s := { s with link := { s.link with change := 2, oldRate := s.link.rate, rate := r, unjudged := 3 } }
  let s := s.put F.CLK_STAT_ltx_lock 0
  (List.range 4).foldl (fun t l =>
    let t := ((t.put (F.LNK_STAT_fails l) 0).onLane l fun ln => { ln with fresh := true }).eyeAbort l
    match t.laneState l with
    | 0 => t
    | 4 => t.leaveActive l 5
    | _ => t.toExit l false) s

/-- The scheduled change of rate starts (R89). -/
def execRateChangeStart (s : State) : Host.Outcome State Fault Refusal :=
  .next (if s.link.change = 1 ∨ s.link.change = 3 then
    let s := s.startRate (s.get (F.LNK_RATE_rate 0))
    { s with link := { s.link with watch := true } }
  else s)

/-- The lane transmit PLL has relocked (R89); a rate written meanwhile is changed to next. -/
def execLanePllRelock (s : State) : Host.Outcome State Fault Refusal :=
  .next (if 2 ≤ s.link.change then
    let again := s.link.change == 3
    let s := (s.flag (F.LNK_RATE_busy 0) again).put F.CLK_STAT_ltx_lock 1
    let s := { s with link := { s.link with change := again.toNat, unjudged := 3 } }
    (List.range 4).foldl (fun t l => if t.laneState l = 7 then t.toDetect l else t) s
  else s)

/-- No host-path lane reached ACTIVE within 500 ms of the change (R89). -/
def execRateRevert (s : State) : Host.Outcome State Fault Refusal :=
  .next (if s.link.watch ∧ s.link.change = 0 then
    let old := s.link.oldRate
    let s := ((s.put (F.LNK_RATE_rate 0) old).put (F.LNK_RATE_reverted 0) 1).put (F.LNK_RATE_busy 0) 1
    let s := (s.event 4 9).startRate old
    { s with link := { s.link with watch := false } }
  else s)

/-- The equaliser value after a move. -/
def moved (m : Move) (v lo hi : Int) : Int :=
  match m with
  | .down => max lo (v - 1)
  | .stay => v
  | .up => min hi (v + 1)

/-- Whether 64 updates in a row have kept every value within one step (R101). -/
def converged (h : List (Nat × Int × Int × Int)) : Bool :=
  let spread (f : Nat × Int × Int × Int → Int) : Bool :=
    let vs := h.map f
    decide (vs.foldl max (-64) - vs.foldl min 64 ≤ 1)
  65 ≤ h.length && spread (fun v => v.1) && spread (fun v => v.2.1) && spread (fun v => v.2.2.1) && spread (fun v => v.2.2.2)

/-- Whether the loops of a lane may update: it trains or is ACTIVE, adaptation is not frozen, and 256 scrambled data symbols have come
since the last update, 32 during re-adaptation (R101, R102, R104). -/
def State.adaptDue (s : State) (l : Nat) : Bool :=
  2 ≤ s.laneState l && s.laneState l ≤ 4 && !s.on (F.LNK_ADAPT_frozen l) &&
    (if s.on (F.LNK_ADAPT_readapt l) then 32 else 256) ≤ (s.lane l).fed

/-- The sign-sign loops move the CTLE and the taps by at most one step (R101). -/
def execAdaptUpdate (l : Fin 4) (ctle h1 h2 h3 : Move) (s : State) : Host.Outcome State Fault Refusal :=
  .next (if s.adaptDue l then
    let v := s.eqNow l
    let c := (moved ctle v.1 0 15).toNat
    let a := moved h1 v.2.1 (-32) 31
    let b := moved h2 v.2.2.1 (-32) 31
    let d := moved h3 v.2.2.2 (-32) 31
    let s := s.setEq l c a b d
    let s := s.onLane l fun ln =>
      { ln with eqHist := ((c, a, b, d) :: (if ln.eqHist = [] then [v] else ln.eqHist)).take 65, fed := 0 }
    if converged (s.lane l).eqHist then s.put (F.LNK_ADAPT_conv l) 1 else s
  else s)

/-- LNK_ADAPT.frozen shows what the counters and LNK_CFG.adapt_hold make of it; while it is set, a running dwell waits (R102, R103). -/
def State.showFrozen (s : State) (l : Nat) : State :=
  let f := (s.lane l).iced || s.on (F.LNK_CFG_adapt_hold l)
  (s.flag (F.LNK_ADAPT_frozen l) f).flag (F.LNK_EYESTAT_wait l) (f && s.on (F.LNK_EYESTAT_busy l))

/-- 256 symbols in a row were no scrambled data: adaptation freezes (R102). -/
def execAdaptFreeze (l : Fin 4) (s : State) : Host.Outcome State Fault Refusal :=
  .next (if 256 ≤ (s.lane l).plainN then (s.onLane l fun ln => { ln with iced := true, dataN := 0 }).showFrozen l else s)

/-- 64 scrambled data symbols in a row: frozen adaptation resumes, unless LNK_CFG.adapt_hold holds it (R102). -/
def execAdaptResume (l : Fin 4) (s : State) : Host.Outcome State Fault Refusal :=
  .next (if 64 ≤ (s.lane l).dataN then (s.onLane l fun ln => { ln with iced := false }).showFrozen l else s)

/-- Re-adaptation ends after its 65,536 scrambled data symbols (R104). -/
def execReadaptEnd (l : Fin 4) (s : State) : Host.Outcome State Fault Refusal :=
  .next (if 65536 ≤ (s.lane l).readN then s.put (F.LNK_ADAPT_readapt l) 0 else s)

/-- An eye operation starts (R103). -/
def State.eyeBegin (s : State) (l : Nat) : State :=
  let s := ((s.put (F.LNK_EYESTAT_busy l) 1).put (F.LNK_EYESTAT_done l) 0).put (F.LNK_EYESTAT_aborted l) 0
  (s.put (F.LNK_EYESTAT_wait l) (s.get (F.LNK_ADAPT_frozen l))).onLane l fun ln => { ln with eyeWait := false }

/-- A write of LNK_EYECTL with an op (R103): it starts, waits for a margin check, or aborts the running operation, in which case
it starts none itself (DESIGN CHOICE, log entry 68). -/
def State.eyeStart (s : State) (l op : Nat) (was : Bool) : State :=
  if was ∨ (s.lane l).eyeWait then s.eyeAbort l
  else if op = 0 then s
  else if (s.lane l).margin then
    ((s.put (F.LNK_EYESTAT_done l) 0).put (F.LNK_EYESTAT_aborted l) 0).onLane l fun ln => { ln with eyeWait := true }
  else s.eyeBegin l

/-- How many points pass in a row, of at most 63, with `maxerr` disagreements allowed (R103). -/
def passing (maxerr : Nat) (l : List Nat) : Nat := min 63 (l.takeWhile fun n => n ≤ maxerr).length

/-- The LNK_EYEMAP word of a phase: the highest passing positive code and the lowest passing negative one, zero where code 0 fails (R103,
R111). -/
def eyeWord (maxerr : Nat) (up down : List Nat) : Nat :=
  match up with
  | [] => 0
  | z :: ps => if z ≤ maxerr then 2 ^ 15 + 256 * passing maxerr down + passing maxerr ps else 0

/-- An eye operation ends (R103, R111). -/
def execEyeOpComplete (l : Fin 4) (r : EyeRes) (s : State) : Host.Outcome State Fault Refusal :=
  .next (if s.on (F.LNK_EYESTAT_busy l) then
    let n := s.get (F.LNK_EYECTL_maxerr l)
    let s := if s.get (F.LNK_EYECTL_op l) = 2 then
      (List.range 64).foldl (fun t k => t.setRegN (R.LNK_EYEMAP l k) (eyeWord n (r.up.getD k []) (r.down.getD k []))) s else s
    let s := (((s.put (F.LNK_EYESTAT_errs l) (min r.errs 65535)).put (F.LNK_EYECTL_op l) 0).put (F.LNK_EYESTAT_busy l) 0)
    ((s.put (F.LNK_EYESTAT_wait l) 0).put (F.LNK_EYESTAT_done l) 1).event (4 + l) 7
  else s)

/-- A margin check of an ACTIVE lane starts (R104). -/
def execMarginCheck (l : Fin 4) (s : State) : Host.Outcome State Fault Refusal :=
  .next (if s.active l ∧ s.on (F.LNK_CFG_mon l) then s.onLane l fun ln => { ln with margin := true } else s)

/-- Re-adaptation starts (R104). -/
def State.readapt (s : State) (l : Nat) : State :=
  (s.onLane l fun ln => { ln with fed := 0, readN := 0 }).put (F.LNK_ADAPT_readapt l) 1

/-- A margin check ends (R104); an eye operation that waited for it starts (R103). -/
def execMarginCheckDone (l : Fin 4) (width height : BitVec 7) (s : State) : Host.Outcome State Fault Refusal :=
  .next (if (s.lane l).margin then
    let s := s.onLane l fun ln => { ln with margin := false }
    let s := ((s.put (F.LNK_EYEMRG_width l) width.toNat).put (F.LNK_EYEMRG_height l) height.toNat).put (F.LNK_EYEMRG_valid l) 1
    let low := width.toNat < s.get (F.LNK_EYETHR_width l) || height.toNat < s.get (F.LNK_EYETHR_height l)
    let s := s.eventIf low (4 + l) 4
    let s := if low && s.on (F.LNK_CFG_readapt l) then s.readapt l else s
    if (s.lane l).eyeWait then s.eyeBegin l else s
  else s)

end Sys2Proof.Machine
end

