-- ==== Sys2Proof/Machine/Otp.lean ====
section
/-! DEFINITION. The blocks of the OTP: the identity block (R457), the commissioned block (R157) and the fallback descriptor with
the checks of R46. -/

namespace Sys2Proof.Machine

/-- A little-endian field of a block of bytes. -/
def blkLe (b : List Byte) (o n : Nat) : Nat := leNat ((b.drop o).take n)

/-- The bytes of the identity block. -/
def State.idBlock (s : State) : List Byte := memBytes s.otp 0 32

/-- Whether the identity block's CRC is correct (R457). -/
def State.idOk (s : State) : Bool := blkLe s.idBlock 0x1C 4 == crcSafe 0xFFFFFFFF (s.idBlock.take 0x1C)

/-- The low 32 bits of the device serial, the seed of the OTP checks (R45, R157). -/
def State.serialLo (s : State) : Nat := s.regN R.SYS_ID0

/-- Whether the device is an E0 grade: any grade but A0 and L0 (R457, R7). -/
def State.gradeE0 (s : State) : Bool := s.get F.SYS_ID1_grade != 0 && s.get F.SYS_ID1_grade != 1

/-- Whether a commissioned block is valid: format, reserved bytes, crc (R157). -/
def comValid (seed : Nat) (b : List Byte) : Bool :=
  blkLe b 0 2 == 1 && blkLe b 2 1 < 4 && blkLe b 3 1 == 0 && blkLe b 0x0C 16 == 0 &&
    blkLe b 0x1C 4 == crcSafe seed (b.take 0x1C)

/-- The bytes of the commissioned block in the OTP. -/
def State.comBlock (s : State) : List Byte := memBytes s.otp 0x20 32

/-- The bytes of the fallback descriptor in the OTP. -/
def State.fbBlock (s : State) : List Byte := memBytes s.otp 0x40 232

/-- Whether a block is blank. -/
def blank (b : List Byte) : Bool := b.all fun x => x == 0

/-- The population of chain `c` in a descriptor (R45). -/
def fbNibble (b : List Byte) (c : Nat) : Nat := bits (blkLe b (8 + c / 2) 1) (4 * (c % 2)) 4

/-- Whether a descriptor's tile map is consistent (R46). -/
def fbMapOk (b : List Byte) : Bool :=
  let es := ((List.range 80).map fun t => blkLe b (0x12 + t) 1).filter fun e => e != 0xFF
  es.all (fun e => e / 8 < 20 && e % 8 < fbNibble b (e / 8)) && es.Nodup &&
    es.length == ((List.range 20).map (fbNibble b)).sum

/-- Whether rectangle `k` of a descriptor has its bounds in order (R46). -/
def fbRectOk (b : List Byte) (k : Nat) : Bool :=
  let w := blkLe b (0x64 + 8 * k) 8
  bits w 0 11 ≤ bits w 11 11 && bits w 22 10 ≤ bits w 32 10 && bits w 32 10 ≤ 639

/-- The checks of R46 in their order. -/
def fbChecks (seed : Nat) (b : List Byte) : List Bool :=
  [blkLe b 0 2 == 1, blkLe b 2 1 ≤ 16, 25 ≤ blkLe b 3 1 && blkLe b 3 1 ≤ 200, 1 ≤ blkLe b 6 1 && blkLe b 6 1 ≤ 8,
   (List.range 20).all (fun c => fbNibble b c ≤ 8) && ((List.range 20).map (fbNibble b)).sum ≤ 80,
   fbMapOk b, (List.range (blkLe b 2 1)).all (fbRectOk b), blkLe b 0xE4 4 == crcSafe seed (b.take 0xE4), blkLe b 2 1 != 0]

/-- The number of the first check of R46 that fails, 0 where every check passes. -/
def fbCheck (seed : Nat) (b : List Byte) : Nat :=
  match (fbChecks seed b).findIdx? (fun ok => !ok) with
  | some i => i + 1
  | none => 0

/-- SELFTEST step 1 shows what the OTP holds: the identity, the commissioned block and the descriptor's check (R34, R46, R157,
R457). A block whose programming was cut short is not valid (R158); the check that finds a cut descriptor is a free value. -/
def State.readOtp (s : State) : State :=
  let s := if s.idOk then
      (((s.setRegN R.SYS_ID0 (blkLe s.idBlock 0 4)).put F.SYS_ID1_serialHi (blkLe s.idBlock 4 2)).put F.SYS_ID1_grade
        (blkLe s.idBlock 6 1)).put F.SYS_ID1_rev (blkLe s.idBlock 7 1)
    else (s.setReg R.SYS_ID0 0).setReg R.SYS_ID1 0
  let b := s.comBlock
  let ok := comValid s.serialLo b && !s.spd.cutCom
  let s := s.put F.SPD_OTPSTAT_com (if s.spd.cutCom then 2 else if blank b then 0 else if ok then 1 else 2)
  let s := if ok then
      let s := ((s.put F.SPD_OTPSTAT_require (blkLe b 2 1)).put F.SPD_OTPSTAT_auto_lock (blkLe b 2 1 / 2)).setRegN
        R.SPD_CCVOTP (blkLe b 4 4)
      if blkLe b 8 4 = 0 then s else s.setRegN R.SPD_RXID (blkLe b 8 4)
    else s
  if s.spd.cutFb then
    (s.put F.SYS_FBSTAT_valid 0).put F.SYS_FBSTAT_check ((Config.cutCheck s.draws).toNat + 1) |>.draw
  else
    let k := fbCheck s.serialLo s.fbBlock
    (s.flag F.SYS_FBSTAT_valid (k == 0)).put F.SYS_FBSTAT_check k

end Sys2Proof.Machine
end

