-- ==== Sys2Proof/Machine/Sio.lean ====
section
/-! DEFINITION. Safety inputs, test-pulse sources and safety outputs (R372 to R393). -/

namespace Sys2Proof.Machine

/-- A test-pulse source changes. -/
def State.onTps (s : State) (n : Nat) (f : TestPulse → TestPulse) : State :=
  if h : n < 4 then { s with sio := { s.sio with tps := vecSet s.sio.tps ⟨n, h⟩ f } } else s

/-- A test-pulse source. -/
def State.tps (s : State) (n : Nat) : TestPulse := s.sio.tps.toArray.getD n {}

/-- F, the frame of the test-pulse sources (R378). -/
def State.sioFrame (s : State) : Nat := getBits (s.sioWord 0) 0 14

/-- Whether source `n` is enabled (R378). -/
def State.tpsOn (s : State) (n : Nat) : Bool := s.on (F.PCTRL_en 28) && getBits (s.sioWord 0) (16 + n) 1 == 1

/-- w of source `n` (R378). -/
def State.tpsWidth (s : State) (n : Nat) : Nat := getBits (s.sioWord 0) (24 + 2 * n) 2

/-- Whether a channel supplied by source `n` is blanked at this sample (R379). -/
def State.blanked (s : State) (n : Nat) : Bool := (s.tps n).runs && 1 ≤ (s.tps n).tick && (s.tps n).tick ≤ (s.tps n).w + 1

/-- The SIO words of the registers, in the order of `sioWord`. -/
def State.sioWords (s : State) : List Word :=
  s.reg R.SIO_GCFG :: ((List.range 8).map fun k => s.reg (R.SIO_INCFG k)) ++ (List.range 8).map fun k => s.reg (R.SIO_OCFG k)

/-- Input `k` takes a value (R374, R393). -/
def State.inputVal (s : State) (k : Nat) (v : Bool) : State :=
  if s.on (F.SIO_INST_val k) = v then s else (s.flag (F.SIO_INST_val k) v).event 28 5

/-- Input `k` returns to its safe value with no latch, cause or count (R373, R390, R393). -/
def State.inputClear (s : State) (k : Nat) (safe : Bool) : State :=
  let s := (s.inputVal k safe).eventIf (s.on (F.SIO_INST_lat k)) 28 6
  ((s.put (F.SIO_INST_lat k) 0).put (F.SIO_INST_cause k) 0).put (F.SIO_INST_dcnt k) 0

/-- What the island does for input `k` when its configuration word changes (R373, R374, R390). -/
def State.inputCfg (s : State) (old : Word) (k : Nat) : State :=
  let w := s.sioWord (1 + k)
  let s := if old &&& 0x3FFF0002 = w &&& 0x3FFF0002 then s else s.put (F.SIO_INST_dcnt k) 0
  let safe := getBits w 2 1 == 1
  if getBits w 0 1 = 0 then
    if getBits old 0 1 = 1 then
      let s := s.inputClear k safe
      { s with sio := { s.sio with seen := s.sio.seen.filter (· != k), due := s.sio.due.filter (· != k) } }
    else s.inputVal k safe
  else if s.sio.seen.contains k && !s.on (F.SIO_INST_lat k) then s
  else s.inputVal k safe

/-- What the island does for output `k` when its configuration word changes (R390). -/
def State.outputCfg (s : State) (old : Word) (k : Nat) : State :=
  if getBits old 0 1 = 1 ∧ getBits (s.sioWord (9 + k)) 0 1 = 0 then
    let s := (s.outOff k).eventIf (s.on (F.SIO_OST_lat k)) 28 6
    (((s.put (F.SIO_OST_lat k) 0).put (F.SIO_OST_cause k) 0).put (F.SIO_OST_retry k) 0).put (F.SIO_OST_tclk k) 0
  else s

/-- The island takes the applied SIO values into use (R373, R390). -/
def State.useSio (s : State) : State :=
  let new := s.sioWords
  let old := (List.range 17).map s.sioWord
  let s := { s with sio := { s.sio with cfg := new, fpos := if old.head? = new.head? then s.sio.fpos else getBits (s.reg R.SIO_GCFG) 0 14 } }
  let s := (List.range 8).foldl (fun t k => t.inputCfg (old.getD (1 + k) 0) k) s
  (List.range 8).foldl (fun t k => t.outputCfg (old.getD (9 + k) 0) k) s

/-- The island takes SIO values into use at a tick: those of an application at the first tick at least 1 µs after it (R75, R373). -/
def State.takeSio (s : State) : State :=
  let t := { s with sio := { s.sio with fresh := none } }
  match s.sio.fresh with
  | some c => if c + 400 ≤ s.now then t.useSio else t
  | none => t.useSio

/-- Input `k` takes its safe value and latches with a cause (R377, R380); the cause of an echo finding at the same tick stands (R390). -/
def State.latchInput (s : State) (k cause : Nat) : State :=
  let s := s.inputVal k (getBits (s.sioWord (1 + k)) 2 1 == 1)
  let s := s.put (F.SIO_INST_lat k) 1
  if cause = 1 ∧ s.sio.echoed.contains k then s else s.put (F.SIO_INST_cause k) cause

/-- The input of the fallback descriptor that is evaluated a second time (R382). -/
def State.fbInput (s : State) : Option Nat :=
  if s.mode = .fallback ∧ 128 ≤ s.fbByte 4 ∧ s.on (F.PCTRL_en 28) then some (s.fbByte 4 % 8) else none

/-- Whether input `k` is tested in the fallback evaluation (R382). -/
def State.fbTested (s : State) (k : Nat) : Bool := s.on F.SIO_STAT_cfg && getBits (s.sioWord (1 + k)) 3 1 == 1

/-- The fallback evaluation latches with a cause (R382). -/
def State.latchFb (s : State) (k cause : Nat) : State :=
  let was := s.on (F.SIO_INST_fbval k)
  let s := s.put (F.SIO_INST_fbval k) 0
  let s := if cause = 1 ∧ s.sio.echoed.contains k ∧ s.sio.fbCause ≠ 0 then s else { s with sio := { s.sio with fbCause := cause } }
  if was then s.markAll else s

/-- The evaluation of enabled input `k` at a tick (R374, R375). -/
def State.evalInput (s : State) (k : Nat) : State :=
  let w := s.sioWord (1 + k)
  if getBits w 0 1 = 0 then s
  else
    let tested := getBits w 3 1 == 1
    let ba := tested && s.blanked (getBits w 4 2)
    let bb := tested && s.blanked (getBits w 6 2)
    let a := if ba then s.on (F.SIO_INST_a k) else s.sio.rawA.getLsbD k
    let b := if bb then s.on (F.SIO_INST_b k) else s.sio.rawB.getLsbD k
    let agree := (a == b) != (getBits w 1 1 == 1)
    let s := ((s.flag (F.SIO_INST_a k) a).flag (F.SIO_INST_b k) b).flag (F.SIO_INST_agree k) agree
    if ba || bb then s
    else if agree then
      let s := s.put (F.SIO_INST_dcnt k) 0
      let s := { s with sio := { s.sio with seen := addNum k s.sio.seen } }
      if s.on (F.SIO_INST_lat k) then s else s.inputVal k a
    else
      let n := min (s.get (F.SIO_INST_dcnt k) + 1) 16383
      let s := s.put (F.SIO_INST_dcnt k) n
      if n = getBits w 16 14 then { s with sio := { s.sio with due := addNum k s.sio.due } } else s

/-- The fallback evaluation at a tick (R382): with no blanking where the input is not tested. -/
def State.evalFb (s : State) : State :=
  match s.fbInput with
  | none => if s.mode = .fallback then s.clearFbInput else s
  | some k =>
    let w := s.sioWord (1 + k)
    let s := s.put F.SIO_STAT_fbin 1
    let ba := s.fbTested k && s.blanked (getBits w 4 2)
    let bb := s.fbTested k && s.blanked (getBits w 6 2)
    let a := if ba then s.sio.fbA else s.sio.rawA.getLsbD k
    let b := if bb then s.sio.fbB else s.sio.rawB.getLsbD k
    let agree := (a == b) != (s.fbByte 4 / 64 % 2 == 1)
    let s := { s with sio := { s.sio with fbA := a, fbB := b } }
    if ba || bb then s
    else if agree then
      let was := s.on (F.SIO_INST_fbval k)
      let s := { s with sio := { s.sio with fbCnt := 0 } }
      if s.sio.fbCause ≠ 0 ∨ was = a then s else (s.flag (F.SIO_INST_fbval k) a).markAll
    else
      let n := min (s.sio.fbCnt + 1) 16383
      { s with sio := { s.sio with fbCnt := n, fbDue := s.sio.fbDue || n == 100 } }

/-- Input `k` has an echo finding at this tick (R390). -/
def State.noteEcho (s : State) (k : Nat) : State := { s with sio := { s.sio with echoed := addNum k s.sio.echoed } }

/-- An echo finding on input `k`: cause 2 missing, 3 wrong (R380). -/
def State.echo (s : State) (k cause : Nat) : State :=
  let s := s.noteEcho k
  let s := if getBits (s.sioWord (1 + k)) 0 1 = 1 then s.latchInput k cause else s
  let s := if s.fbInput = some k ∧ s.fbTested k then s.latchFb k cause else s
  ((s.inc F.SIO_CNT_echo).event 28 1).raise 33 k

/-- The findings of a pulse of source `n` on one channel of an input at the judged sample, and one sample after the pulse
(R380): 2 missing echo, 3 wrong echo, 0 none. -/
def echoFinding (supplied rbWrong b0 bJ bE final : Bool) : Nat :=
  if supplied then (if !final && (rbWrong || (b0 && bJ)) then 2 else 0)
  else if final && b0 && !bJ && bE then 3 else 0

/-- The echo check of source `n`'s pulse over every tested input (R380). -/
def State.echoCheck (s : State) (n : Nat) (rbWrong final : Bool) : State :=
  let p := s.tps n
  (List.range 8).foldl (fun t k =>
    let w := t.sioWord (1 + k)
    if (getBits w 0 1 = 1 ∨ t.fbInput = some k ∧ t.fbTested k) ∧ getBits w 3 1 = 1 then
      let fa := echoFinding (getBits w 4 2 == n) rbWrong (p.a0.getLsbD k) (p.aJ.getLsbD k) (t.sio.rawA.getLsbD k) final
      let fb := echoFinding (getBits w 6 2 == n) rbWrong (p.b0.getLsbD k) (p.bJ.getLsbD k) (t.sio.rawB.getLsbD k) final
      if fa = 0 ∧ fb = 0 then t else t.echo k (if fa = 2 ∨ fb = 2 then 2 else 3)
    else t) s

/-- A wrong readback of source `n` counts as a missing echo for every tested channel that it supplies (R380). -/
def State.badSource (s : State) (n : Nat) : State :=
  (List.range 8).foldl (fun t k =>
    let w := t.sioWord (1 + k)
    if (getBits w 0 1 = 1 ∨ t.fbInput = some k ∧ t.fbTested k) ∧ getBits w 3 1 = 1 ∧
      (getBits w 4 2 = n ∨ getBits w 6 2 = n) then t.echo k 2 else t) s

/-- Source `n` at a tick: its pulse advances, and its readback and its channels are judged (R379, R380). Samples inside a pulse before the
judged one are not judged (DEDUCED, log entry 58). -/
def State.tickSource (s : State) (rb : BitVec 4) (n : Nat) : State :=
  let s := s.setBit R.SIO_STAT (8 + n) (rb.getLsbD n)
  let p := s.tps n
  if p.runs then
    if p.tick = p.w then
      let s := s.onTps n fun p => { p with aJ := s.sio.rawA, bJ := s.sio.rawB }
      s.echoCheck n (rb.getLsbD n) false
    else if p.tick = p.w + 1 then
      let s := if rb.getLsbD n || !s.tpsOn n then s else s.badSource n
      s.echoCheck n false true
    else s
  else if s.tpsOn n ∧ rb.getLsbD n = false then s.badSource n
  else s

/-- The frame of the test-pulse sources advances by a tick, and so does every running pulse (R378, R379). -/
def State.advanceTps (s : State) : State :=
  let f := s.sio.fpos + 1
  let s := { s with sio := { s.sio with fpos := if s.sioFrame ≤ f then 0 else f } }
  (List.range 4).foldl (fun t n =>
    let p := t.tps n
    if p.runs then t.onTps n fun p => { p with tick := p.tick + 1 } else t) s

/-- Blanking windows that are over end (R379). -/
def State.endBlanking (s : State) : State :=
  (List.range 4).foldl (fun t n =>
    let p := t.tps n
    if p.runs && decide (p.w + 1 ≤ p.tick) && !p.low then
      (t.onTps n fun _ => {}).setBit R.SIO_STAT (4 + n) false
    else t) s

/-- An output fault latches its output off: cause 1 on while driven off, 2 off while driven on, 3 test missed (R384, R385,
R387, R388). -/
def State.outFault (s : State) (k cause : Nat) : State :=
  let s := (s.put (F.SIO_OST_lat k) 1).put (F.SIO_OST_cause k) cause
  let s := if cause = 3 then (s.inc F.SIO_CNT_missed).event 28 3 else (s.inc F.SIO_CNT_out).event 28 2
  (s.outOff k).raise (if cause = 3 then 35 else 34) k

/-- The running test of output `k` at a tick, with the readback level (R385). A test that ran and failed does not wait to be tried
again (R386). -/
def State.tickTest (s : State) (k : Nat) (rb : Bool) : State :=
  let o := s.sioOut k
  if !o.test then s
  else
    let n := if o.tick = o.w ∧ s.on (F.SIO_OST_pulse k) then o.tick else o.tick + 1
    let moved := n != o.tick
    let s := s.onOut k fun o => { o with tick := n }
    if moved && n == o.w && !o.dropped && rb then (s.onOut k fun o => { o with dropped := true }).outFault k 1
    else if moved && n == o.w + 2 then
      let s := s.onOut k fun o => { o with test := false, tick := 0, dropped := false }
      if o.dropped then s
      else if rb then ((s.inc F.SIO_TCNT_done).put (F.SIO_OST_tclk k) 0).onOut k fun o => { o with missDue := false }
      else (s.outFault k 2).put (F.SIO_OST_retry k) 0
    else s

/-- The judged readback of output `k` at a tick (R384, R388). -/
def State.tickReadback (s : State) (k : Nat) (rb : Bool) : State :=
  let o := s.sioOut k
  let drv := s.on (F.SIO_OST_drv k)
  if s.on (F.SIO_OST_pulse k) then s
  else if 0 < o.skip then s.onOut k fun o => { o with skip := o.skip - 1, steady := o.steady + 1 }
  else if o.steady = 0 then s.onOut k fun o => { o with steady := 1 }
  else
    let bad := if rb = drv then 0 else o.bad + 1
    let s := s.onOut k fun o =>
      { o with steady := o.steady + 1, bad := bad, offOk := if rb || drv then 0 else o.offOk + 1 }
    if bad = 2 then s.outFault k (if rb then 1 else 2) else s

/-- The on-time of output `k` at a tick (R385, R386, R387). -/
def State.tickOn (s : State) (k : Nat) : State :=
  if s.on (F.SIO_OST_drv k) then
    let s := s.onOut k fun o => { o with onFor := o.onFor + 1 }
    if getBits (s.sioWord (9 + k)) 7 1 = 1 then
      let s := s.incBy (F.SIO_OST_tclk k) 1
      if 2 * getBits (s.sioWord (9 + k)) 16 16 ≤ s.get (F.SIO_OST_tclk k) then s.onOut k fun o => { o with missDue := true }
      else s
    else s
  else s.onOut k fun o => { o with onFor := 0 }

/-- Output `k` at a tick (R384 to R387): its on-time counts before its test is judged, so that a pass leaves it zero. -/
def State.tickOut (s : State) (rbs : BitVec 8) (k : Nat) : State :=
  let rb := rbs.getLsbD k
  (((s.flag (F.SIO_OST_rb k) rb).tickOn k).tickTest k rb).tickReadback k rb

/-- While the SIO page is disabled, the inputs read as their safe values and every source and output is off (R373). -/
def State.sioOff (s : State) : State :=
  let s := (List.range 8).foldl (fun t k =>
    (t.inputClear k (getBits (t.sioWord (1 + k)) 2 1 == 1)).outOff k) s
  { (s.clearFbInput.put (Fld.mk R.SIO_STAT 4 4) 0) with sio := { s.sio with tps := Vector.replicate 4 {}, due := [], echoed := [] } }

/-- What a safety tick does for the safety inputs, sources and outputs (R373). -/
def State.sioTick (s : State) (p : TickIn) : State :=
  let s := s.takeSio
  if s.on (F.PCTRL_en 28) then
    let s := { s with sio := { s.sio with rawA := p.sia, rawB := p.sib, echoed := [] } }
    let s := s.advanceTps
    let s := ((List.range 8).foldl State.evalInput s).evalFb
    let s := (List.range 4).foldl (fun t n => t.tickSource p.tpsRb n) s
    let s := s.endBlanking
    ((List.range 8).foldl (fun t k => t.tickOut p.soRb k) s).sioDrive
  else ({ s with sio := { s.sio with rawA := p.sia, rawB := p.sib } }).sioOff

/-- An acknowledgement event at the safety inputs (R377, R382): judged with the values used, those of a blanked channel held (R390). -/
def State.ackInput (s : State) (k : Nat) : State :=
  let w := s.sioWord (1 + k)
  let safe := getBits w 2 1 == 1
  let cause := s.get (F.SIO_INST_cause k)
  let s := if s.on (F.SIO_INST_lat k) = false then s
    else if s.on (F.SIO_INST_agree k) ∧ s.on (F.SIO_INST_a k) = safe then
      ((s.put (F.SIO_INST_lat k) 0).put (F.SIO_INST_cause k) 0).event 28 6
    else s.raise (if 2 ≤ cause then 33 else 32) k
  if s.fbInput = some k ∧ s.sio.fbCause ≠ 0 then
    if s.sio.fbA = false ∧ s.sio.fbB = decide (s.fbByte 4 / 64 % 2 = 1) then
      ({ s with sio := { s.sio with fbCause := 0 } }).event 28 6
    else s.raise (if 2 ≤ s.sio.fbCause then 33 else 32) k
  else s

/-- An acknowledgement event at a safety output (R388). -/
def State.ackOut (s : State) (k : Nat) : State :=
  if s.on (F.SIO_OST_lat k) = false then s
  else if 2 ≤ (s.sioOut k).offOk then
    let s := (((s.put (F.SIO_OST_lat k) 0).put (F.SIO_OST_cause k) 0).put (F.SIO_OST_tclk k) 0).event 28 6
    s.onOut k fun o => { o with missDue := false }
  else s.raise (if s.get (F.SIO_OST_cause k) = 3 then 35 else 34) k

/-- What an acknowledgement event does in the safety island (R377, R388). -/
def State.sioAck (s : State) : State :=
  ((List.range 8).foldl (fun t k => (t.ackInput k).ackOut k) s).sioDrive

/-- An input's disagreement count has reached N (R377). -/
def execDiscrepancy (k : Fin 8) (s : State) : Host.Outcome State Fault Refusal :=
  let own := s.sio.due.contains k.val
  let fb := s.sio.fbDue && s.fbInput == some k.val
  .next (if own || fb then
    let s := { s with sio := { s.sio with due := s.sio.due.filter (· != k.val), fbDue := s.sio.fbDue && !fb } }
    let s := if own then s.latchInput k 1 else s
    let s := if fb then s.latchFb k 1 else s
    (((s.inc F.SIO_CNT_disc).event 28 0).raise 32 k).sioDrive
  else s)

/-- An enabled source's off-pulse starts in its place in the frame (R378, R379). -/
def execTestPulseStart (n : Fin 4) (s : State) : Host.Outcome State Fault Refusal :=
  .next (if s.live ∧ s.tpsOn n ∧ (s.tps n).runs = false ∧ s.sio.fpos = n.val * (s.sioFrame / 4) then
    (s.onTps n fun _ =>
      { runs := true, low := true, tick := 0, w := s.tpsWidth n, a0 := s.sio.rawA, b0 := s.sio.rawB }).setBit
      R.SIO_STAT (4 + n) true
  else s)

/-- A source's pulse of w ticks ends and the source returns to its on level (R378). -/
def execTestPulseEnd (n : Fin 4) (s : State) : Host.Outcome State Fault Refusal :=
  .next (if (s.tps n).low ∧ (s.tps n).w ≤ (s.tps n).tick then s.onTps n fun p => { p with low := false } else s)

/-- A due off-pulse of a tested output starts (R385, R386). -/
def execOffPulseStart (k : Fin 8) (s : State) : Host.Outcome State Fault Refusal :=
  let w := s.sioWord (9 + k)
  let t := s.get (F.SIO_OST_tclk k)
  .next (if getBits w 7 1 = 1 ∧ s.on (F.SIO_OST_drv k) ∧ (s.sioOut k).test = false ∧
      (t = getBits w 16 16 ∧ s.on (F.SIO_OST_retry k) = false ∨ 10 ≤ (s.sioOut k).onFor ∧ (s.on (F.SIO_OST_retry k) ∨ getBits w 16 16 ≤ t)) then
    let s := s.driveOut k false
    let s := (s.put (F.SIO_OST_pulse k) 1).put (F.SIO_OST_retry k) 0
    s.onOut k fun o => { o with test := true, w := getBits w 8 4, tick := 0, dropped := false }
  else s)

/-- An off-pulse reaches its scheduled end; the output takes any held on demand (R386). -/
def execOffPulseEnd (k : Fin 8) (s : State) : Host.Outcome State Fault Refusal :=
  .next (if s.on (F.SIO_OST_pulse k) ∧ (s.sioOut k).w ≤ (s.sioOut k).tick then
    ((s.put (F.SIO_OST_pulse k) 0).onOut k fun o => { o with skip := 2 }).sioDrive
  else s)

/-- tclk has reached twice T_p (R387). -/
def execTestMissed (k : Fin 8) (s : State) : Host.Outcome State Fault Refusal :=
  .next (if (s.sioOut k).missDue then
    (s.onOut k fun o => { o with missDue := false }).outFault k 3
  else s)

end Sys2Proof.Machine
end

