-- ==== Sys2Proof/Machine/Converter.lean ====
section
/-! DEFINITION. The converter: bursts, sequences, mismatch correction, calibration, comparators and capture (R333 to R356), and the
die temperature (R366). -/

namespace Sys2Proof.Machine

/-- The converter's own state changes. -/
def State.onAdc (s : State) (f : Adc → Adc) : State := { s with adc := f s.adc }

/-- Whether the converter runs (R334). -/
def State.adcOn (s : State) : Bool := s.live && s.on (F.PCTRL_en 24)

/-- Whether bursts are taken (R335, R337). -/
def State.bursting (s : State) : Bool :=
  s.adcOn && s.on F.ADC_CFG_ilv && s.on F.ADC_CFG_fmask && !s.on F.ADC_STAT_cal_run

/-- ADC_STAT.fast and rpaused follow (R352). -/
def State.adcShow (s : State) : State :=
  (s.flag F.ADC_STAT_fast s.bursting).flag F.ADC_STAT_rpaused
    (s.on F.ADC_STAT_rbusy && (s.on F.ADC_STAT_ibusy || s.on F.ADC_STAT_cal_run))

/-- The slice that a sequence entry uses (R333). -/
def entrySlice (w : Word) : Nat :=
  let ch := getBits w 0 6
  if 4 ≤ ch ∧ ch ≤ 47 then (ch - 4) / 11 else getBits w 6 2

/-- The next conversion starts where none is in progress and no burst has reserved the slices (R336, R341 to R345): injected first,
then an aborted regular conversion again, then a waiting calibration, then the regular sequence. -/
def State.adcNext (s : State) : State :=
  if s.adc.running.isSome ∨ s.adc.reserved ∨ s.adcOn = false then s.adcShow
  else if s.on F.ADC_STAT_ibusy then (s.onAdc fun a => { a with running := some (true, a.ipos) }).adcShow
  else if s.adc.rback then
    (s.onAdc fun a => { a with running := some (false, s.get F.ADC_STAT_rnext), rback := false }).adcShow
  else if s.on F.ADC_STAT_cal_pend then ((s.put F.ADC_STAT_cal_pend 0).put F.ADC_STAT_cal_run 1).adcShow
  else if s.on F.ADC_STAT_cal_run then s.adcShow
  else if s.on F.ADC_STAT_rbusy then
    (s.onAdc fun a => { a with running := some (false, s.get F.ADC_STAT_rnext) }).adcShow
  else s.adcShow

/-- The words of the regular sequence as they stand (R342, R345). -/
def State.rseqNow (s : State) : List Word := (List.range (s.get F.ADC_RCFG_count)).map fun k => s.reg (R.ADC_RSEQ k)

/-- The words of the injected sequence as they stand (R343, R345). -/
def State.iseqNow (s : State) : List Word := (List.range (s.get F.ADC_ICFG_count)).map fun k => s.reg (R.ADC_ISEQ k)

/-- A trigger of the regular sequence (R342). -/
def State.regTrigger (s : State) : State :=
  if s.adcOn = false then s
  else if s.on F.ADC_STAT_rbusy then (s.inc F.ADC_CNT_rmiss).event 24 3
  else
    let s := (s.put F.ADC_STAT_rbusy 1).put F.ADC_STAT_rnext 0
    (s.onAdc fun a => { a with rseq := s.rseqNow, rstop := false, rback := false }).adcNext

/-- Continuous running starts the sequence (R342). -/
def State.regRun (s : State) : State :=
  if s.get F.ADC_RCFG_trig = 1 ∧ s.on F.ADC_STAT_rbusy = false then s.regTrigger else s

/-- The regular sequence ends (R342). -/
def State.regEnd (s : State) : State :=
  ((s.put F.ADC_STAT_rbusy 0).put F.ADC_STAT_rnext 0).onAdc fun a => { a with rstop := false, rback := false }

/-- The converter fails a calibration (R340, R341). -/
def State.calFail (s : State) (result slice : Nat) : State :=
  let s := (s.put F.ADC_CALSTAT_result result).put F.ADC_CALSTAT_slice slice
  ((s.put F.ADC_STAT_cal_run 0).event 24 5).raise 28 0

/-- A running calibration is abandoned for an injected trigger; the eighth in a row fails it (R341). How many conversions it has
completed, which count in the settle runs, is open (R347; DESIGN CHOICE, log entry 78: a free value). -/
def State.calAbandon (s : State) : State :=
  if s.on F.ADC_STAT_cal_run then
    let n := s.get F.ADC_CALSTAT_aband + 1
    let s := ((s.put F.ADC_STAT_cal_run 0).put F.ADC_CALSTAT_aband n).event 24 6
    let s := (s.onAdc fun a => { a with settle := a.settle.map fun x => x - (Config.calConversions s.draws).toNat }).draw
    if 8 ≤ n then s.calFail 4 0 else s.put F.ADC_STAT_cal_pend 1
  else s

/-- The injected sequence starts (R343). -/
def State.injBegin (s : State) : State :=
  let s := match s.adc.running with
    | some (false, _) => (s.inc F.ADC_CNT_abort).onAdc fun a => { a with running := none, rback := true }
    | _ => s
  let s := (s.calAbandon.put F.ADC_STAT_ibusy 1).put F.ADC_STAT_ipend 0
  (s.onAdc fun a => { a with iseq := s.iseqNow, ipos := 0 }).adcNext

/-- A trigger of the injected sequence (R343, R345). -/
def State.injTrigger (s : State) : State :=
  if s.adcOn = false then s
  else if s.on F.ADC_STAT_ibusy then
    if s.on F.ADC_STAT_ipend then (s.inc F.ADC_CNT_imiss).event 24 3 else s.put F.ADC_STAT_ipend 1
  else s.injBegin

/-- A request for a foreground calibration (R340, R341, R345). -/
def State.calRequest (s : State) : State :=
  if s.adcOn = false ∨ s.on F.ADC_STAT_cal_run ∨ s.on F.ADC_STAT_cal_pend then s
  else
    let s := if 8 ≤ s.get F.ADC_CALSTAT_aband then s.put F.ADC_CALSTAT_aband 0 else s
    (s.put F.ADC_STAT_cal_pend 1).adcNext

/-- The corrected code of a raw code on a slice (R338): rounded to the nearest code, halves up. -/
def State.correct (s : State) (slice raw : Nat) : Nat :=
  let ofs := signed 8 (s.get (F.ADC_COEF_ofs slice))
  let gain := signed 12 (s.get (F.ADC_COEF_gain slice))
  (clampInt 0 4095 (((8 * (raw : Int) - ofs) * (65536 + gain) + 262144).fdiv 524288)).toNat

/-- What a conversion gives (R346, R347): code, over-range, under-range, settle. -/
structure Conv where
  code   : Nat
  ovr    : Bool
  unr    : Bool
  settle : Bool
deriving DecidableEq, Repr

/-- Bits [15:0] of a result, VALID apart (R352). -/
def Conv.word (c : Conv) : Nat :=
  c.code + (if c.ovr then 4096 else 0) + (if c.unr then 8192 else 0) + (if c.settle then 16384 else 0)

/-- Whether a comparator judges a conversion (R348, R350). -/
def Conv.judged (c : Conv) : Bool := !c.settle || c.ovr || c.unr

/-- The value that a trigger comparator judges (R348). -/
def Conv.value (c : Conv) : Int := if c.ovr then 4096 else if c.unr then -1 else c.code

/-- A sample becomes a conversion on a slice: correction, flags, counts and the settle run (R338, R346, R347). -/
def State.convert (s : State) (slice : Nat) (x : Sample) : State × Conv :=
  let n := s.adc.settle.toArray.getD slice 0
  let code := if x.ovr then 4095 else if x.unr then 0 else s.correct slice x.raw.toNat
  let run := if x.ovr || x.unr then (if x.odv then 25 else 4) else 0
  let s := if h : slice < 4 then s.onAdc fun a => { a with settle := a.settle.set slice (max (n - 1) run) } else s
  let s := if x.ovr then s.inc F.ADC_RNG_ovr else s
  let s := if x.unr then s.inc F.ADC_RNG_unr else s
  (s.eventIf (x.ovr || x.unr) 24 9, ⟨code, x.ovr, x.unr, n != 0⟩)

/-- One comparator judges one value (R348): what it is armed for afterwards, and whether it fires. -/
def trgJudge (dir armed level hyst : Nat) (v : Int) : Nat × Bool :=
  let rise := dir % 2 = 1
  let fall := dir / 2 = 1
  let upArm := armed % 2 == 1 || (decide rise && decide (v < (level : Int) - hyst))
  let dnArm := armed / 2 == 1 || (decide fall && decide ((level : Int) + hyst < v))
  let upFire := upArm && decide ((level : Int) ≤ v)
  let dnFire := dnArm && decide (v ≤ (level : Int))
  ((if upArm && !upFire then 1 else 0) + (if dnArm && !dnFire then 2 else 0), upFire || dnFire)

/-- Comparator `k` judges a conversion of channel `ch`, fast or not; whether it fires (R348). -/
def State.trgStep (s : State) (fast : Bool) (ch : Nat) (c : Conv) (k : Nat) : State × Bool :=
  if h : k < 8 then
    if s.on (F.ADC_TRG_en k) ∧ s.on (F.ADC_TRG_fast k) = fast ∧ s.get (F.ADC_TRG_ch k) = ch ∧ c.judged then
      let r := trgJudge (s.get (F.ADC_TRG_dir k)) s.adc.armed[k] (s.get (F.ADC_TRG_level k)) (s.get (F.ADC_TRG_hyst k)) c.value
      ((s.onAdc fun a => { a with armed := a.armed.set k r.1 }).eventIf r.2 24 8, r.2)
    else (s, false)
  else (s, false)

/-- Every comparator judges a conversion; the comparators that fire (R348). -/
def State.trgAll (s : State) (fast : Bool) (ch : Nat) (c : Conv) : State × List Nat :=
  (List.range 8).foldl (fun acc k =>
    let r := acc.1.trgStep fast ch c k
    (r.1, if r.2 then acc.2 ++ [k] else acc.2)) (s, [])

/-- The capture buffer is triggered (R349). -/
def State.capTrigger (s : State) : State :=
  if s.get F.ADC_CAPSTAT_state = 1 then
    let post := s.get F.ADC_CAPCFG_post
    let s := ((s.put F.ADC_CAPSTAT_trg s.adc.capAt).put F.ADC_CAPSTAT_pre (min s.adc.capN (4095 - post))).put F.ADC_CAPSTAT_state 2
    s.onAdc fun a => { a with capLeft := post + 1 }
  else s

/-- An entry of the capture buffer is written (R349). -/
def State.capWrite (s : State) (fast : Bool) (ch num : Nat) (c : Conv) : State :=
  let st := s.get F.ADC_CAPSTAT_state
  if (st = 1 ∨ st = 2) ∧ s.on F.ADC_CAPCFG_fast = fast ∧ s.get F.ADC_CAPCFG_ch = ch then
    let s := s.setLe (0xD40000 + 4 * s.adc.capAt) 4 (c.word + 32768 + 65536 * ch + 2 ^ 22 * (num % 1024))
    let s := s.onAdc fun a => { a with capAt := (a.capAt + 1) % 4096, capN := a.capN + 1, capLeft := a.capLeft - 1 }
    if st = 2 ∧ s.adc.capLeft = 0 then (s.put F.ADC_CAPSTAT_state 3).event 24 7 else s
  else s

/-- The actions of the comparators that fired, each taken once (R348, R345). -/
def State.trgActions (s : State) (ks : List Nat) : State :=
  let act (b : Nat) : Bool := ks.any fun k => bits (s.get (F.ADC_TRG_act k)) b 1 == 1
  let cap := act 2
  let inj := s.get F.ADC_ICFG_trig == 1 && ks.any fun k => bits (s.get (F.ADC_TRG_act k)) 1 1 == 1 && s.get F.ADC_ICFG_tsel == k
  let reg := s.get F.ADC_RCFG_trig == 4 && ks.any fun k => bits (s.get (F.ADC_TRG_act k)) 0 1 == 1 && s.get F.ADC_RCFG_tsel == k
  let s := if cap then s.capTrigger else s
  let s := if inj then s.injTrigger else s
  if reg then s.regTrigger else s

/-- Window comparator `k` judges a conversion of channel `ch` (R350, R356). -/
def State.winJudge (s : State) (ch : Nat) (c : Conv) (k : Nat) : State :=
  if s.on (F.WIN_CFG_en k) ∧ s.on (F.PCTRL_en 25) ∧ s.get (F.WIN_CFG_ch k) = ch ∧ c.judged then
    let lo := s.get (F.WIN_LIM_low k)
    let hi := s.get (F.WIN_LIM_high k)
    let h := s.get (F.WIN_CFG_hyst k)
    let s := s.put (F.WIN_LAST_value k) (c.word + 32768)
    let flagged := c.ovr || c.unr
    let was := s.bit R.WIN_STAT k
    if !was && (flagged || c.code < lo || hi < c.code) then
      (((s.setBit R.WIN_STAT k true).inc (F.WIN_LAST_exits k)).event 25 k).setCond 29 k true
    else if was && !flagged && lo + h ≤ c.code && c.code + h ≤ hi then (s.setBit R.WIN_STAT k false).setCond 29 k false
    else s
  else s

/-- θ + 64 of a code of a die sensor, held to a byte (R333, R370). -/
def tempByte (code : Nat) : Nat := (clampInt 0 255 (((code : Int) - 2048).fdiv 8 + 64)).toNat

/-- A new result of a die temperature sensor (R366). -/
def State.tempResult (s : State) (ch code : Nat) : State :=
  if ch = 51 ∨ ch = 52 then
    let s := if ch = 51 then (s.put F.SPL_TEMP_s0 (tempByte code)).onAdc fun a => { a with temp0 := some code }
      else (s.put F.SPL_TEMP_s1 (tempByte code)).onAdc fun a => { a with temp1 := some code }
    let s := s.put F.SPL_TEMP_nodata 0
    let top := max (s.adc.temp0.getD 0) (s.adc.temp1.getD 0)
    let warn := s.get F.SPL_GCFG_twarn
    if 2048 + 8 * warn ≤ top then
      ((s.eventIf (!s.on F.SPL_TEMP_warn) 27 1).put F.SPL_TEMP_warn 1).setCond 26 0 true
    else if top + 40 < 2048 + 8 * warn then (s.put F.SPL_TEMP_warn 0).setCond 26 0 false
    else s
  else s

/-- A result is written to a result register: an unread one is overwritten (R344). -/
def State.putResult (s : State) (a ch : Nat) (c : Conv) : State :=
  let ovw := getBits (s.reg a) 15 1 == 1
  let s := if ovw then (s.inc F.ADC_CNT_dovr).event 24 2 else s
  s.setRegN a (c.word + 32768 + 65536 * ch + (if ovw || getBits (s.reg a) 31 1 == 1 then 2 ^ 31 else 0))

/-- A read of a result register that clears VALID and DOVR (R344). -/
def State.readResult (s : State) (a : Nat) : State :=
  s.setReg a (insBits (insBits (s.reg a) 15 1 0) 31 1 0)

/-- What every regular and injected conversion does beside its result register (R342 to R350, R366). -/
def State.converted (s : State) (ch : Nat) (c : Conv) : State × List Nat :=
  let s := s.setRegN (R.ADC_CH ch) (c.word + 32768 + 65536 * ch)
  let n := kvNat s.adc.chanN ch
  let s := s.onAdc fun a => { a with chanN := kvPut a.chanN ch (n + 1) }
  let s := s.capWrite false ch n c
  let s := (List.range 16).foldl (fun t k => t.winJudge ch c k) s
  (s.tempResult ch c.code).trgAll false ch c

/-- The conversion in progress completes (R334, R342, R343); the next starts at that edge, and the actions of the comparators follow at
the next edge (R348). -/
def execConversionComplete (x : Sample) (s : State) : Host.Outcome State Fault Refusal :=
  .next (match s.adc.running with
    | none => s
    | some (inj, k) =>
      if s.adcOn then
        let w := (if inj then s.adc.iseq else s.adc.rseq).getD k 0
        let ch := getBits w 0 6
        let (s, c) := s.convert (entrySlice w) x
        let s := (s.putResult (if inj then R.ADC_INJ k else R.ADC_DATA) ch c).onAdc fun a => { a with running := none }
        let (s, fired) := s.converted ch c
        let s := if inj then
            let s := s.onAdc fun a => { a with ipos := k + 1 }
            if s.adc.iseq.length ≤ k + 1 then
              let s := (s.put F.ADC_STAT_ibusy 0).event 24 1
              if s.on F.ADC_STAT_ipend then s.injBegin else s
            else s
          else if s.adc.rstop then s.regEnd
          else if s.adc.rseq.length ≤ k + 1 then
            let s := s.regEnd.event 24 0
            if s.get F.ADC_RCFG_trig = 1 then s.regTrigger else s
          else s.put F.ADC_STAT_rnext (k + 1)
        s.adcNext.trgActions fired
      else s)

/-- Rails in the burst rotation, ascending (R335). -/
def State.fastRails (s : State) : List Nat := (List.range 4).filter fun g => bits (s.get F.ADC_CFG_fmask) g 1 == 1

/-- The rail whose burst falls in slot `k` of period `p` (R335). -/
def State.burstRail (s : State) (p k : Nat) : Nat :=
  let rs := s.fastRails
  rs.getD ((k + p / 2) % rs.length) 0

/-- Four samples of a burst's window, which share a group clock: conversion, capture and comparators, then their actions at the
next edge (R335, R348, R349). -/
def State.burstGroup (s : State) (rail num : Nat) (xs : List Sample) : State × List Conv :=
  let r := xs.zipIdx.foldl (fun (acc : State × List Conv × List Nat) x =>
    let (t, c) := acc.1.convert x.2 x.1
    let t := t.capWrite true rail num c
    let (t, f) := t.trgAll true rail c
    (t, acc.2.1 ++ [c], acc.2.2 ++ f)) (s, [], [])
  (r.1.trgActions r.2.2, r.2.1)

/-- A burst's 64 window samples, group by group. -/
def State.burstWindow (s : State) (rail num : Nat) (win : List Sample) : State × List Conv :=
  (List.range 16).foldl (fun (acc : State × List Conv) k =>
    let r := acc.1.burstGroup rail num ((win.drop (4 * k)).take 4)
    (r.1, acc.2 ++ r.2)) (s, [])

/-- The samples of a burst count towards background correction (R339). -/
def State.bgcFeed (s : State) (cs : List Conv) : State :=
  if s.get F.ADC_CFG_bgc = 1 then
    s.onAdc fun a => { a with bgcN := a.bgcN + cs.length, bgcLo := (cs.map Conv.code).foldl min a.bgcLo,
                              bgcHi := (cs.map Conv.code).foldl max a.bgcHi }
  else s

/-- Slot `slot` brings its burst, or counts as lost (R335, R337); the window's conversions, none where no burst is taken. What waited
for the end of the reservation starts then (R336). -/
def State.burst (s : State) (slot : Nat) (win : List Sample) : State × Option (List Conv) :=
  if s.adcOn = false ∨ s.on F.ADC_CFG_ilv = false ∨ s.on F.ADC_CFG_fmask = false ∨ slotsOf s.dNow ≤ slot then (s, none)
  else if s.on F.ADC_STAT_cal_run then (s.inc F.ADC_BURST_lost, none)
  else
    let n := s.adc.burstN
    let s := (s.inc F.ADC_BURST_taken).onAdc fun a =>
      { a with burstN := n + 1, settle := a.settle.map fun x => x - 2, reserved := true,
               running := match a.running with | some (false, _) => none | r => r }
    let r := s.burstWindow (s.burstRail s.pnow slot) n win
    (((r.1.bgcFeed r.2).onAdc fun a => { a with reserved := false }).adcNext, some r.2)

/-- The regular sequence's timer expires (R342). -/
def execRegularTimer (s : State) : Host.Outcome State Fault Refusal :=
  .next (if s.get F.ADC_RCFG_trig = 3 then s.regTrigger else s)

/-- Slot ADC_ICFG.slot starts (R343). -/
def execInjectedSlotTrigger (s : State) : Host.Outcome State Fault Refusal :=
  .next (if s.get F.ADC_ICFG_trig = 2 ∧ s.get F.ADC_ICFG_slot < slotsOf s.dNow then s.injTrigger else s)

/-- Every ADC_CALCFG.period milliseconds (R340). -/
def execCalibrationPeriod (s : State) : Host.Outcome State Fault Refusal :=
  .next (if s.on F.ADC_CALCFG_period then s.calRequest else s)

/-- The coefficient words of a completed calibration (R338, R352): slice 0 has no gain and no skew. -/
def State.setCoefs (s : State) (ws : List Word) : State :=
  let s := (List.range 4).foldl (fun t k => t.setReg (R.ADC_COEF k) (ws.getD k 0 &&& (if k = 0 then 0xFF else 0x0FFFFFFF))) s
  s.onAdc fun a => { a with base := Vector.ofFn fun k => s.reg (R.ADC_COEF k) }

/-- A calibration has completed: its result, its count, and its coefficients in use (R340). -/
def State.calDone (s : State) : State :=
  let s := ((s.put F.ADC_CALSTAT_result 1).put F.ADC_CALSTAT_slice 0).put F.ADC_CALSTAT_aband 0
  ((s.inc F.ADC_CALSTAT_done).put F.ADC_STAT_cal_run 0).put F.ADC_STAT_cal_ok 1

/-- Whether a slice's references lie within the limits of phase 1 (R340). -/
def calRefsOk (c : CalSlice) : Bool :=
  c.gnd.2 ≤ 0x008 && 0x7F8 ≤ c.mid.1 && c.mid.2 ≤ 0x808 && 0x9B4 ≤ c.gap.1 && c.gap.2 ≤ 0x9D4

/-- Whether slice `k`'s coefficients lie in their fields' ranges; slice 0 has no gain and no skew (R338, R340, R352). -/
def calFits (c : CalSlice) (k : Nat) : Bool :=
  let within (w : Nat) (v : Int) : Bool := decide (-(2 : Int) ^ (w - 1) ≤ v ∧ v < (2 : Int) ^ (w - 1))
  within 8 c.ofs && (k == 0 || (within 12 c.gain && within 8 c.skew))

/-- A slice's coefficient word (R352). -/
def calWord (c : CalSlice) : Word :=
  BitVec.ofNat 32 (unsigned 8 c.ofs + 2 ^ 8 * unsigned 12 c.gain + 2 ^ 20 * unsigned 8 c.skew)

/-- A foreground calibration ends (R340): phase 1 judges the references of every slice, phase 4 the coefficients. Its conversions have
used up every settle run (R347). -/
def execCalibrationComplete (r : Vector CalSlice 4) (s : State) : Host.Outcome State Fault Refusal :=
  .next (if s.on F.ADC_STAT_cal_run then
    let cs := r.toList.zipIdx
    let s := s.onAdc fun a => { a with settle := Vector.replicate 4 0 }
    match cs.find? fun e => !calRefsOk e.1, cs.find? fun e => !calFits e.1 e.2 with
    | some e, _ => (s.calFail 2 e.2).adcNext
    | none, some e => (s.calFail 3 e.2).adcNext
    | none, none => (((s.setCoefs (r.toList.map calWord)).calDone).event 24 4).adcNext
  else s)

/-- A signed coefficient field after a move, held to its range (R339). -/
def State.moveCoef (s : State) (f : Fld) (m : Move) : State :=
  let top : Int := 2 ^ (f.w - 1)
  s.put f (unsigned f.w (match m with
    | .down => max (-top) (signed f.w (s.get f) - 1)
    | .stay => signed f.w (s.get f)
    | .up => min (top - 1) (signed f.w (s.get f) + 1)))

/-- Whether a coefficient field has drifted beyond the limit (R339). -/
def State.drifted (s : State) (k lo w : Nat) : Bool :=
  let base := s.adc.base.toArray.getD k 0
  decide ((s.get F.ADC_CALCFG_drift : Int) <
    (signed w (getBits (s.reg (R.ADC_COEF k)) lo w) - signed w (getBits base lo w)).natAbs)

/-- Background correction after 65,536 burst samples (R339); it is skipped where they span fewer than 64 codes. -/
def execBgcUpdate (ofs : Vector Move 4) (gainSkew : Vector (Move × Move) 4) (s : State) : Host.Outcome State Fault Refusal :=
  .next (if s.adcOn ∧ s.get F.ADC_CFG_bgc = 1 ∧ 65536 ≤ s.adc.bgcN then
    let enough := 64 ≤ s.adc.bgcHi + 1 - s.adc.bgcLo
    let s := s.onAdc fun a => { a with bgcN := 0, bgcLo := 4095, bgcHi := 0 }
    if enough then
      let s := (List.range 4).foldl (fun t k =>
        let m := gainSkew.toArray.getD k (.stay, .stay)
        let t := t.moveCoef (F.ADC_COEF_ofs k) (ofs.toArray.getD k .stay)
        if k = 0 then t else (t.moveCoef (F.ADC_COEF_gain k) m.1).moveCoef (F.ADC_COEF_skew k) m.2) s
      if (List.range 4).any fun k => s.drifted k 0 8 || s.drifted k 8 12 || s.drifted k 20 8 then
        let s := s.event 24 10
        if s.on F.ADC_CALCFG_autocal then s.calRequest else s
      else s
    else s
  else s)

/-- Neither die sensor has given a result for 100 ms (R366). -/
def execTempNodata (s : State) : Host.Outcome State Fault Refusal := .next ((s.put F.SPL_TEMP_nodata 1).event 27 3)

/-- Clearing PCTRL.en abandons every conversion, sequence, burst, capture and calibration (R334). -/
def State.adcStop (s : State) : State :=
  let s := (s.put (Fld.mk R.ADC_STAT 0 5) 0).put (Fld.mk R.ADC_STAT 6 6) 0
  let s := if s.get F.ADC_CAPSTAT_state = 3 then s else s.put F.ADC_CAPSTAT_state 0
  s.onAdc fun a => { a with running := none, rseq := [], iseq := [], ipos := 0, rstop := false, rback := false, capLeft := 0, bgcN := 0,
                            bgcLo := 4095, bgcHi := 0 }

/-- What a write of ADC_CTRL does, by its action bits (R342, R343, R340, R349, R351). -/
def State.adcCtrl (s : State) (v : Word) : State :=
  let b (k : Nat) : Bool := v.getLsbD k
  let s := if b 6 then ((s.setReg R.ADC_CNT 0).setReg R.ADC_RNG 0).setReg R.ADC_BURST 0 |>.put F.ADC_CALSTAT_done 0 else s
  let s := if b 4 && s.adcOn then
      ((((s.put F.ADC_CAPSTAT_trg 0).put F.ADC_CAPSTAT_pre 0).put F.ADC_CAPSTAT_state 1).onAdc fun a =>
        { a with capAt := 0, capN := 0, capLeft := 0 }) else s
  let s := if b 5 then s.capTrigger else s
  let s := if b 2 then s.injTrigger else s
  let s := if b 3 then s.calRequest else s
  let s := if b 1 then (if s.on F.ADC_STAT_rbusy then
      match s.adc.running with
      | some (false, _) => s.onAdc fun a => { a with rstop := true }
      | _ => s.regEnd.adcShow
    else s) else s
  if b 0 && s.get F.ADC_RCFG_trig == 0 then s.regTrigger else s

end Sys2Proof.Machine
end

