-- ==== Sys2Proof/Machine/Supply.lean ====
section
/-! DEFINITION. Current balance (R357 to R361) and LED supply control (R362 to R365). -/

namespace Sys2Proof.Machine

/-- The record of what is in force in a period (R11). -/
def State.perRec (s : State) (p : Nat) : Option PerRec := s.light.hist.find? fun r => r.per == p

/-- The sums and the window of some rails start from zero (R359, R360). -/
def State.balRestart (s : State) (rails : List Nat) : State :=
  let keep {α : Type} (l : List (Nat × α)) : List (Nat × α) := l.filter fun e => !rails.contains (e.1 / 64)
  { s with bal := { s.bal with sums := keep s.bal.sums, counts := keep s.bal.counts,
                               start := rails.foldl (fun v g => v.setIfInBounds g s.pnow) s.bal.start } }

/-- The sums and windows of every rail start from zero (R359, R360). -/
def State.balStart (s : State) : State := s.balRestart [0, 1, 2, 3]

/-- Whether the balance engine judges rail `g` (R359). -/
def State.balJudges (s : State) (g : Nat) : Bool :=
  s.on F.BAL_CTRL_en && s.on (F.PCTRL_en 26) && s.on (F.PCTRL_en 24) && bits (s.get F.ADC_CFG_fmask) g 1 == 1 &&
    s.on (F.SPL_CTRL_en g) && (s.mode == .operate || s.mode == .mirror)

/-- The code that the tiles drive for a pixel in the present period (R240, R282). -/
def State.codeNow (s : State) (p : Nat) : Nat := s.driven s.slotNow s.maskShown s.light.offForce p

/-- P of R240 with the proven pixels of R358, for a rail and slot of the present period: the lit pixels of the slot in force that the mask
and the aspects off leave lit. -/
def State.predictNow (s : State) (g k : Nat) : Nat :=
  let d := s.dNow
  let fb := s.light.fb
  let px := (s.litIn s.slotNow).filter (LitPixel.shown s.maskShown s.light.offForce)
  let base := s.predict fb d (darkPeriod s.pnow) px (fun t => (s.tile t).off) g k
  let proven := match s.perRec s.pnow with | some r => r.proof | none => []
  base + ((proven.filter fun p => s.rail (p / 16384) == g && startSlot d (p % 16384 / 128) (s.tile (p / 16384)).off == k &&
    px.all fun e => e.pix != p || coverSlots d e.code == 0).map fun p =>
      ((px.find? fun e => e.pix == p).map LitPixel.cur).getD 0).sum

/-- Σ of a burst (R357). -/
def burstSum (cs : List Conv) : Nat := (cs.map fun c => if c.ovr then 4096 else if c.unr then 0 else c.code).sum

/-- I_m of a burst in µA (R357). -/
def State.measured (s : State) (g : Nat) (cs : List Conv) : Int :=
  (((burstSum cs : Int) - 64 * s.get (F.BAL_SENSE_zero g)) * s.get (F.BAL_SENSE_scale g)).tdiv 1024

/-- A burst, or its absence, reaches the balance engine (R357, R358). -/
def State.balBurst (s : State) (slot : Nat) (cs : Option (List Conv)) : State :=
  let g := s.burstRail s.pnow slot
  match cs with
  | none => s.inc F.BAL_CNT_excl
  | some cs =>
    if s.balJudges g = false ∨ cs.any (fun c => !c.judged) then s.inc F.BAL_CNT_excl
    else
      let im := s.measured g cs
      let p := s.predictNow g slot
      let key := 64 * g + 2 * (32 * slot / slotsOf s.dNow) + s.pnow % 2
      let sum := (kvFind s.bal.sums key).getD 0 + (im - p)
      let s := (s.inc F.BAL_CNT_used).put (F.BAL_LAST_im g) (clampInt 0 65535 (im.tdiv 1000)).toNat
      let s := s.put (F.BAL_LAST_pred g) (min 65535 (p / 1000))
      { s with bal := { s.bal with sums := kvPut s.bal.sums key sum, counts := kvPut s.bal.counts key (kvNat s.bal.counts key + 1) } }

/-- A sense slot brings a burst of one rail, or none while a calibration runs (R335, R337, R357). -/
def execFastBurst (slot : Nat) (win : Vector Sample 64) (s : State) : Host.Outcome State Fault Refusal :=
  .next (let (t, cs) := s.burst slot win.toList
    if s.adcOn ∧ s.on F.ADC_CFG_ilv ∧ s.on F.ADC_CFG_fmask ∧ slot < slotsOf s.dNow then t.balBurst slot cs else t)

/-- The result of one group and type at a window end: 0 in band, 1 deficit, 2 excess; below nmin the previous one (R360). -/
def State.balGroup (s : State) (g key : Nat) : Nat :=
  let n := kvNat s.bal.counts key
  if n < s.get F.BAL_CFG_nmin ∨ n = 0 then kvNat s.bal.result key
  else
    let m := ((kvFind s.bal.sums key).getD 0).tdiv n
    let t : Int := 100 * s.get (F.BAL_THR_thr g)
    if m < -t then 1 else if t < m then 2 else 0

/-- BAL_WORST of a rail: the mean of the largest magnitude among the groups counted, ties to the lower group (R368). -/
def State.balWorst (s : State) (g : Nat) : Word :=
  let best := (List.range 64).foldl (fun (b : Option (Nat × Int)) i =>
    let n := kvNat s.bal.counts (64 * g + i)
    if n < s.get F.BAL_CFG_nmin ∨ n = 0 then b
    else
      let m := ((kvFind s.bal.sums (64 * g + i)).getD 0).tdiv n
      match b with
      | some (_, v) => if v.natAbs < m.natAbs then some (i, m) else b
      | none => some (i, m)) none
  match best with
  | some (i, m) => BitVec.ofNat 32 (unsigned 16 (clampInt (-32768) 32767 (m.tdiv 100)) + 65536 * (i / 2) + 2 ^ 21 * (i % 2))
  | none => 0

/-- A rail is judged at a window end (R360, R361). -/
def State.balRail (s : State) (g : Nat) : State :=
  let res := (List.range 64).map fun i => (64 * g + i, s.balGroup g (64 * g + i))
  let s := { s with bal := { s.bal with result := res.foldl (fun t (e : Nat × Nat) => kvPut t e.1 e.2) s.bal.result } }
  let mask (v : Nat) : Nat := ((List.range 32).map fun q =>
    if (res.getD (2 * q) (0, 0)).2 = v ∨ (res.getD (2 * q + 1) (0, 0)).2 = v then 2 ^ q else 0).sum
  let s := ((s.setRegN (R.BAL_DEF g) (mask 1)).setRegN (R.BAL_EXC g) (mask 2)).setReg (R.BAL_WORST g) (s.balWorst g)
  let bad := mask 1 != 0 || mask 2 != 0
  let was := (s.fltInst 24 g).present
  if s.mode = .mirror ∧ bad then s
  else ((s.eventIf (bad && !was) 26 1).eventIf (!bad && was) 26 2).setCond 24 g bad

/-- The rails whose balance window has run its length (R360). -/
def State.balEnds (s : State) : List Nat :=
  (List.range 4).filter fun g =>
    perReached (perAdd (s.bal.start.toArray.getD g 0) (s.get F.BAL_CFG_win * cycleOf s.dNow)) s.pnow

/-- A balance window ends (R359, R360, R361): the engine judges the rails that it may judge, and the next window of every rail whose
window has run its length starts from zero. -/
def execBalanceWindowEnd (s : State) : Host.Outcome State Fault Refusal :=
  .next (let ends := s.balEnds
    let rails := ends.filter s.balJudges
    let t := rails.foldl State.balRail s
    let t := if rails ≠ [] then (t.incWrap F.BAL_STAT_windows).event 26 0 else t
    t.balRestart ends)

/-- What a supply channel works with at a period start: its tiles' lowest headroom and the tile that gave it (R362). -/
def State.neediest (s : State) (g : Nat) : Option (Nat × Nat) :=
  let ts := if s.light.fb then s.tileList else s.tileList.filter fun t => s.rail t == g
  ts.foldl (fun b t =>
    match (s.tile t).head with
    | some h => if (s.tile t).hot then b else match b with
      | some (v, u) => if h < v then some (h, t) else some (v, u)
      | none => some (h, t)
    | none => b) none

/-- The limits of a channel's code: hi serves as both when lo is above it (R362). -/
def State.splLimits (s : State) (g : Nat) : Nat × Nat :=
  let lo := s.get (F.SPL_LIM_lo g)
  let hi := s.get (F.SPL_LIM_hi g)
  (if hi < lo then hi else lo, hi)

/-- The step of a channel's code for headroom `h` (R362). -/
def State.splDelta (s : State) (g h : Nat) : Int :=
  let e : Int := (h : Int) - s.get (F.SPL_TGT_tgt g)
  let d := if e.natAbs ≤ s.get (F.SPL_TGT_band g) then 0
    else
      let d := (-(e * s.get (F.SPL_LOOP_kg g))).tdiv 256
      if d = 0 then (if e < 0 then 1 else -1) else d
  max (-(s.get (F.SPL_LOOP_dn g) : Int)) (min (s.get (F.SPL_LOOP_up g)) d)

/-- The SUPPLY_LIMIT count of a channel (R364). -/
def State.splCount (s : State) (g n : Nat) : State :=
  let s := if h : g < 4 then { s with spl := { s.spl with atLimit := s.spl.atLimit.set g n } } else s
  let lim := decide (s.get F.SPL_GCFG_limn ≤ n)
  let s := s.eventIf (lim && !(s.fltInst 25 g).present) 27 0
  if lim then (s.put (F.SPL_STAT_limit g) 1).setCond 25 g true
  else if n = 0 then (s.put (F.SPL_STAT_limit g) 0).setCond 25 g false else s

/-- One supply channel at a period start (R362 to R364). -/
def State.supplyChannel (s : State) (g : Nat) : State :=
  if s.on (F.PCTRL_en 27) = false then s.splCount g 0
  else if s.mode = .operate ∧ s.on (F.SPL_CTRL_en g) = false then
    ((s.setReg (R.SPL_STAT g) 0).setReg (R.SPL_NEEDY g) 0).splCount g 0
  else
    match s.neediest g with
    | none => (((s.put (F.SPL_STAT_nodata g) 1).put (F.SPL_NEEDY_valid g) 0).event 27 3).splCount g 0
    | some (h, t) =>
      let (lo, hi) := s.splLimits g
      let code := min hi (max lo (s.get (F.SPL_STAT_code g) + s.splDelta g h).toNat)
      let tgt := s.get (F.SPL_TGT_tgt g)
      let band := s.get (F.SPL_TGT_band g)
      let short := code == hi && h + band < tgt
      let excess := code == lo && tgt + band < h
      let s := ((s.put (F.SPL_STAT_code g) code).flag (F.SPL_STAT_at_hi g) (code == hi)).flag (F.SPL_STAT_at_lo g) (code == lo)
      let s := ((s.put (F.SPL_STAT_nodata g) 0).put (F.SPL_STAT_h g) h).put (F.SPL_NEEDY_tile g) t |>.put (F.SPL_NEEDY_valid g) 1
      let s := if short then s.inc F.SPL_CNT_hi else s
      let s := if excess then s.inc F.SPL_CNT_lo else s
      s.splCount g (if short || excess then s.spl.atLimit.toArray.getD g 0 + 1 else 0)

/-- Supply control at a period start (R362); the headroom of the period before has then been used. A channel that is not controlled is
at no limit (R364). -/
def State.supplyPeriod (s : State) : State :=
  let s := if s.driving && s.on F.CLK_STAT_permit then (List.range 4).foldl State.supplyChannel s
    else (List.range 4).foldl (fun t g => t.splCount g 0) s
  { s with tiles := s.tiles.map fun t => { t with head := none } }

/-- Every channel takes its starting code on entry into OPERATE or FALLBACK from CONFIGURE; in OPERATE a channel with en = 0 drives code
0, and so does every channel of a disabled page (R63, R363). -/
def State.supplyInit (s : State) : State :=
  let s := (List.range 4).foldl (fun t g =>
    let idle := !t.on (F.PCTRL_en 27) || (t.mode == .operate && !t.on (F.SPL_CTRL_en g))
    t.setRegN (R.SPL_STAT g) (if idle then 0 else t.get (F.SPL_INIT_code g))) s
  { s with spl := {} }

end Sys2Proof.Machine
end

