-- ==== Sys2Proof/Machine/Modes.lean ====
section
/-! DEFINITION. Reset and power-up (R30, R31, R40), SELFTEST (R34), the safety island's tick and the causes it forces HOLD for (R18
to R20, R27, R367), ACK_N (R41, R42), the end of a dark release (R28), host loss and the configuration time limit (R49), and the
pair role (R411). -/

namespace Sys2Proof.Machine

/-- HOLD forced by the safety island in any mode; before SELFTEST it is kept until SELFTEST would begin (R27, R367). In SELFTEST the
total duration is what the safety ticks have counted (R55; DESIGN CHOICE, log entry 57). -/
def State.forceHold (s : State) (code detail : Nat) : State :=
  match s.boot.phase with
  | .held => s
  | .up =>
    let self := s.mode = .selftest
    let s := if self then s.put F.BIST_TIME2_total (min (10 * s.boot.selfT) 65535) else s
    let s := s.withdraw.enterHold code detail
    if self ∧ s.boot.ackLow ∧ s.on F.SYS_ACKSTAT_stuck then s.setCond 36 0 true else s
  | _ => if s.boot.early.isSome then s else { s with boot := { s.boot with early := some (code, detail) } }

/-- What survives a power-on reset: the commands that wait, the OTP, and the model's own records (R40). -/
def State.porState (s : State) : State :=
  { State.reset with pending := s.pending, now := s.now, otp := s.otp, out := s.out, draws := s.draws,
                     spd := { cutCom := s.cutOtp.spd.cutCom, cutFb := s.cutOtp.spd.cutFb },
                     boot := { rolePin := s.boot.rolePin } }

/-- A reset other than a power-on reset, with its bit of SYS_RSTCAUSE (R35, R40). The SRAM keeps its content until SELFTEST. -/
def State.doReset (s : State) (bit : Nat) : State :=
  let r := { s.porState with sram := s.sram, ecc1 := s.ecc1, ecc2 := s.ecc2 }
  let r := (r.setReg R.SYS_RSTCAUSE (s.reg R.SYS_RSTCAUSE)).setReg R.SYS_RSTCNT (s.reg R.SYS_RSTCNT)
  ((r.setBit R.SYS_RSTCAUSE bit true).put F.SYS_RSTCAUSE_last_hold (s.get F.SYS_HOLDCAUSE_code)).inc F.SYS_RSTCNT_cnt

/-- A power-on reset starts: the last supply has entered its range, or VSAFE fell (R40, R441). -/
def execPowerOnReset (_vsafeFell : Bool) (s : State) : Host.Outcome State Fault Refusal := .next s.porState

/-- A low level of `ns` nanoseconds on a reset input: the permit is withdrawn at once; the device resets, or is left with a glitch
(R30). -/
def State.resetInput (s : State) (ns bit which : Nat) : State :=
  if s.boot.phase = .held then s
  else
    let s := s.withdraw
    if 200 ≤ ns then s.doReset bit
    else if ns < 50 ∨ Config.pulseResets s.draws = false then
      { s.draw with boot := { s.boot with glitch := which } }
    else s.draw.doReset bit

/-- RESET_N falls (R30). -/
def execResetNFall (ns : Nat) (s : State) : Host.Outcome State Fault Refusal := .next (s.resetInput ns 1 1)

/-- PARTNER_RST_N falls; it is not sensed while the device drives it (R30). -/
def execPartnerRstNFall (ns : Nat) (s : State) : Host.Outcome State Fault Refusal :=
  .next (if s.pair.rstLow then s else s.resetInput ns 2 2)

/-- A reset input pulse that did not reset forces HOLD (R27, R30). -/
def execResetGlitch (s : State) : Host.Outcome State Fault Refusal :=
  .next (let g := s.boot.glitch
    if g = 0 then s
    else ({ s with boot := { s.boot with glitch := 0 } }).forceHold 0x0B g)

/-- Reset release: ACK_N and ROLE have their levels and the PLLs start (R30, R31, R42). -/
def execResetRelease (ackN role : Bool) (s : State) : Host.Outcome State Fault Refusal :=
  .next (if s.boot.phase = .held then
    let s := s.put F.CLK_STAT_safe_osc 1
    { s with boot := { s.boot with phase := .locking, rolePin := role, ackLow := !ackN },
             isl := { s.isl with ackLvl := ackN, ackH1 := ackN, ackH2 := ackN, ackVoid := true } }
  else s)

/-- Every PLL has locked: SELFTEST begins, or ends at once where a cause of HOLD was found before (R31, R367). -/
def execPllLock (s : State) : Host.Outcome State Fault Refusal :=
  .next (if s.boot.phase = .locking then
    let s := (((s.put F.CLK_STAT_core_lock 1).put F.CLK_STAT_chain_lock 1).put F.CLK_STAT_conv_lock 1).put F.CLK_STAT_ltx_lock 1
    let s := { s with boot := { s.boot with phase := .up } }
    match s.boot.early with
    | some (c, d) => s.forceHold c d
    | none => s
  else s)

/-- No lock 2 ms after reset release: the core stays in reset (R31). It sets its cause bit and, being no reset, does not count in
SYS_RSTCNT (R40; DESIGN CHOICE, log entry 50). -/
def execPllLockTimeout (s : State) : Host.Outcome State Fault Refusal :=
  .next (if s.boot.phase = .locking then
    { s.put F.SYS_RSTCAUSE_pll 1 with boot := { s.boot with phase := .noLock } }
  else s)

/-- The PLLs are restarted (R31). -/
def execPllRestart (s : State) : Host.Outcome State Fault Refusal :=
  .next (if s.boot.phase = .noLock then { s with boot := { s.boot with phase := .locking } } else s)

/-- Entry into CONFIGURE at the end of SELFTEST (R26, R42). -/
def State.passSelftest (s : State) : State :=
  let s := (s.put F.SYS_STRES_complete 1).leaveSelftest
  let s := s.setMode .configure
  if s.boot.ackLow ∧ s.on F.SYS_ACKSTAT_stuck then s.setCond 36 0 true else s

/-- The BIST registers that step `n` writes (R55). -/
def bistOffsets : Nat → List Nat
  | 2 => [0x4C]
  | 3 => [0x50, 0x54, 0x58]
  | 4 => [0x5C, 0x60]
  | 5 => [0x64]
  | 6 => [0x68]
  | 7 => [0x6C]
  | 8 => [0x70, 0x74]
  | 9 => [0x78]
  | _ => []

/-- The defined bits of a BIST register. -/
def bistMask (o : Nat) : Word := BitVec.ofNat 32 ((regSpec (0x2000 + o)).elim 0 fun r => r.ro)

/-- What the calibration of SELFTEST step 5 leaves (R334, R340, R352), by the word BIST_ADC: a slice with a reference outside its limits,
a slice that did not converge, or new coefficients `cs`. -/
def State.selfCal (s : State) (w : Nat) (cs : List Word) : State :=
  let lacks (lo : Nat) : Option Nat := (List.range 4).find? fun k => !w.testBit (lo + k)
  match (List.range 4).find? (fun k => !w.testBit k || !w.testBit (4 + k) || !w.testBit (8 + k)), lacks 12 with
  | some k, _ => (s.put F.ADC_CALSTAT_result 2).put F.ADC_CALSTAT_slice k
  | none, some k => (s.put F.ADC_CALSTAT_result 3).put F.ADC_CALSTAT_slice k
  | none, none => (s.setCoefs cs).calDone

/-- The detail of step `n` reaches the BIST page (R55). -/
def State.showStep (s : State) (n : Nat) (r : StepRes) : State :=
  let f : Fld := ⟨R.BIST_TIME0 + 4 * ((n - 1) / 4 % 3), 8 * ((n - 1) % 4), 8⟩
  let s := s.put f (min r.half 255)
  let s := ((bistOffsets n).zipIdx).foldl (fun t (e : Nat × Nat) =>
    t.setReg (0x2000 + e.1) (r.words.getD e.2 0 &&& bistMask e.1)) s
  if n = 5 then s.selfCal (r.words.getD 0 0).toNat ((List.range 4).map fun k => r.words.getD (k + 1) 0) else s

/-- SELFTEST ends with a failed step (R34, R38). SYS_STRES bit 31 stays clear, as where HOLD is forced (R27, R51; DESIGN CHOICE, log
entry 48). -/
def State.failStep (s : State) (n inst tot10 code : Nat) : State :=
  let s := (s.setBit R.SYS_STRES (n - 1) true).put F.SYS_STDETAIL_step n |>.put F.SYS_STDETAIL_inst inst
  (s.forceHold code (if code = 1 then 4096 * n + inst else 0)).put F.BIST_TIME2_total (min tot10 65535)

/-- Step 6 loops every lane (R34, R93). -/
def State.loopLanes (s : State) : State := (List.range 4).foldl (fun t l => t.put (F.LNK_STAT_state l) 6) s

/-- A SELFTEST step ends (R34, R35, R46, R55, R457). Whether step 1 passes follows from the OTP. -/
def execSelftestStepComplete (r : StepRes) (s : State) : Host.Outcome State Fault Refusal :=
  .next (if s.boot.phase = .up ∧ s.mode = .selftest then
    let n := s.boot.step + 1
    let s := (s.showStep n r)
    let s := { s with boot := { s.boot with step := n } }
    if n = 1 then
      let s := s.readOtp
      if s.idOk then s else s.failStep 1 0 r.tot10 0x0A
    else if r.pass = false then s.failStep n r.inst.toNat r.tot10 1
    else
      let s := if n = 4 then { s with sram := [], ecc1 := [], ecc2 := [] } else s
      let s := if n = 5 then s.loopLanes else s
      if n = 9 then (s.put F.BIST_TIME2_total (min r.tot10 65535)).passSelftest else s
  else s)

/-- The SELFTEST timer expires (R34, R38, R55): the detail names the step that runs. -/
def execSelftestTimerExpiry (s : State) : Host.Outcome State Fault Refusal :=
  .next (if s.boot.phase = .up ∧ s.mode = .selftest then
    (s.put ⟨R.BIST_TIME2, 8, 1⟩ 1).forceHold 1 (4096 * (s.boot.step + 1))
  else s)

/-- Whether a cycle count is more than 6 % from its expected value, given doubled (R20). -/
def clockOff (count expected2 : Nat) : Bool := 6 * expected2 < 100 * (2 * count - expected2 + (expected2 - 2 * count))

/-- Twice the expected cycle counts of a safety tick: core, chain, converter group and lane transmit word clock (R20, R88). -/
def State.expectedClocks (s : State) : List Nat :=
  [80000, 65536, 25000, [6250, 12500, 15625, 25000, 31250].getD s.link.rate 6250]

/-- The clock counts of a safety tick (R20). The lane transmit clock is not judged around a change of rate (R89). -/
def State.tickClocks (s : State) (p : TickIn) : State :=
  let cs := [p.fcore.toNat, p.fchain.toNat, p.fconv.toNat, p.fltx.toNat]
  let s := (((s.put F.CLK_FCORE_n p.fcore.toNat).put F.CLK_FCHAIN_n p.fchain.toNat).put F.CLK_FCONV_n p.fconv.toNat).put
    F.CLK_FLTX_n p.fltx.toNat
  let off (k : Nat) : Bool := clockOff (cs.getD k 0) (s.expectedClocks.getD k 0) &&
    !(k == 3 && (s.link.change != 0 || s.link.unjudged != 0))
  let s := s.flag F.CLK_STAT_fmon_ok ((List.range 4).all fun k => !off k)
  { s with isl := { s.isl with clkOff := Vector.ofFn fun k => if off k then s.isl.clkOff[k] + 1 else 0 },
           link := { s.link with unjudged := s.link.unjudged - 1 } }

/-- The thermal sample of a safety tick (R367). The level is the nominal 165 °C. -/
def State.tickThermal (s : State) (t : Int) : State :=
  let hotNow := decide (165 ≤ t)
  { s with isl := { s.isl with tempC := t, hot := if hotNow then s.isl.hot + 1 else 0, hotTrip := s.isl.hotTrip && hotNow } }

/-- The ACK_N sample of a safety tick (R41): a level holds once three samples in a row show it. -/
def State.tickAck (s : State) (a : Bool) : State :=
  let i := s.isl
  let lvl := if a = i.ackH1 ∧ a = i.ackH2 then a else i.ackLvl
  let pressed := i.ackLvl && !lvl
  let released := !i.ackLvl && lvl
  let len := if pressed then 3 else if lvl then 0 else i.ackLen + 1
  let i := { i with
    ackH1 := a, ackH2 := i.ackH1, ackLvl := lvl, ackLen := len, ackHigh := if a then i.ackHigh + 1 else 0,
    ackVoid := if pressed then s.on F.SYS_ACKSTAT_stuck else i.ackVoid,
    ackRel := if released then some (i.ackLen - 2) else i.ackRel }
  ({ s with isl := i }).flag F.SYS_ACKSTAT_ack_level lvl

/-- The watchdog's count of a safety tick (R19). -/
def State.tickWatchdog (s : State) : State :=
  let gap := s.isl.hbGap + 1
  { s with isl := { s.isl with hbGap := gap, wdogDue := s.isl.wdogDue || ceilDiv s.dNow 8 + 2 < gap } }

/-- The times that the safety island counts for the safe PDU connection and the configuration (R49, R148). -/
def State.tickTimes (s : State) : State :=
  { s with spd := { s.spd with host := s.spd.host + 1, failT := s.spd.failT + 1, cfgT := s.spd.cfgT + 1, dl := s.spd.dl + 1 } }

/-- One safety tick (R20, R41, R148, R367, R373). -/
def execSafetyTick (p : TickIn) (s : State) : Host.Outcome State Fault Refusal :=
  .next (if s.boot.phase = .held then s
  else
    let s := (s.tickThermal p.temp).tickAck p.ackN
    if s.boot.phase = .up then
      let s := s.tickClocks p
      if s.live then (s.tickWatchdog.tickTimes).sioTick p else { s with boot := { s.boot with selfT := s.boot.selfT + 1 } }
    else s)

/-- A clock is off in two ticks in a row: HOLD with cause CLOCK (R20, R27). -/
def execClockFault (s : State) : Host.Outcome State Fault Refusal :=
  .next (match s.isl.clkOff.toList.findIdx? (fun n => 2 ≤ n) with
    | some k =>
      if s.boot.phase = .up ∧ s.isl.clkBad = false then
        ({ s with isl := { s.isl with clkBad := true } }).forceHold 3 k
      else s
    | none => s)

/-- The watchdog expires (R19, R27). -/
def execWatchdogExpiry (s : State) : Host.Outcome State Fault Refusal :=
  .next (if s.live ∧ s.isl.wdogDue ∧ s.isl.wdogExp = false then
    ({ s with isl := { s.isl with wdogExp := true } }).forceHold 2 s.isl.hbLast
  else s)

/-- The supply monitor finds a rail outside its limits, 4 being VSAFE (R27, R439, R441). -/
def execSupplyFault (rail : Fin 5) (s : State) : Host.Outcome State Fault Refusal :=
  .next (if s.boot.phase = .held then s
    else ({ s with isl := { s.isl with supBad := true } }).forceHold 4 rail)

/-- VDDH below 1.20 V closes every bypass leg (R441, R447). -/
def execVddhLossBypassClose (s : State) : Host.Outcome State Fault Refusal :=
  .next { s.chainsOff with boot := { s.boot with vddhLow := true } }

/-- Three temperature samples in a row at the shutdown level (R27, R367). -/
def execThermalTrip (s : State) : Host.Outcome State Fault Refusal :=
  .next (if 3 ≤ s.isl.hot ∧ s.isl.hotTrip = false then
    ({ s with isl := { s.isl with hotTrip := true } }).forceHold 5 (unsigned 16 (s.isl.tempC + 64))
  else s)

/-- A crossing fails parity (R17). -/
def execCrossingParityError (x : Fin 10) (s : State) : Host.Outcome State Fault Refusal :=
  .next ((s.setBit R.CLK_XERR x true).raise 20 0)

/-- What a dark release leads to (R28, R39). -/
def State.darkDone (s : State) : State :=
  match s.boot.dark with
  | some .configure => s.enterConfigure
  | some (.hold d) => s.enterHold 7 d
  | some .reset => (s.withdraw).doReset 3
  | none => s

/-- Two complete periods of the all-dark frame have been driven (R28). Where no tile is enabled no all-dark frame is composed, and the
release does not end (DESIGN CHOICE, log entry 63). -/
def execDarkReleaseEnd (s : State) : Host.Outcome State Fault Refusal :=
  .next (match s.boot.darkFrom with
    | some p => if s.driving ∧ s.darkRel ∧ perReached (perAdd p 2) s.pnow then s.darkDone else s
    | none => s)

/-- An accepted acknowledgement (R44, R54): one event, which takes effect at the next period start. In MIRROR it changes nothing
beside its count (R418). -/
def State.acknowledge (s : State) (src : Nat) : State :=
  let s := (s.incWrap F.SYS_ACKSTAT_count).put F.SYS_ACKSTAT_src src
  if s.mode = .mirror then s else { s with isl := { s.isl with ackEvent := true } }

/-- A press of ACK_N ended and is judged by its length, in SELFTEST as in every mode (R32, R41). -/
def execAckNRelease (s : State) : Host.Outcome State Fault Refusal :=
  .next (match s.isl.ackRel with
    | some n =>
      let s := { s with isl := { s.isl with ackRel := none } }
      if s.boot.phase = .up ∧ s.isl.ackVoid = false ∧ 200 ≤ n ∧ n < 20000 then s.acknowledge 1 else s
    | none => s)

/-- ACK_N is still low after 2 s (R41). In SELFTEST the class waits for its end, when fault reaction starts (R42). -/
def execAckNStuck (s : State) : Host.Outcome State Fault Refusal :=
  .next (if s.boot.phase = .up ∧ s.isl.ackLvl = false ∧ 20000 ≤ s.isl.ackLen then
    let s := { s.put F.SYS_ACKSTAT_stuck 1 with isl := { s.isl with ackVoid := true } }
    if s.mode = .selftest then { s with boot := { s.boot with ackLow := true } } else s.setCond 36 0 true
  else s)

/-- ACK_N has been high for 1,000 samples (R41, R42). -/
def execAckNStuckClear (s : State) : Host.Outcome State Fault Refusal :=
  .next (if s.on F.SYS_ACKSTAT_stuck ∧ 1000 ≤ s.isl.ackHigh then (s.put F.SYS_ACKSTAT_stuck 0).setCond 36 0 false else s)

/-- The SYS_ACK sequence is disarmed (R43). -/
def State.disarm (s : State) : State := { s.put F.SYS_ACKSTAT_armed 0 with isl := { s.isl with ackSrc := none } }

/-- A SYS_ACK write from the SPI port or an accepted safe PDU (R43). -/
def State.ackKey (s : State) (src : Src) (v : Word) : State :=
  if v = 0xA5 then { s.put F.SYS_ACKSTAT_armed 1 with isl := { s.isl with ackSrc := some src } }
  else
    let ok := decide (v = 0x5A) && s.isl.ackSrc == some src
    let s := s.disarm
    if ok then s.acknowledge (if src = .spi then 2 else 3) else s

/-- 1 ms after the arming write (R43). -/
def execAckArmTimeout (s : State) : Host.Outcome State Fault Refusal := .next s.disarm

/-- Whether the Axolotl unit takes part in a pair (R411, R435). -/
def State.paired (s : State) : Bool := s.on F.AXO_CFG_pair && s.on (F.PCTRL_en 30)

/-- Whether a count of periods lies within the last `hbmiss` (R411, R432). -/
def State.heard (s : State) (n : Nat) : Bool := n ≤ s.get F.AXO_CFG_hbmiss

/-- The pair role by the first matching row (R411), and whether equal ROLE pins were found: 0 single, 1 active, 2 standby, 3
pending. -/
def State.roleRow (s : State) : Nat × Bool :=
  let pin := s.on F.SYS_STAT_role_pin
  if s.paired = false then (0, false)
  else if s.heard s.pair.noAct ∨ s.pair.noMark ≤ 2 then (2, false)
  else if s.heard s.pair.noConf then
    if pin = s.pair.pin then (if s.regN R.AXO_PSER < s.serialLo then 1 else 2, true) else (if pin then 1 else 2, false)
  else if s.heard s.pair.noPair then (3, false)
  else if pin ∨ 10 * s.get F.AXO_CFG_alone < s.spd.cfgT then (1, false)
  else (3, false)

/-- The role is evaluated (R411, R437). -/
def State.evalRole (s : State) : State :=
  let (r, mis) := s.roleRow
  let s := s.eventIf (r != s.get F.AXO_STAT_role) 30 0
  let s := if mis then s.put F.AXO_STAT_cfgmis 1 else s
  s.put F.AXO_STAT_role r

/-- Whether the role is the active one, single or of a pair (R411). -/
def State.roleActive (s : State) : Bool := s.get F.AXO_STAT_role ≤ 1

/-- The aspects off hold from the first frame (R322): no row of one before is on the tiles. -/
def State.freshOff (s : State) : State :=
  let s := { s with light := { s.light with offForce := s.shownOff, offDue := [] } }
  (List.range 20).foldl (fun t c => t.onChain c fun ch => { ch with react := [] }) s

/-- Entry into OPERATE or FALLBACK from CONFIGURE: the store is clear, every chain starts afresh, supply control and balance
start (R26, R233, R292, R359, R363); in OPERATE a latched FALLBACK action is taken again (R322). -/
def State.drive (s : State) (m : Mode) : State :=
  let s := ((((s.enterDriving m).clearPixelClasses).freshOff).supplyInit).balStart
  if m = .operate then s.retakeFallback else s

/-- A configuration failure (R49): the time to host loss runs from the first. -/
def State.cfgFail (s : State) : State :=
  { s.put F.SYS_STAT_cfg_fail 1 with boot := { s.boot with cfgFailed := true },
                                     spd := { s.spd with failT := if s.boot.cfgFailed then s.spd.failT else 0 } }

/-- Host loss after a configuration failure in CONFIGURE: the role is evaluated again, and FALLBACK is entered where the
descriptor is valid and the role is active (R49, R412). -/
def State.fallbackFromConfigure (s : State) : State :=
  let s := s.evalRole
  if s.roleActive ∧ s.on F.SYS_FBSTAT_valid then s.drive .fallback else s

/-- SYS_HOSTTO.ms pass without an accepted safe PDU: the host is lost (R49, R147, R106), in OPERATE also one that was lost before a
takeover. In CONFIGURE the time also runs from a configuration failure. -/
def execHostLoss (s : State) : Host.Outcome State Fault Refusal :=
  let lim := 10 * s.get F.SYS_HOSTTO_ms
  let lost := s.live && decide (lim < s.spd.host)
  .next (let t := if lost && !s.on F.SYS_STAT_host_lost then (s.put F.SYS_STAT_host_lost 1).put F.SPD_RXSTAT_synced 0 else s
    match t.mode with
    | .operate => if lost then t.enterFallback else t
    | .fallback => if lost then t.cancelBack else t
    | .configure => if t.boot.cfgFailed ∧ lim < t.spd.failT then t.fallbackFromConfigure else t
    | _ => t)

/-- SYS_CFGTO.ms have passed since entry into CONFIGURE (R49, R51). -/
def execCfgTimeout (s : State) : Host.Outcome State Fault Refusal :=
  .next (let ms := s.get F.SYS_CFGTO_ms
    if s.mode = .configure ∧ ms ≠ 0 ∧ s.spd.cfgOver = false ∧ 10 * ms < s.spd.cfgT then
      { s.cfgFail with spd := { s.cfgFail.spd with cfgOver := true } }
    else s)

end Sys2Proof.Machine
end

