-- ==== Sys2Proof/Machine/Ledger.lean ====
section
/-! DEFINITION. Proof pulses: which pixels are provable (R296), the proof ledger (R297) and surplus compensation (R300). -/

namespace Sys2Proof.Machine

/-- Whether a pixel's driven code is lowered (R300): its code in the slot is, and nothing forces the pixel dark. -/
def State.lowered (s : State) (slot : Nat) (m : List Word) (off : List Nat) (p : Nat) : Bool :=
  (s.snapOf slot).low.contains p && !masked m p &&
    !(match s.owner slot p with | some a => off.contains a | none => false)

/-- The unadjusted code of a pixel: the driven code with any lowering removed (R285). -/
def State.unadjusted (s : State) (slot : Nat) (m : List Word) (off : List Nat) (p : Nat) : Nat :=
  s.driven slot m off p + (s.lowered slot m off p).toNat

/-- Why a sub-window pixel with unadjusted code `c` is not provable, its ledger entry apart (R296): 0 the numbers of N, c and W,
2 its owner's ASP_SUPV.proof; none where it is provable with an entry. -/
def State.unprovable (s : State) (slot w p c : Nat) : Option Nat :=
  let n := s.proofN
  if n * c < w ∨ n + c < w + 2 then some 0
  else if s.fbMode then none
  else match s.owner slot p with
    | some a => if s.on (F.ASP_SUPV_proof a) then none else some 2
    | none => some 2

/-- The SRAM address of entry `e` of a tile's ledger (R297). -/
def ledgerAddr (t e : Nat) : Nat := 0xD48000 + 8192 * t + 8 * e

/-- The valid entries of a tile's ledger: their numbers and words (R297). -/
def State.ledgerOf (s : State) (t : Nat) : List (Nat × Nat) :=
  ((List.range 1024).map fun e => (e, s.rdLe (ledgerAddr t e) 8)).filter fun x => bits x.2 14 1 == 1

/-- A valid ledger entry (R297): pixel index, low, sur and a. -/
def ledgerPack (i : Nat) (low : Bool) (sur : Int) (a : Nat) : Nat :=
  i % 16384 + 16384 + 32768 * low.toNat + 65536 * unsigned 16 sur + 2 ^ 32 * (a % 65536)

/-- sur of an entry (R297). -/
def ledgerSur (v : Nat) : Int := signed 16 (bits v 16 16)

/-- The surplus of an entry at period `p`, the lowered periods not yet counted taken off (R300). -/
def ledgerLeft (v p : Nat) : Int :=
  ledgerSur v - (if bits v 15 1 = 1 then (p + 65536 - bits v 32 16) % 65536 else 0 : Nat)

/-- A ledger entry is written. -/
def State.setLedger (s : State) (t e v : Nat) : State := s.setLe (ledgerAddr t e) 8 v

/-- The ledger entry that a pixel holds (R297). -/
def State.heldEntry (s : State) (p : Nat) : Option (Nat × Nat) :=
  (s.ledgerOf (p / 16384)).find? fun x => bits x.2 0 14 == p % 16384

/-- The field that counts the pixels of a state, for the states that have one (R306). -/
def stateCount : Nat → Option Fld
  | 1 => some F.SUP_CNT0_open
  | 2 => some F.SUP_CNT0_short
  | 3 => some F.SUP_CNT1_stuck
  | 4 => some F.SUP_CNT1_sensefail
  | 5 => some F.SUP_CNT2_unv
  | 6 => some F.SUP_CNT3_exempt
  | _ => none

/-- A count of pixels falls or rises; its field saturates (R306). -/
def State.countState (s : State) (st : Nat) (up : Bool) : State :=
  match stateCount st with
  | some f =>
    let n := if up then kvNat s.light.counts st + 1 else kvNat s.light.counts st - 1
    { s.put f (min n (2 ^ f.w - 1)) with light := { s.light with counts := kvPut s.light.counts st n } }
  | none => s

/-- The fault list entry of a pixel, its number and value (R290). -/
def State.listEntry (s : State) (p : Nat) : Option (Nat × Nat) := s.faultList.find? fun e => entryPix e.2 == p

/-- The reason for which a pixel is UNVERIFIED, none for another state (R296, R309). -/
def State.setWhy (s : State) (p : Nat) (why : Option Nat) : State :=
  if kvFind s.light.unvWhy p = why then s
  else
    let l := s.light.unvWhy.filter fun e => e.1 != p
    let l := match why with | some k => kvPut l p k | none => l
    let n (k : Nat) : Nat := (l.filter fun e => e.2 == k).length
    let s := ((s.put F.PRF_UNV0_n (n 0)).put F.PRF_UNV1_n (n 1)).put F.PRF_UNV2_n (n 2)
    { s with light := { s.light with unvWhy := l } }

/-- A word of the state store that cannot be read: its pixels take the fault list's states, or OK, and the counts follow (R291, R306, R309). -/
def State.restoreWord (s : State) (w : Nat) : State :=
  (List.range 8).foldl (fun u k =>
    let p := 8 * w + k - 0xC00000
    let st := match s.listEntry p with | some (_, e) => bits e 21 3 | none => 0
    (((u.setPix p st 0 0).setWhy p none).countState (bits (s.byte (8 * w + k)).toNat 0 3) false).countState st true) s

/-- Supervision reads the words of the state store that `f` selects; those that cannot be read are restored (R187, R291). -/
def State.restore (s : State) (f : Nat → Bool) : State := (s.ecc2.filter f).foldl State.restoreWord (s.readWords f 4)

/-- prf of a pixel takes a value (R289, R291). -/
def State.setPrf (s : State) (p k : Nat) : State :=
  let s := s.restore (wordIn (0xC00000 + p) 1)
  s.setLe (0xC00000 + p) 1 (s.pixByte p % 64 + 64 * k)

/-- A ledger entry that reads as zero after an uncorrectable error is lost: its pixel's surplus goes with it (R291, R311). -/
def State.loseEntry (s : State) (t e : Nat) : State :=
  let i := (List.range 16384).filter fun i => s.pixPrf (16384 * t + i) != 0 && (s.heldEntry (16384 * t + i)).isNone
  (i.foldl (fun s k => s.setPrf (16384 * t + k) 0) (s.setLedger t e 0)).event 19 3

/-- Supervision reads `n` bytes of the ledger at `a`: entries that cannot be read are lost (R186, R187, R291). -/
def State.readEntries (s : State) (a n : Nat) : State :=
  let bad := s.ecc2.filter (wordIn a n)
  let s := s.readRange a n 4
  bad.foldl (fun s w => s.loseEntry ((8 * w - 0xD48000) / 8192) ((8 * w - 0xD48000) % 8192 / 8)) s

/-- The whole ledger is read (R300). -/
def State.readLedger (s : State) : State := s.readEntries 0xD48000 0xA0000

/-- PRF_SUR keeps the highest and lowest surplus (R309). -/
def State.noteSur (s : State) (v : Int) : State :=
  (s.put F.PRF_SUR_high (unsigned 16 (max (signed 16 (s.get F.PRF_SUR_high)) v))).put F.PRF_SUR_low
    (unsigned 16 (min (signed 16 (s.get F.PRF_SUR_low)) v))

/-- F in use (R300). -/
def State.frameF (s : State) : Nat := framePeriods s.dNow (s.get F.VIN_RATE_max_hz)

/-- A proof adds its ticks to the pixel's surplus (R300). -/
def State.addSurplus (s : State) (p ticks : Nat) : State :=
  match s.heldEntry p with
  | none => s
  | some (e, v) =>
    let sur := ledgerSur v + ticks
    let s := (s.setLedger (p / 16384) e (ledgerPack (bits v 0 14) (bits v 15 1 == 1) sur (bits v 32 16))).noteSur sur
    if s.pixPrf p = 1 ∧ (s.frameF : Int) ≤ sur then (s.setPrf p 2).markRows [rowOf p] else s

/-- The ledger at the period start `ps` at which a pass starts (R300): the next pass lowers the codes of the pixels whose
projected surplus is at least F. -/
def State.ledgerPass (s : State) (ps : Nat) : State :=
  (List.range 80).foldl (fun s t => (s.ledgerOf t).foldl (fun s x =>
    let p := 16384 * t + bits x.2 0 14
    let want := if (s.frameF : Int) ≤ ledgerLeft x.2 ps then 2 else 1
    if s.pixPrf p = want then s else (s.setPrf p want).markRows [rowOf p]) s) s

/-- A pixel joins its tile's candidate queue (R297). -/
def State.joinQueue (s : State) (p : Nat) : State :=
  let q := (s.tile (p / 16384)).queue
  if q.contains p then s
  else if q.length < 64 then s.onTile (p / 16384) fun t => { t with queue := q ++ [p] }
  else s.event 19 2

/-- The mask in force as supervision sees it: none in FALLBACK (R180). -/
def State.maskDriven (s : State) : List Word := if s.fbMode then [] else s.vid.maskNow

/-- The unadjusted code in force now. -/
def State.unadjustedNow (s : State) (p : Nat) : Nat := s.unadjusted s.slotNow s.maskDriven s.light.offForce p

/-- Free entries below C go to a tile's candidates in queue order (R297). -/
def State.assignEntries (s : State) (t : Nat) : State :=
  (s.tile t).queue.foldl (fun s p =>
    match (List.range s.ledgerCap).find? fun e => bits (s.rdLe (ledgerAddr t e) 8) 14 1 == 0 with
    | none => s.event 19 2
    | some e =>
      ((s.setLedger t e (ledgerPack (p % 16384) false 0 s.pnow)).setPrf p 1).onTile t fun u =>
        { u with queue := u.queue.filter fun q => q != p }) s

/-- One entry at the period in which a frame LATCH brings codes into force (R297, R300): it is released, or its lowered periods
are repaid where the frame holds its row. -/
def State.ledgerEntry (s : State) (rows : List Nat) (t e v : Nat) : State :=
  let p := 16384 * t + bits v 0 14
  let c := s.unadjustedNow p
  let w := windowTicks s.dNow
  let keep := e < s.ledgerCap && (s.place t).isSome && decide (0 < c) && decide (c < w) && (s.unprovable s.slotNow w p c).isNone
  if keep = false then (s.setLedger t e 0).setPrf p 0
  else if rows.contains (rowOf p) then
    let sur := ledgerLeft v s.pnow
    (s.setLedger t e (ledgerPack (bits v 0 14) (s.lowered s.slotNow s.maskDriven s.light.offForce p) sur s.pnow)).noteSur sur
  else s

/-- The pixels with a lowered code in force (R300). -/
def State.lowNow (s : State) : Nat :=
  ((s.snapOf s.slotNow).low.filter (s.lowered s.slotNow s.maskDriven s.light.offForce)).length

/-- PRF_LOW.pixels (R309). -/
def State.showLow (s : State) : State := s.put F.PRF_LOW_pixels (min s.lowNow 65535)

/-- The ledger at the period in which a frame LATCH brings the codes of `rows` into force (R297, R300, R309). -/
def State.ledgerFrame (s : State) (rows : List Nat) : State :=
  let s := s.readLedger
  let s := (List.range 80).foldl (fun s t =>
    ((s.ledgerOf t).foldl (fun s x => s.ledgerEntry rows t x.1 x.2) s).assignEntries t) s
  s.incBy F.PRF_LOW_frames (min s.lowNow 1)

end Sys2Proof.Machine
end

