-- ==== Sys2Proof/Machine/Video.lean ====
section
/-! DEFINITION. Video frames (R126 to R128), swaps (R163 to R168), composition passes (R169 to R174), placement (R232 to R240)
and the scrubber (R188). -/

namespace Sys2Proof.Machine

/-- The video path changes beside its registers. -/
def State.onVid (s : State) (f : Video → Video) : State := { s with vid := f s.vid }

/-- The packet layer changes beside its registers. -/
def State.onLink (s : State) (f : Link → Link) : State := { s with link := f s.link }

/-- A swap event exchanges front and back (R164, R167, R168, R174). In MIRROR its period comes from the partner's digest. -/
def State.swapEvent (s : State) : State :=
  let early := match s.vid.swapEv with
    | some t => decide ((s.now - t) * s.get F.VIN_RATE_max_hz < 400000000)
    | none => false
  let s := if early then (s.inc F.VIN_MISS_early).event 10 2 else s
  let s := if s.on F.VIN_STAT_pend ∨ (s.get F.CMP_STAT_state ≠ 0 ∧ s.vid.fresh) then s.supersede else s
  let s := s.dropPass
  let s := (((s.put F.VIN_STAT_front (1 - s.get F.VIN_STAT_front)).put F.VIN_STAT_back 0).put F.VIN_STAT_pend 1).inc
    F.VIN_CNT_swaps
  (s.put F.VIN_STAT_fnum s.vid.backNum).onVid fun v =>
    { v with swapEv := some s.now, fresh := false, swapDue := if s.mode = .mirror then none else some s.nextStart }

/-- No frame is open (R128, R139): open, bad and cur read zero. -/
def State.noFrame (s : State) : State :=
  ((s.put F.PKT_VSTAT_open 0).put F.PKT_VSTAT_bad 0).put F.PKT_VSTAT_cur 0

/-- A frame is dropped (R128). -/
def State.dropFrame (s : State) : State :=
  let s := (((s.inc F.PKT_VCNT_dropped).event 8 3).inc F.PKT_VSTAT_held).noFrame
  let s := if s.get F.VIN_STAT_back = 1 then s.put F.VIN_STAT_back 0 else s
  if s.mode = .operate ∧ s.get F.VIN_CFG_hold_lim ≤ s.get F.PKT_VSTAT_held then (s.event 8 4).enterFallback else s

/-- A VLINE reaches the video path (R126): it opens a frame, drops the open one where its number differs, and may make its frame
bad. -/
def State.openFrame (s : State) (f : Nat) (bad : Bool) : State :=
  let start (t : State) : State :=
    (((t.put F.PKT_VSTAT_open 1).put F.PKT_VSTAT_cur f).flag F.PKT_VSTAT_bad bad).onLink fun l => { l with vcrc := 0 }
  if s.on F.PKT_VSTAT_open then
    if s.get F.PKT_VSTAT_cur = f then (if bad then s.put F.PKT_VSTAT_bad 1 else s) else start s.dropFrame
  else start s

/-- A little-endian field of a packet body; byte 4 of the packet is byte 0 of its body (R113). -/
def bodyLe (p : Pkt) (o n : Nat) : Nat := leNat ((p.body.drop (o - 4)).take n)

/-- An accepted VLINE writes its pixels into the back buffer (R126, R163). -/
def State.writeLine (s : State) (p : Pkt) : State :=
  let y := bodyLe p 6 2
  let x0 := bodyLe p 8 2
  let buf := 1 - s.get F.VIN_STAT_front
  (List.range (bodyLe p 10 2)).foldl (fun s k =>
    let a := videoAddr buf (pixOf (x0 + k) y)
    (s.readRange a 2 1).setLe a 2 (bits (bodyLe p (12 + 3 * (k / 2)) 3) (12 * (k % 2)) 12)) s

/-- The charge of a video packet in units of 64 bytes (R123). -/
def videoUnits (p : Pkt) : Nat := ceilDiv (8 + p.len.toNat) 64

/-- The charge that a packet in the video pool holds: none where it found no credit. -/
def heldUnits (e : Nat × Pkt) : Nat := if e.1 ≤ 2 then videoUnits e.2 else 0

/-- A good frame is swapped in, or waits sealed (R164). -/
def State.sealFrame (s : State) : State :=
  if s.get F.VIN_CFG_swap = 0 then s.swapEvent else s.put F.VIN_STAT_back 2

/-- An FEND judges the open frame, or a repeat frame (R127, R128). -/
def State.judgeFrame (s : State) (p : Pkt) : State :=
  let f := bodyLe p 4 1
  let fcrc := bodyLe p 8 4
  let opened := s.on F.PKT_VSTAT_open
  let val := if opened then s.link.vcrc else 0
  let s := (s.setRegN R.PKT_VCRC fcrc).setRegN R.PKT_VCALC val
  if fcrc = val ∧ (opened = false ∨ (s.on F.PKT_VSTAT_bad = false ∧ s.get F.PKT_VSTAT_cur = f)) then
    let s := (((s.inc F.PKT_VCNT_good).put F.PKT_VSTAT_held 0).put F.PKT_VSTAT_good f).noFrame
    if opened then (s.onVid fun v => { v with backNum := f }).sealFrame else s
  else s.dropFrame

/-- A video packet is processed: 0 an accepted VLINE, 1 an FEND, 2 a VLINE that failed its field check, 3 a VLINE and 4 an FEND
without credit (R126, R127). -/
def State.videoPacket (s : State) (e : Nat × Pkt) : State :=
  let f := bodyLe e.2 4 1
  let s := match e.1 with
    | 0 =>
      let s := (s.openFrame f false).writeLine e.2
      let s := if s.get F.VIN_STAT_back = 0 then s.put F.VIN_STAT_back 1 else s
      s.onLink fun l => { l with vcrc := crcLinkOn l.vcrc e.2.body }
    | 1 => s.judgeFrame e.2
    | 4 => if s.on F.PKT_VSTAT_open then s.put F.PKT_VSTAT_bad 1 else s
    | _ => s.openFrame f true
  s.onLink fun l => { l with retV := l.retV + heldUnits e }

/-- A video packet is processed, or waits in the pool behind a sealed back buffer (R165). -/
def State.takeVideo (s : State) (e : Nat × Pkt) : State :=
  if s.link.vwait ≠ [] ∨ (s.get F.VIN_STAT_back = 2 ∧ e.1 ≠ 1 ∧ e.1 ≠ 4) then
    s.onLink fun l => { l with vwait := l.vwait ++ [e] }
  else s.videoPacket e

/-- The packets that wait in the video pool are taken up again (R165). -/
def State.drainVideo (s : State) : State :=
  s.link.vwait.foldl State.takeVideo (s.onLink fun l => { l with vwait := [] })

/-- A sealed frame is swapped in (R164). -/
def State.swapSealed (s : State) : State :=
  if s.get F.VIN_STAT_back = 2 then s.swapEvent.drainVideo else s

/-- FSYNC_IN has held a new level for 32 chain clocks (R164 to R166). -/
def execFsyncEdge (rising : Bool) (s : State) : Host.Outcome State Fault Refusal :=
  .next (if s.live then
    let s := s.flag F.VIN_STAT_fsync rising
    if s.get F.VIN_CFG_swap = (if rising then 1 else 2) then
      if s.get F.VIN_STAT_back = 2 then s.swapSealed else (s.inc F.VIN_MISS_nosync).event 10 1
    else s
  else s)

/-- Whether a swap takes effect at the present period start (R167). -/
def State.swapReached (s : State) : Bool :=
  match s.vid.swapDue with | some p => perReached p s.pnow | none => false

/-- A swap takes effect at the present period start (R167, R170). -/
def State.takeSwap (s : State) : State :=
  let s := ((((s.setRegN R.VIN_SWPER s.pnow).event 10 0).put F.VIN_STAT_pend 0).markAll)
  s.onVid fun v => { v with swapDue := none, swapAt := some s.pnow, fresh := true }

/-- A swap takes effect at its period start (R167). -/
def execSwapTakeEffect (s : State) : Host.Outcome State Fault Refusal :=
  .next (if s.live ∧ s.swapReached then s.takeSwap else s)

/-- What the next pass shows (R28, R47, R50, R417). -/
def State.passKind (s : State) : FrameKind :=
  if s.darkRel then .dark
  else if (s.mode == .fallback && !s.light.back) || (s.mode == .mirror && s.pair.forFb) then .fallback
  else .layers

/-- Whether the descriptor's settings govern a frame of a kind (R47). -/
def State.passFb (s : State) (k : FrameKind) : Bool :=
  match k with | .fallback => true | .layers => false | .dark => s.light.fb

/-- The array tiles whose rows a pass composes: those of its settings and those of the settings in use (R47, R170). -/
def State.passTiles (s : State) (k : FrameKind) : List Nat :=
  (List.range 80).filter fun t => (s.placeIn (s.passFb k) t).isSome || (s.place t).isSome

/-- The slot that is not in force. -/
def State.targetSlot (s : State) : Nat := 1 - s.slotNow

/-- Supervision has released the slot that is not in force, and no frame waits to bring it into force (R11, R171). -/
def State.slotFree (s : State) : Bool :=
  s.light.frameDue.isNone && (List.range 80).all fun t => (s.tile t).due.all fun d => d.2 != s.targetSlot

/-- The dirty rows that a pass starting now composes, those of the fill apart (R170). -/
def State.dirtyRows (s : State) : List Nat :=
  let ts := s.passTiles s.passKind
  s.vid.dirty.filter fun r => ts.contains (r / 128)

/-- Whether the DIGEST of the present period has come and starts a pass (R414, R417). -/
def State.digestPass (s : State) : Bool := s.pair.followed && (s.pair.dig.getD 72 0).toNat.testBit 3

/-- The conditions of R171 for a pass at the present period start, the release of its slot apart; `swap` says whether a swap takes
effect at it. In MIRROR the partner's digest starts the pass (R417). -/
def State.passDue (s : State) (swap : Bool) : Bool :=
  s.lightMode && !s.dirtyRows.isEmpty && s.get F.CMP_STAT_state != 1 && !s.vid.placing &&
    (if s.mode = .mirror then s.digestPass
     else swap || (s.get F.CMP_STAT_state == 0 && (s.vid.passPer.isNone || s.vid.nominal + s.passGap ≤ s.vid.clk)))

/-- The pixels whose fill may change in a pass: the dead pixels now and those filled before, where one of the two sets changes or a
row around them is dirty; their rows and those of their neighbours (R325). -/
def State.fillRows (s : State) (dead filled dirty : List Nat) : List Nat :=
  let ps := dead ++ s.vid.filled.filter fun p => !dead.contains p
  (ps.filter fun p => (filled.contains p != s.vid.filled.contains p) ||
      (p :: neighbours p).any fun q => dirty.contains (rowOf q)).flatMap fun p => (p :: neighbours p).map rowOf

/-- The pixels whose codes a pass computes: those of the rows it composes, and the filled dead pixels beside them (R324). -/
def PassIn.pixels (pi : PassIn) (rows : List Nat) : List Nat :=
  let ps := rows.flatMap fun r => (List.range 128).map fun k => 128 * r + k
  ps ++ (ps.flatMap neighbours).filter fun p => pi.filled.contains p && !rows.contains (rowOf p)

/-- Whether the current of a pixel is read from an SRAM word: its calibration entry, or i_nom of its bin record (R214, R236). -/
def currentReads (p : Nat) (s : State) (w : Nat) : Bool :=
  wordIn (0x900000 + 2 * p) 2 w || wordIn (0xB80000 + 64 * bits (s.rdLe (0x900000 + 2 * p) 2) 10 6 + 32) 2 w

/-- Whether a pass that composes `rows` reads an SRAM word: the state store for every row (R289), and where it composes the layers, the
fault list, the aspects' memberships, what each pixel is computed from, and i_nom of those that light (R187, R236). -/
def State.passReads (s : State) (pi : PassIn) (rows : List Nat) (w : Nat) : Bool :=
  (rows.any fun r => wordIn (0xC00000 + 128 * r) 128 w) ||
    (pi.kind == .layers && !rows.isEmpty &&
      (wordIn 0xDE8000 0x8000 w || (pi.ctxs.any fun c => c.reads (pi.pixels rows) w) ||
        ((pi.pixels rows).any fun p => s.pixelReads pi.buf pi.ctxs p w) ||
        rows.any fun r => (List.range 128).any fun k => s.baseCode pi (128 * r + k) != 0 && currentReads (128 * r + k) s w))

/-- A row copied into slot `slot` from the other slot (R172, R187). -/
def State.copyRow (s : State) (slot r : Nat) : State :=
  let s := s.readRange (codeAddr (1 - slot) (128 * r)) 192 3
  s.setBytes (codeAddr slot (128 * r)) (packCodes ((List.range 128).map fun k => s.codeIn (1 - slot) (128 * r + k)))

/-- A composition pass starts and composes its rows (R169 to R172, R205, R300, R320, R324, R325). What it cannot read may end it at once
(R187). -/
def State.startPass (s : State) : State :=
  let kind := s.passKind
  let ts := s.passTiles kind
  let ctxs := if kind = .layers ∨ (kind = .dark ∧ s.light.fb = false) then s.takeCtxs else []
  let dead := if kind = .layers then s.deadPixels ctxs else []
  let filled := fillChoice s.vid.filled dead
  let dirty := s.dirtyRows
  let rows := ((s.fillRows dead filled dirty).filter fun r => ts.contains (r / 128)).foldr addNum dirty
  let pi : PassIn := { kind := kind, tiles := s.tilesIn (s.passFb kind), ctxs := ctxs, buf := s.get F.VIN_STAT_front, dead := dead,
                       filled := filled }
  let slot := s.targetSlot
  let other := s.slotNow
  let copies := (ts.flatMap tileRows).filter fun r => !rows.contains r && kvFind s.vid.newest r == some other
  let ps := rows.flatMap fun r => (List.range 128).map fun k => 128 * r + k
  let low := ((s.snapOf slot).low.filter fun p => !rows.contains (rowOf p) && !copies.contains (rowOf p)) ++
    ((s.snapOf other).low.filter fun p => copies.contains (rowOf p)) ++ ps.filter (s.lowers pi)
  let t := if s.get F.CMP_STAT_state = 2 then s.dropFrameRows else s
  let t := rows.foldl (fun t r => t.setBytes (codeAddr slot (128 * r))
    (packCodes ((List.range 128).map fun k => s.composed pi (128 * r + k)))) t
  let newest := rows.foldl (fun m r => kvPut m r slot) (copies.foldl (fun m r => kvPut m r 2) t.vid.newest)
  let snap : Snap := { kind := kind, ctxs := ctxs, low := low.foldr addNum [] }
  let t := (((t.put F.CMP_STAT_state 1).put F.CMP_STAT_target slot).put F.CMP_STAT_wait_rel 0).flag F.CMP_STAT_full
    (decide (rows.length = 128 * ts.length))
  let t := t.onVid fun v =>
    { v with dirty := v.dirty.filter fun r => !rows.contains r, newest := newest, rows := rows, copied := copies.length,
             snap := if h : slot < 2 then v.snap.set slot snap else v.snap,
             lit := if h : slot < 2 then v.lit.set slot (s.passLit pi slot rows copies) else v.lit, passPer := some s.pnow,
             nominal := if s.vid.passPer.isNone then s.vid.clk else max (s.vid.nominal + s.passGap) s.vid.clk,
             filled := filled, lossy := s.fillLosses pi, again := (ps.filter fun p => s.pixPrf p == 2).map rowOf,
             unfill := dead.filter fun p => !filled.contains p }
  let t := t.queueFrame rows
  let t := if kind = .layers then t.resolveHolds slot else t
  copies.foldl (fun t r => t.copyRow slot r) (t.readWords (s.passReads pi rows) 3)

/-- A composition pass starts at a period start (R171); the ledger is brought up to date before it (R300). -/
def execPassStart (s : State) : Host.Outcome State Fault Refusal :=
  .next (if s.passDue (s.vid.swapAt == some s.pnow) ∧ s.slotFree then
    let t := (s.readLedger).ledgerPass s.pnow
    if t.passDue (t.vid.swapAt == some t.pnow) ∧ t.slotFree then t.startPass else t
  else s)

/-- A composition pass ends and placement starts (R172, R173, R243, R300, R314, R323). `cycles` is its duration. -/
def execPassComplete (cycles : Nat) (s : State) : Host.Outcome State Fault Refusal :=
  .next (if s.get F.CMP_STAT_state = 1 then
    let s := ((((s.inc F.CMP_PASS_done).put F.CMP_LAST_composed s.vid.rows.length).put F.CMP_LAST_copied s.vid.copied).put
      F.CMP_LASTT_t cycles).event 11 0
    let s := s.markRows s.vid.again
    let was := s.flt.cyc
    let s := ((List.range 160).foldl (fun t a => t.setCond 6 a (s.vid.lossy.contains a)) s.cycleOn).cycleOff was
    let s := s.evalPolicies
    if s.get F.CMP_STAT_state = 1 then
      if s.vid.rows = [] then s.put F.CMP_STAT_state 0
      else (s.put F.CMP_STAT_state 2).onVid fun v => { v with placing := true, flat := s.on F.PLC_CFG_flat }
    else s
  else s)

/-- D for the frame that a pass of a kind composes (R225, R47). -/
def State.passD (s : State) (k : FrameKind) : Nat :=
  match k with
  | .fallback => s.fbByte 3
  | .layers => s.get F.PLC_PWM_div
  | .dark => s.dNow

/-- The highest predicted slot current of a rail with the new offsets, in mA (R240, R242). -/
def State.showPeak (s : State) (fb : Bool) (d slot g : Nat) : State :=
  let top (dark : Bool) : Nat :=
    let ps := s.railProfiles fb d dark (s.litIn slot) (fun t => (s.tile t).next) g
    ((List.range (slotsOf d)).map (predictAt d ps)).foldl max 0
  (s.put (F.PLC_PEAK_lit g) (min 65535 (top false / 1000))).put (F.PLC_PEAK_dark g) (min 65535 (top true / 1000))

/-- The new offsets of a placement (R233, R237, R239) and the tiles that wrap (R235). -/
def State.runPlacement (s : State) (k : FrameKind) : State :=
  let fb := s.passFb k
  let d := s.passD k
  let slot := s.get F.CMP_STAT_target
  let ts := s.tilesIn fb
  let offs := if s.light.initial then ts.map fun t => (t, s.initialOff d fb t)
    else if fb = false ∧ s.vid.flat = false then ts.map fun t => (t, (s.tile t).prev)
    else (s.placeInput fb d slot).search
  let wraps := if s.light.initial then 0 else
    (offs.filter fun (e : Nat × Nat) =>
      let S := slotsOf d
      S ≤ tokenSlot d (s.tile e.1).prev + (e.2 + S - (s.tile e.1).prev % S) % S).length
  let s := offs.foldl (fun u e => u.onTile e.1 fun x => { x with next := e.2 }) s
  let s := (s.incBy F.PLC_WRAP_n wraps).eventIf (decide (0 < wraps)) 14 2
  (List.range 4).foldl (fun u g => u.showPeak fb d slot g) s

/-- Placement ends (R232 to R240, R244); it makes no SRAM access (R238). -/
def execPlacementComplete (cycles : Nat) (s : State) : Host.Outcome State Fault Refusal :=
  .next (if s.vid.placing then
    let s := s.runPlacement (s.snapOf (s.get F.CMP_STAT_target)).kind
    let s := ((((s.put F.PLC_RUN_last cycles).peak F.PLC_RUN_longest cycles).inc F.PLC_CNT_done).event 14 0)
    s.onVid fun v => { v with placing := false }
  else s)

/-- The scrubber finds an error in a word (R188): a word with an error in two passes in a row raises SRAM_CORR. -/
def State.scrubFound (s : State) (w : Nat) : State :=
  let again := s.vid.scrubOld.contains w
  let s := s.onVid fun v => { v with scrubNew := addNum w v.scrubNew }
  if again then (s.event 11 4).raise 19 0 else s

/-- The scrubber reads one word of a bank (R186, R188). -/
def State.scrubWord (s : State) (w : Nat) : State :=
  if s.ecc2.contains w then (s.uncorrectable w 10).scrubFound w
  else if s.ecc1.contains w then
    let t := s.readRange (8 * w) 8 10
    ({ t with ecc1 := t.ecc1.filter (· != w) }.onVid fun v => { v with scrubErr := v.scrubErr + 1 }).scrubFound w
  else s

/-- A scrub pass is over (R188, R192). -/
def State.scrubDone (s : State) : State :=
  let n := s.vid.scrubErr
  let s := ((s.inc F.CMP_SCRPASS_passes).put F.CMP_SCRPASS_errs (min n 65535)).event 11 5
  let s := if s.get F.CMP_ECCCFG_thr < n then (s.event 11 4).raise 19 0 else s
  s.onVid fun v => { v with scrubAt := 0, scrubErr := 0, scrubOld := v.scrubNew, scrubNew := [] }

/-- The scrubber reads the next word of every bank (R188). -/
def execScrubRead (s : State) : Host.Outcome State Fault Refusal :=
  .next (if s.live then
    let s := (List.range 16).foldl (fun t b => t.scrubWord (131072 * b + s.vid.scrubAt)) s
    if s.vid.scrubAt + 1 = 131072 then s.scrubDone else s.onVid fun v => { v with scrubAt := v.scrubAt + 1 }
  else s)

end Sys2Proof.Machine
end

