-- ==== Sys2Proof/Machine/Chains.lean ====
section
/-! DEFINITION. The chain output stage: packets, rows, LATCH, PROOF, sense tokens, the checks of what comes back and the chain faults
(R245 to R281, R298, R299). -/

namespace Sys2Proof.Machine

/-- The CHN page of a chain (R57). -/
def chnPage (c : Nat) : Nat := 20 + c / 10

/-- The TIL page of an instance (R57). -/
def tilPage (i : Nat) : Nat := 22 + i / 40

/-- The common header of a chain packet, with its bytes 0 and 1 (R252). -/
def chainHead (h0 h1 seq : Nat) : List Byte := BitVec.ofNat 8 h0 :: BitVec.ofNat 8 h1 :: leBytes 2 seq

/-- Whether the output stage works for a chain: its drivers are on, or it runs as a replica in a standby BEHIND (R250, R424). -/
def State.chainLive (s : State) (c : Nat) : Bool :=
  (s.driving && s.get (F.CHN_STAT_state c) != 0 && s.on (F.CHN_STAT_drv c) && (s.chain c).marked.isSome) ||
    (s.replica && 0 < s.pop c)

/-- Whether a chain is in RUN, or stands for one that is, in a replica (R250, R424). -/
def State.chainRuns (s : State) (c : Nat) : Bool := s.chainLive c && (s.mode == .mirror || s.get (F.CHN_STAT_state c) == 2)

/-- Symbols sent on a chain in this period (R275). -/
def State.load (s : State) (c n : Nat) : State := s.onChain c fun ch => { ch with load := ch.load + n }

/-- A packet is sent on a chain with its CRC-16, and its answer expected (R252, R256). -/
def State.sendChain (s : State) (c : Nat) (e : Sent) : State :=
  let seq := (s.chain c).seq
  let hop := if e.typ = 2 then 0 else e.pos
  let ccrc := crcChain (chainHead e.typ 0 seq ++ e.body)
  let s := s.onChain c fun ch => { ch with seq := (seq + 1) % 65536, load := ch.load + e.body.length + 8,
                                           expect := ch.expect ++ [{ e with seq := seq, ccrc := ccrc }] }
  if s.mode = .mirror then s
  else s.emit (.chain c e.typ hop seq e.body (crcChain (chainHead e.typ hop seq ++ e.body)))

/-- A packet is sent again (R256, R277). -/
def State.sendAgain (s : State) (c : Nat) (e : Sent) : State :=
  ((s.inc (F.CHN_RETX_again c)).event (chnPage c) 2).sendChain c e

/-- Corrupted items, discarded segments and abandoned PROOF packets count towards CHAIN_ERR while no more than 1,024 periods old
(R274). -/
def State.chainErr (s : State) (c n : Nat) : State :=
  let old := (s.chain c).errs.filter fun (e : Nat × Nat) => (s.pnow + 2 ^ 32 - e.1) % 2 ^ 32 < 1024
  let errs := kvPut old s.pnow (kvNat old s.pnow + n)
  let s := s.onChain c fun ch => { ch with errs := errs }
  if s.get (F.CHN_CFG_errthr c) < (errs.map Prod.snd).sum then s.raise 11 c else s

/-- CHAIN_LOOP on a chain (R274). -/
def State.chainLoop (s : State) (c : Nat) : State := (s.event (chnPage c) 1).raise 10 c

/-- The pixels that a PROOF lists, from its body (R259). -/
def proofPixels (t : Nat) (body : List Byte) : List Nat :=
  (List.range (leNat ((body.drop 2).take 1))).map fun k => 16384 * t + leNat ((body.drop (4 + 2 * k)).take 2) % 16384

/-- TILE_FLAG, TILE_THERMAL and TILE_WARN follow a tile's flags (R269, R274, R365, R366), and so do the registers of the instance
that shows it (R279). -/
def State.tileFlags (s : State) (t : Nat) : State :=
  let x := s.tile t
  let bad := bits x.flags 2 2 != 0 || bits x.flags 6 2 != 0 || x.stale || x.idfail
  let was := (s.fltInst 13 t).present
  let s := match s.instOf t with
    | some i => (((s.put (F.TIL_FLAGS_flags i) x.flags).flag (F.TIL_FLAGS_stale i) x.stale).flag (F.TIL_FLAGS_idfail i)
        x.idfail).eventIf (bad && !was) (tilPage i) 0
    | none => s
  let cyc := s.flt.cyc
  (((s.cycleOn.setCond 13 t bad).setCond 14 t (bits x.flags 0 1 == 1)).setCond 15 t (bits x.flags 1 1 == 1)).cycleOff cyc

/-- The identity reads of a TIL page's enabled instances have all ended (R281). -/
def State.idsDone (s : State) (page : Nat) : State :=
  let mine := (s.instances.filter fun i => tilPage i == page).map fun i => s.get (F.TIL_MAP_index i)
  let ended := mine.all fun t => match s.place t with
    | some (c, _) => (s.chain c).idsSent && !((s.chain c).expect ++ (s.chain c).again ++ (s.chain c).regq).any fun e =>
        e.typ == 5 && e.bank != 0 && e.key == t
    | none => true
  s.eventIf ended page 2

/-- A tile register access of TIL_RACC ends (R279, R280, R281). -/
def State.raccEnd (s : State) (i astat : Nat) (fail : Bool) : State :=
  ((((s.put (F.TIL_RACC_busy i) 0).put (F.TIL_RACC_done i) 1).put (F.TIL_RACC_astat i) astat).flag (F.TIL_RACC_fail i) fail).event
    (tilPage i) 1

/-- An identity read ends (R273). -/
def State.idEnd (s : State) (t : Nat) (fail : Bool) : State :=
  let s := if fail then (s.onTile t fun x => { x with idfail := true }).tileFlags t else s
  match s.instOf t with | some i => s.idsDone (tilPage i) | none => s

/-- A sense block that will not be judged releases its slot (R11). -/
def State.dropDue (s : State) (t p : Nat) : State := s.onTile t fun x => { x with due := x.due.filter fun d => d.1 != p }

/-- A PROOF is abandoned (R256, R299, R309, R311). -/
def State.abandonProof (s : State) (c : Nat) : State := ((s.inc F.PRF_CNT_abandoned).event 19 0).chainErr c 1

/-- Core cycles until period `p` starts. -/
def State.until (s : State) (p : Nat) : Nat :=
  s.pstart + s.periodCycles * ((p + 2 ^ 32 - s.pnow) % 2 ^ 32) - s.now

/-- Core cycles that `n` symbols take on a chain, rounded up (R247: 200 symbols in 500 chain clocks). -/
def symCycles (n : Nat) : Nat := ceilDiv (n * 62500) 20480

/-- The record of what was in force in a period (R11). -/
def State.recOf (s : State) (p : Nat) : Option PerRec := s.light.hist.find? fun r => r.per == p

/-- Whether a frame LATCH that was issued brings its frame into force in period `p` or before. -/
def State.frameBy (s : State) (p : Nat) : Bool :=
  match s.light.frameDue with | some (x, _, _) => perReached x p | none => false

/-- Symbols of a SENSE_TOKEN span and the STATUS request behind it, which the stage sends without a gap (R261, R262, R267). -/
def spanSymbols : Nat := 4145

/-- Whether a packet of `n` symbols that starts now on a chain runs into no token span: none is in progress, and it ends before the next
(R267, R270; that it starts now is DEDUCED, log entry 61). -/
def State.fits (s : State) (c n : Nat) : Bool :=
  let t : Int := (s.now : Int) - s.pstart
  let clear (p : Nat) (start : Int) (d : Nat) (off : Nat → Nat) : Bool :=
    match (s.chain c).lit with
    | some l => !s.chainRuns c || !perReached l p ||
        (tokenTimes d ((s.chainTiles c).map off)).all fun x =>
          decide (start + x + symCycles spanSymbols ≤ t) || decide (t + symCycles n ≤ start + x)
    | none => true
  let before := perAdd s.pnow (2 ^ 32 - 1)
  (match s.recOf before with | some r => clear before (-(5000 * r.d : Nat)) r.d fun u => r.offs.getD u 0 | none => true) &&
    clear s.pnow 0 s.dNow (fun u => (s.tile u).off) &&
    clear (perAdd s.pnow 1) s.periodCycles s.dNow
      fun u => if s.frameBy (perAdd s.pnow 1) then (s.tile u).prev else (s.tile u).off

/-- A row or a LATCH that has failed waits to be sent again, while nothing supersedes it; after the last retry it stays owed, and the
chain's loop has failed (R256, R266, R274). -/
def State.failWait (s : State) (c : Nat) (e : Sent) : State :=
  if e.cls = 3 then s
  else if e.tries < s.get (F.CHN_CFG_retry c) then s.onChain c fun ch => { ch with again := ch.again ++ [{ e with tries := e.tries + 1 }] }
  else
    ((s.inc (F.CHN_RETX_failed c)).onChain c fun ch =>
      if e.typ = 1 then { ch with failed := ch.failed ++ [(e.key, e.cls)] } else ch).chainLoop c

/-- A delivery failed (R256, R266, R269, R273, R274). A tile register request waits for its turn again, before the others of its class
(R270). -/
def State.failItem (s : State) (c : Nat) (e : Sent) : State :=
  let more := decide (e.tries < s.get (F.CHN_CFG_retry c))
  let again := { e with tries := e.tries + 1 }
  match e.typ with
  | 1 => s.failWait c e
  | 2 => s.failWait c e
  | 3 =>
    if symCycles (8 + e.body.length) + 800 ≤ s.until e.per then
      (if s.fits c (8 + e.body.length) then s.sendAgain c again else s.onChain c fun ch => { ch with again := ch.again ++ [again] })
    else s.abandonProof c
  | 6 => s.dropDue e.key e.per
  | 8 => s.onTile e.key fun x => { x with statMiss := x.statMiss + 1 }
  | _ =>
    if more then s.onChain c fun ch => { ch with regq := again :: ch.regq }
    else
      let s := s.inc (F.CHN_RETX_failed c)
      if e.bank = 0 then s.raccEnd e.key (s.get (F.TIL_RACC_astat e.key)) true else s.idEnd e.key true

/-- An expectation leaves its chain's list. -/
def State.unexpect (s : State) (c : Nat) (e : Sent) : State := s.onChain c fun ch => { ch with expect := ch.expect.erase e }

/-- A returned item is corrupted (R249, R274, R275, R277). -/
def State.corrupted (s : State) (c : Nat) : State := ((s.inc (F.CHN_ERR_items c)).event (chnPage c) 3).chainErr c 1

/-- Symbol pairs with a code error on a chain whose inward receiver listens (R249, R275, R277). -/
def State.inwardErrs (s : State) (c n : Nat) : State :=
  if n ≠ 0 ∧ s.live then (s.incBy (F.CHN_ERR_pairs c) n).event (chnPage c) 3 else s

/-- The symbol pairs of an item that carry a code error, `gap` being received before it (R248, R249). -/
def State.itemErrs (s : State) (c : Nat) (gap syms : List (BitVec 10 × BitVec 10)) : Nat :=
  (pairErrs syms (pairErrs gap (s.chain c).rd).2).1

/-- The inward receiver of a chain has heard an item and what came before it: IDL symbols and period markers leave the packet stream, each
pair with a code error counts, and the running disparities move on (R248, R249). -/
def State.hear (s : State) (c : Nat) (gap syms : List (BitVec 10 × BitVec 10)) : State :=
  if gap = [] ∧ syms = [] then s
  else
    let (n, rd) := pairErrs (gap ++ syms) (s.chain c).rd
    (s.onChain c fun ch => { ch with rd := rd }).inwardErrs c n

/-- Whether a returned item is whole: its CRC-16 is correct, and it holds no EBP and no code error (R256). -/
def State.itemWhole (s : State) (c : Nat) (it : ChainPkt) : Bool :=
  !it.ebp && s.itemErrs c it.gap it.syms == 0 && it.crc.toNat == crcChain (it.h0 :: it.h1 :: leBytes 2 it.seq.toNat ++ it.body)

/-- What a returned item meets: nothing, an expectation that it fails, or one that it may answer. A whole item belongs to the
expectation of its seq; a corrupted one, or one that no request explains, fails the oldest. -/
inductive Met where
  | none
  | fails (e : Sent)
  | answers (e : Sent)

/-- What an item that answers packets of the types in `typs` meets on a chain (R256). -/
def State.meet (s : State) (c : Nat) (typs : List Nat) (it : ChainPkt) : Met :=
  let es := (s.chain c).expect
  if s.itemWhole c it then
    match es.find? fun e => typs.contains e.typ && e.seq == it.seq.toNat with
    | some e => .answers e
    | none => match es with | e :: _ => .fails e | [] => .none
  else match es with | e :: _ => .fails e | [] => .none

/-- An item fails the expectation that it meets. -/
def State.itemFails (s : State) (c : Nat) (it : ChainPkt) (e : Sent) : State :=
  let s := if s.itemWhole c it then s else s.corrupted c
  (s.unexpect c e).failItem c e

/-- Header byte 0 of an answer of type `t` with status 0 (R252, R256). -/
def answerHead (t : Nat) : Nat := 16 + t

/-- hop of an answer from position `pos` (R254). -/
def State.answerHop (s : State) (c pos : Nat) : Nat := s.pop c - 1 - pos

/-- Whether a row that is sent or verified stands for one whose delivery had failed for good: of its own bank's classes (R256, R265). -/
def Sent.clears (e : Sent) (f : Nat × Nat) : Bool := f.1 == e.key && (f.2 == 2) == (e.cls == 2)

/-- Whether a packet that waits to be sent again is a replacement PROOF that has not been sent yet (R299). -/
def Sent.unsent (e : Sent) : Bool := e.typ == 3 && e.cls == 1 && e.tries == 0

/-- A CODES row is verified (R256, R264, R250): its bank holds it, where it still counts. -/
def State.rowVerified (s : State) (c : Nat) (e : Sent) : State :=
  let s := s.onChain c fun ch =>
    let ch := { ch with silent := false, failed := if e.cls = 3 then ch.failed else ch.failed.filter fun f => !e.clears f }
    if e.cls = 3 then ch
    else if e.bank = 0 then { ch with bankF := addNum e.key ch.bankF, joined := ch.joined.filter (· != e.key) }
    else { ch with bankU := addNum e.key ch.bankU, joined := ch.joined.filter (· != e.key) }
  if s.get (F.CHN_STAT_state c) = 1 then (s.put (F.CHN_STAT_state c) 2).event (chnPage c) 0 else s

/-- A PROOF is verified (R283, R299, R309): the last verified one counts, and nothing is uncertain once the last sent is. -/
def State.proofVerified (s : State) (c : Nat) (e : Sent) : State :=
  let later := ((s.chain c).expect ++ (s.chain c).again.filter fun x => !x.unsent).any fun x =>
    x.typ == 3 && x.key == e.key && x.per == e.per
  let s := s.inc F.PRF_CNT_ok
  { s with light := { s.light with
      proofOk := kvPut s.light.proofOk e.key (proofPixels e.key e.body),
      proofBad := if later then s.light.proofBad else s.light.proofBad.filter fun x => x.1 != e.key } }

/-- An ACK answers a CODES, PROOF or REGW (R256, R263). -/
def State.ackAnswers (s : State) (c : Nat) (it : ChainPkt) (e : Sent) : State :=
  let s := if e.typ = 4 then s.put (F.TIL_RACC_astat e.key) (it.h0.toNat / 32) else s
  if it.h0.toNat = answerHead 9 ∧ it.h1.toNat = s.answerHop c e.pos ∧ it.body.length = 3 ∧
      leNat (it.body.take 1) = e.typ ∧ leNat ((it.body.drop 1).take 2) = e.ccrc then
    let s := s.unexpect c e
    match e.typ with
    | 1 => s.rowVerified c e
    | 3 => s.proofVerified c e
    | _ => s.raccEnd e.key 0 false
  else s.itemFails c it e

/-- A packet on the inward pairs of a standby counts for its snoop position (R422): BEHIND where one of the first 16 carried dir = 1,
else AHEAD. -/
def State.snoop (s : State) (dir : Bool) : State :=
  if s.mode = .mirror ∧ s.get F.AXO_STAT_pos = 0 then
    let n := s.pair.snN + 1
    let d := s.pair.snDir || dir
    let s := { s with pair := { s.pair with snN := n, snDir := d } }
    if 16 ≤ n then s.put F.AXO_STAT_pos (if d then 2 else 1) else s
  else s

/-- An item returns on the inward pairs while the device listens: as chain master, or as a standby BEHIND (R256, R424). -/
def State.listens (s : State) (c : Nat) : Bool := s.chainLive c

/-- An ACK returns (R256). -/
def State.ackReturn (s : State) (c : Nat) (it : ChainPkt) : State :=
  if s.listens c then
    match s.meet c [1, 3, 4] it with
    | .none => if s.itemWhole c it then s else s.corrupted c
    | .fails e => s.itemFails c it e
    | .answers e => s.ackAnswers c it e
  else s

/-- The round trip of a LATCH in chain clocks (R274, R276): over 2.0 µs it counts as slow. -/
def State.roundTrip (s : State) (c rtt : Nat) : State :=
  let slow := decide (655 < rtt)
  let s := ((s.put (F.CHN_RTT_last c) (min rtt 4095)).peak (F.CHN_RTT_longest c) rtt).flag (F.CHN_STAT_slow c) slow
  if slow then (s.event (chnPage c) 5).raise 11 c else s

/-- A LATCH that waits on a chain changes. -/
def Chain.onLatch (ch : Chain) (frame : Bool) (f : WaitLatch → WaitLatch) : Chain :=
  if frame then { ch with latchF := ch.latchF.map f } else { ch with latchU := ch.latchU.map f }

/-- A LATCH returns (R254, R256, R266, R276). -/
def State.latchReturn (s : State) (c : Nat) (it : ChainPkt) (rtt : Nat) : State :=
  if s.listens c then
    match s.meet c [2] it with
    | .none => if s.itemWhole c it then s else s.corrupted c
    | .fails e => s.itemFails c it e
    | .answers e =>
      let s := ((s.roundTrip c rtt).put (F.CHN_STAT_hop c) (it.h1.toNat % 16)).put (F.CHN_STAT_cnt c) (it.h1.toNat / 16)
      let n := s.pop c
      if it.h0.toNat = 2 ∧ it.h1.toNat = 17 * n ∧ it.body = e.body then
        ((s.unexpect c e).put (F.CHN_STAT_ltag c) e.key).onChain c fun ch =>
          Chain.onLatch { ch with silent := false } (e.bank == 1) fun w => if w.ltag = e.key then { w with ok := true } else w
      else s.itemFails c it e
  else s

/-- A REGR reply returns (R256, R260, R273, R280). -/
def State.regrReply (s : State) (c : Nat) (it : ChainPkt) : State :=
  let s := s.snoop true
  if s.listens c then
    match s.meet c [5] it with
    | .none => if s.itemWhole c it then s else s.corrupted c
    | .fails e => s.itemFails c it e
    | .answers e =>
      let s := if e.bank = 0 then s.put (F.TIL_RACC_astat e.key) (it.h0.toNat / 32) else s
      if it.h0.toNat = answerHead 5 ∧ it.h1.toNat = s.answerHop c e.pos ∧ it.body.length = 6 ∧
          it.body.take 2 = e.body.take 2 then
        let s := s.unexpect c e
        let v := leNat (it.body.drop 2)
        if e.bank = 0 then (s.setRegN (R.TIL_RDATA e.key) v).raccEnd e.key 0 false
        else
          let s := match s.instOf e.key with
            | some i => s.setRegN (if e.bank = 1 then R.TIL_ID0 i else R.TIL_ID1 i) v
            | none => s
          s.idEnd e.key false
      else s.itemFails c it e
  else s

/-- A valid STATUS reply of a tile (R262, R269, R279, R371). -/
def State.statusIn (s : State) (t : Nat) (body : List Byte) : State :=
  let le (o : Nat) : Nat := leNat ((body.drop o).take 2)
  let new := (List.range 2).any fun k => bits (le 6) k 1 == 1 && bits (s.tile t).flags k 1 == 0
  let s := s.eventIf new 27 2
  let s := s.onTile t fun x => { x with flags := le 6, stale := false, statMiss := 0, head := some (le 2), hot := bits (le 6) 0 1 == 1 }
  let s := match s.instOf t with
    | some i => ((s.put (F.TIL_STAT_headroom i) (le 2)).put (F.TIL_STAT_temp i) (le 4)).put (F.TIL_FLAGS_pnum i) (le 0)
    | none => s
  (s.tileFlags t).feedTemp t (signed 16 (le 4))

/-- A STATUS reply returns (R256, R269). -/
def State.statusReply (s : State) (c : Nat) (it : ChainPkt) : State :=
  let s := s.snoop true
  if s.listens c then
    match s.meet c [8] it with
    | .none => if s.itemWhole c it then s else s.corrupted c
    | .fails e => s.itemFails c it e
    | .answers e =>
      if it.h0.toNat = answerHead 8 ∧ it.h1.toNat = s.answerHop c e.pos ∧ it.body.length = 8 then
        (s.unexpect c e).statusIn e.key it.body
      else s.itemFails c it e
  else s

/-- 16 STATUS requests in a row have brought no valid reply (R269). -/
def execStatusStale (t : Fin 80) (s : State) : Host.Outcome State Fault Refusal :=
  .next (if 16 ≤ (s.tile t).statMiss ∧ (s.tile t).stale = false then
    (s.onTile t fun x => { x with stale := true }).tileFlags t
  else s)

/-- The record of a period changes. -/
def State.onRec (s : State) (p : Nat) (f : PerRec → PerRec) : State :=
  { s with light := { s.light with hist := s.light.hist.map fun r => if r.per = p then f r else r } }

/-- The period of the latest result of row `r` in a block whose token was sent in period `p` (R268): the newest period in which the
row was sensed, by the D of each, and `p` itself only where its sense ended before the token. -/
def resultPeriod (d : Nat → Nat) (off p r : Nat) : Option Nat :=
  ((List.range 4).map fun k => (p + 2 ^ 32 - k) % 2 ^ 32).find? fun q =>
    rowSensed (d q) q r && (q != p || startSlot (d p) r off < tokenSlot (d p) off)

/-- D of a period as recorded, else `d` (R226, R282). -/
def State.dOf (s : State) (d q : Nat) : Nat := match s.recOf q with | some r => r.d | none => d

/-- Whether the slot schedule marks the result of period `q` that row `r` of a tile carries in the block of period `p` as a repeat: the
block of the period before carried it already (R268). -/
def State.repeats (s : State) (t p r q : Nat) : Bool :=
  let b := (p + 2 ^ 32 - 1) % 2 ^ 32
  match s.recOf b with
  | some k => resultPeriod (s.dOf k.d) (k.offs.getD t 0) b r == some q
  | none => false

/-- The rows of an accepted segment that are no repeats and were sensed while the tile showed frames (R250, R268). -/
def State.segmentRows (s : State) (c t p g d off : Nat) (data : List Byte) : List (Nat × Nat × List Byte) :=
  (List.range 16).filterMap fun k =>
    let r := 16 * g + k
    match resultPeriod (s.dOf d) off p r with
    | some q =>
      let shown := match (s.chain c).lit with | some l => perReached l q | none => false
      if shown && !s.repeats t p r q && kvNat (s.tile t).rowPer r != q + 1 then some (r, q, (data.drop (32 * k)).take 32) else none
    | none => none

/-- Whether SENSE_STALE is present for a tile (R295, R306). -/
def State.staleBit (s : State) (t : Nat) (b : Bool) : State := (s.setBit (R.SUP_STALE (t / 32)) (t % 32) b).setCond 8 t b

/-- Rows of a tile gave accepted results; the class ends once every row has since it was raised (R295). -/
def State.rowsIn (s : State) (t : Nat) (rs : List Nat) : State :=
  let was := (s.tile t).staleRows
  let left := was.filter fun r => !rs.contains r
  let s := s.onTile t fun x => { x with staleRows := left }
  if was ≠ [] ∧ left = [] then s.staleBit t false else s

/-- The age that a row's result sensed in period `q` has when it is accepted, as the tile's row ages count it (R295). -/
def State.rowAgeAt (s : State) (q : Nat) : Nat :=
  let l := cycleOf s.dNow
  (s.pnow / l - q / l) + if q % l = 0 then 1 else 0

/-- A sense block that passed its header check hands its accepted segments to supervision (R268). -/
def State.takeBlock (s : State) (c t p d off : Nat) (b : SenseBlk) : State :=
  let segs := b.segs.toList.zipIdx
  let good := segs.filter fun (x : Segment × Nat) => x.1.crc.toNat == crcChain x.1.data && x.1.data.length == 512
  let lost := 8 - good.length
  let s := s.incBy (F.CHN_SENSE_segs c) lost
  let s := if lost = 0 then s else (s.event (chnPage c) 4).chainErr c lost
  let rows := good.flatMap fun (x : Segment × Nat) => s.segmentRows c t p x.2 d off x.1.data
  let s := s.onRec p fun r => { r with acc := kvPut r.acc t ((good.map fun (x : Segment × Nat) => 2 ^ x.2).sum) }
  let s := s.onTile t fun x =>
    { x with rowPer := rows.foldl (fun m (e : Nat × Nat × List Byte) => kvPut m e.1 (e.2.1 + 1)) x.rowPer,
             rowAge := rows.foldl (fun m (e : Nat × Nat × List Byte) => kvPut m e.1 (s.rowAgeAt e.2.1)) x.rowAge }
  let s := s.rowsIn t (rows.map Prod.fst)
  { s with light := { s.light with blocks := s.light.blocks ++ [{ tile := t, per := p, rows := rows }] } }

/-- A block differs from what the device expects of its tile and period (R268, R274, R278, R281). -/
def State.syncFail (s : State) (c t p : Nat) : State :=
  let again := (s.tile t).syncBad
  let s := ((s.onTile t fun x => { x with syncBad := true }).dropDue t p).event (chnPage c) 4
  let s := match s.instOf t with
    | some i => (s.inc (F.TIL_SYNC_fails i)).eventIf again (tilPage i) 3
    | none => s
  if again then s.raise 12 t else s

/-- A SENSE_BLOCK returns (R249, R256, R261, R268): a code error in it makes it corrupted, but its header check value alone judges it. -/
def State.senseBlock (s : State) (c : Nat) (b : SenseBlk) : State :=
  let s := s.snoop true
  if s.listens c then
    let hdr := b.h0 :: b.h1 :: leBytes 2 b.seq.toNat ++ b.hdr.toList
    let whole := b.ebp = false ∧ b.hcrc.toNat = crcChain hdr
    let s := if whole ∧ s.itemErrs c b.gap b.syms = 0 then s else s.corrupted c
    let es := (s.chain c).expect
    match (if whole then es.find? fun e => e.typ == 6 && e.seq == b.seq.toNat else es.find? fun e => e.typ == 6) with
    | none => s
    | some e =>
      let t := e.key
      let s := (s.unexpect c e).inc (F.CHN_SENSE_blocks c)
      if ¬ whole then (s.event (chnPage c) 4).dropDue t e.per
      else if b.h0.toNat ≠ answerHead 7 ∨ b.h1.toNat ≠ s.answerHop c e.pos then (s.event (chnPage c) 4).dropDue t e.per
      else
        let le (o n : Nat) : Nat := leNat ((b.hdr.toList.drop o).take n)
        let s := match s.instOf t with
          | some i => (s.put (F.TIL_SYNC_ltag i) (le 2 1)).put (F.TIL_SYNC_offset i) (le 3 2)
          | none => s
        match s.recOf e.per with
        | none => s.dropDue t e.per
        | some r =>
          let off := r.offs.getD t 0
          if le 0 2 = e.per % 65536 ∧ le 2 1 = r.tags.getD c 0 ∧ le 3 2 = off ∧ le 5 1 = r.d then
            (s.onTile t fun x => { x with syncBad := false }).takeBlock c t e.per r.d off b
          else s.syncFail c t e.per
  else s

/-- A SENSE_BLOCK returns (R249, R256, R261, R268). -/
def execSenseBlock (c : Fin 20) (b : SenseBlk) (s : State) : Host.Outcome State Fault Refusal :=
  .next ((s.senseBlock c b).hear c b.gap b.syms)

/-- No answer to the oldest request began within rto (R256). -/
def State.returnTimeout (s : State) (c : Nat) : State :=
  match (s.chain c).expect with
  | e :: _ => (s.unexpect c e).failItem c e
  | [] => s

/-- Four periods after its first marker, no CODES of a chain has been verified, nor after a takeover a LATCH (R36, R250, R274, R427). -/
def execFirstCodesTimeout (c : Fin 20) (s : State) : Host.Outcome State Fault Refusal :=
  .next (match (s.chain c).marked with
    | some m =>
      if (s.get (F.CHN_STAT_state c) = 1 ∨ (s.chain c).silent) ∧ perReached (perAdd m 4) s.pnow then s.chainLoop c else s
    | none => s)

/-- Inward lock is lost: 8 symbol pairs within 64 held a code error (R249, R275). -/
def execChainLockLoss (x : LockLoss) (s : State) : Host.Outcome State Fault Refusal :=
  let c := x.chain
  .next (if s.live ∧ s.on (F.CHN_STAT_lock c) then
    (((s.put (F.CHN_STAT_lock c) 0).incBy (F.CHN_ERR_pairs c) x.errs).event (chnPage c) 3).onChain c fun ch =>
      { ch with unlockAt := some s.pnow }
  else s)

/-- Both inward pairs show four K28.5 at one alignment (R249). -/
def execChainInwardLock (c : Fin 20) (s : State) : Host.Outcome State Fault Refusal :=
  .next (if s.live then (s.put (F.CHN_STAT_lock c) 1).onChain c fun ch => { ch with unlockAt := none } else s)

/-- The bypass legs of a chain that runs have opened and its drivers are enabled (R246, R250). -/
def execBypassLegsOpen (c : Fin 20) (s : State) : Host.Outcome State Fault Refusal :=
  .next (if s.driving ∧ s.on F.CLK_STAT_permit ∧ s.boot.vddhLow = false ∧ s.get (F.CHN_STAT_state c) ≠ 0 then
    (s.put (F.CHN_STAT_byp c) 1).put (F.CHN_STAT_drv c) 1
  else s)

/-- A chain goes from OFF to START (R250). -/
def State.chainStart (s : State) (c : Nat) : State :=
  if s.get (F.CHN_STAT_state c) = 0 ∧ 0 < s.pop c then s.put (F.CHN_STAT_state c) 1 else s

/-- A chain leaves OFF as the permit is given: to START, after a takeover to RUN (R250, R428). -/
def State.chainOpen (s : State) (c : Nat) : State :=
  if s.pair.tkP.isSome then
    (if s.get (F.CHN_STAT_state c) = 0 ∧ 0 < s.pop c then
      ((s.put (F.CHN_STAT_state c) 2).event (chnPage c) 0).onChain c fun ch =>
        { ch with silent := true, lit := if s.on F.AXO_STAT_aligned then s.pair.tkP else none }
    else s)
  else s.chainStart c

/-- The core requests the permit on entry into OPERATE or FALLBACK, the island gives it, and the enabled chains start (R18, R26,
R250). -/
def execPermitGrant (s : State) : Host.Outcome State Fault Refusal :=
  .next (let t := { s with isl := { s.isl with req := true } }
    if s.driving ∧ s.on F.CLK_STAT_permit = false ∧ t.permitOk ∧ s.boot.glitch = 0 then
      (List.range 20).foldl State.chainOpen (((t.put F.CLK_STAT_permit 1).put F.SYS_STAT_permit 1).sioDrive)
    else s)

/-- The mask that the stage applies to a frame shown from a slot: the newest generation, none on the descriptor's beam nor on what is in
force in FALLBACK (R176, R180). -/
def State.sendMask (s : State) (slot : Nat) : List Word :=
  if (s.snapOf slot).kind = .layers ∧ ¬ (s.fbMode = true ∧ slot = s.slotNow) then s.maskWords else []

/-- The aspects off that the stage applies to a frame shown from a slot: the newest set, in MIRROR the partner's, in FALLBACK the set in
force or that of the frame that will bring OPERATE (R321, R322, R417). -/
def State.sendOff (s : State) (slot : Nat) : List Nat :=
  match s.mode with
  | .mirror => s.pair.off
  | .fallback => if slot = s.slotNow then s.light.offForce else if s.light.back then s.light.backOff else []
  | _ => s.shownOff

/-- The slot whose codes a row carries: that of the frame it belongs to or joins, else the one in force (R265). -/
def State.rowSlot (s : State) (cls bank : Nat) : Nat :=
  if cls = 2 ∧ s.get F.CMP_STAT_state ≠ 0 then s.get F.CMP_STAT_target
  else if cls = 2 ∨ bank = 0 then match s.light.frameDue with | some (_, slot, _) => slot | none => s.slotNow
  else s.slotNow

/-- The body of a CODES packet for a row of the array (R257, R265). -/
def State.codesBody (s : State) (row bank slot : Nat) : List Byte :=
  BitVec.ofNat 8 (row % 128 + 128 * bank) :: 0 :: 0 :: 0 ::
    packCodes ((List.range 128).map fun k => s.driven slot (s.sendMask slot) (s.sendOff slot) (128 * row + k))

/-- The bank that takes rows of a class on a chain (R265). -/
def Chain.bankOf (ch : Chain) (cls : Nat) : Nat := if cls = 2 ∨ ch.latchF.isSome then 0 else 1

/-- The LATCH that waits and will move a bank (R264, R265). -/
def Chain.mover (ch : Chain) (bank : Nat) : Option WaitLatch := if bank = 0 then ch.latchF else ch.latchU

/-- Whether a row of a class may start now (R265). -/
def State.rowMayStart (s : State) (ch : Chain) (cls : Nat) : Bool :=
  if cls = 2 then ch.latchF.isNone
  else match ch.mover (ch.bankOf cls) with
    | some w => symCycles 204 + 800 ≤ s.until w.target
    | none => true

/-- The last entry of a list of waiting changes whose period has come in period `p`. -/
def dueAt {α : Type} (per : α → Nat) (l : List α) (p : Nat) : Option α := (l.filter fun e => perReached (per e) p).getLast?

/-- The slot, mask and aspects off that will be in force in period `p`, as far as issued (R50, R178, R180, R298, R322). -/
def State.inForceAt (s : State) (p : Nat) : Nat × List Word × List Nat :=
  let slot := match s.light.frameDue with | some (x, slot, _) => if perReached x p then slot else s.slotNow | none => s.slotNow
  if s.mode = .fallback ∧ s.light.backDue ∧ s.frameBy p then (slot, s.maskWords, s.light.backOff)
  else (slot,
    if s.fbMode then [] else ((dueAt Prod.fst s.light.maskDue p).map fun e => e.2.2.2).getD s.vid.maskNow,
    ((dueAt Prod.fst s.light.offDue p).map Prod.snd).getD s.light.offForce)

/-- The group of 64 ledger entries that the lit-check period `p` proves (R298). -/
def State.proofGroup (s : State) (p : Nat) : Nat := p / cycleOf s.dNow % (s.proofN / cycleOf s.dNow)

/-- The ledger entries that a tile's proof of period `p` is taken from are read (R186, R187, R291). -/
def State.readProof (s : State) (t p : Nat) : State := s.readEntries (ledgerAddr t (64 * s.proofGroup p)) 512

/-- The pixels to prove on a tile in the lit-check period `p` (R298). -/
def State.proofList (s : State) (t p : Nat) : List Nat :=
  let d := s.dNow
  let (slot, m, off) := s.inForceAt p
  let k := s.proofGroup p
  ((List.range 64).filterMap fun j =>
    let v := s.rdLe (ledgerAddr t (64 * k + j)) 8
    let x := 16384 * t + bits v 0 14
    let c := s.unadjusted slot m off x
    let half := slotsOf d ≥ 384 || x % 16384 / 128 / 64 == p % 4 / 2
    if 64 * k + j < s.ledgerCap ∧ bits v 14 1 = 1 ∧ half ∧ 0 < c ∧ c < windowTicks d then some x else none)

/-- The chains that the stage works for. -/
def State.liveChains (s : State) : List Nat := (List.range 20).filter s.chainLive

/-- Whether every fault-reaction row and urgent mask row is delivered and verified (R176, R265). -/
def State.drained (s : State) : Bool := (List.range 20).all fun c => !(s.chain c).owes 0 && !(s.chain c).owes 1

/-- Whether every row of the completed pass is verified on every chain (R10). -/
def State.frameVerified (s : State) : Bool :=
  s.get F.CMP_STAT_state == 2 && !s.vid.placing && (List.range 20).all fun c => !(s.chain c).owes 2 && (s.chain c).latchF.isNone

/-- The pixels of the PROOF that a tile is still to be sent for the coming lit-check period, none where it can no longer be (R270, R298):
one PROOF for each tile, that ends before the next token span and 2 µs before its period. -/
def State.proofDue (s : State) (c pos : Nat) : List Nat :=
  let p := perAdd s.pnow 1
  match s.tileAt c pos with
  | none => []
  | some t =>
    if s.chainRuns c ∧ darkPeriod p = false ∧ (kvFind s.light.proofSent t).isNone then
      let ps := s.proofList t p
      let n := 12 + 2 * ps.length
      if s.fits c n ∧ symCycles n + 800 ≤ s.until p then ps else []
    else []

/-- The PROOF that a tile is to be sent again, or in place of another, and that could start now (R256, R270, R299). -/
def State.proofAgain (s : State) (c pos : Nat) : Option Sent :=
  (s.chain c).again.find? fun e => e.typ == 3 && e.pos == pos && s.fits c (8 + e.body.length) &&
    decide (symCycles (8 + e.body.length) + 800 ≤ s.until e.per)

/-- Whether a PROOF waits on a chain that could start now (R270, class 2). -/
def State.proofWaits (s : State) (c : Nat) : Bool :=
  (List.range (s.pop c)).any fun q => (s.proofAgain c q).isSome || !(s.proofDue c q).isEmpty

/-- The first row of a class that a chain has to send, repeats first, with the packet of a repeat (R270). -/
def Chain.firstRow (ch : Chain) (cls : Nat) : Option (Nat × Option Sent) :=
  match ch.again.find? fun e => e.typ == 1 && e.cls == cls with
  | some e => some (e.key, some e)
  | none => (if cls = 0 then ch.react else if cls = 1 then ch.urgent else ch.frame).head?.map fun r => (r, none)

/-- The row of a class that could start now on a chain (R265, R270). -/
def State.rowDue (s : State) (c cls : Nat) : Option (Nat × Nat × Option Sent) :=
  if s.rowMayStart (s.chain c) cls ∧ s.fits c 204 then ((s.chain c).firstRow cls).map fun e => (e.1, cls, e.2) else none

/-- The chains whose urgent bank holds verified rows. -/
def State.urgentChains (s : State) : List Nat := s.liveChains.filter fun c => !(s.chain c).bankU.isEmpty

/-- Whether the conditions of an urgent LATCH hold (R176, R265, R266). -/
def State.urgentReady (s : State) : Bool :=
  s.drained && !s.urgentChains.isEmpty && s.urgentChains.all fun c => (s.chain c).latchU.isNone && (s.chain c).latchF.isNone

/-- Whether the conditions of a frame LATCH hold (R10). -/
def State.frameReady (s : State) : Bool := s.frameVerified && (s.driving || s.replica)

/-- Whether a failed LATCH may be sent again: no other LATCH of its kind waits on the chain (R266). -/
def Chain.mayRepeat (ch : Chain) (e : Sent) : Bool :=
  match ch.mover (if e.bank = 1 then 0 else 1) with | some w => w.ltag == e.key | none => true

/-- A LATCH that a chain is to send again (R266). -/
def Chain.repeatLatch (ch : Chain) (frame : Bool) : Option Sent :=
  ch.again.find? fun e => e.typ == 2 && (e.bank == 1) == frame && ch.mayRepeat e

/-- Whether the rest of a frame in force waits for a frame LATCH of its own on a chain (R47). -/
def State.restWaits (s : State) (c : Nat) : Bool :=
  let ch := s.chain c
  s.get F.CMP_STAT_state == 0 && !ch.bankF.isEmpty && !ch.owes 2 && ch.latchF.isNone && s.chainLive c

/-- Whether a LATCH waits on a chain (R270, class 4). -/
def State.latchWaits (s : State) (c : Nat) : Bool :=
  ((s.chain c).repeatLatch true).isSome || ((s.chain c).repeatLatch false).isSome || s.restWaits c || s.frameReady ||
    (s.urgentReady && !(s.chain c).bankU.isEmpty)

/-- Whether a LATCH may start now on a chain: no PROOF and no fault-reaction row that could start now comes before it (R270; DEDUCED, log
entry 61). -/
def State.latchMay (s : State) (c : Nat) : Bool := s.fits c 28 && !s.proofWaits c && (s.rowDue c 0).isNone

/-- Whether a new LATCH event may start now on a chain: no repeat comes before it either (R266, R270). -/
def State.latchNew (s : State) (c : Nat) : Bool := s.latchMay c && !(s.chain c).again.any fun e => e.typ == 2

/-- The row to send next on a chain, with its class and, for a repeat, the packet: the first class that waits, in the order of R270. -/
def State.nextRow (s : State) (c : Nat) : Option (Nat × Nat × Option Sent) :=
  if s.proofWaits c then none
  else (s.rowDue c 0).or
    (if s.latchWaits c then none
     else (s.rowDue c 1).or (if (s.chain c).regq.isEmpty then s.rowDue c 2 else none))

/-- The tile register requests that wait on a chain are sent, once nothing of a higher class waits and as far as they fit (R270, class
6). -/
def State.flushReg (s : State) (c : Nat) : State :=
  let q := (s.chain c).regq
  if q = [] ∨ s.chainLive c = false ∨ s.proofWaits c ∨ (s.rowDue c 0).isSome ∨ s.latchWaits c ∨ (s.rowDue c 1).isSome then s
  else
    let n := ((List.range q.length).takeWhile fun i => s.fits c (14 * (i + 1))).length
    (q.take n).foldl (fun t e => if e.tries = 0 then t.sendChain c e else t.sendAgain c e)
      (s.onChain c fun ch => { ch with regq := q.drop n })

/-- A CODES packet is sent (R187, R257, R265, R270). -/
def State.codesSend (s : State) (c : Nat) : State :=
  if s.chainLive c then
    match s.nextRow c with
    | none => s
    | some (row, cls, rep) =>
      let ch := s.chain c
      let bank := ch.bankOf cls
      let joins := (ch.mover bank).isSome
      let s := s.onChain c fun ch =>
        { ch with again := match rep with | some e => ch.again.erase e | none => ch.again,
                  react := if cls = 0 then ch.react.filter (· != row) else ch.react,
                  urgent := if cls = 1 then ch.urgent.filter (· != row) else ch.urgent,
                  frame := if cls = 2 then ch.frame.filter (· != row) else ch.frame,
                  failed := ch.failed.filter fun f => !(f.1 == row && (f.2 == 2) == (cls == 2)),
                  joined := if joins then addNum row ch.joined else ch.joined }
      match s.place (row / 128) with
      | none => s
      | some (_, pos) =>
        let slot := s.rowSlot cls bank
        let s := s.readRange (codeAddr slot (128 * row)) 192 0
        let e : Sent := { typ := 1, pos := pos, seq := 0, ccrc := 0, tries := match rep with | some e => e.tries | none => 0,
                          key := row, bank := bank, cls := cls, body := s.codesBody row bank slot }
        if rep.isSome then s.sendAgain c e else s.sendChain c e
  else s

/-- A CODES packet is sent, and tile register requests that waited for it follow (R257, R270). -/
def execCodesSend (c : Fin 20) (s : State) : Host.Outcome State Fault Refusal := .next ((s.codesSend c).flushReg c)

/-- The body of a LATCH (R258). -/
def latchBody (target ltag : Nat) (frame : Bool) (offs : List Nat) : List Byte :=
  leBytes 2 target ++ leBytes 1 ltag ++ leBytes 1 frame.toNat ++
    ((List.range 8).flatMap fun q => leBytes 2 (if frame then offs.getD q 0 % 2048 else 0))

/-- The offsets that a frame LATCH carries on a chain: of the frame's own tiles, and of those in use elsewhere (R47, R258). -/
def State.latchOffs (s : State) (k : FrameKind) (c : Nat) : List Nat :=
  (List.range 8).map fun q =>
    match s.tileIn (s.passFb k) c q with
    | some t => (s.tile t).next
    | none => match s.tileAt c q with | some t => (s.tile t).next | none => 0

/-- A LATCH waits on a chain for the period that it names (R250, R266, R276): until then the first of its frame LATCHes shows nothing. -/
def State.waitLatch (s : State) (frame : Bool) (c : Nat) (w : WaitLatch) (old : Nat) : State :=
  (s.put (F.CHN_STAT_lpend c) 1).onChain c fun ch =>
    if frame then { ch with latchF := some w, lit := if ch.lit.isNone ∨ ch.lit = some old then some w.target else ch.lit }
    else { ch with latchU := some w }

/-- A chain waits no more for older LATCHes of a kind, and repeats them no more, since a new one follows them (R266; DEDUCED, log entry
59). -/
def Chain.newLatch (ch : Chain) (frame : Bool) : Chain :=
  let its (e : Sent) : Bool := e.typ == 2 && (e.bank == 1) == frame
  { ch with again := ch.again.filter fun e => !its e, expect := ch.expect.map fun e => if its e then { e with cls := 3 } else e }

/-- One LATCH is sent on a chain (R258, R266). -/
def State.sendLatch (s : State) (frame : Bool) (target ltag : Nat) (offs : List Nat) (c : Nat) : State :=
  let body := latchBody target ltag frame offs
  let w : WaitLatch := { ltag := ltag, target := target, body := body }
  let s := (s.onChain c fun ch => ch.newLatch frame).sendChain c
    { typ := 2, pos := 0, seq := 0, ccrc := 0, key := ltag, bank := frame.toNat, per := target, body := body }
  s.waitLatch frame c w target

/-- The period that a LATCH sent now names: the first to start at least 2 µs after its last symbol (R266). -/
def State.latchTarget (s : State) : Nat := s.periodAfter (symCycles 28 + 800)

/-- The last LATCH sent is shown (R275). -/
def State.showLatch (s : State) (tag target : Nat) : State := (s.put F.CHN_LTAG_ltag tag).put F.CHN_LTAG_target target

/-- A LATCH event: its tag and target are shown, and the next takes a new tag (R258, R275). -/
def State.latchEvent (s : State) (target : Nat) : State :=
  let tag := s.light.ltag
  let s := s.showLatch tag target
  { s with light := { s.light with ltag := (tag + 1) % 256 } }

/-- A mask generation waits for the period from which it is in force; in FALLBACK none does (R176, R180). -/
def State.bringMask (s : State) (target : Nat) : State :=
  match s.vid.maskGen with
  | some a =>
    if s.fbMode ∨ (s.light.maskDue.any fun e => e.2.2.1 == s.get F.MSK_GEN_applied) then s
    else { s with light := { s.light with maskDue := s.light.maskDue ++ [(target, a, s.get F.MSK_GEN_applied, s.maskWords)] } }
  | none => s

/-- What an urgent LATCH brings into force: the newest mask generation and the newest set of aspects off (R176, R321). -/
def State.bringUrgent (s : State) (target : Nat) : State :=
  let s := s.bringMask target
  if s.mode = .fallback then s
  else { s with light := { s.light with offDue := s.light.offDue ++ [(target, s.sendOff s.slotNow)] } }

/-- The tile drives pixels of a PROOF that could not be replaced in time for W ticks (R299, R309, R311). -/
def State.proofDriven (s : State) (n : Nat) : State := (s.incBy F.PRF_REPL_pixels n).event 19 1

/-- A replacement PROOF is sent (R299, R309): until it is verified, every pixel that its tile has been told of is uncertain. -/
def State.sendReplacement (s : State) (c : Nat) (e : Sent) (told : List Nat) : State :=
  let s := (s.inc F.PRF_REPL_n).sendChain c e
  { s with light := { s.light with proofBad := kvPut s.light.proofBad e.key (addLast told ((kvFind s.light.proofBad e.key).getD [])) } }

/-- A PROOF of a tile that lists pixels whose unadjusted code in the target period is now 0 is replaced while there is time, else the
pixels are driven (R299, R309, R311). The new list is the one that later LATCHes are held against. A replacement that would run into a
token span waits for its turn (R270). -/
def State.proofReplace (s : State) (target : Nat) (dark : Nat → Bool) (t : Nat) : State :=
  match kvFind s.light.proofSent t, s.place t with
  | some ps, some (c, pos) =>
    let rest := ps.filter fun p => !dark p
    if rest.length = ps.length then s
    else if !rest.isEmpty && decide (symCycles (12 + 2 * rest.length) + 800 ≤ s.until target) then
      let body := leBytes 2 target ++ leBytes 1 rest.length ++ [0] ++ rest.flatMap fun p => leBytes 2 (p % 16384)
      let old := (s.chain c).again.filter fun x => x.unsent && x.key == t
      let e : Sent := { typ := 3, pos := pos, seq := 0, ccrc := 0, key := t, bank := ps.length - rest.length + (old.map Sent.bank).sum,
                        cls := 1, per := target, body := body }
      let s := s.onChain c fun ch => { ch with again := ch.again.filter fun x => !(x.unsent && x.key == t) }
      let s := if s.fits c (12 + 2 * rest.length) then s.sendReplacement c e ps
        else s.onChain c fun ch => { ch with again := ch.again ++ [e] }
      { s with light := { s.light with proofSent := kvPut s.light.proofSent t rest } }
    else
      let s := s.proofDriven (ps.length - rest.length)
      { s with light := { s.light with proofSent := kvPut s.light.proofSent t rest } }
  | _, _ => s

/-- After a LATCH event, the PROOF packets for the coming period are brought up to date (R299). -/
def State.proofsAfterLatch (s : State) : State :=
  let p := perAdd s.pnow 1
  if darkPeriod p then s
  else
    let (slot, m, off) := s.inForceAt p
    (List.range 80).foldl (fun u t => u.proofReplace p (fun x => s.unadjusted slot m off x == 0) t) s

/-- Clauses that wait for a frame LATCH learn the period that it names (R74). -/
def State.clauseLatch (s : State) (target : Nat) : State :=
  let move (d : Due) : Due := if d = .frameLatch then .period target else d
  { s with cl := { s.cl with due := s.cl.due.map move,
                             implicit := s.cl.implicit.map fun (c : ImpClause) => { c with due := move c.due } } }

/-- The first frame LATCH after an event of R233 carries the initial offsets, whatever was placed before the event. -/
def State.placeInitial (s : State) (k : FrameKind) : State :=
  if s.light.initial then
    (s.tilesIn (s.passFb k)).foldl (fun u t => u.onTile t fun x => { x with next := s.initialOff (s.passD k) (s.passFb k) t }) s
  else s

/-- The frame LATCH event (R10, R74, R173, R232, R233, R28). -/
def State.frameLatch (s : State) : State :=
  let target := s.latchTarget
  let slot := s.get F.CMP_STAT_target
  let kind := (s.snapOf slot).kind
  let back := s.mode == Mode.fallback && s.light.back && kind == FrameKind.layers
  let s := s.placeInitial kind
  let s := s.liveChains.foldl (fun u c => u.sendLatch true target s.light.ltag (s.latchOffs kind c) c) s
  let s := ((s.latchEvent target).put F.CMP_STAT_state 0)
  let s := { s with tiles := s.tiles.map fun (t : Tile) => ({ t with prev := t.next } : Tile),
                    light := { s.light with frameDue := some (target, slot, kind), initial := false, ftgt := target,
                                            backDue := s.light.backDue || back,
                                            backMask := if back then some (s.vid.maskGen, s.get F.MSK_GEN_applied, s.maskWords)
                                                        else s.light.backMask },
                    boot := { s.boot with darkFrom := if kind = FrameKind.dark ∧ s.darkRel = true then s.boot.darkFrom.or (some target)
                                                      else s.boot.darkFrom } }
  ((s.onVid fun v => { v with fresh := false }).clauseLatch target).proofsAfterLatch

/-- The urgent LATCH event (R176, R265, R266, R321). -/
def State.urgentLatch (s : State) : State :=
  let target := s.latchTarget
  let s := s.urgentChains.foldl (fun u c => u.sendLatch false target s.light.ltag [] c) s
  ((s.latchEvent target).bringUrgent target).proofsAfterLatch

/-- A LATCH is sent again on a chain (R250, R266, R275, R276): it names the same period while there is time, else the next it can. -/
def State.latchRepeat (s : State) (c : Nat) (e : Sent) : State :=
  let target := if symCycles 28 + 800 ≤ s.until e.per ∧ perReached e.per s.pnow = false then e.per else s.latchTarget
  let body := leBytes 2 target ++ e.body.drop 2
  let s := (s.onChain c fun ch => { ch with again := ch.again.erase e }).sendAgain c { e with per := target, body := body }
  let w : WaitLatch := { ltag := e.key, target := target, tries := e.tries, body := body }
  (s.waitLatch (e.bank == 1) c w e.per).showLatch e.key target

/-- A frame LATCH for one chain alone: the rest of a frame in force whose rows have followed on it (R47). -/
def State.latchChain (s : State) (c : Nat) : State :=
  let target := s.latchTarget
  let s := ((s.sendLatch true target s.light.ltag (s.latchOffs (s.snapOf s.slotNow).kind c) c).latchEvent target).clauseLatch target
  { s with light := { s.light with ftgt := target } }

/-- A LATCH is sent: a frame or urgent LATCH event on every chain concerned, or on one chain a repeat or the frame LATCH that brings
the rest of a frame (R10, R47, R265, R266, R270). -/
def State.latchSend (s : State) (frame : Bool) (only : Option (Fin 20)) : State :=
  match only with
  | none =>
    if frame then (if s.frameReady ∧ s.liveChains.all s.latchNew then s.frameLatch else s)
    else if s.urgentReady ∧ s.urgentChains.all s.latchNew then s.urgentLatch else s
  | some c =>
    if s.chainLive c = false ∨ s.latchMay c = false then s
    else match (s.chain c).repeatLatch frame with
      | some e => s.latchRepeat c e
      | none => if frame ∧ s.restWaits c ∧ s.latchNew c then s.latchChain c else s

/-- A LATCH is sent (R10, R266), and tile register requests that waited for it follow (R270). -/
def execLatchSend (frame : Bool) (only : Option (Fin 20)) (s : State) : Host.Outcome State Fault Refusal :=
  .next ((List.range 20).foldl State.flushReg (s.latchSend frame only))

/-- A PROOF is sent to a tile for the coming lit-check period, one that is to be sent again first (R259, R270, R298, R299). -/
def State.proofSend (s : State) (c pos : Nat) : State :=
  let p := perAdd s.pnow 1
  match s.tileAt c pos with
  | none => s
  | some t =>
    if let some e := s.proofAgain c pos then
      let s := s.onChain c fun ch => { ch with again := ch.again.erase e }
      if e.unsent then s.sendReplacement c e ((kvFind s.light.proofOk t).getD []) else s.sendAgain c e
    else if s.proofDue c pos = [] then s
    else
      let s := s.readProof t p
      let ps := s.proofDue c pos
      if ps = [] then s else
      let body := leBytes 2 p ++ leBytes 1 ps.length ++ [0] ++ ps.flatMap fun x => leBytes 2 (x % 16384)
      let s := s.sendChain c { typ := 3, pos := pos, seq := 0, ccrc := 0, key := t, per := p, body := body }
      { s with light := { s.light with proofSent := kvPut s.light.proofSent t ps, proofBad := kvPut s.light.proofBad t ps } }

/-- A PROOF is sent to a tile (R298), and tile register requests that waited for it follow (R270). -/
def execProofSend (c : Fin 20) (pos : Fin 8) (s : State) : Host.Outcome State Fault Refusal := .next ((s.proofSend c pos).flushReg c)

/-- A SENSE_TOKEN span is sent to a tile, and a STATUS request after it (R261, R262, R267, R19). -/
def execSenseTokenSend (c : Fin 20) (pos : Fin 8) (s : State) : Host.Outcome State Fault Refusal :=
  .next (match s.tileAt c pos, (s.chain c).lit with
    | some t, some l =>
      if s.chainRuns c ∧ perReached l s.pnow then
        let s := s.sendChain c { typ := 6, pos := pos, seq := 0, ccrc := 0, key := t, per := s.pnow, body := leBytes 2 s.pnow }
        let s := s.sendChain c { typ := 8, pos := pos, seq := 0, ccrc := 0, key := t, per := s.pnow, body := [] }
        let s := s.load c (4119 + 8)
        (if s.isl.sense.isNone ∧ s.driving then { s with isl := { s.isl with sense := some 0 } } else s).flushReg c
      else s
    | _, _ => s)

/-- A write of TIL_RACC with go (R260, R280). -/
def State.tileGo (s : State) (i : Nat) : State :=
  match s.place (s.get (F.TIL_MAP_index i)) with
  | none => s
  | some (c, pos) =>
    if s.on (F.TIL_MAP_en i) ∧ s.chainRuns c ∧ s.mode ≠ .mirror ∧ s.on (F.TIL_RACC_busy i) = false then
      let wr := s.on (F.TIL_RACC_wr i)
      let s := (((s.put (F.TIL_RACC_busy i) 1).put (F.TIL_RACC_done i) 0).put (F.TIL_RACC_astat i) 0).put (F.TIL_RACC_fail i) 0
      let e : Sent := { typ := if wr then 4 else 5, pos := pos, seq := 0, ccrc := 0, key := i,
                        body := leBytes 2 (s.get (F.TIL_RACC_addr i)) ++ leBytes 4 (if wr then s.regN (R.TIL_RDATA i) else 0) }
      (s.onChain c fun ch => { ch with regq := ch.regq ++ [e] }).flushReg c
    else s

/-- A REGR reply returns (R256, R260, R273, R280). -/
def execRegrReply (c : Fin 20) (it : ChainPkt) (s : State) : Host.Outcome State Fault Refusal := 
  .next (((s.regrReply c it).flushReg c).hear c it.gap it.syms)

/-- A STATUS reply returns (R256, R269). -/
def execStatusReply (c : Fin 20) (it : ChainPkt) (s : State) : Host.Outcome State Fault Refusal := 
  .next (((s.statusReply c it).flushReg c).hear c it.gap it.syms)

/-- No answer to the oldest request began within rto (R256); a request to be sent again takes its turn (R270). -/
def execReturnTimeout (c : Fin 20) (s : State) : Host.Outcome State Fault Refusal := .next ((s.returnTimeout c).flushReg c)

/-- The identity reads of a chain's tiles wait to be sent (R270, R273). -/
def State.readIds (s : State) (c : Nat) : State :=
  let rd (q t k : Nat) : Sent :=
    { typ := 5, pos := q, seq := 0, ccrc := 0, key := t, bank := k + 1, body := leBytes 2 (4 * k) ++ leBytes 4 0 }
  let es := (List.range (s.pop c)).flatMap fun q => match s.tileAt c q with | some t => [rd q t 0, rd q t 1] | none => []
  (s.onChain c fun ch => { ch with idsSent := true, regq := ch.regq ++ es }).flushReg c

end Sys2Proof.Machine
end

