-- ==== Sys2Proof/Machine/Supervision.lean ====
section
/-! DEFINITION. Pixel supervision: judgements (R282 to R284), pixel states, charges and the fault list (R285 to R292, R303), the
senses that stop coming (R295), unverified pixels (R305) and the treatment of faulty pixels at an acknowledgement (R288). -/

namespace Sys2Proof.Machine

/-- The form of a judgement (R283, R284): in lit form by a window, dark in a dark-check period, or dark in lit form. -/
inductive JForm where
  | lit | dark | darkLit
deriving DecidableEq, Repr

/-- The judgement that a pixel gets in a period (R283): none where `none`. `c` is its code in force, `w` W, `dark` the period type,
`active` an active proof, and `vague` a proof whose status is uncertain (R299). -/
def judgeForm (w c : Nat) (dark active vague : Bool) : Option JForm :=
  if dark then (if 4096 < c + w then none else some .dark)
  else if vague then none
  else if active then some .lit
  else if c = 0 then some .darkLit
  else if c < w then none
  else some .lit

/-- What a sense code gives under a form (R284): 0 pass, else the failing state 1 OPEN, 2 SHORT, 3 STUCK, 4 SENSEFAIL. -/
def senseResult (f : JForm) (code : Nat) : Nat :=
  match f, code with
  | .lit, k => if k = 3 then 4 else k
  | .dark, 0 => 0
  | .dark, 1 => 3
  | .dark, _ => 4
  | .darkLit, 0 => 3
  | .darkLit, 3 => 4
  | .darkLit, _ => 0

/-- The healthy state of an unadjusted code, EXEMPT, sub-window or other (R285): 6, 5 or 0. -/
def codeClass (w u : Nat) : Nat := if 4096 < u + w then 6 else if 0 < u ∧ u < w then 5 else 0

/-- Whether a pixel state is a confirmed fault (R286). -/
def faultState (st : Nat) : Bool := 1 ≤ st && st ≤ 4

/-- Whether a judgement of a form is of a fault state's own kind (R287). -/
def ownKind (st : Nat) (f : JForm) : Bool :=
  match st with | 4 => true | 3 => f != .lit | _ => f == .lit

/-- What one judgement makes of a pixel in a fault state (R287): its new state and conf. -/
def faultStep (st conf : Nat) (f : JForm) (res : Nat) : Nat × Nat :=
  if res = 3 ∧ st ≠ 3 then (3, 1)
  else if st = 4 ∧ (res = 1 ∨ res = 2) then (res, 1)
  else if ownKind st f then (st, if res = 0 then min 7 (max 2 (conf + 1)) else 1)
  else (st, conf)

/-- What one judgement makes of a healthy pixel (R285): its state, conf, and the form of the failures that conf counts. A pass of
another form than the counted failures leaves conf (DEDUCED, log entry 20). -/
def healthyStep (n healthy conf form : Nat) (f : JForm) (res : Nat) : Nat × Nat × Nat :=
  let k := if f = .lit then 1 else 2
  if res = 0 then (if form = k ∨ form = 0 then (healthy, 0, 0) else (healthy, conf, form))
  else if conf + 1 < n then (healthy, conf + 1, k)
  else (res, 0, 0)

/-- A state-change record (R415): tile, index, state, conf, and the token period of the judgement. -/
def changeRecord (p st conf q : Nat) : List Byte :=
  leBytes 4 (p / 16384 + 128 * (p % 16384) + 2 ^ 21 * st + 2 ^ 24 * conf) ++ leBytes 4 q

/-- A change of a pixel's state is queued for the partner (R415); a queue of 1,024 that would overflow is emptied, and a restatement
starts (R420). -/
def State.queueRecord (s : State) (p st conf q : Nat) : State :=
  if s.on F.AXO_CFG_pair && s.driving then
    if s.pair.recs.length < 1024 then { s with pair := { s.pair with recs := s.pair.recs ++ [changeRecord p st conf q] } }
    else ({ s with pair := { s.pair with recs := [], restAt := some (0xFF, 0) } }).put F.AXO_STAT_restating 1
  else s

/-- The rows of the dead pixels that a pixel fills, and of their neighbours, once it begins or ends to be healthy (R324, R325). -/
def State.refill (s : State) (p : Nat) : State :=
  s.markRows (((neighbours p).filter s.vid.filled.contains).flatMap fun q => (q :: neighbours q).map rowOf)

/-- A pixel's byte takes a state and conf, and the counts and the fill follow (R289, R306, R325). `q` is the token period of the
judgement. -/
def State.movePix (s : State) (p st conf q : Nat) : State :=
  let old := s.pixState p
  let s := s.setPix p st conf (s.pixPrf p)
  if old = st then s
  else
    let s := if faultState old = faultState st then s else s.refill p
    ((s.countState old false).countState st true).queueRecord p st conf q

/-- The rectangle words of the mask history for a period (R179). -/
def State.maskHist (s : State) (p : Nat) : List Word :=
  (List.range 64).map fun k => BitVec.ofNat 32 (s.rdLe (0x8E0000 + 512 * (p % 4) + 4 * k) 4)

/-- Supervision reads the mask history entry of a period (R179, R186, R187), once for every row that it judges by it (DESIGN CHOICE, log
entry 77). -/
def State.readHist (s : State) (p : Nat) : State := s.readRange (0x8E0000 + 512 * (p % 4)) 256 4

/-- ASP_FLT.faulty of an aspect follows the fault list (R303). -/
def State.showFaulty (s : State) (a : Nat) : State :=
  s.put (F.ASP_FLT_faulty a) (min 4095 (s.faultList.filter fun e => bits e.2 24 8 == a).length)

/-- What follows a charge to aspect `a`, or its release: the count, the pixel classes and the policies (R303, R304, R323). -/
def State.afterCharge (s : State) (a : Nat) : State :=
  let s := if a < 160 then s.showFaulty a else s
  (s.pixelClasses a).evalPolicies

/-- The aspect that a fault is charged to, and whether it is a glare fault (R303), by what was in force in the period of the sense. -/
def State.chargeTo (s : State) (r : PerRec) (mask : List Word) (p st : Nat) : Nat × Bool :=
  if s.fbMode ∨ r.fb then (0xFF, false)
  else
    let own := ((s.owner r.slot p).getD 0xFF, false)
    if st ≠ 3 then own
    else match (List.range 32).find? fun k => maskRect mask k (pixX p) (pixY p) with
      | some k => (getBits (mask.getD (2 * k + 1) 0) 10 8, true)
      | none =>
        match ((s.snapOf r.slot).ctxs.filter fun c => s.on (F.ASP_SUPV_dkreq c.idx) && c.covers s (pixX p) (pixY p)).map Ctx.idx with
        | [] => own
        | a :: l => (l.foldl min a, true)

/-- An entry of the fault list (R290). -/
def entryWord (p st a : Nat) (glare : Bool) (q : Nat) : Nat :=
  p / 16384 + 128 * (p % 16384) + 2 ^ 21 * st + 2 ^ 24 * a + 2 ^ 32 * glare.toNat + 2 ^ 33 * (q % 2 ^ 31)

/-- The rows that a dead pixel's change of state touches (R325). -/
def State.markFill (s : State) (a p : Nat) : State :=
  if a < 160 ∧ s.get (F.ASP_CFG_policy a) = 2 then s.markRows ((p :: neighbours p).map rowOf) else s

/-- Supervision reads the fault list up to an entry (R186, R187). -/
def State.readList (s : State) (k : Nat) : State := s.readRange 0xDE8000 (8 * (k + 1)) 4

/-- The fault list takes an entry for a pixel, in its own place or the lowest free one; a full list charges nothing (R290), and the pixel
counts for instance 0xFF of its class (R304, R312). -/
def State.listFault (s : State) (p st a : Nat) (glare : Bool) (q : Nat) : State × Nat :=
  match s.listEntry p with
  | some (k, e) =>
    let old := bits e 24 8
    let s := (s.readList k).setLe (0xDE8000 + 8 * k) 8 (entryWord p st a glare (bits e 33 31))
    (((s.afterCharge old).afterCharge a).markFill a p |>.markFill old p, a)
  | none =>
    match (List.range 4096).find? fun k => bits (s.faultEntry k) 21 3 == 0 with
    | some k =>
      let s := (s.readList k).setLe (0xDE8000 + 8 * k) 8 (entryWord p st a glare q)
      let s := s.put F.SUP_STAT_used (s.get F.SUP_STAT_used + 1)
      ((s.afterCharge a).markFill a p, a)
    | none => (((((s.readList 4095).put F.SUP_STAT_ovf 1).event 15 3).setCond 9 0 true).pixelClasses 0xFF, 0xFF)

/-- A pixel's entry leaves the fault list, and its charge is released (R286, R288, R303). -/
def State.unlistFault (s : State) (p : Nat) : State :=
  match s.listEntry p with
  | none => (s.readList 4095).pixelClasses 0xFF
  | some (k, e) =>
    let a := bits e 24 8
    let s := ((s.readList k).setLe (0xDE8000 + 8 * k) 8 0).put F.SUP_STAT_used (s.get F.SUP_STAT_used - 1)
    (s.afterCharge a).markFill a p

/-- In FALLBACK each confirmed pixel counts once; more than max_fault of them lead to HOLD (R47). -/
def State.countFallback (s : State) (p : Nat) : State :=
  if s.mode = .fallback then
    let l := addNum p s.light.fbFaults
    let s := { s.put F.SYS_FBSTAT_faulty (min l.length (2 ^ F.SYS_FBSTAT_faulty.w - 1)) with light := { s.light with fbFaults := l } }
    if s.fbByte 5 < l.length then s.enterHold 0x09 l.length else s
  else s

/-- A fault is confirmed (R285, R286, R303, R306 to R308). -/
def State.confirm (s : State) (r : PerRec) (mask : List Word) (p st q : Nat) : State :=
  let (a, glare) := s.chargeTo r mask p st
  let (s, a) := s.listFault p st a glare q
  let glare := glare && a != 0xFF
  let s := (s.inc F.SUP_CONF_conf).event 15 0
  let s := if glare then (s.inc F.SUP_CONF_glare).event 15 1 else s
  let s := (((s.put F.SUP_LAST_tile (p / 16384)).put F.SUP_LAST_pixel (p % 16384)).put F.SUP_LAST_state st).put F.SUP_LAST_aspect a
  s.countFallback p

/-- The form of the failures that a pixel's conf counts (R285). -/
def State.setForm (s : State) (p k : Nat) : State :=
  if kvNat s.light.form p = k then s
  else
    let l := s.light.form.filter fun e => e.1 != p
    { s with light := { s.light with form := if k = 0 then l else kvPut l p k } }

/-- A judged pixel is UNVERIFIED in the cycle of its sense, for the aspect that owned it (R305). -/
def State.noteUnverified (s : State) (r : PerRec) (p : Nat) : State :=
  match s.owner r.slot p with
  | none => s
  | some a =>
    let u := r.per / cycleOf r.d
    if u = s.light.unvCycle then { s with light := { s.light with unvNow := kvPut s.light.unvNow p a } }
    else if u + 1 = s.light.unvCycle then { s with light := { s.light with unvOld := kvPut s.light.unvOld p a } }
    else s

/-- The healthy state of a judged pixel (R285, R296): UNVERIFIED where its sub-window code cannot be proven, with the reason. A pixel
that only lacks an entry becomes a candidate (R297), in a fault state too. -/
def State.healthOf (s : State) (r : PerRec) (mask : List Word) (p : Nat) : State × Nat × Option Nat :=
  let w := windowTicks r.d
  let u := s.unadjusted r.slot mask r.off p
  if codeClass w u ≠ 5 then (s, codeClass w u, none)
  else match s.unprovable r.slot w p u with
    | some k => (s, 5, some k)
    | none => if (s.heldEntry p).isSome then (s, 0, none) else (s.joinQueue p, 5, some 1)

/-- One judgement of a pixel (R283 to R287, R300, R303, R305). `q` is the token period of its block. -/
def State.judged (s : State) (r : PerRec) (mask : List Word) (p q : Nat) (f : JForm) (res : Nat) : State :=
  let active := r.proof.contains p && f == .lit
  let s := if active then s.addSurplus p (windowTicks r.d - s.driven r.slot mask r.off p) else s
  let st := s.pixState p
  let conf := s.pixConf p
  if faultState st then
    let (st', c) := faultStep st conf f res
    let s := (s.healthOf r mask p).1.movePix p st' c q
    if st' = st then s
    else
      let (a, glare) := s.chargeTo r mask p st'
      (s.listFault p st' a glare q).1
  else
    let (s, healthy, why) := s.healthOf r mask p
    let (st', c, form) := healthyStep s.confN healthy conf (kvNat s.light.form p) f res
    let s := (s.movePix p st' c q).setForm p form
    if faultState st' then (s.setWhy p none).confirm r mask p st' q
    else
      let s := s.setWhy p why
      if st' = 5 then s.noteUnverified r p else s

/-- The judgement of a pixel of a record (R283). -/
def State.formOf (s : State) (r : PerRec) (mask : List Word) (p : Nat) : Option JForm :=
  judgeForm (windowTicks r.d) (s.driven r.slot mask r.off p) (darkPeriod r.per) (r.proof.contains p) (r.vague.contains p)

/-- The sense code of pixel `k` in the 32 bytes of a row (R261). -/
def senseCode (data : List Byte) (k : Nat) : Nat := bits (leNat ((data.drop (k / 4)).take 1)) (2 * (k % 4)) 2

/-- A failing judgement is kept for the partner (R415). -/
def State.noteFail (s : State) (q p res : Nat) : State :=
  if res = 0 then s else s.onRec q fun r => { r with fails := kvPut r.fails p res }

/-- The mask that governed a period (R179, R180). -/
def State.maskOf (s : State) (r : PerRec) : List Word := s.maskHist r.per

/-- Whether a row may be judged: it was verified by the period of its LATCH (R265, R282). -/
def PerRec.judges (r : PerRec) (row : Nat) : Bool := !r.unsure.contains row

/-- The pixels of a row are judged against their period (R282 to R284). In MIRROR a snooped block is only compared (R419). -/
def State.judgeRow (s : State) (t tok row q : Nat) (data : List Byte) : State :=
  match s.recOf q with
  | none => s
  | some r =>
    let gr := 128 * t + row
    if !r.judges gr then s.inc F.SUP_SKIP_rows
    else
      let s := (s.restore (wordIn (0xC00000 + 128 * gr) 128)).readRange (codeAddr r.slot (128 * gr)) 192 4
      let s := s.readHist r.per
      let mask := s.maskOf r
      (List.range 128).foldl (fun u k =>
        let p := 128 * gr + k
        match u.formOf r mask p with
        | none => u
        | some f =>
          let code := senseCode data k
          let u := if f = .dark ∧ code = 2 then (u.inc F.SUP_SKIP_proto).event 15 5 else u
          let u := u.noteFail tok p (senseResult f code)
          if u.mode = .mirror then u else u.judged r mask p tok f (senseResult f code)) s

/-- Supervision releases the judgement of the oldest block (R11, R284, R19). `cycles` is the time since its last segment. -/
def execJudgementRelease (cycles : Nat) (s : State) : Host.Outcome State Fault Refusal :=
  .next (match s.light.blocks with
    | [] => s
    | b :: rest =>
      let s := { s with light := { s.light with blocks := rest }, isl := { s.isl with hbFlag := true } }
      let s := (s.peak F.SUP_JRUN_t cycles).dropDue b.tile b.per
      b.rows.foldl (fun u e => u.judgeRow b.tile b.per e.1 e.2.1 e.2.2) s)

/-- A row of an enabled tile has given no accepted result for SUP_CFG.stale cycles (R295). -/
def execSenseStale (t : Fin 80) (s : State) : Host.Outcome State Fault Refusal :=
  .next (if (s.tile t).staleRows = [] ∧ ((s.tile t).rowAge.any fun e => s.get F.SUP_CFG_stale < e.2) then
    ((s.onTile t fun x => { x with staleRows := List.range 128 }).event 15 2).staleBit t true
  else s)

/-- An acknowledgement event treats a pixel in a fault state by its conf (R288). -/
def State.ackPixel (s : State) (p : Nat) : State :=
  let n := s.confN
  let conf := s.pixConf p
  let st := s.pixState p
  if conf ≠ 0 ∧ conf - 1 < min n 6 then s
  else
    let back := if conf = 0 then n - 1 else 0
    (((s.movePix p 0 back s.pnow).setForm p (if back = 0 then 0 else if st = 3 then 2 else 1)).unlistFault p).event 15 4

/-- An acknowledgement event treats every pixel in a fault state (R288). -/
def State.ackPixels (s : State) : State :=
  let s := s.restore (wordIn 0xC00000 0x140000)
  s.faultPixels.foldl State.ackPixel s

/-- The rows of the tiles whose chains run, and that will be sensed, age by a supervision cycle (R295). -/
def State.ageRows (s : State) : State :=
  (s.tileList.filter fun t => match s.place t with | some (c, _) => s.chainRuns c | none => false).foldl (fun u t =>
    u.onTile t fun x => { x with rowAge := (List.range 128).map fun r => (r, match kvFind x.rowAge r with | some n => n + 1 | none => 1) }) s

/-- ASP_FLT.unv and PIXEL_UNVERIFIED of an aspect at the end of a supervision cycle (R304, R305). -/
def State.showUnv (s : State) (a : Nat) : State :=
  let n := min 4095 (s.light.unvOld.filter fun e => e.2 == a).length
  (s.put (F.ASP_FLT_unv a) n).setCond 5 a (decide (1 ≤ n) && s.get (F.ASP_SUPV_unv a) != 0)

/-- A supervision cycle ends at the period start that begins the next (R295, R305, R323). -/
def State.cycleEnd (s : State) : State :=
  let s := ((List.range 160).foldl State.showUnv s).ageRows
  let s := { s with light := { s.light with unvOld := s.light.unvNow, unvNow := [], unvCycle := s.pnow / cycleOf s.dNow } }
  s.evalPolicies

end Sys2Proof.Machine
end

