-- ==== Sys2Proof/Machine/View.lean ====
section
/-! DEFINITION. What a register reads (R59): the words that are computed at the read (R64 to R67 and the register tables), the
values that PCTRL.freeze holds (R63), the shadows (R72), and the side effects of a read (R332, R344). -/

namespace Sys2Proof.Machine

/-- The number whose bit `i`, below `n`, is set where `f i` holds. -/
def bitmask (n : Nat) (f : Nat → Bool) : Nat := ((List.range n).map fun i => if f i then 2 ^ i else 0).sum

/-- PIRQ_STAT of a page (R65). -/
def State.irq (s : State) (p : Nat) : Word := s.reg (R.PIRQ_RAW p) &&& s.reg (R.PIRQ_EN p)

/-- SYS_IRQSUM (R65, R81). -/
def State.irqSum (s : State) : Nat := bitmask 31 fun p => s.irq p != 0

/-- Whether a page is locked (R60, R66). -/
def State.locked (s : State) (p : Nat) : Bool := s.on (F.PLOCK_locked p)

/-- The registers of a page that the open clause holds (R67). -/
def State.stagedOn (s : State) (p : Nat) : Nat := (s.cl.shadow.filter fun e => pageOf e.1 == p).length

/-- PSTAT.busy of a page (R64; which work counts is the model's, DESIGN CHOICE, log entry 6). -/
def State.pageBusy (s : State) (p : Nat) : Bool :=
  if p = 3 then s.get F.CLS_STAT_state == 2
  else if 4 ≤ p ∧ p ≤ 7 then s.on (F.LNK_EYESTAT_busy (p - 4))
  else if p = 8 then !s.link.queue.isEmpty
  else if p = 9 then s.spd.conf || s.spd.otp.isSome
  else if p = 11 then s.get F.CMP_STAT_state == 1
  else if p = 12 then s.maskBusy
  else if p = 14 then s.vid.placing
  else if p = 22 ∨ p = 23 then (List.range 40).any fun k => s.on (F.TIL_RACC_busy (40 * (p - 22) + k))
  else if p = 24 then s.on F.ADC_STAT_rbusy || s.on F.ADC_STAT_ibusy || s.on F.ADC_STAT_cal_run
  else if p = 29 then s.get F.CRC_SKSTAT_state != 0 || s.on F.CRC_SKSTAT_ccv
  else false

/-- Whether some instance of a class is present among those that `f` selects. -/
def State.presentIn (s : State) (cls : Nat) (f : Nat → Bool) : Bool :=
  s.flt.insts.any fun e => e.1 / 65536 == cls && f (e.1 % 65536) && e.2.here

/-- The pixels of a fault list or store that are in a fault state (R306). -/
def State.anyFault (s : State) : Bool := s.get F.SUP_CNT0_open + s.get F.SUP_CNT0_short + s.get F.SUP_CNT1_stuck + s.get F.SUP_CNT1_sensefail != 0

/-- PSTAT.block of a page (R64 and the introduction of each register page). -/
def State.pageBlock (s : State) (p : Nat) : Nat :=
  let two (a b : Bool) : Nat := a.toNat + 2 * b.toNat
  if 4 ≤ p ∧ p ≤ 7 then
    s.get (F.LNK_STAT_state (p - 4)) + 8 * s.get (F.LNK_ADAPT_frozen (p - 4)) + 16 * s.get (F.LNK_EYESTAT_busy (p - 4))
  else if p = 8 then two (s.on F.PKT_VSTAT_open) (s.on F.PKT_POS_pos)
  else if p = 9 then two (s.on F.SPD_RXSTAT_synced) (s.on F.SPD_CCVSTAT_cfg_ok)
  else if p = 10 then s.get F.VIN_STAT_front + 2 * s.get F.VIN_STAT_back
  else if p = 11 then s.get F.CMP_STAT_state
  else if p = 12 then s.maskBusy.toNat
  else if p = 13 then s.get F.CAL_CFG_byp
  else if p = 14 then two s.vid.placing (s.on F.PLC_PHASE_dark)
  else if p = 15 then two s.anyFault ((List.range 3).any fun k => s.reg (R.SUP_STALE k) != 0)
  else if p = 16 ∨ p = 17 then ((List.range 80).any fun k => s.on (F.ASP_FST_fading (80 * (p - 16) + k))).toNat
  else if p = 18 then two ((List.range 64).any s.latched) ((List.range 160).any fun a => s.on (F.ASP_FLT_off a))
  else if p = 19 then (s.get F.PRF_LOW_pixels != 0).toNat
  else if p = 20 ∨ p = 21 then
    two ((List.range 10).any fun k => s.get (F.CHN_STAT_state (10 * (p - 20) + k)) == 2)
      (s.presentIn 10 fun c => c / 10 == p - 20)
  else if p = 22 ∨ p = 23 then
    (s.presentIn 13 fun t => match s.instOf t with | some i => i / 40 == p - 22 | none => false).toNat
  else if p = 24 then s.get F.ADC_STAT_rbusy + 2 * s.get F.ADC_STAT_cal_run + 4 * s.get F.ADC_STAT_fast
  else if p = 25 then (s.reg R.WIN_STAT != 0).toNat
  else if p = 26 then two ((List.range 4).any s.balJudges) (s.presentIn 24 fun _ => true)
  else if p = 27 then two (s.presentIn 25 fun _ => true) (s.presentIn 26 fun _ => true)
  else if p = 28 then two (s.sio.fbCause != 0 || (List.range 8).any fun k => s.on (F.SIO_INST_lat k)) ((List.range 8).any fun k => s.on (F.SIO_OST_lat k))
  else if p = 29 then s.get F.CRC_SKSTAT_state
  else if p = 30 then two (s.on F.AXO_STAT_aligned) (s.on F.AXO_STAT_partner)
  else 0

/-- PSTAT (R64). -/
def State.pstat (s : State) (p : Nat) : Nat :=
  s.get (F.PCTRL_en p) + 2 * (s.locked p).toNat + 4 * (s.stagedOn p != 0).toNat + 8 * (s.pageBusy p).toNat +
    256 * s.pageBlock p

/-- PSTAGE (R67). -/
def State.pstage (s : State) (p : Nat) : Nat :=
  s.stagedOn p + 65536 * (s.stagedOn p != 0 && 2 ≤ s.get F.CLS_STAT_state).toNat

/-- CRC_RES of context `c` (R394, R396). -/
def State.crcRes (s : State) (c : Nat) : Nat :=
  crcResult (s.get (F.CRC_CFG_w c)) (s.on (F.CRC_CFG_refout c)) (s.regN (R.CRC_XOUT c)) (s.regN (R.CRC_VAL c))

/-- The highest action of the latched classes, as taken in the present mode (R331). -/
def State.actHigh (s : State) : Nat :=
  ((List.range 64).map fun k => if s.latched k then s.actionOf k else 0).foldl max 0

/-- Four fields of eight bits, one for each `f`, by input or output (R391). -/
def octets (f g h k : Nat → Bool) : Nat := bitmask 8 f + 256 * bitmask 8 g + 65536 * bitmask 8 h + 16777216 * bitmask 8 k

/-- Valid ledger entries of a tile (R309). -/
def State.ledgerCount (s : State) (t : Nat) : Nat := (s.ledgerOf t).length

/-- The word of two array tiles' entries: zero for a tile that is not enabled (R243, R310). -/
def State.tilePair (s : State) (k : Nat) (f : Nat → Nat) : Nat :=
  let v (t : Nat) : Nat := if (s.place t).isSome then f t else 0
  v (2 * k) + 65536 * v (2 * k + 1)

/-- AXO_STAT.ready (R426). -/
def State.axoReady (s : State) : Bool :=
  s.mode == .mirror && s.on F.AXO_STAT_aligned && s.on F.AXO_STAT_sync && s.on F.SYS_STAT_cfg_ok &&
    (List.range 64).all fun k => !(s.latched k && 3 ≤ s.get (F.FLT_RCT_action k))

/-- The words that are computed at the read; none for a word that reads as it is held. -/
def State.computed (s : State) (a : Nat) : Option Nat :=
  let p := pageOf a
  let o := a % 0x1000
  if o = 0x00C then some (s.pstat p)
  else if o = 0x018 then some (s.irq p).toNat
  else if o = 0x024 then some (s.pstage p)
  else if a = R.SYS_LOCKPG then some (bitmask 31 s.locked)
  else if a = R.SYS_IRQSUM then some s.irqSum
  else if a = R.LNK_RATE 1 ∨ a = R.LNK_RATE 2 ∨ a = R.LNK_RATE 3 then some (s.regN (R.LNK_RATE 0))
  else if a = R.PKT_TAGS then some ((s.link.queue.filter fun q => q.typ != 0x40).length + 256 * s.get F.PKT_TAGS_high)
  else if a = R.MSK_STAT then
    some (s.maskBusy.toNat + 2 * (s.mode == .fallback).toNat + 65536 * min 65535 s.urgentCount)
  else if a = R.ASP_FGPEND then some (bitmask 16 fun g => g != 0 && s.groupPending g)
  else if a = R.ASP_NUM then
    some (s.defined.length + 256 * ((List.range 160).filter fun k => s.on (F.ASP_FST_fading k)).length)
  else if R.ASP_OFF 0 ≤ a ∧ a ≤ R.ASP_OFF 4 then some (bitmask 32 fun j => s.on (F.ASP_FLT_off (32 * ((a - R.ASP_OFF 0) / 4) + j)))
  else if R.CAL_TIDX 0 ≤ a ∧ a ≤ R.CAL_TIDX 19 then
    some (if s.live then leNat ((List.range 4).map fun j => BitVec.ofNat 8 (s.tidx (4 * ((a - R.CAL_TIDX 0) / 4) + j))) else 0)
  else if a = R.PRF_PIX then some ((List.range 80).map s.ledgerCount).sum
  else if R.PRF_OCC 0 ≤ a ∧ a ≤ R.PRF_OCC 39 then
    some (s.tilePair ((a - R.PRF_OCC 0) / 4) s.ledgerCount)
  else if R.PLC_OFF 0 ≤ a ∧ a ≤ R.PLC_OFF 39 then
    some (s.tilePair ((a - R.PLC_OFF 0) / 4) fun t => s.regN a / (if t % 2 = 0 then 1 else 65536) % 65536)
  else if a = R.CHN_GSTAT then some (bitmask 20 fun c => s.get (F.CHN_STAT_state c) == 2)
  else if a = R.CHN_GLOCK then some (bitmask 20 fun c => s.on (F.CHN_STAT_lock c))
  else if a = R.CHN_GFLT then some (bitmask 20 fun c => s.presentIn 10 (· == c))
  else if a = R.FLT_LATCH0 then some (bitmask 32 s.latched)
  else if a = R.FLT_LATCH1 then some (bitmask 32 fun k => s.latched (32 + k))
  else if a = R.FLT_PRES0 then some (bitmask 32 fun k => s.presentIn k fun _ => true)
  else if a = R.FLT_PRES1 then some (bitmask 32 fun k => s.presentIn (32 + k) fun _ => true)
  else if a = R.FLT_ACT then some (s.regN R.FLT_ACT + s.actHigh)
  else if a = R.FLT_GOFF then some (bitmask 16 fun g => s.groupsShown.contains g)
  else if a = R.AXO_STAT then some (s.regN R.AXO_STAT + 32 * s.axoReady.toNat)
  else if a = R.ADC_DPEEK then some (s.regN R.ADC_DATA)
  else if a = R.BAL_STAT then
    some (s.regN R.BAL_STAT + ((List.range 4).any s.balJudges).toNat +
      2 * ((List.range 4).any s.balJudges && s.mode == .mirror).toNat)
  else if p = 27 ∧ (List.range 4).any (fun g => a == R.SPL_STAT g) ∧ s.driving = false then
    some (if s.mode = .mirror then s.regN a % 1024 else 0)
  else if a = R.SIO_INVAL then
    some (octets (fun k => s.on (F.SIO_INST_val k)) (fun k => s.on (F.SIO_INST_lat k)) s.sio.rawA.getLsbD s.sio.rawB.getLsbD)
  else if a = R.SIO_OUTVAL then
    some (octets (fun k => s.on (F.SIO_OST_drv k)) (fun k => s.on (F.SIO_OST_rb k)) (fun k => s.on (F.SIO_OST_lat k))
      fun k => s.on (F.SIO_OST_pulse k))
  else if p = 29 ∧ 0x400 ≤ o ∧ o < 0xC00 ∧ o % 32 = 0x14 ∧ o ≠ 0xBF4 then some (s.crcRes ((o - 0x400) / 32))
  else none

/-- What a register word reads now, freeze and shadows apart. -/
def State.present (s : State) (a : Nat) : Word :=
  match s.computed a with | some v => BitVec.ofNat 32 v | none => s.reg a

/-- Whether a word holds RO fields alone, so that PCTRL.freeze holds it (R63), which it does not for the results of R344. -/
def roWord (a : Nat) : Bool :=
  match regSpec a with
  | some r => a != R.ADC_DATA && !(R.ADC_INJ 0 ≤ a && a ≤ R.ADC_INJ 3) && r.ro != 0 && (r.rw ||| r.rwl ||| r.rws ||| r.w1c ||| r.wo) == 0
  | none => false

/-- What a register word reads without side effects (R63, R400). -/
def State.peek (s : State) (a : Nat) : Word := (kvFind s.cl.frozen a).getD (s.present a)

/-- The RWS bits of a word. -/
def rwsMask (a : Nat) : Word := match regSpec a with | some r => BitVec.ofNat 32 r.rws | none => 0

/-- The shadow value of a word: what the open clause holds, else the effective value (R72). -/
def State.shadow (s : State) (a : Nat) : Word := (kvFind s.cl.shadow a).getD (s.reg a)

/-- What a register word reads from a source: its own SYS_WINBASE (R79), and shadows where CLS_RDSHD selects them (R59). -/
def State.readBy (s : State) (src : Src) (a : Nat) : Word :=
  if a = R.SYS_WINBASE ∧ src = .spi then s.cl.winSpi
  else
    let v := s.peek a
    if s.bit R.CLS_RDSHD (if src = .spi then 1 else 0) then (v &&& ~~~(rwsMask a)) ||| (s.shadow a &&& rwsMask a) else v

/-- What a read does beside its value: ADC_DATA and ADC_INJk lose VALID and DOVR (R344), and a log entry counts as read
(R332). -/
def State.readEffect (s : State) (a : Nat) : State :=
  if a = R.ADC_DATA ∨ (R.ADC_INJ 0 ≤ a ∧ a ≤ R.ADC_INJ 3) then s.readResult a
  else if R.FLT_LOGLo 0 ≤ a ∧ a ≤ R.FLT_LOGHi 15 then
    { s with flt := { s.flt with unread := s.flt.unread.filter (· != (a - R.FLT_LOGLo 0) / 8) } }
  else s

/-- The SRAM address that a window address of a source reaches (R79). -/
def State.windowAddr (s : State) (src : Src) (a : Nat) : Nat :=
  let blk := if src = .spi then s.cl.winSpi.toNat else s.regN R.SYS_WINBASE
  blk % 32 * 0x80000 + (a - 0x80000)

/-- PERR of a page captures a refused or recorded access (R68). -/
def State.perr (s : State) (src : Src) (a type : Nat) (wr : Bool) : State :=
  let p := pageOf a
  if s.on (F.PERR_valid p) then s.put (F.PERR_more p) 1
  else
    ((((s.put (F.PERR_offset p) (a % 0x1000)).put (F.PERR_type p) type).put (F.PERR_src p)
      (if src = .spi then 2 else 1)).flag (F.PERR_wr p) wr).put (F.PERR_valid p) 1

/-- SYS_WINERR captures a refused window access (R82). -/
def State.winErr (s : State) (src : Src) (sram type : Nat) (wr : Bool) : State :=
  if s.on F.SYS_WINERR_valid then s.put F.SYS_WINERR_more 1
  else
    ((((s.put F.SYS_WINERR_addr (sram / 4)).put F.SYS_WINERR_type type).put F.SYS_WINERR_src
      (if src = .spi then 2 else 1)).flag F.SYS_WINERR_wr wr).put F.SYS_WINERR_valid 1

/-- The requester code of a window access (R184): 8 the lanes, 9 the SPI port. -/
def winReq (src : Src) : Nat := if src = .spi then 9 else 8

/-- An access of `n` bytes that fails step 1 of R61 is recorded (R61, R68, R82). -/
def State.badAccess (s : State) (src : Src) (a : Nat) (wr : Bool) : State :=
  if a < 0x1F000 then s.perr src a 1 wr
  else if 0x80000 ≤ a ∧ a < 0x100000 then s.winErr src (s.windowAddr src a) 1 wr
  else s

/-- Whether an access of `n` bytes passes step 1 of R61 (R57, R58). -/
def accessOk (a n : Nat) : Bool :=
  a % n == 0 && ((a < 0x1F000 && n == 4) || (0x80000 ≤ a && a < 0x100000 && (n == 4 || n == 8)))

/-- A read of a word of `n` bytes at a register-space address: its status (R120) and its value (R57, R58, R61, R79). -/
def State.readWord (s : State) (src : Src) (a n : Nat) : State × Nat × Nat :=
  if accessOk a n = false then (s.badAccess src a false, 1, 0)
  else if a < 0x1F000 then (s.readEffect a, 0, (s.readBy src a).toNat)
  else
    let w := s.windowAddr src a
    let bad := s.ecc2.any fun k => wordIn w n k
    let v := s.rdLe w n
    let s := s.readRange w n (winReq src)
    if bad then (s.winErr src w 9 false, 9, 0) else (s, 0, v)

end Sys2Proof.Machine
end

