-- ==== Sys2Proof/Machine/CrcSkink.lean ====
section
/-! DEFINITION. The CRC engines' contexts, Skink's jobs and the computation of the CCV (R394 to R407). Context `k` of engine `e` is
context 16 × e + k. -/

namespace Sys2Proof.Machine

/-- A write that R404 gives no effect (R404, R407). -/
def State.crcClash (s : State) : State := (s.put F.CRC_STAT_clash 1).event 29 2

/-- A word of descriptor `j` (R399). -/
def State.skDesc (s : State) (j k : Nat) : Nat := s.rdLe (0xD44000 + 16 * j + 4 * k) 4

/-- The context that words of a descriptor name (R399). -/
def descCtx (w2 : Nat) : Nat := bits w2 0 4 + 16 * bits w2 4 2

/-- The contexts that the descriptors still to come name, following `next` as they stand now (R399, R400). -/
def State.descsAhead (s : State) : Nat → Nat → List Nat
  | 0, _ => []
  | n + 1, j =>
    let w3 := s.skDesc j 3
    descCtx (s.skDesc j 2) :: (if bits w3 15 1 = 1 then [] else s.descsAhead n (bits w3 0 10))

/-- Whether a descriptor of a running or suspended job names a context: one that it has started, or one that it comes to (R404;
DEDUCED, log entry 21). -/
def State.jobNames (s : State) (c : Nat) : Bool :=
  s.get F.CRC_SKSTAT_state != 0 &&
    (s.skink.used.contains c ||
      (getBits s.skink.desc[3] 15 1 == 0 &&
        (s.descsAhead (1024 - s.skink.count) (getBits s.skink.desc[3] 0 10)).contains c))

/-- A number cut to the width of a context (R396). -/
def State.ctxMask (s : State) (c v : Nat) : Nat := v % 2 ^ s.get (F.CRC_CFG_w c)

/-- Bytes fed to a context (R394, R397). -/
def State.ctxFeed (s : State) (c : Nat) (bs : List Byte) : State :=
  s.setRegN (R.CRC_VAL c) (crcFeed (s.get (F.CRC_CFG_w c)) (s.regN (R.CRC_POLY c)) (s.on (F.CRC_CFG_refin c)) (s.regN (R.CRC_VAL c)) bs)

/-- CRC_VAL takes CRC_INIT (R396). -/
def State.ctxLoad (s : State) (c : Nat) : State := s.setReg (R.CRC_VAL c) (s.reg (R.CRC_INIT c))

/-- A write of CRC_CFG that passed its checks (R396): the width masks the other registers, then ld loads. -/
def State.crcCfg (s : State) (c : Nat) (v : Word) : State :=
  if s.jobNames c then s.crcClash
  else
    let s := s.setRegN (R.CRC_CFG c) (normWord (R.CRC_CFG c) (v &&& 0x33F).toNat)
    let s := [R.CRC_POLY c, R.CRC_INIT c, R.CRC_XOUT c, R.CRC_VAL c].foldl (fun t a => t.setRegN a (t.ctxMask c (t.regN a))) s
    if getBits v 16 1 = 1 then s.ctxLoad c else s

/-- A write of CRC_POLY, CRC_INIT, CRC_XOUT or CRC_VAL of context `c`, at address `a` (R396). -/
def State.crcParam (s : State) (c a : Nat) (v : Word) : State :=
  if s.jobNames c then s.crcClash else s.setRegN a (s.ctxMask c v.toNat)

/-- A write of CRC_DIN8 or CRC_DIN32 of context `c`: `n` bytes (R397); the CCV context takes none (R398). -/
def State.crcDin (s : State) (c n : Nat) (v : Word) : State :=
  if c = 63 then s
  else if s.jobNames c then s.crcClash
  else s.ctxFeed c (leBytes n v.toNat)

/-- A job ends with an error, or without one (R401, R405, R407). -/
def State.jobEnd (s : State) (err : Nat) : State :=
  let s := (s.put F.CRC_SKSTAT_state 0).put F.CRC_SKSTAT_err err
  if err = 0 then (s.inc F.CRC_SKCNT_ok).event 29 0 else (s.inc F.CRC_SKCNT_err).event 29 1

/-- The error of a descriptor as it is started, 0 for none (R401). Every address below 0x1_F000 is mapped, so that error 5 never
comes before error 2. -/
def descErr (w0 w1 w2 : Nat) : Nat :=
  let start := bits w0 0 24
  let len := bits w1 0 25
  if len = 0 then 1
  else if bits w0 24 1 = 0 then (if 0x1000000 < start + len then 2 else if descCtx w2 = 63 then 3 else 0)
  else if start % 4 ≠ 0 ∨ len % 4 ≠ 0 ∨ 0x1F000 < start + len then 2
  else if descCtx w2 = 63 then 3
  else 0

/-- Skink starts descriptor `j` (R399 to R401). -/
def State.descStart (s : State) (j : Nat) : State :=
  if 1024 ≤ s.skink.count then s.jobEnd 4
  else
    let w (k : Nat) : Nat := s.skDesc j k
    let c := descCtx (w 2)
    let t := (s.readRange (0xD44000 + 16 * j) 16 7).put F.CRC_SKSTAT_desc j
    let t := t.onSkink fun k =>
      { k with desc := Vector.ofFn fun i => BitVec.ofNat 32 (w i), at' := bits (w 0) 0 24, left := bits (w 1) 0 25,
               count := k.count + 1, used := addNum c k.used }
    let t := t.put F.CRC_SKPOS_addr (bits (w 0) 0 24)
    let e := descErr (w 0) (w 1) (w 2)
    if e ≠ 0 then t.jobEnd e
    else if bits (w 2) 8 1 = 1 then t.ctxLoad c else t

/-- CRC_SKCTL.go (R400, R404). -/
def State.skinkGo (s : State) (first : Nat) : State :=
  if s.get F.CRC_SKSTAT_state ≠ 0 then s.crcClash
  else
    let s := ((s.put F.CRC_SKSTAT_err 0).put F.CRC_SKSTAT_ecc 0).put F.CRC_SKSTAT_state (if s.on F.CRC_SKSTAT_ccv then 2 else 1)
    (s.onSkink fun k => { k with count := 0, used := [] }).descStart first

/-- CRC_SKCTL.abort (R401, R404). -/
def State.skinkAbort (s : State) : State := if s.get F.CRC_SKSTAT_state ≠ 0 then s.jobEnd 6 else s

/-- A range of the running descriptor has been fed: the next bytes, the next descriptor, or the end of the job (R400). -/
def State.skinkMove (s : State) (n : Nat) : State :=
  let s := s.onSkink fun k => { k with at' := k.at' + n, left := k.left - n }
  let s := s.put F.CRC_SKPOS_addr s.skink.at'
  if s.skink.left ≠ 0 then s
  else if getBits s.skink.desc[3] 15 1 = 1 then s.jobEnd 0
  else s.descStart (getBits s.skink.desc[3] 0 10)

/-- Skink feeds one word of the running descriptor (R400, R401). -/
def State.jobWord (s : State) : State :=
  let k := s.skink
  let c := descCtx k.desc[2].toNat
  if getBits k.desc[0] 24 1 = 1 then (s.ctxFeed c (leBytes 4 (s.peek k.at').toNat)).skinkMove 4
  else
    let n := min k.left (8 - k.at' % 8)
    let bs := leBytes n (s.rdLe k.at' n)
    let s := if s.ecc2.contains (k.at' / 8) then s.put F.CRC_SKSTAT_ecc 1 else s
    ((s.readRange (8 * (k.at' / 8)) 8 7).ctxFeed c bs).skinkMove n

/-- The register words of the CCV sequence (R152, R402). -/
def ccvRegs : Nat := ccvWords.length

/-- The words of a CCV sequence with `regs` register words: these, then the SRAM of ranges 2 and 3 (R402, R403). -/
def ccvLength (regs : Nat) : Nat := regs + 409600

/-- All words of the CCV sequence (R402, R403). -/
def ccvTotal : Nat := ccvLength ccvRegs

/-- The SRAM address of word `i` of the SRAM part of the sequence (R402). -/
def ccvAddr (i : Nat) : Nat := if i < 16384 then 0x8C0000 + 8 * i else 0x900000 + 8 * (i - 16384)

/-- Word `i` of the CCV sequence as bytes (R402): a register word with its RWL and RWS bits, or an SRAM word. -/
def State.ccvBytes (s : State) (i : Nat) : List Byte :=
  match ccvWords[i]? with
  | some (a, m) => leBytes 4 (s.reg a &&& BitVec.ofNat 32 m).toNat
  | none => leBytes 8 (s.rdLe (ccvAddr (i - ccvRegs)) 8)

/-- A CCV computation starts: 1 for a CONFIRM, 2 for a recheck pass (R402). A running job is suspended. -/
def State.ccvStart (s : State) (kind : Nat) : State :=
  let s := (s.setReg (R.CRC_VAL 63) 0xFFFFFFFF).put F.CRC_SKSTAT_ccv 1
  let s := if s.get F.CRC_SKSTAT_state = 1 then s.put F.CRC_SKSTAT_state 2 else s
  s.onSkink fun k => { k with ccv := kind, pos := 0 }

/-- The next `n` words of the sequence are fed (R402). -/
def State.ccvFeed (s : State) (n : Nat) : State :=
  let at0 := s.skink.pos
  let bs := (List.range n).flatMap fun i => s.ccvBytes (at0 + i)
  let s := s.setRegN (R.CRC_VAL 63) (crcFeed 32 0xF4ACFB13 false (s.regN (R.CRC_VAL 63)) bs)
  s.onSkink fun k => { k with pos := k.pos + n }

/-- The uncorrectable words that a CCV computation reads (R187, R402). -/
def State.ccvReads (s : State) (a b : Nat) : State :=
  let lo := a - ccvRegs
  let hi := b - ccvRegs
  let s := if lo < 16384 then s.readRange (0x8C0000 + 8 * lo) (8 * (min hi 16384 - lo)) 7 else s
  if 16384 < hi then s.readRange (0x900000 + 8 * (lo - 16384)) (8 * (hi - max lo 16384)) 7 else s

/-- The words of the sequence that are still to be fed are read (R187, R402): what cannot be read may end the computation (R156). -/
def State.ccvRest (s : State) : State := s.ccvReads s.skink.pos ccvTotal

/-- The computation completes: the rest of the sequence is fed, and CRC_RES of the CCV context holds the value (R398, R402,
R405, R407). -/
def State.ccvComplete (s : State) : State :=
  let n := ccvTotal - s.skink.pos
  let s := s.ccvFeed n
  let s := s.setRegN (R.CRC_RES 63) (s.crcRes 63)
  ((s.ccvOff).inc F.CRC_CCVRUN_done).event 29 3

/-- Skink reads a word and feeds it: of a CCV computation where one runs, else of the running job (R400, R402). -/
def execSkinkWord (s : State) : Host.Outcome State Fault Refusal :=
  .next (if s.skink.ccv ≠ 0 then
      if s.skink.pos < ccvTotal then
        let t := s.ccvReads s.skink.pos (s.skink.pos + 1)
        if t.skink.ccv = 0 then t else t.ccvFeed 1
      else s
    else if s.get F.CRC_SKSTAT_state = 1 then s.jobWord else s)

end Sys2Proof.Machine
end

