-- ==== Sys2Proof/Machine/Clauses.lean ====
section
/-! DEFINITION. Clauses (R72 to R77): the agreement rules (R78), the points of application (R74), what an application does in each
block (R75, R170, R175 to R177, R207, R210, R212, R225, R87, R155, R373), and the clause rows. -/

namespace Sys2Proof.Machine

/-- The state with staged register words replaced; every staged register lies on page 4 or above (R72). -/
def State.takeWords (s : State) (ws : List (Nat × Word)) : State :=
  ws.foldl (fun t e => if 0x4000 ≤ e.1 then t.setReg e.1 e.2 else t) s

/-- The first number of a list that a test finds wrong, as the failure of a rule. -/
def failAt (rule : Nat) (is : List Nat) (bad : Nat → Bool) : Option (Nat × Nat) := (is.find? bad).map fun i => (rule, i)

/-- Tiles of a chain for the agreement rules: 0 where it is disabled (R78, rule 1). -/
def State.ruleTiles (t : State) (c : Nat) : Nat := if t.on (F.CHN_CTRL_en c) then t.get (F.CHN_CTRL_tiles c) else 0

/-- The enabled TIL_MAP instances that name a position of a chain. -/
def State.naming (t : State) (c pos : Nat) : List Nat :=
  t.instances.filter fun i => t.get (F.TIL_MAP_chain i) == c && t.get (F.TIL_MAP_pos i) == pos

/-- Agreement rule 3 (R78): the failing TIL instance, or 128 + chain. Of two instances that name one position, and under rule 4 one index,
the later fails (DESIGN CHOICE, log entry 53). -/
def State.rule3 (t : State) : Option (Nat × Nat) :=
  let badInst (i : Nat) : Bool :=
    t.on (F.TIL_MAP_en i) && (t.ruleTiles (t.get (F.TIL_MAP_chain i)) ≤ t.get (F.TIL_MAP_pos i) ||
      20 ≤ t.get (F.TIL_MAP_chain i) ||
      (t.naming (t.get (F.TIL_MAP_chain i)) (t.get (F.TIL_MAP_pos i))).head? != some i)
  (failAt 3 (List.range 80) badInst).or
    ((failAt 3 (List.range 20) fun c => (List.range (t.ruleTiles c)).any fun q => (t.naming c q).isEmpty).map
      fun e => (e.1, 128 + e.2))

/-- Agreement rules 1 to 10 (R78), of the chains, the tiles, the timing and supervision. -/
def State.rulesChain (t : State) : List (Option (Nat × Nat)) :=
  let d := t.get F.PLC_PWM_div
  let hz := t.get F.VIN_RATE_max_hz
  let n := t.get F.PRF_CFG_interval
  let sum := ((List.range 20).map t.ruleTiles).sum
  [failAt 1 (List.range 20) fun c => t.on (F.CHN_CTRL_en c) && !(1 ≤ t.ruleTiles c && t.ruleTiles c ≤ 8),
   failAt 2 [0] fun _ => !(1 ≤ sum && sum ≤ 80),
   t.rule3,
   failAt 4 t.instances fun i => 79 < t.get (F.TIL_MAP_index i) ||
     t.instances.any fun j => j < i && t.get (F.TIL_MAP_index j) == t.get (F.TIL_MAP_index i),
   failAt 5 t.instances fun i => !t.on (F.SPL_CTRL_en (t.get (F.TIL_MAP_rail i))),
   failAt 6 [0] fun _ => !(25 ≤ d && d ≤ 200),
   failAt 7 [0] fun _ => !(24 ≤ hz && hz ≤ 480 && 3 * hz * d ≤ 80000),
   failAt 8 (List.range 20) fun c => 614400 * d < t.ruleTiles c * (2560000 + 204 * hz * d),
   failAt 9 [0] fun _ => !(1 ≤ t.get F.SUP_CFG_count && t.get F.SUP_CFG_count ≤ 8),
   failAt 10 [0] fun _ => !(16 ≤ n && n ≤ 1024 && n % cycleOf d == 0)]

/-- Agreement rules 11 to 18 (R78), of aspects, masks and fault reaction. -/
def State.rulesAspect (t : State) : List (Option (Nat × Nat)) :=
  let rect := fun k => getBits (t.reg (R.MSK_RECTHi k)) 18 1 == 1
  [failAt 11 (List.range 160) fun a => t.get (F.ASP_CFG_policy a) == 2 && t.get (F.ASP_CFG_class a) != 1,
   failAt 12 (List.range 160) fun a => t.get (F.ASP_CFG_class a) == 2 && t.get (F.ASP_CFG_policy a) != 0,
   failAt 13 (List.range 160) fun a => t.get (F.ASP_CFG_policy a) == 1 && t.get (F.ASP_CFG_count_n a) == 0,
   failAt 14 t.defined fun a => t.get (F.ASP_MEMB_kind a) == 0 &&
     decide (0x20000 < 8 * t.get (F.ASP_MEMB_base a) + t.get (F.ASP_MEMB_len a)),
   failAt 15 (List.range 32) fun k =>
     let lo := t.reg (R.MSK_RECTLo k)
     let hi := t.reg (R.MSK_RECTHi k)
     rect k && !(getBits lo 0 11 ≤ getBits lo 11 11 && getBits lo 22 10 ≤ getBits hi 0 10 && getBits hi 0 10 ≤ 639),
   failAt 16 (List.range 32) fun k => rect k && !t.defined.contains (getBits (t.reg (R.MSK_RECTHi k)) 10 8),
   failAt 17 (List.range 64) fun k => t.get (F.FLT_RCT_action k) < (clsInfo k).floor,
   failAt 18 (List.range 64) fun k => t.get (F.FLT_RCT_action k) == 2 && (t.groupAspects (t.get (F.FLT_RCT_group k))).isEmpty]

/-- Agreement rules 19 to 22 (R78), of the safety I/O, the balance engine and the pair. -/
def State.rulesIo (t : State) : List (Option (Nat × Nat)) :=
  [failAt 19 (List.range 8) fun k => t.on (F.SIO_INCFG_en k) &&
     (!(1 ≤ t.get (F.SIO_INCFG_disc k) && t.get (F.SIO_INCFG_disc k) ≤ 10000) ||
       (t.on (F.SIO_INCFG_tested k) && t.get (F.SIO_INCFG_sa k) == t.get (F.SIO_INCFG_sb k))),
   failAt 20 (List.range 8) fun k => t.on (F.SIO_OCFG_test k) &&
     !(1 ≤ t.get (F.SIO_OCFG_width k) && t.get (F.SIO_OCFG_width k) ≤ 8),
   failAt 21 [0] fun _ => t.on F.BAL_CTRL_en && !t.on F.ADC_CFG_ilv,
   failAt 22 [2, 3] fun l => t.on F.AXO_CFG_pair && t.get (F.LNK_ROLE_role l) != 2]

/-- Agreement rule 0 (R71, R78): the lowest locked page on which a word differs. -/
def State.rule0 (s : State) (ws : List (Nat × Word)) : Option (Nat × Nat) :=
  failAt 0 (List.range 31) fun p => s.locked p && ws.any fun e => pageOf e.1 == p && (e.2 ^^^ s.reg e.1) &&& rwsMask e.1 != 0

/-- The first agreement rule that fails with register words replaced, and its instance (R78). -/
def State.agree (s : State) (ws : List (Nat × Word)) : Option (Nat × Nat) :=
  let t := s.takeWords ws
  (s.rule0 ws :: (t.rulesChain ++ t.rulesAspect ++ t.rulesIo)).findSome? id

/-- The words that an application of the explicit clause gives its registers (R72). -/
def State.clauseWords (s : State) : List (Nat × Word) :=
  s.cl.shadow.map fun (e : Nat × Word) => (e.1, (s.reg e.1 &&& ~~~(rwsMask e.1)) ||| (e.2 &&& rwsMask e.1))

/-- Whether a new value of a word changes the safety parameter set (R152, R155). -/
def State.changesSet (s : State) (a : Nat) (v : Word) : Bool :=
  lockable (pageOf a) && match regSpec a with
    | some r => (v ^^^ s.reg a) &&& BitVec.ofNat 32 (r.rwl ||| r.rws) != 0
    | none => false

/-- The point of application that a time choice and a target period give now, and whether it is late (R74). -/
def State.pointOf (s : State) (choice target : Nat) : Due × Bool :=
  match choice with
  | 0 => (.now, false)
  | 2 => (if s.lightMode then .frameLatch else .period s.nextStart, false)
  | 3 =>
    let d := (target + 2 ^ 32 - s.pnow) % 2 ^ 32
    if 1 ≤ d ∧ d < 2 ^ 31 ∧ 800 ≤ s.until target then (.period target, false) else (.period s.nextStart, true)
  | _ => (.period s.nextStart, false)

/-- Whether a point of application has come (R74). A clause that waits for a frame LATCH is applied in CONFIGURE, where none is
issued. -/
def State.dueNow (s : State) : Due → Bool
  | .now => true
  | .period p => perReached p s.pnow
  | .frameLatch => s.mode == .configure

/-- A new D governs from the present period start (R225, R233, R243, R244, R359). -/
def State.setD (s : State) (d : Nat) : State :=
  if d = s.dNow then s else ((((s.showTiming d s.pnow).initOffsets).event 14 3).balStart)

/-- A mask generation applies (R175 to R178, R180), with others of the same period start where `start` says that it applies there: its
urgent rows are queued, and rows already sent of a frame with the layers that waits for its LATCH are sent again; without urgent rows, its own or others, it is in force from the next period. -/
def State.maskApply (s : State) (old : List Word) (start : Bool) : State :=
  let join := start && s.vid.maskStart && s.vid.maskGen == some s.pnow
  let gen := s.get F.MSK_GEN_applied
  let latched := s.light.maskDue.any fun e => e.2.2.1 == gen
  let s := if join then { s with light := { s.light with maskDue := s.light.maskDue.filter fun e => e.2.2.1 != gen } }
    else s.incWrap F.MSK_GEN_applied
  let s := if s.vid.maskGen.isSome && !join && !latched then (s.inc F.MSK_CNT_folded).event 12 2 else s
  let s := s.onVid fun v => { v with maskGen := some s.pnow, maskStart := start }
  let shows (slot : Nat) : Bool := (s.driving || s.mode == .mirror) && (s.snapOf slot).kind == .layers
  let rows := if !s.fbMode && shows s.slotNow then maskRows s.tileList old s.maskWords else []
  let s := s.queueUrgent rows
  let s := if shows s.frameSlot then s.resendFrame (maskRows (s.tilesIn false) old s.maskWords) else s
  if rows ≠ [] ∨ s.fbMode ∨ s.maskBusy ∨ (List.range 20).any (fun c => !(s.chain c).bankU.isEmpty) then s
  else { s with light := { s.light with maskDue :=
    s.light.maskDue ++ [(perAdd s.pnow 1, s.pnow, s.get F.MSK_GEN_applied, s.maskWords)] } }

/-- The fade of an aspect after its context changed at an application (R199, R207, R208, R210, R212): at a period start that is an evaluation
point it is evaluated there. -/
def State.ctxFade (s : State) (old : State) (a : Nat) (start : Bool) : State :=
  let was := old.on (F.ASP_CFG_def a)
  let is := s.on (F.ASP_CFG_def a)
  let s := if old.get (F.ASP_FADE_fgrp a) ≠ s.get (F.ASP_FADE_fgrp a) then s.dropGroup a else s
  if !is then
    (((s.dropGroup a).onFade a fun _ => {}).put (F.ASP_FST_f a) 0).put (F.ASP_FST_fading a) 0
  else
    let s := if !was then (s.onFade a fun _ => {}).beginFade a s.pnow 0 (s.target a) (0, 0, 0)
      else if old.reg (R.ASP_CTL a) = s.reg (R.ASP_CTL a) then s
      else (s.dropWaits a).startFade a s.pnow (s.target a)
    if start then s.refadeNow a else s

/-- What an application does for an aspect whose context changed (R170). -/
def State.ctxChanged (s : State) (old : State) (a : Nat) (start : Bool) : State :=
  let same (r : Nat) : Bool := old.reg r == s.reg r
  if same (R.ASP_CFG a) && same (R.ASP_MEMB a) && same (R.ASP_CTL a) && same (R.ASP_POS a) then
    if same (R.ASP_FADE a) then s else s.ctxFade old a start
  else
    let s := (s.ctxFade old a start).markRows (old.aspectRows a)
    s.markRows (s.aspectRows a)

/-- What an application does for a symbol whose descriptor changed (R170, R183). -/
def State.symChanged (s : State) (old : State) (k : Nat) : State :=
  if old.symDesc k = s.symDesc k then s
  else (s.defined.filter fun a => s.on (F.ASP_MEMB_kind a) && s.get (F.ASP_MEMB_sym a) == k).foldl
    (fun t a => (t.markRows (old.extentRows a)).markRows (t.extentRows a)) s

/-- A lane whose role, dir or bond changed trains again (R87). -/
def State.roleChanged (s : State) (old : State) (l : Nat) : State :=
  if old.laneRole l = s.laneRole l ∧ old.bonded l = s.bonded l ∧
      old.get (F.LNK_ROLE_dir (old.roleLane l)) = s.get (F.LNK_ROLE_dir (s.roleLane l)) then s
  else s.reconfigLane l

/-- What follows an application that changed or held the words `ws` (R75). `start` says whether it stands at a period start. -/
def State.applied (s : State) (old : State) (ws : List (Nat × Word)) (start : Bool) : State :=
  let changed := ws.filter fun e => old.reg e.1 != s.reg e.1
  let on (p : Nat) : Bool := changed.any fun e => pageOf e.1 == p
  let s := if on 11 || on 13 then s.markAll else s
  let s := (List.range 160).foldl (fun t a => t.ctxChanged old a start) s
  let s := (List.range 256).foldl (fun t k => t.symChanged old k) s
  let s := if s.maskWords = old.maskWords then s else s.maskApply old.maskWords start
  let s := if (on 10 || on 14 || on 19) && !s.light.fb then
      (if start then s.setD (s.get F.PLC_PWM_div) else s).showTiming
        (if start then s.get F.PLC_PWM_div else s.dNow) s.pnow else s
  let s := (List.range 4).foldl (fun t l => t.roleChanged old l) s
  let s := if ws.any fun e => pageOf e.1 == 28 then { s.put F.SIO_STAT_cfg 1 with sio := { s.sio with fresh := some s.now } } else s
  let s := if on 24 then s.adcShow else s
  let s := if changed.any fun e => old.changesSet e.1 (s.reg e.1) then s.loseCfg else s
  s.updateOff.sioDrive

/-- Register words take their new values in one step (R74). -/
def State.applyWords (s : State) (ws : List (Nat × Word)) (start : Bool) : State := (s.takeWords ws).applied s ws start

/-- The explicit clause fails a check and stays open (R73, R84, R85). -/
def State.clauseFail (s : State) (e : Nat × Nat) (phase : Nat) : State :=
  let s := ((s.put F.CLS_FAIL_rule e.1).put F.CLS_FAIL_inst e.2).put F.CLS_FAIL_phase phase
  let s := ((((s.put F.CLS_STAT_fail 1).inc F.CLS_COUNT_failed).event 3 1).put F.CLS_STAT_state 1).put F.CLS_STAT_when 0
  { s with cl := { s.cl with due := none } }

/-- The explicit clause is applied where its re-check holds (R73, R74, R83, R85). -/
def State.applyClause (s : State) (start : Bool) : State :=
  match s.agree s.clauseWords with
  | some e => s.clauseFail e 2
  | none =>
    let ws := s.clauseWords
    let s := ((s.setRegN R.CLS_APPLY s.pnow).inc F.CLS_COUNT_applied).event 3 0
    let s := (((s.put F.CLS_STAT_state 0).put F.CLS_STAT_owner 0).put F.CLS_STAT_when 0).put F.CLS_STAT_regs 0
    { s with cl := { s.cl with shadow := [], due := none } }.applyWords ws start

/-- The check of a commit ends (R73, R74, R85). -/
def execClauseCheckDone (s : State) : Host.Outcome State Fault Refusal :=
  .next (if s.get F.CLS_STAT_state = 2 then
    match s.agree s.clauseWords with
    | some e => s.clauseFail e 1
    | none =>
      let s := s.put F.CLS_STAT_state 3
      let (due, late) := s.pointOf (s.get F.CLS_STAT_when) (s.regN R.CLS_PTGT)
      let s := { s with cl := { s.cl with due := some due } }
      if due = .now ∧ s.mode ≠ .mirror then s.applyClause false
      else if late then (s.put F.CLS_STAT_late 1).event 3 2 else s
  else s)

/-- The armed clause falls due (R74, R77). PERIOD_START applies what falls due at its start, so that its values govern that whole period
(R75; DESIGN CHOICE, log entry 64); this row applies a clause that is still due. In MIRROR the partner's DIGEST applies it (R417). -/
def execClauseApply (s : State) : Host.Outcome State Fault Refusal :=
  .next (match s.cl.due with
    | some d => if s.get F.CLS_STAT_state = 3 ∧ s.dueNow d ∧ s.mode ≠ .mirror then s.applyClause true else s
    | none => s)

/-- A CLS_ABORT write of 1 (R77, R84): from the owner, or from the SPI port. -/
def State.abortWrite (s : State) (src : Src) : State :=
  if src = .spi ∨ s.get F.CLS_STAT_owner = 1 then s.abortClause false else s

/-- No lane has been ACTIVE for 10 ms: a lane-host clause is aborted (R77, R106). -/
def execClauseLaneLossAbort (s : State) : Host.Outcome State Fault Refusal :=
  .next (if s.get F.CLS_STAT_owner = 1 ∧ (List.range 4).all (fun l => !s.active l) then s.abortClause true else s)

/-- An implicit clause fails (R76, R84, R85). -/
def State.implicitFail (s : State) (kind : Nat) (e : Nat × Nat) : State :=
  ((((s.put F.CLS_ISTAT_rule e.1).put F.CLS_ISTAT_inst e.2).put F.CLS_ISTAT_kind kind).inc F.CLS_ISTAT_count).event 3 3

/-- Whether an aspect update changes the enable of an aspect whose class in force has regulatory weight (R131). -/
def State.enableBarred (s : State) (ws : List (Nat × Word)) : Bool :=
  (List.range 160).any fun a => s.regulatory a &&
    match ws.find? fun e => e.1 == R.ASP_CTL a with
    | some e => getBits e.2 0 1 != s.get (F.ASP_CTL_en a)
    | none => false

/-- An implicit clause is applied or discarded at its point of application (R76, R131). -/
def State.applyImplicit (s : State) (c : ImpClause) : State :=
  match s.agree c.words with
  | some e => s.implicitFail c.kind e
  | none =>
    if c.kind = 3 ∧ s.enableBarred c.words then s.draw.implicitFail 3 (0xFF, (Config.istatInst s.draws).toNat)
    else s.applyWords c.words true

/-- An implicit clause leaves the queue and is applied (R76), after the group changes of its aspects that arrived before it (R207). -/
def State.takeImplicit (s : State) (c : ImpClause) : State :=
  let s := { s with cl := { s.cl with implicit := s.cl.implicit.erase c } }
  let s := (List.range 160).foldl (fun t a => if c.words.any fun e => e.1 == R.ASP_CTL a then t.groupBefore c.nth a else t) s
  s.applyImplicit c

/-- An update packet's clause is checked as it arrives, and waits for its point of application (R76, R129): a completion status. In MIRROR
one that a DIGEST has named before is applied now (R418). -/
def State.submitImplicit (s : State) (kind : Nat) (ws : List (Nat × Word)) (choice target tag : Nat) : State × Nat :=
  if s.spd.conf ∧ ws.any (fun e => s.changesSet e.1 e.2) then (s, 8)
  else match s.agree ws with
  | some e => (s.implicitFail kind e, 0xA)
  | none =>
    let (due, late) := s.pointOf choice target
    let s := (s.eventIf late 3 2).arrive
    let c : ImpClause := { kind := kind, words := ws, due := due, tag := tag, nth := s.cl.arrived }
    let s := { s with cl := { s.cl with implicit := s.cl.implicit ++ [c] } }
    match s.pair.lost.find? fun e => s.mode == .mirror && e.1 == tag with
    | some e => (({ s with pair := { s.pair with lost := s.pair.lost.erase e } }).takeImplicit c, 0)
    | none => (s, 0)

/-- Whether an armed explicit clause is due: it is applied before every implicit one (R77). -/
def State.explicitDue (s : State) : Bool := s.get F.CLS_STAT_state == 3 && (s.cl.due.map s.dueNow).getD false

/-- The first implicit clause in arrival order whose point of application has come is applied, once no explicit clause is due (R76, R77). PERIOD_START applies
what falls due at its start (R75; DESIGN CHOICE, log entry 64); this row takes one that is still due. In MIRROR the partner's DIGEST applies
it (R417). -/
def execImplicitClauseApply (s : State) : Host.Outcome State Fault Refusal :=
  .next (match s.cl.implicit.find? fun c => s.dueNow c.due with
    | some c => if s.mode = .mirror ∨ s.explicitDue then s else s.takeImplicit c
    | none => s)

end Sys2Proof.Machine
end

