-- ==== Sys2Proof/Machine/Access.lean ====
section
/-! DEFINITION. The write path (R59 to R72, R456): the checks in their order, what each register does beside holding its value, the
page header, the staged registers, the SRAM window (R79, R80, R82), and the rows that are one register write. -/

namespace Sys2Proof.Machine

/-- The bits of a word that a write concerns, by access type (R59, R456). -/
structure Touch where
  rw  : Word
  rwl : Word
  rws : Word
  wo  : Word
  w1c : Word
deriving DecidableEq, Repr

/-- Whether a write concerns no field. -/
def Touch.none (t : Touch) : Bool := t.rw ||| t.rwl ||| t.rws ||| t.wo ||| t.w1c == 0

/-- Whether a word holds named fields of more than one access type (R456). -/
def RegSpec.mixed (r : RegSpec) : Bool :=
  1 < ([r.rw, r.rwl, r.rws, r.wo, r.w1c, r.ro].filter fun m => m != 0).length

/-- What a register holds for a source: its own copy of SYS_WINBASE (R79). -/
def State.held (s : State) (src : Src) (a : Nat) : Word := if a = R.SYS_WINBASE ∧ src = .spi then s.cl.winSpi else s.reg a

/-- The fields that a write changes (R456); in a word of one access type, every field. -/
def State.touch (s : State) (src : Src) (r : RegSpec) (a : Nat) (v : Word) : Touch :=
  let m (k : Nat) : Word := BitVec.ofNat 32 k
  if r.mixed then
    { rw := (v ^^^ s.held src a) &&& m r.rw, rwl := (v ^^^ s.reg a) &&& m r.rwl, rws := (v ^^^ s.shadow a) &&& m r.rws,
      wo := v &&& m r.wo, w1c := v &&& m r.w1c }
  else { rw := m r.rw, rwl := m r.rwl, rws := m r.rws, wo := m r.wo, w1c := m r.w1c }

/-- The context of the CRC page that an address lies in, and its offset there (R405). -/
def crcSlot (a : Nat) : Option (Nat × Nat) :=
  if pageOf a = 29 ∧ 0x400 ≤ a % 0x1000 ∧ a % 0x1000 < 0xC00 then some ((a % 0x1000 - 0x400) / 32, a % 32) else none

/-- Whether every field of a word is RO (R61, step 3); of the CCV context only the data inputs are not (R398). -/
def readOnly (r : RegSpec) (a : Nat) : Bool :=
  (r.rw ||| r.rwl ||| r.rws ||| r.wo ||| r.w1c) == 0 ||
    (match crcSlot a with | some (c, k) => c == 63 && k < 0x18 | none => false)

/-- The aspect whose ASP_CTL lies at an address (R219). -/
def aspCtlAt (a : Nat) : Option Nat := (List.range 160).find? fun k => R.ASP_CTL k == a

/-- The TIL instance whose TIL_RACC lies at an address (R278). -/
def raccAt (a : Nat) : Option Nat := (List.range 80).find? fun i => R.TIL_RACC i == a

/-- Whether the present mode refuses a write (R61, step 4; R37, R89, R242, R275, R278, R426). -/
def State.modeBars (s : State) (a : Nat) (v : Word) (t : Touch) : Bool :=
  let p := pageOf a
  let o := a % 0x1000
  (s.mode == .hold && !holdWritable p && o != 0x14 && o != 0x18 && o != 0x1C) ||
    (s.mode != .configure && t.rws != 0 && (a == R.PLC_PWM || ((p == 20 || p == 21) && 0x400 ≤ o && o % 64 == 0) ||
      ((p == 22 || p == 23) && 0x400 ≤ o && o % 32 == 0))) ||
    (s.mode != .configure && s.mode != .hold && a == R.LNK_RATE 0 && t.rw != 0) ||
    (a == R.AXO_CTRL && v.getLsbD 0 && !s.axoReady)

/-- Whether a source may not write a register (R61, step 5; R29, R39, R43, R200, R426). -/
def State.sourceBars (s : State) (src : Src) (a : Nat) (v : Word) : Bool :=
  (src == .lane && (a == R.SYS_MODEREQ || a == R.SYS_RESET || a == R.SYS_ACK || (a == R.AXO_CTRL && v.getLsbD 0))) ||
    (src != .pdu &&
      ((match aspCtlAt a with
        | some k => s.regulatory k && v.getLsbD 0 != s.on (F.ASP_CTL_en k)
        | none => false) ||
       (a == R.ASP_FGRP && getBits v 0 4 != 0 && (s.members (getBits v 0 4)).any fun k =>
          s.regulatory k && v.getLsbD 4 != s.on (F.ASP_CTL_en k))))

/-- Whether a source owns a page (R69). -/
def State.owns (s : State) (src : Src) (p : Nat) : Bool :=
  s.bit (if p < 16 then R.SYS_OWN0 else R.SYS_OWN1) (2 * (p % 16) + (if src = .spi then 1 else 0))

/-- The number by which a clause names its owner (R84). -/
def ownerOfSrc (src : Src) : Nat := if src = .spi then 2 else 1

/-- Whether the explicit clause refuses a staged write or a CLS_PTGT write (R61, step 8; R72). -/
def State.clauseBars (s : State) (src : Src) : Bool :=
  s.get F.CLS_STAT_state != 0 && (s.get F.CLS_STAT_owner != ownerOfSrc src || 2 ≤ s.get F.CLS_STAT_state)

/-- Whether a CLS_COMMIT write is refused (R84). -/
def State.commitBars (s : State) (src : Src) (v : Word) : Bool :=
  getBits v 16 16 != 0xC1A5 || s.get F.CLS_STAT_state != 1 || s.get F.CLS_STAT_owner != ownerOfSrc src

/-- SPD_RXID holds the identity of a valid commissioned block and ignores writes (R157). -/
def State.rxidFixed (s : State) : Bool := s.get F.SPD_OTPSTAT_com == 1 && blkLe s.comBlock 8 4 != 0

/-- The status of a write at steps 4 to 8 of R61, 0 where every check holds (R120). -/
def State.writeCheck (s : State) (src : Src) (a : Nat) (v : Word) (t : Touch) : Nat :=
  let p := pageOf a
  let confBars := s.spd.conf && (t.rwl ||| t.rws) != 0 && s.changesSet a
    (BitVec.ofNat 32 (normWord a ((s.reg a &&& ~~~(t.rwl ||| t.rws)) ||| (v &&& (t.rwl ||| t.rws))).toNat)) &&
    !(a == R.SPD_RXID && s.rxidFixed)
  let tileBars := match raccAt a with | some _ => v.getLsbD 17 && v.getLsbD 16 | none => false
  if s.modeBars a v t then 4
  else if s.sourceBars src a v then 5
  else if s.owns src p = false then 6
  else if s.locked p && ((t.rwl ||| t.rws) != 0 || tileBars) then 7
  else if ((t.rws != 0 || a == R.CLS_PTGT) && s.clauseBars src) || confBars || (a == R.CLS_COMMIT && s.commitBars src v) then 8
  else 0

/-- A staged write joins the explicit clause, which it opens where none is open (R72, R73, R84). -/
def State.stage (s : State) (src : Src) (a : Nat) (v m : Word) : State :=
  let s := if s.get F.CLS_STAT_state = 0 then
    ((s.put F.CLS_STAT_state 1).put F.CLS_STAT_owner (ownerOfSrc src)).put F.CLS_STAT_sysabort 0 else s
  let w := normWord a ((s.shadow a &&& ~~~m) ||| (v &&& m)).toNat
  let s := { s with cl := { s.cl with shadow := kvPut s.cl.shadow a (BitVec.ofNat 32 w) } }
  s.put F.CLS_STAT_regs s.cl.shadow.length

/-- A refused mode request (R26). -/
def State.refuseMode (s : State) : State := s.inc F.SYS_STAT_refused

/-- SYS_MODEREQ (R26, R28, R29). Only a request that gets here counts as refused; one that its source bars is a refused write
(DESIGN CHOICE, log entry 49). -/
def State.modeReq (s : State) (src : Src) (tgt : Nat) : State :=
  let detail := if src = .spi then 1 else 2
  if s.darkRel ∨ s.pair.tkP.isSome then s.refuseMode
  else match tgt, s.mode with
  | 1, .operate => s.startDark (.hold detail)
  | 1, .fallback => s.startDark (.hold detail)
  | 1, .configure => s.enterHold 7 detail
  | 1, .mirror => s.enterHold 7 detail
  | 2, .operate => s.startDark .configure
  | 2, .fallback => s.startDark .configure
  | 2, .mirror => s.enterConfigure
  | _, _ => s.refuseMode

/-- SYS_RESET (R28, R39): in OPERATE and FALLBACK a dark release comes first. -/
def State.softReset (s : State) (v : Word) : State :=
  if v ≠ 0xC0DE then s
  else if s.driving then
    if s.darkRel then { s with boot := { s.boot with dark := some .reset } } else s.startDark .reset
  else s.withdraw.doReset 3

/-- A lane leaves ACTIVE for a retraining (R96, R109). -/
def State.lnkRetrain (s : State) (l : Nat) : State := s.leaveActive l 4

/-- LNK_CTRL.restart (R95, R109): fails cleared; from DOWN or from an EXIT wait, DETECT at once. -/
def State.lnkRestart (s : State) (l : Nat) : State :=
  let s := s.put (F.LNK_STAT_fails l) 0
  if s.laneState l = 5 then (s.onLane l fun ln => { ln with fresh := true }).toDetect l
  else if s.laneState l = 7 ∧ s.link.change < 2 then s.toDetect l else s

/-- LNK_CTRL (R109). -/
def State.lnkCtrl (s : State) (l : Nat) (v : Word) : State :=
  let s := if v.getLsbD 4 then s.zeroRegs [R.LNK_ERRCNT l, R.LNK_EBCNT l, R.LNK_TRCNT l, R.LNK_FWDDROP l] else s
  let s := if v.getLsbD 0 then s.lnkRetrain l else s
  let s := if v.getLsbD 1 then s.lnkRestart l else s
  let s := if v.getLsbD 2 then s.readapt l else s
  if v.getLsbD 3 then s.eyeAbort l else s

/-- CHN_GCTRL.clrcnt (R275). The highest values that a register keeps are no counters. -/
def State.chnClear (s : State) : State :=
  (List.range 20).foldl (fun t c => t.zeroRegs [R.CHN_ERR c, R.CHN_RETX c, R.CHN_SENSE c]) s

/-- FLT_CTRL.logclr: the log is empty (R329, R332). -/
def State.logClear (s : State) : State :=
  let s := (List.range 16).foldl (fun t k => t.zeroRegs [R.FLT_LOGLo k, R.FLT_LOGHi k]) s
  { s.setReg R.FLT_LOGPTR 0 with flt := { s.flt with unread := [] } }

/-- The Axolotl unit changes beside its page. -/
def State.onPair (s : State) (f : Pair → Pair) : State := { s with pair := f s.pair }

/-- AXO_STAT.aligned clears (R417, R418, R420, R437): the standby's part of a restatement is over. -/
def State.loseAligned (s : State) : State :=
  (((s.eventIf (s.on F.AXO_STAT_aligned) 30 5).put F.AXO_STAT_aligned 0).put F.AXO_STAT_restating 0).onPair fun a =>
    { a with joined := false, nextAt := none, ctx := [] }

/-- A write of AXO_CTRL (R420, R426, R435). -/
def State.axoCtrl (s : State) (v : Word) : State :=
  let s := if v.getLsbD 0 then { s with pair := { s.pair with tkReq := some s.now } } else s
  let s := if v.getLsbD 1 && s.mode == .mirror then s.loseAligned else s
  if v.getLsbD 2 then
    (((s.zeroRegs [R.AXO_DIV, R.AXO_DIVCAP, R.AXO_CNT]).put ⟨R.AXO_TKCNT, 0, 16⟩ 0).put ⟨R.AXO_PSYNC, 16, 16⟩ 0).put F.AXO_HB_missed 0
  else s

/-- A timed write is noted by its name (R414, R418): an active device names it for period `p`; a standby holds its effect, or applies it
for the period of a DIGEST that named it before. -/
def State.timed (s : State) (h : Held) (apply : State → Nat → State) : State :=
  let s := s.arrive
  let h := { h with name := s.pair.name, per := s.nextStart, nth := s.cl.arrived }
  if s.mode = .mirror ∧ s.pair.name ≠ 0 then
    match s.pair.lost.find? fun e => e.1 == h.name with
    | some e => apply { s with pair := { s.pair with lost := s.pair.lost.erase e } } e.2
    | none => { s with pair := { s.pair with held := s.pair.held ++ [h] } }
  else
    let s := apply s s.nextStart
    if s.pair.name ≠ 0 then { s with pair := { s.pair with names := s.pair.names ++ [(h.name, h.per)] } } else s

/-- What a write does through the WO fields of a word. PIRQ_SET sets every bit of PIRQ_RAW, those of no listed event too (R65; DESIGN CHOICE,
log entry 56). PKT_CTRL.clrcnt leaves PKT_VSTAT.held as it is (R138; DESIGN CHOICE, log entry 73). -/
def State.command (s : State) (src : Src) (a : Nat) (v : Word) : State :=
  let p := pageOf a
  let o := a % 0x1000
  let clr := v.getLsbD 0
  if o = 0x01C then s.setReg (R.PIRQ_RAW p) (s.reg (R.PIRQ_RAW p) ||| v)
  else if o = 0x020 then (if v = 0x1A7C ∧ lockable p then s.put (F.PLOCK_locked p) 1 else s)
  else if a = R.SYS_MODEREQ then s.modeReq src (getBits v 0 4)
  else if a = R.SYS_RESET then s.softReset v
  else if a = R.SYS_ACK then s.ackKey src v
  else if a = R.CLS_COMMIT then
    ((((s.put F.CLS_STAT_state 2).put F.CLS_STAT_when (getBits v 0 2)).put F.CLS_STAT_late 0).put F.CLS_STAT_fail 0)
  else if a = R.CLS_ABORT then (if clr then s.abortWrite src else s)
  else if 4 ≤ p ∧ p ≤ 7 then s.lnkCtrl (p - 4) v
  else if a = R.PKT_CTRL then
    (if clr then (s.zeroRegs [R.PKT_DISC, R.PKT_MALF, R.PKT_OVR, R.PKT_VCNT, R.PKT_SPICNT]) else s)
  else if a = R.SPD_CTRL then
    let s := if clr then ((s.zeroRegs [R.SPD_DISC, R.SPD_LOST]).put F.SPD_CCVSTAT_count 0).put F.SPD_RXSTAT_miss 0 else s
    if v.getLsbD 1 then s.put F.SPD_RXSTAT_synced 0 else s
  else if a = R.VIN_CTRL then (if clr then s.zeroRegs [R.VIN_CNT, R.VIN_MISS] else s)
  else if a = R.CMP_CTRL then
    let s := if clr then (s.zeroRegs [R.CMP_PASS, R.CMP_SCRPASS, R.CMP_ECCCNT 0, R.CMP_ECCCNT 1, R.CMP_ECCCNT 2, R.CMP_ECCCNT 3,
      R.CMP_UECNT]).put ⟨R.CMP_WAIT, 16, 16⟩ 0 else s
    if v.getLsbD 1 then s.zeroRegs [R.CMP_ECCCAP, R.CMP_ECCSYN] else s
  else if a = R.MSK_CTRL then (if clr then s.zeroRegs [R.MSK_CNT, R.MSK_LATE] else s)
  else if a = R.CAL_CTRL then (if clr then s.setReg R.CAL_TCHG 0 else s)
  else if a = R.PLC_CTRL then (if clr then s.zeroRegs [R.PLC_CNT, R.PLC_WRAP] else s)
  else if a = R.SUP_CTRL then (if clr then s.zeroRegs [R.SUP_CONF, R.SUP_SKIP] else s)
  else if a = R.ASP_FGRP ∧ getBits v 0 4 = 0 then s
  else if a = R.ASP_FGRP then
    let mem := s.groupDelays v
    s.timed { name := 0, per := 0, grp := true, val := v.toNat, pdu := src == .pdu, mem := mem } fun t p =>
      t.fadeGroup (v.getLsbD 4) (src == .pdu) t.cl.arrived p mem
  else if a = R.FLT_CTRL then
    let s := if clr then (s.setReg R.FLT_CNT 0).put F.FLT_LOGPTR_written 0 else s
    if v.getLsbD 1 then s.logClear else s
  else if a = R.PRF_CTRL then (if clr then (s.zeroRegs [R.PRF_CNT, R.PRF_REPL]).put F.PRF_LOW_frames 0 else s)
  else if a = R.CHN_GCTRL then (if clr then s.chnClear else s)
  else if a = R.ADC_CTRL then s.adcCtrl v
  else if a = R.WIN_CTRL then (if clr then (List.range 16).foldl (fun t k => t.put (F.WIN_LAST_exits k) 0) s else s)
  else if a = R.BAL_CMD then (if clr then s.setReg R.BAL_CNT 0 else s)
  else if a = R.SPL_CMD then (if clr then s.setReg R.SPL_CNT 0 else s)
  else if a = R.SIO_CTRL then (if clr then s.zeroRegs [R.SIO_CNT, R.SIO_TCNT] else s)
  else if a = R.CRC_SKCTL then
    let s := if v.getLsbD 17 then s.skinkAbort else s
    if v.getLsbD 16 then s.skinkGo (getBits v 0 10) else s
  else if a = R.CRC_CTRL then (if clr then s.zeroRegs [R.CRC_SKCNT, R.CRC_CCVRUN, R.CRC_STAT] else s)
  else if a = R.AXO_CTRL then s.axoCtrl v
  else match raccAt a with
    | some i => if v.getLsbD 17 then s.tileGo i else s
    | none => s

/-- A write of ASP_CTL or ASP_POS (R170, R207): of ASP_CTL, a pending group change of the aspect is cancelled where the source may
change its enable (R200, R212). -/
def State.aspWrite (s : State) (old : State) (src : Src) (a : Nat) (ctl : Bool) : State :=
  let s := s.markRows (old.aspectRows a)
  let s := s.markRows (s.aspectRows a)
  if ctl then
    let s := if s.regulatory a && src != .pdu then s else s.dropGroup a
    let tgt := s.target a
    if tgt = old.target a ∨ s.on (F.ASP_CFG_def a) = false then s
    else s.timed { name := 0, per := 0, grp := false, arg := a, val := tgt } fun t p => t.retarget a p tgt
  else s

/-- LNK_RATE.rate was written (R89): a change of rate starts later, also where the PLL still relocks for one before. The rate in
use, written before the change starts, cancels it (DESIGN CHOICE, log entry 69). -/
def State.rateWritten (s : State) : State :=
  let same := s.get (F.LNK_RATE_rate 0) == s.link.rate
  match s.link.change with
  | 0 => if same then s else { s.put (F.LNK_RATE_busy 0) 1 with link := { s.link with change := 1 } }
  | 1 => if same then { s.put (F.LNK_RATE_busy 0) 0 with link := { s.link with change := 0 } } else s
  | _ => { s with link := { s.link with change := if same then 2 else 3 } }

/-- A word of the BAL page changed: BAL_CFG starts every rail's sums afresh, BAL_SENSEg and BAL_THRg those of the rail (R359). -/
def State.balWritten (s : State) (a : Nat) : State :=
  if a = R.BAL_CFG then s.balStart
  else s.balRestart ((List.range 4).filter fun g => a == R.BAL_SENSE g || a == R.BAL_THR g)

/-- What a write does beside the RW and RWL fields that it changed; `old` is the state before it. -/
def State.afterWrite (s : State) (old : State) (src : Src) (a : Nat) (v : Word) : State :=
  let p := pageOf a
  let o := a % 0x1000
  if 4 ≤ p ∧ p ≤ 7 then
    let l := p - 4
    if o = 0x48 then s.showFrozen l
    else if o = 0x70 then s.eyeStart l (s.get (F.LNK_EYECTL_op l)) (old.on (F.LNK_EYESTAT_busy l))
    else if a = R.LNK_RATE 0 then (s.put (F.LNK_RATE_reverted 0) 0).rateWritten
    else s
  else if a = R.VIN_CFG then (if s.get F.VIN_CFG_swap = 0 then s.swapSealed else s)
  else if (p = 16 ∨ p = 17) ∧ 0x400 ≤ o then s.aspWrite old src (80 * (p - 16) + (o - 0x400) / 32) (o % 32 == 0x10)
  else if p = 24 ∧ 0xC0 ≤ o ∧ o < 0xE0 then
    (if s.reg a = old.reg a then s
     else s.onAdc fun d => { d with armed := if h : (o - 0xC0) / 4 < 8 then d.armed.set ((o - 0xC0) / 4) 0 else d.armed })
  else if a = R.ADC_RCFG then s.regRun.adcShow
  else if p = 24 then s.adcShow
  else if p = 25 ∧ 0x80 ≤ o ∧ o < 0x100 ∧ o % 8 = 0 then
    (if v.getLsbD 0 then s else (s.setBit R.WIN_STAT ((o - 0x80) / 8) false).setCond 29 ((o - 0x80) / 8) false)
  else if p = 26 then (if s.reg a = old.reg a then s else s.balWritten a)
  else if p = 28 then s.sioDrive
  else if p = 18 then s.sioDrive
  else s

/-- The fields of a checked write take effect, each by its type (R59, R456). -/
def State.writeFields (s : State) (src : Src) (r : RegSpec) (a : Nat) (v : Word) (t : Touch) : State :=
  match crcSlot a with
  | some (c, 0x00) => s.crcCfg c v
  | some (c, 0x18) => s.crcDin c 1 v
  | some (c, 0x1C) => s.crcDin c 4 v
  | some (c, _) => s.crcParam c a v
  | none =>
    let keep : Word := BitVec.ofNat 32 (r.rw ||| r.rwl)
    let new := BitVec.ofNat 32 (normWord a ((s.held src a &&& ~~~keep) ||| (v &&& keep)).toNat)
    let lose := s.changesSet a ((s.reg a &&& ~~~t.rwl) ||| (new &&& t.rwl)) && !(a == R.SPD_RXID && s.rxidFixed)
    let u := if t.rw ||| t.rwl = 0 ∨ (a = R.SPD_RXID ∧ s.rxidFixed) then s
      else if a = R.SYS_WINBASE ∧ src = .spi then { s with cl := { s.cl with winSpi := new } }
      else (s.setReg a new).afterWrite s src a v
    let u := if lose then u.loseCfg else u
    let u := if t.rws = 0 then u else u.stage src a v (BitVec.ofNat 32 r.rws)
    let u := if t.w1c = 0 then u
      else if a % 0x1000 = 0x018 then u.setReg (R.PIRQ_RAW (pageOf a)) (u.reg (R.PIRQ_RAW (pageOf a)) &&& ~~~v)
      else u.setReg a (u.reg a &&& ~~~(v &&& t.w1c))
    if t.wo = 0 then u else u.command src a v

/-- The condition classes that a page's block raises end with its internal state (R63, R313). -/
def State.dropConds (s : State) (cls n : Nat) : State := (List.range n).foldl (fun t i => t.setCond cls i false) s

/-- A block is disabled by PCTRL.en: its outputs are at their reset state (R63, R96, R334, R373). -/
def State.pageOff (s : State) (p : Nat) : State :=
  if 4 ≤ p ∧ p ≤ 7 then s.disableLane (p - 4)
  else if p = 24 then s.adcStop.adcShow
  else if p = 25 then (s.setReg R.WIN_STAT 0).dropConds 29 16
  else if p = 26 then s.balStart
  else if p = 27 then (List.range 4).foldl (fun t g => t.setReg (R.SPL_STAT g) 0) s
  else if p = 28 then s.sioOff.sioDrive
  else s

/-- A block is enabled by PCTRL.en: a lane trains, and the converter shows its bursts and starts a continuous sequence (R63, R93, R342,
R352). -/
def State.pageOn (s : State) (p : Nat) : State :=
  if 4 ≤ p ∧ p ≤ 7 then s.laneEnable (p - 4) else if p = 24 then s.regRun.adcShow else s

/-- A soft reset of LNK0 returns LNK_RATE.rate to 0 and with it the rate of every lane (R63, R88): a change of rate starts where the lanes
run at another, and one that waits is dropped. -/
def State.rateReset (s : State) : State :=
  let s := { s with link := { s.link with watch := false } }
  if s.link.rate ≠ 0 then (s.startRate 0).put (F.LNK_RATE_busy 0) 1
  else if 2 ≤ s.link.change then { s.put (F.LNK_RATE_busy 0) 1 with link := { s.link with change := 2 } }
  else { s with link := { s.link with change := 0 } }

/-- The internal state of the block of a page is cleared (R63). -/
def State.blockReset (s : State) (p : Nat) : State :=
  if 4 ≤ p ∧ p ≤ 7 then
    let s := (s.onLane (p - 4) fun _ => {}).markDown (p - 4) false |>.toDetect (p - 4)
    if p = 4 then s.rateReset else s
  else if p = 24 then (s.onAdc fun _ => {}).adcShow
  else if p = 26 then ({ s with bal := {} }.balStart).dropConds 24 4
  else if p = 27 then ({ s with spl := {} }.dropConds 25 4).dropConds 26 1
  else if p = 28 then { s with sio := {} }.sioDrive
  else if p = 30 then { s with pair := {} }
  else s

/-- PCTRL.srst: every register of the page returns to its reset value, PCTRL.freeze with it, and the block's internal state is cleared
(R63, R155). Shadow values of the page that an open explicit clause holds stay in the clause (DESIGN CHOICE, log entry 55). -/
def State.pageReset (s : State) (p : Nat) : State :=
  let s := s.pageOff p
  let s := { s with regs := s.regs.filter fun (e : Nat × Word) => pageOf e.1 != p,
                    cl := { s.cl with frozen := s.cl.frozen.filter fun e => pageOf e.1 != p } }
  let s := s.blockReset p
  if lockable p then s.loseCfg else s

/-- PCTRL.freeze takes a value: the RO words of the page are held, or shown again (R63). -/
def State.freeze (s : State) (p : Nat) (b : Bool) : State :=
  let s := s.flag (F.PCTRL_freeze p) b
  let rest := s.cl.frozen.filter fun e => pageOf e.1 != p
  let addrs := ((List.range 1024).map fun i => p * 0x1000 + 4 * i).filter roWord
  let held := if b then addrs.map fun a => (a, s.present a) else []
  { s with cl := { s.cl with frozen := held.foldl (fun l e => kvPut l e.1 e.2) rest } }

/-- PCTRL.perr_clr (R63, R68, R82). -/
def State.perrClear (s : State) (p : Nat) : State :=
  let s := s.setReg (R.PERR p) 0
  if p = 0 then s.setReg R.SYS_WINERR 0 else s

/-- The fields freeze and perr_clr of a PCTRL write (R63). -/
def State.pctrlLight (s : State) (p : Nat) (v : Word) : State :=
  let s := if v.getLsbD 3 then s.perrClear p else s
  if v.getLsbD 2 = s.on (F.PCTRL_freeze p) then s else s.freeze p (v.getLsbD 2)

/-- The status of a PCTRL write (R63, R456), 0 where it takes effect: `en` and `srst` say which of the two it would set. -/
def State.pctrlCheck (s : State) (src : Src) (p : Nat) (en srst other : Bool) : Nat :=
  if en ∧ s.mode ≠ .configure then 4
  else if srst ∧ s.locked p = false ∧ (enWritable p = false ∨ (s.mode ≠ .configure ∧ s.mode ≠ .hold)) then 4
  else if (en ∨ srst ∨ other) ∧ s.owns src p = false then 6
  else if (en ∨ srst) ∧ s.locked p then 7
  else if (en ∨ srst) ∧ s.spd.conf ∧ lockable p then 8
  else 0

/-- A write of PCTRL (R37, R63, R456). What it records in PERR is recorded before its own perr_clr acts (DESIGN CHOICE, log entry 54). -/
def State.writePctrl (s : State) (src : Src) (p : Nat) (v : Word) : State × Nat :=
  let a := R.PCTRL p
  let other := v.getLsbD 3 || v.getLsbD 2 != s.on (F.PCTRL_freeze p)
  if s.mode = .hold ∧ holdWritable p = false then
    if other ∧ s.owns src p = false then (s.perr src a 6 true, 6)
    else
      let bad := v.getLsbD 1 || v.getLsbD 0 != s.on (F.PCTRL_en p)
      ((if bad then s.perr src a 4 true else s).pctrlLight p v, 0)
  else
    let en := enWritable p && v.getLsbD 0 != s.on (F.PCTRL_en p)
    let st := s.pctrlCheck src p en (v.getLsbD 1) other
    if st ≠ 0 then (s.perr src a st true, st)
    else
      let s := if enWritable p = false ∧ v.getLsbD 0 = false then s.perr src a 3 true else s
      let s := s.pctrlLight p v
      let s := if en then
          let t := s.flag (F.PCTRL_en p) (v.getLsbD 0)
          let t := if v.getLsbD 0 then t.pageOn p else t.pageOff p
          if lockable p then t.loseCfg else t
        else s
      (if v.getLsbD 1 then s.pageReset p else s, 0)

/-- A write that changes no field (R456). Of LNK_RATE it is the next write that clears LNK_RATE.reverted, where it is accepted (R89, R109);
of the CRC_CFG of a context that a job names it clashes (R404). -/
def State.writeSame (s : State) (src : Src) (a : Nat) : State :=
  if (crcSlot a).any fun e => e.2 == 0 && s.jobNames e.1 then s.crcClash
  else if a = R.LNK_RATE 0 ∧ (s.mode = .configure ∨ s.mode = .hold) ∧ s.owns src 4 then s.put (F.LNK_RATE_reverted 0) 0 else s

/-- A register write under the checks of R61: the state and the completion status. -/
def State.writeReg (s : State) (src : Src) (a : Nat) (v : Word) : State × Nat :=
  if a % 0x1000 = 0x008 then s.writePctrl src (pageOf a) v
  else match regSpec a with
    | none => (s.perr src a 2 true, 0)
    | some r =>
      if reservedEntry a then (s.perr src a 2 true, 0)
      else if readOnly r a then (s.perr src a 3 true, 0)
      else
        let t := s.touch src r a v
        if t.none then (s.writeSame src a, 0)
        else
          let st := s.writeCheck src a v t
          if st = 0 then (s.writeFields src r a v t, 0)
          else
            let s := s.perr src a st true
            (s.eventIf (a == R.AXO_CTRL && v.getLsbD 0 && st == 4) 30 7, st)

/-- Whether the SRAM address lies in ranges 2 or 3 of the safety parameter set (R152). -/
def inSet (w : Nat) : Bool := (0x8C0000 ≤ w && w < 0x8E0000) || (0x900000 ≤ w && w < 0xC00000)

/-- The status of a window write of `n` bytes at an SRAM address (R80, R187), 0 where it is accepted. -/
def State.windowCheck (s : State) (w n : Nat) : Nat :=
  if inSet w then
    if s.mode ≠ .configure then 4
    else if s.on F.SYS_LOCK_cl then 7
    else if s.spd.conf then 8
    else if n = 4 ∧ s.ecc2.contains (w / 8) then 9 else 0
  else if 0xE00000 ≤ w then
    if s.mode ≠ .configure then 4 else if n = 4 ∧ s.ecc2.contains (w / 8) then 9 else 0
  else if 0xD44000 ≤ w ∧ w < 0xD48000 then (if n = 4 ∧ s.ecc2.contains (w / 8) then 9 else 0)
  else 1

/-- A window write of `n` bytes (R79, R80, R82, R155, R187). -/
def State.writeWindow (s : State) (src : Src) (a n v : Nat) : State × Nat :=
  let w := s.windowAddr src a
  let st := s.windowCheck w n
  if st = 0 then
    let s := if n = 4 then s.readRange w 4 (winReq src) else s
    let s := s.setLe w n v
    (if inSet w then s.loseCfg else s, 0)
  else
    let s := if st = 9 then s.readRange w n (winReq src) else s
    (s.winErr src w st true, st)

/-- A write of a word of `n` bytes at a register-space address: the state and its status (R57, R58, R61). -/
def State.writeWord (s : State) (src : Src) (a n v : Nat) : State × Nat :=
  if accessOk a n = false then (s.badAccess src a true, 1)
  else if a < 0x1F000 then s.writeReg src a (BitVec.ofNat 32 v)
  else s.writeWindow src a n v

/-- One register write that a command is (R61); before the end of SELFTEST nothing answers (R25). -/
def State.regRow (s : State) (src : Src) (a : Nat) (v : Word) : Host.Outcome State Fault Refusal :=
  .next (if s.live then (s.writeReg src a v).1 else s)

/-- A write of one 32-bit register word (R58 to R61). -/
def execRegisterWrite (src : Src) (addr : Nat) (val : Word) (s : State) : Host.Outcome State Fault Refusal :=
  .next (if s.live then (s.writeWord src addr 4 val.toNat).1 else s)

/-- A write of a word that holds RWS fields (R59, R72). -/
def execStagedWrite (src : Src) (addr : Nat) (val : Word) (s : State) : Host.Outcome State Fault Refusal :=
  .next (if s.live then (s.writeWord src addr 4 val.toNat).1 else s)

/-- A write of a word of the SRAM window, of 64 or 32 bits (R58, R79, R80). -/
def execWindowWrite (src : Src) (addr : Nat) (w64 : Bool) (data : BitVec 64) (s : State) : Host.Outcome State Fault Refusal :=
  .next (if s.live then
    (if w64 then s.writeWord src addr 8 data.toNat else s.writeWord src addr 4 (data.toNat % 2 ^ 32)).1 else s)

/-- SYS_MODEREQ with target HOLD (R29). -/
def execModereqHold (src : Src) (s : State) : Host.Outcome State Fault Refusal := s.regRow src R.SYS_MODEREQ 1

/-- SYS_MODEREQ with target CONFIGURE (R29). -/
def execModereqConfigure (src : Src) (s : State) : Host.Outcome State Fault Refusal := s.regRow src R.SYS_MODEREQ 2

/-- The key of SYS_RESET (R39). -/
def execSoftReset (src : Src) (s : State) : Host.Outcome State Fault Refusal := s.regRow src R.SYS_RESET 0xC0DE

/-- A write of SYS_ACK (R43). -/
def execSysAckWrite (src : Src) (val : Word) (s : State) : Host.Outcome State Fault Refusal := s.regRow src R.SYS_ACK val

/-- PCTRL.srst of a page, the other fields as they are (R63). -/
def execPctrlSrst (src : Src) (page : Fin 31) (s : State) : Host.Outcome State Fault Refusal :=
  s.regRow src (R.PCTRL page) ((s.reg (R.PCTRL page) &&& 5) ||| 2)

/-- PCTRL.freeze of a page (R63). -/
def execPctrlFreeze (src : Src) (page : Fin 31) (on : Bool) (s : State) : Host.Outcome State Fault Refusal :=
  s.regRow src (R.PCTRL page) (insBits (s.reg (R.PCTRL page) &&& 1) 2 1 on.toNat)

/-- PCTRL.perr_clr of a page (R63). -/
def execPctrlPerrClr (src : Src) (page : Fin 31) (s : State) : Host.Outcome State Fault Refusal :=
  s.regRow src (R.PCTRL page) ((s.reg (R.PCTRL page) &&& 5) ||| 8)

/-- PIRQ_SET of a page (R65). -/
def execPirqSet (src : Src) (page : Fin 31) (val : Word) (s : State) : Host.Outcome State Fault Refusal :=
  s.regRow src (R.PIRQ_SET page) val

/-- A write of PIRQ_STAT of a page (R65). -/
def execPirqStatClear (src : Src) (page : Fin 31) (val : Word) (s : State) : Host.Outcome State Fault Refusal :=
  s.regRow src (R.PIRQ_STAT page) val

/-- The key of PLOCK of a page (R66). -/
def execPageLock (src : Src) (page : Fin 31) (s : State) : Host.Outcome State Fault Refusal :=
  s.regRow src (R.PLOCK page) 0x1A7C

/-- CLS_COMMIT (R73, R84). -/
def execClauseCommit (src : Src) (val : Word) (s : State) : Host.Outcome State Fault Refusal := s.regRow src R.CLS_COMMIT val

/-- CLS_ABORT (R77). -/
def execClauseAbort (src : Src) (s : State) : Host.Outcome State Fault Refusal := s.regRow src R.CLS_ABORT 1

/-- A write of LNK_RATE (R89). -/
def execRateChange (src : Src) (val : Word) (s : State) : Host.Outcome State Fault Refusal := s.regRow src (R.LNK_RATE 0) val

/-- LNK_CTRL.retrain (R109). -/
def execLnkRetrain (src : Src) (l : Fin 4) (s : State) : Host.Outcome State Fault Refusal := s.regRow src (R.LNK_CTRL l) 1

/-- LNK_CTRL.restart (R109). -/
def execLnkRestart (src : Src) (l : Fin 4) (s : State) : Host.Outcome State Fault Refusal := s.regRow src (R.LNK_CTRL l) 2

/-- LNK_CTRL.readapt (R109). -/
def execLnkReadapt (src : Src) (l : Fin 4) (s : State) : Host.Outcome State Fault Refusal := s.regRow src (R.LNK_CTRL l) 4

/-- LNK_CTRL.eye_abort (R109). -/
def execLnkEyeAbort (src : Src) (l : Fin 4) (s : State) : Host.Outcome State Fault Refusal := s.regRow src (R.LNK_CTRL l) 8

/-- LNK_CTRL.clrcnt (R109). -/
def execLnkClrcnt (src : Src) (l : Fin 4) (s : State) : Host.Outcome State Fault Refusal := s.regRow src (R.LNK_CTRL l) 16

/-- LNK_EYECTL with op point (R103). -/
def execEyePoint (src : Src) (l : Fin 4) (val : Word) (s : State) : Host.Outcome State Fault Refusal :=
  s.regRow src (R.LNK_EYECTL l) (insBits val 0 2 1)

/-- LNK_EYECTL with op scan (R103). -/
def execEyeScan (src : Src) (l : Fin 4) (val : Word) (s : State) : Host.Outcome State Fault Refusal :=
  s.regRow src (R.LNK_EYECTL l) (insBits val 0 2 2)

/-- PKT_CTRL.clrcnt (R138). -/
def execPktClrcnt (src : Src) (s : State) : Host.Outcome State Fault Refusal := s.regRow src R.PKT_CTRL 1

/-- SPD_CTRL.resync (R147, R160). -/
def execSpdResync (src : Src) (s : State) : Host.Outcome State Fault Refusal := s.regRow src R.SPD_CTRL 2

/-- SPD_CTRL.clrcnt (R160). -/
def execSpdClrcnt (src : Src) (s : State) : Host.Outcome State Fault Refusal := s.regRow src R.SPD_CTRL 1

/-- VIN_CTRL.clrcnt (R189). -/
def execVinClrcnt (src : Src) (s : State) : Host.Outcome State Fault Refusal := s.regRow src R.VIN_CTRL 1

/-- CMP_CTRL.clrcnt (R192). -/
def execCmpClrcnt (src : Src) (s : State) : Host.Outcome State Fault Refusal := s.regRow src R.CMP_CTRL 1

/-- CMP_CTRL.capclr (R192). -/
def execCmpCapclr (src : Src) (s : State) : Host.Outcome State Fault Refusal := s.regRow src R.CMP_CTRL 2

/-- MSK_CTRL.clrcnt (R195). -/
def execMskClrcnt (src : Src) (s : State) : Host.Outcome State Fault Refusal := s.regRow src R.MSK_CTRL 1

/-- A write of ASP_CTL of an aspect (R200, R207). -/
def execAspCtlWrite (src : Src) (a : Fin 160) (val : Word) (s : State) : Host.Outcome State Fault Refusal :=
  s.regRow src (R.ASP_CTL a) val

/-- A write of ASP_FGRP (R211). -/
def execFadeGroupWrite (src : Src) (val : Word) (s : State) : Host.Outcome State Fault Refusal := s.regRow src R.ASP_FGRP val

/-- CAL_CTRL.clrcnt (R223). -/
def execCalClrcnt (src : Src) (s : State) : Host.Outcome State Fault Refusal := s.regRow src R.CAL_CTRL 1

/-- PLC_CTRL.clrcnt (R242). -/
def execPlcClrcnt (src : Src) (s : State) : Host.Outcome State Fault Refusal := s.regRow src R.PLC_CTRL 1

/-- A write of TIL_RACC with go (R260, R280). -/
def execTileRegGo (src : Src) (i : Fin 80) (val : Word) (s : State) : Host.Outcome State Fault Refusal :=
  s.regRow src (R.TIL_RACC i) (insBits val 17 1 1)

/-- CHN_GCTRL.clrcnt (R275). -/
def execChnClrcnt (src : Src) (s : State) : Host.Outcome State Fault Refusal := s.regRow src R.CHN_GCTRL 1

/-- SUP_CTRL.clrcnt (R306). -/
def execSupClrcnt (src : Src) (s : State) : Host.Outcome State Fault Refusal := s.regRow src R.SUP_CTRL 1

/-- PRF_CTRL.clrcnt (R309). -/
def execPrfClrcnt (src : Src) (s : State) : Host.Outcome State Fault Refusal := s.regRow src R.PRF_CTRL 1

/-- FLT_CTRL.clrcnt (R329). -/
def execFltClrcnt (src : Src) (s : State) : Host.Outcome State Fault Refusal := s.regRow src R.FLT_CTRL 1

/-- FLT_CTRL.logclr (R329). -/
def execFltLogclr (src : Src) (s : State) : Host.Outcome State Fault Refusal := s.regRow src R.FLT_CTRL 2

/-- ADC_CTRL.rstart (R342, R351). -/
def execAdcRstart (src : Src) (s : State) : Host.Outcome State Fault Refusal := s.regRow src R.ADC_CTRL 1

/-- ADC_CTRL.rstop (R342, R351). -/
def execAdcRstop (src : Src) (s : State) : Host.Outcome State Fault Refusal := s.regRow src R.ADC_CTRL 2

/-- ADC_CTRL.istart (R343, R351). -/
def execAdcIstart (src : Src) (s : State) : Host.Outcome State Fault Refusal := s.regRow src R.ADC_CTRL 4

/-- ADC_CTRL.calreq (R340, R351). -/
def execAdcCalreq (src : Src) (s : State) : Host.Outcome State Fault Refusal := s.regRow src R.ADC_CTRL 8

/-- ADC_CTRL.caparm (R349, R351). -/
def execAdcCaparm (src : Src) (s : State) : Host.Outcome State Fault Refusal := s.regRow src R.ADC_CTRL 16

/-- ADC_CTRL.capforce (R349, R351). -/
def execAdcCapforce (src : Src) (s : State) : Host.Outcome State Fault Refusal := s.regRow src R.ADC_CTRL 32

/-- ADC_CTRL.clrcnt (R351). -/
def execAdcClrcnt (src : Src) (s : State) : Host.Outcome State Fault Refusal := s.regRow src R.ADC_CTRL 64

/-- A read of ADC_DATA (R344). -/
def execAdcDataRead (src : Src) (s : State) : Host.Outcome State Fault Refusal :=
  .next (if s.live then (s.readWord src R.ADC_DATA 4).1 else s)

/-- A read of ADC_INJk (R344). -/
def execAdcInjRead (src : Src) (k : Fin 4) (s : State) : Host.Outcome State Fault Refusal :=
  .next (if s.live then (s.readWord src (R.ADC_INJ k) 4).1 else s)

/-- WIN_CTRL.clrcnt (R354). -/
def execWinClrcnt (src : Src) (s : State) : Host.Outcome State Fault Refusal := s.regRow src R.WIN_CTRL 1

/-- BAL_CMD.clrcnt (R368). -/
def execBalClrcnt (src : Src) (s : State) : Host.Outcome State Fault Refusal := s.regRow src R.BAL_CMD 1

/-- SPL_CMD.clrcnt (R370). -/
def execSplClrcnt (src : Src) (s : State) : Host.Outcome State Fault Refusal := s.regRow src R.SPL_CMD 1

/-- SIO_CTRL.clrcnt (R391). -/
def execSioClrcnt (src : Src) (s : State) : Host.Outcome State Fault Refusal := s.regRow src R.SIO_CTRL 1

/-- CRC_CFG.ld of a context, its parameters as they are (R396). -/
def execCrcLoad (src : Src) (ctx : Fin 64) (s : State) : Host.Outcome State Fault Refusal :=
  s.regRow src (R.CRC_CFG ctx) (s.reg (R.CRC_CFG ctx) ||| 0x10000)

/-- A write of CRC_VAL (R396). -/
def execCrcValWrite (src : Src) (ctx : Fin 64) (val : Word) (s : State) : Host.Outcome State Fault Refusal :=
  s.regRow src (R.CRC_VAL ctx) val

/-- A write of CRC_DIN8 (R397). -/
def execCrcDin8 (src : Src) (ctx : Fin 64) (val : Word) (s : State) : Host.Outcome State Fault Refusal :=
  s.regRow src (R.CRC_DIN8 ctx) val

/-- A write of CRC_DIN32 (R397). -/
def execCrcDin32 (src : Src) (ctx : Fin 64) (val : Word) (s : State) : Host.Outcome State Fault Refusal :=
  s.regRow src (R.CRC_DIN32 ctx) val

/-- CRC_SKCTL.go with a first descriptor (R400). -/
def execSkinkGo (src : Src) (first : BitVec 10) (s : State) : Host.Outcome State Fault Refusal :=
  s.regRow src R.CRC_SKCTL (first.setWidth 32 ||| 0x10000)

/-- CRC_SKCTL.abort (R401). -/
def execSkinkAbort (src : Src) (s : State) : Host.Outcome State Fault Refusal := s.regRow src R.CRC_SKCTL 0x20000

/-- CRC_CTRL.clrcnt (R405). -/
def execCrcClrcnt (src : Src) (s : State) : Host.Outcome State Fault Refusal := s.regRow src R.CRC_CTRL 1

/-- AXO_CTRL.takeover (R426). -/
def execAxoTakeover (src : Src) (s : State) : Host.Outcome State Fault Refusal := s.regRow src R.AXO_CTRL 1

/-- AXO_CTRL.realign (R420). -/
def execAxoRealign (src : Src) (s : State) : Host.Outcome State Fault Refusal := s.regRow src R.AXO_CTRL 2

/-- AXO_CTRL.clrcnt (R435). -/
def execAxoClrcnt (src : Src) (s : State) : Host.Outcome State Fault Refusal := s.regRow src R.AXO_CTRL 4

end Sys2Proof.Machine
end

