-- ==== Sys2Proof/Machine/SafePdu.lean ====
section
/-! DEFINITION. Safe PDUs: acceptance (R146 to R149), items (R143 to R145), confirmation and recheck (R152 to R156), OTP programming
(R158) and status PDUs (R151). -/

namespace Sys2Proof.Machine

/-- Safe PDU state changes beside the SPD page. -/
def State.onSpd (s : State) (f : Spd → Spd) : State := { s with spd := f s.spd }

/-- One item and what follows it, from a payload's bytes; none where it is malformed (R143). A wrong key in the arg of BEAM,
OTPCOM or OTPFB is malformed (DESIGN CHOICE, log entry 74). -/
def parseItem (bs : List Byte) : Option (Item × List Byte) :=
  let op := blkLe bs 0 1
  let n := blkLe bs 1 1
  let arg := blkLe bs 2 2
  let w (k : Nat) : Word := BitVec.ofNat 32 (blkLe bs (4 + 4 * k) 4)
  let body := (bs.drop 4).take (4 * n)
  let rest := bs.drop (4 + 4 * n)
  if bs.length < 4 + 4 * n then none
  else match op with
  | 0 => if n = 0 ∧ arg = 0 then some (.nop, rest) else none
  | 1 => if n = 2 ∧ arg = 0 ∧ (w 0).toNat < 0x100000 then some (.write (w 0) (w 1), rest) else none
  | 2 => if n = 0 ∧ arg = 0xBE01 then some (.beam, rest) else none
  | 4 => if n = 1 ∧ arg < 2 then some (.confirm (arg == 1) (w 0), rest) else none
  | 5 => if n = 8 ∧ arg = 0xC0A1 then some (.otpcom body, rest) else none
  | 6 => if n = 58 ∧ arg = 0xFB01 then some (.otpfb body, rest) else none
  | _ => none

/-- The items of a payload, at most `fuel`, and whether they fill it (R143). -/
def parseItems : Nat → List Byte → List Item × Bool
  | 0, bs => ([], bs.isEmpty)
  | k + 1, bs =>
    if bs.isEmpty then ([], true)
    else match parseItem bs with
      | some (i, rest) => ((i :: (parseItems k rest).1), (parseItems k rest).2)
      | none => ([], false)

/-- A BEAM item and its status (R50, R145, R412). One that is refused does not count in SYS_STAT.refused (DESIGN CHOICE, log entry 49). -/
def State.beam (s : State) : State × Nat :=
  match s.mode with
  | .configure =>
    if s.on F.SYS_STAT_cfg_ok then
      let t := s.evalRole
      if t.roleActive then (t.drive .operate, 0) else (t, 4)
    else (s, 4)
  | .fallback =>
    if s.on F.SYS_STAT_cfg_ok ∧ s.on F.SYS_STAT_host_lost = false ∧ s.darkRel = false then
      if s.light.back then (s, 0)
      else
        let t := (s.passAfresh.initOffsets).markAll
        (({ t with light := { t.light with back := true, backDue := false, backOff := t.offThen } }), 0)
    else (s, 4)
  | .operate => (s, 0)
  | .mirror => (s, 0)
  | _ => (s, 4)

/-- A CONFIRM item starts, or fails (R154): its status. -/
def State.confirmItem (s : State) (lock : Bool) (ccv : Word) : State × Nat :=
  if s.mode ≠ .configure then (s, 4)
  else if s.get F.CLS_STAT_state ≠ 0 ∨ s.cl.implicit ≠ [] then (s, 8)
  else
    let t := (((s.setReg R.SPD_CCVSUP ccv).put F.SPD_CCVSTAT_state 1).flag F.SPD_CCVSTAT_lockreq lock).inc F.SPD_CCVSTAT_count
    ((t.onSpd fun d => { d with conf := true, lock := lock }).ccvStart 1, 0)

/-- An OTP item starts, or fails (R158): its status. -/
def State.otpItem (s : State) (fb : Bool) (blk : List Byte) : State × Nat :=
  let blankNow := if fb then blank s.fbBlock && !s.spd.cutFb else blank s.comBlock && !s.spd.cutCom
  let good := if fb then fbCheck s.serialLo blk == 0
    else comValid s.serialLo blk && blkLe blk 4 4 == s.regN R.SPD_CCVCALC
  if s.mode ≠ .configure ∨ s.on F.SYS_STAT_cfg_ok = false ∨ s.on F.SYS_LOCK_cl then (s, 4)
  else if blankNow = false then (s, 7)
  else if good = false then (s, 0xB)
  else ((s.put F.SPD_OTPSTAT_busy 1).onSpd fun d => { d with otp := some (fb, blk) }, 0)

/-- One item of an accepted safe PDU is executed (R143): its status (R120). A CONFIRM or OTP item that has started ends later. -/
def State.runItem (s : State) : Item → State × Nat
  | .nop => (s, 0)
  | .write a v => s.writeWord .pdu a.toNat 4 v.toNat
  | .beam => s.beam
  | .confirm l c => s.confirmItem l c
  | .otpcom b => s.otpItem false b
  | .otpfb b => s.otpItem true b

/-- The name of the writes that run (R414); 0 for none. -/
def State.named (s : State) (n : Nat) : State := { s with pair := { s.pair with name := n } }

/-- The request queue waits behind a CONFIRM or OTP item (R154, R158). -/
def State.blocked (s : State) : Bool := s.spd.conf || s.spd.otp.isSome

/-- The items of a PDU are executed in order (R146). A reset ends them. -/
def State.runItems (s : State) (seq idx : Nat) : List Item → State
  | [] => s.pduResult seq idx 0
  | i :: rest =>
    let (t, st) := (s.named (2 ^ 23 + 1 + 2 * seq + 2 ^ 17 * idx)).runItem i
    let t := t.named 0
    if t.live = false then t
    else if st ≠ 0 then t.pduResult seq idx st
    else if t.blocked then t.onSpd fun d => { d with pdu := some { seq := seq, idx := idx, rest := rest } }
    else t.runItems seq (idx + 1) rest

/-- An item that held the queue ends with a status (R146). -/
def State.itemEnd (s : State) (st : Nat) : State :=
  match s.spd.pdu with
  | none => s
  | some p =>
    let s := s.onSpd fun d => { d with pdu := none }
    if st ≠ 0 then s.pduResult p.seq p.idx st else s.runItems p.seq (p.idx + 1) p.rest

/-- A discarded PDU (R146). -/
def State.pduDiscard (s : State) (f : Fld) : State := (s.inc f).event 9 0

/-- An accepted PDU (R146, R148, R149): the host is not lost, and its times start afresh, that since a configuration failure among them;
the failure itself stands (R49; DESIGN CHOICE, log entry 52). -/
def State.pduAccept (s : State) (texp : Nat) : State :=
  let s := ((s.put F.SPD_RXSTAT_miss 0).put F.SYS_STAT_host_lost 0).setCond 21 0 false
  s.onSpd fun d => { d with host := 0, failT := 0, dl := 0, texp := texp }

/-- A safe PDU is judged, and its items are executed (R146, R147). -/
def State.takePdu (s : State) (b : List Byte) : State :=
  let id := s.regN R.SPD_RXID
  let seq := blkLe b 4 2
  let texp := blkLe b 6 1
  let pw := blkLe b 7 1
  if id = 0 ∨ blkLe b 0 4 ≠ id then s.pduDiscard F.SPD_DISC_conn
  else if pw < 1 ∨ 64 < pw ∨ 12 + 4 * pw ≠ b.length ∨ texp = 0 then s.pduDiscard F.SPD_DISC_form
  else if crcSafe id (b.take (8 + 4 * pw)) ≠ blkLe b (8 + 4 * pw) 4 then s.pduDiscard F.SPD_DISC_crc
  else if s.on F.SPD_RXSTAT_synced = false then
    (((s.put F.SPD_RXSTAT_synced 1).put F.SPD_RXSTAT_last seq).event 9 10).pduAccept texp
  else
    let d := (seq + 65536 - s.get F.SPD_RXSTAT_last) % 65536
    if d = 0 ∨ s.get F.SPD_RXCFG_window < d then s.pduDiscard F.SPD_DISC_seq
    else
      let s := (s.incBy F.SPD_LOST_gap (d - 1)).eventIf (decide (1 < d)) 9 2
      let s := (s.put F.SPD_RXSTAT_last seq).pduAccept texp
      let (items, ok) := parseItems pw ((b.drop 8).take (4 * pw))
      if ok then s.runItems seq 0 items
      else (s.pduResult seq items.length 0xB).put F.SPD_LASTRES_parse 1

/-- The commissioning lock is set (R70). -/
def State.commLock (s : State) : State :=
  let s := ((List.range 31).filter fun p => lockable p).foldl (fun t p =>
    if t.locked p then t else (t.put (F.PLOCK_locked p) 1).put (F.PLOCK_by_cl p) 1) s
  s.put F.SYS_LOCK_cl 1

/-- A CONFIRM fails with a reason (R49, R154). -/
def State.confirmFail (s : State) (reason : Nat) : State :=
  let s := ((s.put F.SPD_CCVSTAT_state 3).put F.SPD_CCVSTAT_reason reason).put F.SYS_STAT_cfg_ok 0
  (((s.put F.SPD_CCVSTAT_cfg_ok 0).cfgFail).event 9 5)

/-- The outcome of a CONFIRM whose CCV is computed (R154). -/
def State.confirmOutcome (s : State) (ccv : Nat) : State :=
  let com := s.get F.SPD_OTPSTAT_com
  if ccv ≠ s.regN R.SPD_CCVSUP then s.confirmFail 1
  else if com = 2 then s.confirmFail 4
  else if com = 1 ∧ s.on F.SPD_OTPSTAT_require ∧ ccv ≠ s.regN R.SPD_CCVOTP then s.confirmFail 2
  else
    let s := if s.spd.lock ∨ (com = 1 ∧ s.on F.SPD_OTPSTAT_auto_lock) then s.commLock else s
    if s.on F.SYS_LOCK_cl ∧ s.gradeE0 then s.confirmFail 3
    else
      let s := ((s.put F.SPD_CCVSTAT_state 2).put F.SPD_CCVSTAT_reason 0).put F.SYS_STAT_cfg_ok 1
      (s.put F.SPD_CCVSTAT_cfg_ok 1).event 9 4

/-- The CCV of a CONFIRM is computed; the items behind it follow (R154). -/
def State.confirmDone (s : State) : State :=
  let s := s.ccvRest.ccvComplete
  let v := s.regN (R.CRC_RES 63)
  let s := (s.setRegN R.SPD_CCVCALC v).onSpd fun d => { d with conf := false }
  (s.confirmOutcome v).itemEnd 0

/-- OTP programming ends; the items behind it follow (R158). A block with a read-back difference is taken as neither blank nor valid. -/
def State.otpDone (s : State) (ok : Bool) : State :=
  match s.spd.otp with
  | none => s
  | some (fb, blk) =>
    let s := { s with otp := memPutBytes s.otp (if fb then 0x40 else 0x20) blk }
    let s := (s.put F.SPD_OTPSTAT_busy 0).flag F.SPD_OTPSTAT_err (!ok)
    let s := s.setBit R.SPD_OTPSTAT (if fb then 7 else 6) true
    let s := s.onSpd fun d => { d with otp := none, cutFb := d.cutFb || (fb && !ok), cutCom := d.cutCom || (!fb && !ok) }
    if ok then (s.event 9 8).itemEnd 0 else (s.event 9 9).itemEnd 9

/-- A NOP item (R143). -/
def execNop (s : State) : Host.Outcome State Fault Refusal := .next (if s.live then (s.runItem .nop).1 else s)

/-- A WRITE item of an accepted safe PDU (R144). -/
def execWrite (addr val : Word) (s : State) : Host.Outcome State Fault Refusal :=
  .next (if s.live then (s.runItem (.write addr val)).1 else s)

/-- A BEAM item of an accepted safe PDU (R145). -/
def execBeam (s : State) : Host.Outcome State Fault Refusal := .next (if s.live then (s.runItem .beam).1 else s)

/-- A CONFIRM item of an accepted safe PDU (R154). -/
def execConfirm (lock : Bool) (ccv : Word) (s : State) : Host.Outcome State Fault Refusal :=
  .next (if s.live ∧ s.blocked = false then (s.runItem (.confirm lock ccv)).1 else s)

/-- An OTPCOM item of an accepted safe PDU (R158). -/
def execOtpcom (blk : Vector Byte 32) (s : State) : Host.Outcome State Fault Refusal :=
  .next (if s.live ∧ s.blocked = false then (s.runItem (.otpcom blk.toList)).1 else s)

/-- An OTPFB item of an accepted safe PDU (R158). -/
def execOtpfb (blk : Vector Byte 232) (s : State) : Host.Outcome State Fault Refusal :=
  .next (if s.live ∧ s.blocked = false then (s.runItem (.otpfb blk.toList)).1 else s)

/-- A deadline passes with no accepted PDU (R148, R149). -/
def execDeadlineMiss (s : State) : Host.Outcome State Fault Refusal :=
  .next (if s.live ∧ s.spd.texp ≠ 0 ∧ 10 * s.spd.texp < s.spd.dl then
    let s := ((s.inc F.SPD_RXSTAT_miss).inc F.SPD_LOST_late).event 9 1
    let s := s.onSpd fun d => { d with dl := 1 }
    if s.get F.SPD_RXCFG_maxmiss ≤ s.get F.SPD_RXSTAT_miss then s.setCond 21 0 true else s
  else s)

/-- Header byte 1 of a packet to the host: src is the device's position (R113, R116). -/
def State.hostHdr (s : State) : Nat := 4 * s.get F.PKT_POS_pos

/-- A packet is sent on the host path. -/
def State.toHost (s : State) (typ : Nat) (body : List Byte) : State :=
  match s.hostOut with | some l => s.transmit l typ s.hostHdr body | none => s

/-- The eight words of a status PDU (R151). -/
def State.statusWords (s : State) : List Word :=
  [s.peek R.SYS_STAT, s.peek R.SYS_HOLDCAUSE, s.peek R.SPD_LASTRES, s.peek R.SPD_CCVSTAT, s.peek R.SPD_CCVCALC, s.peek R.SYS_ACKSTAT,
   BitVec.ofNat 32 (bitmask 32 s.latched), BitVec.ofNat 32 (bitmask 32 fun k => s.latched (32 + k))]

/-- A status PDU (R141, R142, R151). -/
def State.statusPdu (s : State) : List Byte :=
  let id := s.regN R.SPD_TXID
  let head := leBytes 4 id ++ leBytes 2 s.spd.txN ++ leBytes 1 (min 255 (2 * s.get F.SPD_TXCFG_period)) ++ leBytes 1 9
  let b := head ++ leBytes 4 0x0880 ++ s.statusWords.flatMap fun w => leBytes 4 w.toNat
  b ++ leBytes 4 (crcSafe id b)

/-- A status PDU is sent (R151). -/
def execStatusPduSend (s : State) : Host.Outcome State Fault Refusal :=
  .next (if s.live ∧ s.regN R.SPD_TXID ≠ 0 ∧ s.hostOut.isSome then
    let t := (s.toHost 0x40 s.statusPdu).put F.SPD_TXSEQ_seq s.spd.txN
    t.onSpd fun d => { d with txN := (d.txN + 1) % 65536, sent := s.statusWords }
  else s)

/-- A recheck pass starts (R156). -/
def execCcvRecheckStart (s : State) : Host.Outcome State Fault Refusal :=
  .next (if s.lightMode ∧ s.on F.SYS_STAT_cfg_ok ∧ s.skink.ccv = 0 then s.ccvStart 2 else s)

/-- A recheck pass ends (R156). -/
def execCcvRecheckDone (s : State) : Host.Outcome State Fault Refusal :=
  .next (if s.skink.ccv = 2 then
    let s := s.ccvRest
    if s.skink.ccv ≠ 2 then s else
    let s := s.ccvComplete
    if s.reg (R.CRC_RES 63) = s.reg R.SPD_CCVCALC then s
    else (((s.put F.SPD_CCVSTAT_reason 5).event 9 7).loseCfg).raise 16 0
  else s)

end Sys2Proof.Machine
end

