-- ==== Sys2Proof/Machine/Packets.lean ====
section
/-! DEFINITION. Galair link packets: the checks on arrival (R113 to R117), the request queue (R118 to R122), credit (R123, R124), the
update packets (R129 to R131, R183, R221), video packets (R126 to R128), interrupt messages (R134), and the words of a lane as they
are received and forwarded (R92, R96, R99, R105). -/

namespace Sys2Proof.Machine

/-- Whether a lane may carry packets from the host: an ACTIVE lane of the host path (R87). -/
def State.fromHost (s : State) (l : Nat) : Bool := s.live && s.active l && s.hostPath l

/-- A packet is discarded at step 1 or 2 of R115 (R140). -/
def State.pktDiscard (s : State) (f : Fld) : State := (s.inc f).event 8 0

/-- A malformed packet or a tag in use (R115, R140). -/
def State.pktMalf (s : State) (f : Fld) : State := (s.inc f).event 8 1

/-- A packet finds no credit, or no room (R115, R123, R140): the event is raised at every overrun of any pool (DESIGN CHOICE, log entry
71). -/
def State.pktOver (s : State) (f : Fld) : State := (s.inc f).event 8 2

/-- The four header bytes of a packet (R113). -/
def pktHead (typ : Nat) (p : Pkt) : List Byte := BitVec.ofNat 8 typ :: p.hdr :: leBytes 2 p.len.toNat

/-- Whether a packet's data and CRC-32 agree, where no word of it was in error on lane `l`'s link (R98, R113). -/
def State.crcOk (s : State) (l typ : Nat) (p : Pkt) : Bool :=
  p.crc.toNat == crcLink (pktHead typ p ++ p.body) && !(s.lane (s.linkLow l)).rxBad

/-- The packet that a word in error spoilt has ended (R98). -/
def State.clearBad (s : State) (l : Nat) : State :=
  if (s.lane (s.linkLow l)).rxBad then s.onLane (s.linkLow l) fun ln => { ln with rxBad := false } else s

/-- Steps 1 and 2 of R115: whether a packet arrived whole. -/
def State.pktWhole (s : State) (l typ : Nat) (p : Pkt) : State × Bool :=
  if p.eop = false ∨ p.body.length ≠ p.len.toNat then ((s.clearBad l).pktDiscard F.PKT_DISC_frame, false)
  else if s.crcOk l typ p = false then ((s.clearBad l).pktDiscard F.PKT_DISC_crc, false)
  else (s, true)

/-- Steps 1 to 4 of R115 for a packet from the host whose len must lie between `lo` and `hi`: whether it goes on (R114, R116). -/
def State.pktArrives (s : State) (l typ lo hi : Nat) (p : Pkt) : State × Bool :=
  if s.live = false ∨ s.active l = false then (s, false)
  else
    let (t, ok) := s.pktWhole l typ p
    if ok = false then (t, false)
    else if p.hdr.getLsbD (t.get F.PKT_POS_pos) = false then (t, false)
    else if t.hostPath l = false ∨ p.len.toNat < lo ∨ hi < p.len.toNat then (t.pktMalf F.PKT_MALF_malf, false)
    else (t, true)

/-- The header bits that are zero in packets from the host (R113, R115). -/
def hostHdrOk (p : Pkt) : Bool := p.hdr.toNat < 4

/-- The tag of a request (R118, R129). -/
def pktTag (p : Pkt) : Nat := bodyLe p 4 1 % 128

/-- A completion is sent (R119). -/
def State.cpl (s : State) (q : Req) (status done : Nat) (data : List Byte) : State :=
  s.transmit q.lane 0x03 s.hostHdr
    (leBytes 1 (pktTag q.pkt) ++ leBytes 1 status ++ leBytes 1 done ++ leBytes 1 q.typ ++ leBytes 4 0 ++ data)

/-- Whether the fields of an RDREQ or WRREQ are allowed (R115, R118). -/
def regReqOk (wr : Bool) (p : Pkt) : Bool :=
  let c := bodyLe p 5 1
  let count := c % 32
  let w64 := c / 128 == 1
  hostHdrOk p && bodyLe p 4 1 < 128 && bits c 5 2 == 0 && bodyLe p 6 2 == 0 && bodyLe p 8 4 < 0x100000 &&
    1 ≤ count && count ≤ (if w64 then 8 else 16) && p.len.toNat == 8 + (if wr then (if w64 then 8 else 4) * count else 0)

/-- The bytes of a word of a request (R58, R118). -/
def reqWidth (p : Pkt) : Nat := if bodyLe p 5 1 / 128 = 1 then 8 else 4

/-- The words of an RDREQ are read in ascending address up to the first that fails (R119): the data, the words done, the status. -/
def State.readMany (s : State) (a n : Nat) : Nat → State × List Byte × Nat × Nat
  | 0 => (s, [], 0, 0)
  | k + 1 =>
    let (t, st, v) := s.readWord .lane a n
    if st ≠ 0 then (t, [], 0, st)
    else
      let (u, data, done, st) := t.readMany (a + n) n k
      (u, leBytes n v ++ data, done + 1, st)

/-- The words of a WRREQ are written in ascending address up to the first that fails (R119): the words done and the status. `name` is
the name of the first word (R414). -/
def State.writeMany (s : State) (name a n : Nat) : List Nat → State × Nat × Nat
  | [] => (s, 0, 0)
  | v :: vs =>
    let (t, st) := (s.named name).writeWord .lane a n v
    let t := t.named 0
    if st ≠ 0 then (t, 0, st)
    else
      let (u, done, st) := t.writeMany (name + 256) (a + n) n vs
      (u, done + 1, st)

/-- An RDREQ is executed (R119). -/
def State.runRead (s : State) (q : Req) : State :=
  if regReqOk false q.pkt = false then s.cpl q 0xB 0 []
  else
    let (t, data, done, st) := s.readMany (bodyLe q.pkt 8 4) (reqWidth q.pkt) (bodyLe q.pkt 5 1 % 32)
    t.cpl q st done data

/-- A WRREQ is executed (R119). -/
def State.runWrite (s : State) (q : Req) : State :=
  if regReqOk true q.pkt = false then s.cpl q 0xB 0 []
  else
    let n := reqWidth q.pkt
    let vs := (List.range (bodyLe q.pkt 5 1 % 32)).map fun k => bodyLe q.pkt (12 + n * k) n
    let (t, done, st) := s.writeMany (2 ^ 23 + 2 * pktTag q.pkt) (bodyLe q.pkt 8 4) n vs
    t.cpl q st done []

/-- The fields common to every update with a clause (R129): the tag, apply and target. -/
def updateOk (p : Pkt) : Bool :=
  let a := bodyLe p 5 1 % 4
  hostHdrOk p && bodyLe p 4 1 < 128 && a != 0 && (a == 3 || bodyLe p 8 4 == 0)

/-- Whether the fields of a MASKUPD are allowed (R129). An owner above 159 is left to the agreement rule (DESIGN CHOICE, log entry 70). -/
def maskupdOk (p : Pkt) : Bool :=
  let n := bodyLe p 7 1
  updateOk p && bodyLe p 5 1 < 4 && 1 ≤ n && bodyLe p 6 1 + n ≤ 32 && bodyLe p 12 4 == 0 && p.len.toNat == 12 + 8 * n &&
    (List.range n).all fun k => bits (bodyLe p (16 + 8 * k) 8) 51 13 == 0

/-- The register words that a MASKUPD gives (R129, R196). -/
def maskupdWords (p : Pkt) : List (Nat × Word) :=
  (List.range (bodyLe p 7 1)).flatMap fun k =>
    let j := bodyLe p 6 1 + k
    [(R.MSK_RECTLo j, BitVec.ofNat 32 (bodyLe p (16 + 8 * k) 4)), (R.MSK_RECTHi j, BitVec.ofNat 32 (bodyLe p (20 + 8 * k) 4))]

/-- Whether the fields of a SYMUPD of kind 0 are allowed (R129, R130). Byte 7 must be zero (DESIGN CHOICE, log entry 70). -/
def symDataOk (p : Pkt) : Bool :=
  let n := p.len.toNat - 12
  hostHdrOk p && bodyLe p 4 1 < 128 && bodyLe p 5 1 / 8 == 0 && bodyLe p 7 1 == 0 && bodyLe p 12 4 < 0x200000 &&
    bodyLe p 12 4 % 8 == 0 && 8 ≤ n && n % 8 == 0 && n ≤ 1024 && bodyLe p 12 4 + n ≤ 0x200000

/-- Whether the fields of a SYMUPD of kind 1 are allowed (R129, R130, R183). Byte 7 must be zero (DESIGN CHOICE, log entry 70). -/
def symDescOk (p : Pkt) : Bool :=
  let d := bodyLe p 12 8
  updateOk p && bodyLe p 5 1 / 8 == 0 && bodyLe p 7 1 == 0 && p.len.toNat == 16 && bits d 18 2 != 3 && bits d 42 22 == 0 &&
    8 * bits d 0 18 + symExtent d ≤ 0x200000

/-- Whether a symbol is in use: a defined aspect references it and its descriptor is valid (R130). -/
def State.symUsed (s : State) (k : Nat) : Bool :=
  symValid (s.symDesc k) && s.defined.any fun a => s.on (F.ASP_MEMB_kind a) && s.get (F.ASP_MEMB_sym a) == k

/-- Whether a range of the symbol store meets the bitmap of a symbol in use (R130). -/
def State.storeUsed (s : State) (off n : Nat) : Bool :=
  (List.range 256).any fun k => s.symUsed k &&
    (let d := s.symDesc k
     off < 8 * bits d 0 18 + symExtent d && 8 * bits d 0 18 < off + n)

/-- Whether the fields of an ASPUPD are allowed (R129, R131, R221). -/
def aspupdOk (p : Pkt) : Bool :=
  let m := bodyLe p 7 1
  updateOk p && bodyLe p 5 1 < 4 && bodyLe p 6 1 < 160 && m < 64 && bodyLe p 12 4 == 0 &&
    p.len.toNat == 12 + 4 * ((List.range 6).filter fun k => m.testBit k).length

/-- The register words that an ASPUPD gives (R131, R219): the fields of each selected word, as they read back. -/
def aspupdWords (p : Pkt) : List (Nat × Word) :=
  let ks := (List.range 6).filter fun k => (bodyLe p 7 1).testBit k
  ks.zipIdx.map fun (e : Nat × Nat) =>
    let a := R.ASP_CFG (bodyLe p 6 1) + 4 * e.1
    let m := match regSpec a with | some r => r.rws ||| r.rw | none => 0
    (a, BitVec.ofNat 32 (normWord a (bodyLe p (16 + 4 * e.2) 4 &&& m)))

/-- Whether an ASPUPD would change an enable that travels in safe PDUs alone (R131): by the class in force or the one it writes. -/
def State.aspupdBarred (s : State) (p : Pkt) : Bool :=
  let a := bodyLe p 6 1
  let ws := aspupdWords p
  let newClass := match kvFind ws (R.ASP_CFG a) with | some w => getBits w 1 2 | none => 0
  match kvFind ws (R.ASP_CTL a) with
  | some w => getBits w 0 1 != s.get (F.ASP_CTL_en a) && (s.regulatory a || newClass != 0)
  | none => false

/-- An update packet with a clause is executed: its arrival check (R76, R129); in HOLD it is refused (R37). -/
def State.runUpdate (s : State) (q : Req) (ok : Bool) (kind : Nat) (ws : List (Nat × Word)) (barred : Bool) : State :=
  let s := s.onLink fun l => { l with retU := l.retU + 1 }
  if ok = false then s.cpl q 0xB 0 []
  else if s.mode = .hold then s.cpl q 4 0 []
  else if barred then s.cpl q 5 0 []
  else
    let (t, st) := s.submitImplicit kind ws (bodyLe q.pkt 5 1 % 4) (bodyLe q.pkt 8 4) (pktTag q.pkt)
    t.cpl q st 0 []

/-- A SYMUPD of kind 0 is executed (R130). -/
def State.runSymData (s : State) (q : Req) : State :=
  let s := s.onLink fun l => { l with retU := l.retU + 1 }
  if symDataOk q.pkt = false then s.cpl q 0xB 0 []
  else
    let off := bodyLe q.pkt 12 4
    let data := q.pkt.body.drop 12
    if s.storeUsed off data.length then s.cpl q 0xC 0 [] else (s.setBytes (0xE00000 + off) data).cpl q 0 0 []

/-- A request at the head of the queue is executed (R122). -/
def State.runReq (s : State) (q : Req) : State :=
  match q.typ with
  | 0x01 => s.runRead q
  | 0x02 => s.runWrite q
  | 0x20 => s.runUpdate q (maskupdOk q.pkt) 1 (maskupdWords q.pkt) false
  | 0x21 =>
    if bits (bodyLe q.pkt 5 1) 2 1 = 0 then s.runSymData q
    else
      let k := bodyLe q.pkt 6 1
      s.runUpdate q (symDescOk q.pkt) 2 [(R.MSK_SYMLo k, BitVec.ofNat 32 (bodyLe q.pkt 12 4)),
        (R.MSK_SYMHi k, BitVec.ofNat 32 (bodyLe q.pkt 16 4))] false
  | 0x22 => s.runUpdate q (aspupdOk q.pkt) 3 (aspupdWords q.pkt) (s.aspupdBarred q.pkt)
  | _ => (s.onLink fun l => { l with retS := l.retS + 1 }).takePdu q.pkt.body

/-- Requests are executed in order while nothing holds the queue (R122, R154, R158); a request leaves it when it has been executed, so
that its tag is in use until then (R121). -/
def State.drainReqs : Nat → State → State
  | 0, s => s
  | n + 1, s =>
    if s.blocked then s
    else match s.link.queue with
      | [] => s
      | q :: _ => State.drainReqs n ((s.runReq q).onLink fun l => { l with queue := l.queue.tail })

/-- The queue is served (R122). -/
def State.serve (s : State) : State := s.drainReqs s.link.queue.length

/-- A request joins the queue (R121, R122). -/
def State.enqueue (s : State) (l typ : Nat) (p : Pkt) : State :=
  let s := s.onLink fun k => { k with queue := k.queue ++ [{ lane := l, typ := typ, pkt := p }] }
  let s := if typ = 0x40 then s else s.peak F.PKT_TAGS_high (s.link.queue.filter fun q => q.typ != 0x40).length
  s.serve

/-- Whether a tag is in use (R121). -/
def State.tagUsed (s : State) (p : Pkt) : Bool := s.link.queue.any fun q => q.typ != 0x40 && pktTag q.pkt == pktTag p

/-- A tagged request arrives (R115, R121); `update` says whether it draws on the update pool (R123). -/
def State.request (s : State) (l typ lo hi : Nat) (update : Bool) (p : Pkt) : State :=
  let (s, ok) := s.pktArrives l typ lo hi p
  if ok = false then s
  else if s.tagUsed p then s.pktMalf F.PKT_MALF_tag
  else if update ∧ 16 ≤ (s.link.queue.filter fun q => 0x20 ≤ q.typ && q.typ ≤ 0x22).length then s.pktOver F.PKT_OVR_update
  else s.enqueue l typ p

/-- A register read request arrives (R118, R119). -/
def execRdreq (l : Fin 4) (p : Pkt) (s : State) : Host.Outcome State Fault Refusal := .next (s.request l 0x01 8 8 false p)

/-- A register write request arrives (R118, R119). -/
def execWrreq (l : Fin 4) (p : Pkt) (s : State) : Host.Outcome State Fault Refusal := .next (s.request l 0x02 8 65535 false p)

/-- A mask update arrives (R129). -/
def execMaskupd (l : Fin 4) (p : Pkt) (s : State) : Host.Outcome State Fault Refusal := .next (s.request l 0x20 20 268 true p)

/-- A symbol update of kind 0 arrives (R130). -/
def execSymupdData (l : Fin 4) (p : Pkt) (s : State) : Host.Outcome State Fault Refusal := .next (s.request l 0x21 16 1036 true p)

/-- A symbol update of kind 1 arrives (R130). -/
def execSymupdDescriptor (l : Fin 4) (p : Pkt) (s : State) : Host.Outcome State Fault Refusal :=
  .next (s.request l 0x21 16 1036 true p)

/-- An aspect update arrives (R131). -/
def execAspupd (l : Fin 4) (p : Pkt) (s : State) : Host.Outcome State Fault Refusal := .next (s.request l 0x22 12 44 true p)

/-- A safe PDU arrives (R115, R123, R132, R146). -/
def execSafePdu (l : Fin 4) (p : Pkt) (s : State) : Host.Outcome State Fault Refusal :=
  .next (let (s, ok) := s.pktArrives l 0x40 16 268 p
    if ok = false then s
    else if 8 ≤ (s.link.queue.filter fun q => q.typ == 0x40).length then s.pktOver F.PKT_OVR_safe
    else if hostHdrOk p = false then (s.onLink fun k => { k with retS := k.retS + 1 }).pktMalf F.PKT_MALF_malf
    else s.enqueue l 0x40 p)

/-- The CCV of a CONFIRM is computed (R154): the queue goes on. -/
def execCcvComputeDone (s : State) : Host.Outcome State Fault Refusal :=
  .next (if s.spd.conf then s.confirmDone.serve else s)

/-- OTP programming ends (R158): the queue goes on. -/
def execOtpProgramDone (readbackOk : Bool) (s : State) : Host.Outcome State Fault Refusal :=
  .next (if s.spd.otp.isSome then (s.otpDone readbackOk).serve else s)

/-- The video units in use (R123). -/
def State.videoUsed (s : State) : Nat := (s.link.vwait.map heldUnits).sum

/-- Whether the fields of a VLINE are allowed (R126). -/
def vlineOk (p : Pkt) : Bool :=
  let x := bodyLe p 8 2
  let n := bodyLe p 10 2
  hostHdrOk p && bodyLe p 5 1 == 0 && bodyLe p 6 2 ≤ 639 && x % 2 == 0 && x ≤ 2046 && n % 2 == 0 && 2 ≤ n && x + n ≤ 2048 &&
    p.len.toNat == 8 + 3 * n / 2

/-- A video line packet arrives (R115, R123, R126). -/
def execVline (l : Fin 4) (p : Pkt) (s : State) : Host.Outcome State Fault Refusal :=
  .next (let (s, ok) := s.pktArrives l 0x10 11 3080 p
    if ok = false then s
    else if 512 < s.videoUsed + videoUnits p then (s.pktOver F.PKT_OVR_video).takeVideo (3, p)
    else if vlineOk p then s.takeVideo (0, p)
    else (s.pktMalf F.PKT_MALF_malf).takeVideo (2, p))

/-- A frame end packet arrives (R115, R123, R127). -/
def execFend (l : Fin 4) (p : Pkt) (s : State) : Host.Outcome State Fault Refusal :=
  .next (let (s, ok) := s.pktArrives l 0x11 8 8 p
    if ok = false then s
    else if 512 < s.videoUsed + videoUnits p then (s.pktOver F.PKT_OVR_video).takeVideo (4, p)
    else if hostHdrOk p && bodyLe p 5 3 == 0 then s.takeVideo (1, p)
    else (s.onLink fun k => { k with retV := k.retV + videoUnits p }).pktMalf F.PKT_MALF_malf)

/-- A packet of the device at position 1 arrives on the partner link of the device at position 0 and goes on to the host; where the host
link still waits for its first BND set, it is stored in the return buffer (R100, R117). -/
def execReturnPacketReceive (l : Fin 4) (typ : Byte) (p : Pkt) (s : State) : Host.Outcome State Fault Refusal :=
  .next (if s.live = false ∨ s.active l = false then s
  else
    let back := [0x03, 0x30, 0x40, 0x50].contains typ.toNat && s.laneRole l == 2 && s.get (F.LNK_STAT_end l) == 1
    let whole := p.eop && p.body.length == p.len.toNat && s.crcOk l typ.toNat p
    if back then
      if whole = false then (s.clearBad l).inc F.PKT_OVR_ret
      else match s.hostOut with
        | some h =>
          if s.linkOpen h then s.sendPacket h typ.toNat p.hdr.toNat p.body
          else if 4096 < ((typ.toNat, p.hdr.toNat, p.body) :: s.link.ret |>.map fun e => e.2.2.length + 8).sum then
            (s.inc F.PKT_OVR_ret).event 8 5
          else s.onLink fun k => { k with ret := k.ret ++ [(typ.toNat, p.hdr.toNat, p.body)] }
        | none => (s.inc F.PKT_OVR_ret).event 8 5
    else
      let (t, ok) := s.pktWhole l typ.toNat p
      if ok && p.hdr.getLsbD (t.get F.PKT_POS_pos) then t.pktMalf F.PKT_MALF_malf else t)

/-- Whether every pool is empty (R123, R124). -/
def State.poolsEmpty (s : State) : Bool := s.videoUsed == 0 && (s.link.queue.filter fun q => q.typ != 1 && q.typ != 2).isEmpty

/-- The FC packet of a host link (R124). -/
def State.fcBody (s : State) (l : Nat) : List Byte :=
  let (v, u, k) := (s.lane l).fcBase
  leBytes 2 (512 + s.link.retV - v) ++ leBytes 1 (16 + s.link.retU - u) ++ leBytes 1 (8 + s.link.retS - k)

/-- An FC packet is sent on each host link that is ACTIVE; the first since then waits until every pool is empty, and carries the pool
sizes, from which the later ones count (R124). -/
def execFcSend (s : State) : Host.Outcome State Fault Refusal :=
  .next (if s.live = false then s
  else
    let firsts := s.hostLanes.filter fun l => (s.linkLanes l).find? s.active == some l
    firsts.foldl (fun t l =>
      if (t.lane l).fcSent then t.transmit l 0x50 s.hostHdr (t.fcBody l)
      else if t.poolsEmpty then
        let base := (t.link.retV, t.link.retU, t.link.retS)
        let t := (t.linkLanes l).foldl (fun u k => u.onLane k fun ln => { ln with fcSent := true, fcBase := base }) t
        t.transmit l 0x50 s.hostHdr (t.fcBody l)
      else t) s)

/-- An interrupt message (R134). -/
def State.irqmsg (s : State) : State :=
  let s := s.put F.PKT_IRQSEQ_seq (s.get F.PKT_IRQSEQ_seq + 1)
  let sum := s.irqSum
  (s.toHost 0x30 (leBytes 4 (s.get F.PKT_IRQSEQ_seq) ++ leBytes 4 sum ++ leBytes 4 (s.regN R.SYS_STAT))).onLink fun l =>
    { l with irqLast := BitVec.ofNat 32 sum }

/-- SYS_IRQSUM has changed since the last message and the hold-off has passed (R134). -/
def execIrqmsgSend (s : State) : Host.Outcome State Fault Refusal :=
  .next (if s.live ∧ s.on F.PKT_CFG_irq_en ∧ BitVec.ofNat 32 s.irqSum ≠ s.link.irqLast ∧ s.hostOut.isSome then s.irqmsg else s)

/-- The message is repeated while SYS_IRQSUM is not zero (R134). -/
def execIrqmsgRepeat (s : State) : Host.Outcome State Fault Refusal :=
  .next (if s.live ∧ s.on F.PKT_CFG_irq_en ∧ s.get F.PKT_CFG_repeat ≠ 0 ∧ s.irqSum ≠ 0 ∧ s.hostOut.isSome then s.irqmsg else s)

/-- The packet types that R114 knows. -/
def knownType (t : Nat) : Bool := [0x01, 0x02, 0x03, 0x10, 0x11, 0x20, 0x21, 0x22, 0x30, 0x40, 0x50, 0x60].contains t

/-- Whether the bytes of a packet are its header, its body and a correct CRC-32 (R113). -/
def wireOk (bs : List Byte) : Bool :=
  8 ≤ bs.length && blkLe bs 2 2 + 8 == bs.length && crcLink (bs.take (bs.length - 4)) == blkLe bs (bs.length - 4) 4

/-- A packet of a type that no row carries ends on a link (R115). -/
def State.wireEnd (s : State) (low : Nat) (eop : Bool) : State :=
  let bs := (s.lane low).rxBytes
  if knownType (blkLe bs 0 1) then s
  else if !eop || bs.length < 8 || blkLe bs 2 2 + 8 != bs.length then (s.clearBad low).pktDiscard F.PKT_DISC_frame
  else if wireOk bs = false ∨ (s.lane low).rxBad then (s.clearBad low).pktDiscard F.PKT_DISC_crc
  else if (blkLe bs 1 1).testBit (s.get F.PKT_POS_pos) then s.pktMalf F.PKT_MALF_malf else s

/-- One symbol of a word on lane `l`, whose link's packet the record of lane `low` holds (R92, R102, R113): the symbol unscrambled. -/
def State.rxSym (s : State) (l low : Nat) (y : Sym) : State × (Bool × Nat) :=
  let bad := y.codeErr || y.dispErr
  let v := y.val
  let rec' := s.lane low
  let s := if bad && rec'.rxOpen then s.onLane low fun ln => { ln with rxBad := true } else s
  if y.k then
    let s := s.onLane l fun ln => ln.feed 1 0
    if v = 0xFB then (s.onLane low fun ln => { ln with rxOpen := true, rxBytes := [], rxBad := bad, rxFwd := false }, (true, v))
    else if rec'.rxOpen ∧ (v = 0xFD ∨ v = 0xFE) then
      let broken := rec'.rxFwd && (v == 0xFE || !wireOk rec'.rxBytes || (s.lane low).rxBad)
      let t := (s.wireEnd low (v == 0xFD)).onLane low fun ln => { ln with rxOpen := false }
      (if broken then t.inc (F.LNK_FWDDROP_ebp 2) else t, (true, if broken then 0xFE else v))
    else (s, (true, v))
  else if rec'.rxOpen then
    let off := (s.lane l).scrOff
    let (d, f) := if off then (v, (s.lane l).lfsr) else scramble (s.lane l).lfsr v
    ((s.onLane l fun ln => ({ ln with lfsr := f } : Lane).feed (if off then 1 else 0) (if off then 0 else 1)).onLane low fun ln =>
      { ln with rxBytes := ln.rxBytes ++ [BitVec.ofNat 8 d] }, (false, d))
  else (s.onLane l fun ln => ln.feed 1 0, (false, v))

/-- The number of lanes in a mask of a bonded link, or one. -/
def maskWidth (m : Nat) : Nat := max 1 (bits m 0 1 + bits m 1 1)

/-- Whether the partner link resolved as upstream (R94, R105): by its ACTIVE lanes, where one is. -/
def State.partnerUp (s : State) : Bool :=
  let on := (s.linkLanes 2).filter s.active
  (if on = [] then s.linkLanes 2 else on).any fun l => s.get (F.LNK_STAT_end l) == 1

/-- The first word of a packet decides whether it is forwarded: the partner link must be ACTIVE, have sent its first BND set and be wide
enough (R100, R105, R116). -/
def State.forwardStart (s : State) (low : Nat) : State :=
  let bs := (s.lane low).rxBytes
  let wanted := s.get F.PKT_POS_pos == 0 && s.laneRole low == 1 && s.on (F.LNK_CFG_fwd 2) && s.partnerUp &&
    blkLe bs 0 1 != 0x60 && (blkLe bs 1 1).testBit 1
  let rxw := if s.bonded low then maskWidth (s.get (F.LNK_STAT_rxw low)) else 1
  let txw := if s.bonded 2 then maskWidth (s.get (F.LNK_STAT_txw 2)) else 1
  if wanted = false then s
  else if s.linkOpen 2 ∧ rxw ≤ txw then s.onLane low fun ln => { ln with rxFwd := true }
  else (s.inc (F.LNK_FWDDROP_drop 2)).event 6 10

/-- The lane that carries word `k` of a forwarded packet, by the transmit mask in force (R99, R100). -/
def State.forwardLane (s : State) (k : Nat) : Nat :=
  let on := s.txLanes 2
  on.getD (k % max 1 on.length) 2

/-- Whether word `k` of a packet, open or starting, may come on lane `l`: at a receive width of two lanes the words alternate, from the
lower lane (R99). Words between packets do not count. -/
def State.inTurn (s : State) (l low k : Nat) (packet : Bool) : Bool :=
  !packet || !s.bonded l || s.get (F.LNK_STAT_rxw low) != 3 || l == low + k % 2

/-- One symbol of a word out of turn: it feeds the loops of its lane as any other and reaches no packet (R92, R102). -/
def State.straySym (s : State) (l low : Nat) (y : Sym) : State :=
  s.onLane l fun ln =>
    if !y.k && (s.lane low).rxOpen && !ln.scrOff then ({ ln with lfsr := (scramble ln.lfsr y.val).2 } : Lane).feed 0 1 else ln.feed 1 0

/-- A word of packet data on an ACTIVE lane reaches the packet layer (R99, R105). A start of packet out of turn starts none, and a word
out of turn spoils its packet (DESIGN CHOICE, log entry 47). -/
def State.rxWord (s : State) (l : Nat) (w : List Sym) : State :=
  let low := s.linkLow l
  let first := match w with | y :: _ => y.k && y.val == 0xFB | [] => false
  let k := if first then 0 else ((s.lane low).rxBytes.length + 1) / 4
  if s.inTurn l low k (first || (s.lane low).rxOpen) = false then
    (w.foldl (fun t y => t.straySym l low y) s).onLane low fun ln => { ln with rxBad := true }
  else
  let (t, out) := w.foldl (fun (acc : State × List (Bool × Nat)) y =>
    let (t, o) := acc.1.rxSym l low y
    (t, acc.2 ++ [o])) (s, [])
  let t := if first then t.forwardStart low else t
  if (t.lane low).rxFwd then
    let t := t.sendWord (t.forwardLane k) out
    if (t.lane low).rxOpen then t else t.onLane low fun ln => { ln with rxFwd := false }
  else t

/-- The symbols of a word of code groups on a lane, inverted where LNK_STAT.inv is set, and the running disparity after it (R90, R93). -/
def State.decodeWord (s : State) (l : Nat) (w : List (BitVec 10)) : List Sym × Bool :=
  w.foldl (fun acc g =>
    let (y, rd) := decode10 (if s.on (F.LNK_STAT_inv l) then 1023 - g.toNat else g.toNat) acc.2
    (acc.1 ++ [y], rd)) ([], (s.lane l).rd)

/-- A word is received on a lane: it feeds the error bucket, and in ACTIVE reaches the packet layer (R96, R105, R112). In POLL and CAPS its
symbols count as no scrambled data (DESIGN CHOICE, log entry 75). What a whole
packet of a known type does is that packet's own command. -/
def execLaneWordReceive (l : Fin 4) (w : Vector (BitVec 10) 4) (s : State) : Host.Outcome State Fault Refusal :=
  .next (if s.live ∧ 2 ≤ s.laneState l ∧ s.laneState l ≤ 4 then
    let (ys, rd) := s.decodeWord l w.toList
    let code := ys.any fun y => y.codeErr
    let disp := ys.any fun y => y.dispErr
    let s := s.onLane l fun ln => { ln with rd := rd }
    let s := if code || disp then s.badWord l code disp else s.onLane l fun ln => { ln with bucket := ln.bucket - 1 }
    if s.active l then s.rxWord l ys else s.onLane l fun ln => ln.feed 4 0
  else s)

end Sys2Proof.Machine
end

