-- ==== Sys2Proof/Machine/Spi.lean ====
section
/-! DEFINITION. The SPI port (R135 to R137). -/

namespace Sys2Proof.Machine

/-- The SPI port changes. -/
def State.onSpi (s : State) (f : Spi → Spi) : State := { s with spi := f s.spi }

/-- The eight bytes of a frame, most significant first. -/
def frameBytes (v : Nat) : List Byte := (leBytes 8 v).reverse

/-- A MISO frame with its CRC-8 (R135, R136). -/
def State.misoFrame (s : State) (status seq data : Nat) : BitVec 64 :=
  let hi := status * 16 + seq * 4 + (if s.irqSum = 0 then 0 else 2)
  let v := hi * 2 ^ 56 + s.mode.code * 2 ^ 52 + data * 2 ^ 8
  BitVec.ofNat 64 (v + crc8 ((frameBytes v).take 7))

/-- SPI_CS_N falls (R137): the MISO frame reports the oldest access not yet reported, or that one still runs. -/
def execSpiFrameStart (s : State) : Host.Outcome State Fault Refusal :=
  .next (if s.live = false ∨ s.spi.low then s
  else match s.spi.running.or s.spi.waiting with
    | some a => s.onSpi fun p => { p with low := true, discard := true, miso := s.misoFrame 0xE a.seq 0 }
    | none =>
      match s.spi.done with
      | a :: r => s.onSpi fun p => { p with low := true, discard := false, done := r, miso := s.misoFrame a.status a.seq a.res.toNat }
      | [] => s.onSpi fun p => { p with low := true, discard := false, miso := s.misoFrame 0 0 (s.peek R.SYS_STAT).toNat })

/-- An access that completes with a status and data. -/
def State.spiDone (s : State) (a : SpiAcc) : State := s.onSpi fun p => { p with done := p.done ++ [a] }

/-- SPI_CS_N rises after `cycles` cycles (R135 to R137): the frame's access waits to be executed, or the frame was in error. A
frame in error waits its turn to be reported behind an access that has completed, and a frame with op 0b11 counts as executed (DESIGN
CHOICE, log entry 72). -/
def execSpiFrameEnd (cycles : Nat) (mosi : BitVec 64) (s : State) : Host.Outcome State Fault Refusal :=
  .next (if s.live = false ∨ s.spi.low = false then s
  else
    let v := mosi.toNat
    let good := cycles = 64 ∧ crc8 ((frameBytes v).take 7) = v % 256
    let t := s.onSpi fun p => { p with low := false, discard := false }
    let a : SpiAcc := { op := bits v 62 2, seq := bits v 60 2, addr := bits v 40 20, data := BitVec.ofNat 32 (bits v 8 32) }
    if ¬ good then ((t.inc F.PKT_SPICNT_err).event 8 6).spiDone { a with status := 0xD }
    else if s.spi.discard then t
    else if a.op = 3 then (t.inc F.PKT_SPICNT_ok).spiDone { a with status := 0xB }
    else t.onSpi fun p => { p with waiting := some a })

/-- The waiting access of an operation is executed (R137); it then runs until it completes. -/
def State.spiRun (s : State) (op : Nat) (f : SpiAcc → State → State × SpiAcc) : State :=
  match s.spi.waiting with
  | some a =>
    if a.op = op ∧ s.live then
      let (t, b) := f a ((s.inc F.PKT_SPICNT_ok).onSpi fun p => { p with waiting := none })
      if t.live then t.onSpi fun p => { p with running := some b } else t
    else s
  | none => s

/-- A NOP access is executed: its read data is SYS_STAT (R137). -/
def execSpiNop (s : State) : Host.Outcome State Fault Refusal :=
  .next (s.spiRun 0 fun a t => (t, { a with status := 0, res := t.peek R.SYS_STAT }))

/-- A read access is executed (R137). -/
def execSpiRead (s : State) : Host.Outcome State Fault Refusal :=
  .next (s.spiRun 1 fun a t =>
    let (u, st, v) := t.readWord .spi a.addr 4
    (u, { a with status := st, res := BitVec.ofNat 32 v }))

/-- A write access is executed (R61, R137). -/
def execSpiWrite (s : State) : Host.Outcome State Fault Refusal :=
  .next (s.spiRun 2 fun a t =>
    let (u, st) := t.writeWord .spi a.addr 4 a.data.toNat
    (u, { a with status := st, res := 0 }))

/-- The running access completes (R137). -/
def execSpiAccessComplete (s : State) : Host.Outcome State Fault Refusal :=
  .next (match s.spi.running with
    | some a => (s.onSpi fun p => { p with running := none }).spiDone a
    | none => s)

end Sys2Proof.Machine
end

