-- ==== Sys2Proof/Machine/PairSend.lean ====
section
/-! DEFINITION. The Axolotl unit: what it keeps of its partner (R425, R431, R432), and the PAIR packets that it sends (R413 to R416,
R420, R421). -/

namespace Sys2Proof.Machine

/-- Whether a standby compares what it sees (R423). -/
def State.compares (s : State) : Bool := s.mode == .mirror && s.on F.AXO_STAT_aligned && !s.pair.backlog

/-- A divergence (R423, R425, R436, R437): the first since a clear is captured. -/
def State.diverge (s : State) (what chain pos row : Nat) : State :=
  let s := if s.on F.AXO_DIVCAP_valid then s
    else ((((s.put F.AXO_DIVCAP_what what).put F.AXO_DIVCAP_chain chain).put F.AXO_DIVCAP_pos pos).put F.AXO_DIVCAP_row row).put
      F.AXO_DIVCAP_valid 1
  ((s.inc ⟨R.AXO_DIV, 0, 16⟩).event 30 3).raise 40 0

/-- A comparison: its failure is a divergence (R423). -/
def State.compareIf (s : State) (ok : Bool) (what chain pos row : Nat) : State :=
  if s.compares && !ok then s.diverge what chain pos row else s

/-- Whether PARTNER_LOST is present (R432). -/
def State.partnerLost (s : State) : Bool :=
  s.on F.AXO_CFG_pair && (match s.mode with
    | .operate => !s.heard s.pair.noReady
    | .fallback => !s.heard s.pair.noReady
    | .mirror => !s.heard s.pair.noDig || !s.on F.AXO_STAT_sync
    | .configure => !s.heard s.pair.noPair
    | _ => false)

/-- Whether the device is chain master (R250, R413). -/
def State.master (s : State) : Bool := s.driving && s.on F.CLK_STAT_permit

/-- PARTNER_LOST, AXO_STAT.partner and AXO_STAT.markers follow what was heard (R432, R436, R437). -/
def State.showPartner (s : State) : State :=
  let lost := s.partnerLost
  let s := s.eventIf (lost && !(s.fltInst 41 0).present) 30 1
  let s := s.flag F.AXO_STAT_partner (s.heard s.pair.noPair)
  (s.flag F.AXO_STAT_markers (s.pair.noMark ≤ 2 && !s.master)).setCond 41 0 lost

/-- The partner link's lane to send on: its lowest ACTIVE lane (R413). -/
def State.pairLane (s : State) : Option Nat := [2, 3].find? fun l => s.active l && s.laneRole l == 2

/-- Bytes of a mask of `n` bits, bit `i` set where `f i` holds. -/
def maskBytes (n : Nat) (f : Nat → Bool) : List Byte := leBytes (n / 8) (bitmask n f)

/-- Packet bytes 4 to 31 of a DIGEST or HEARTBEAT (R414, R416). -/
def State.pairHead (s : State) (kind : Nat) (ready : Bool) : List Byte :=
  leBytes 1 (kind + 16 * s.get F.AXO_STAT_role + 64 * s.get F.SYS_STAT_cfg_ok + 128 * s.get F.CLK_STAT_permit) ++
    leBytes 1 (s.mode.code + 16 * s.get F.SYS_STAT_role_pin + 32 * ready.toNat) ++ leBytes 2 s.pair.hseq ++ leBytes 4 s.pnow ++
    leBytes 4 s.serialLo ++ leBytes 1 s.dNow ++ leBytes 1 (s.get F.CHN_LTAG_ltag) ++ leBytes 2 s.light.ftgt ++
    leBytes 4 (s.regN R.SPD_CCVCALC) ++ maskBytes 64 s.latched

/-- What a period start did, for its DIGEST (R414): it carried out an acknowledgement event, brought a frame into force, applied the
explicit clause, and applied implicit clauses with these tags. -/
structure StartDone where
  ack   : Bool
  frame : Bool
  expl  : Bool
  tags  : List Nat
deriving DecidableEq, Repr

/-- Whether a fade of aspect `a` has started at the present period, by comparison with the state before it (R414). -/
def State.fadeBegan (s old : State) (a : Nat) : Bool := (s.fade a).ps == s.pnow && s.fade a != old.fade a

/-- f0crc over the started fades (R414). -/
def State.f0crc (s : State) (as : List Nat) : Nat := crcLink (as.flatMap fun a => leBytes 2 (s.fade a).f0)

/-- A list of numbers as bytes, in `n` places of `w` bytes, the unused ones `fill`. -/
def placesOf (n w fill : Nat) (l : List Nat) : List Byte := (List.range n).flatMap fun k => leBytes w (l.getD k fill)

/-- The body of a DIGEST (R414). `old` is the state before the period start, and `w` what it has done. A swap that takes effect at it, in the
row that follows, starts a pass. -/
def State.digestBody (s old : State) (w : StartDone) : List Byte :=
  let names := (s.pair.names.filter fun e => e.2 == s.pnow).map Prod.fst
  let began := (List.range 160).filter (s.fadeBegan old)
  let swap := s.swapReached
  let u := if swap then s.takeSwap else s
  let pass := u.passDue swap && u.slotFree
  let ev := bitmask 7 fun k => match k with
    | 0 => swap
    | 1 => w.ack
    | 2 => w.expl
    | 3 => pass
    | 4 => w.frame
    | 5 => s.dNow != old.dNow
    | _ => 8 < names.length || 8 < w.tags.length
  let r := (s.perRec (perAdd s.pnow (2 ^ 32 - 2))).getD {}
  s.pairHead 1 false ++ maskBytes 160 (fun a => s.on (F.ASP_FLT_off a)) ++ maskBytes 160 began.contains ++
    leBytes 4 (s.f0crc began) ++ leBytes 1 ev ++ leBytes 1 (s.get F.VIN_STAT_fnum) ++ placesOf 8 1 0xFF (w.tags.take 8) ++
    placesOf 8 3 0 (names.take 8) ++ (List.range 4).flatMap (fun g => leBytes 2 (s.get (F.SPL_STAT_code g))) ++
    leBytes 2 (s.get F.SPD_RXSTAT_last) ++ (List.range 80).flatMap (fun t => leBytes 2 (s.tile t).prev) ++
    (List.range 80).flatMap (fun t => leBytes 1 (kvNat r.acc t)) ++ maskBytes 80 r.prf.contains ++ leBytes 2 0

/-- The context block of a restatement (R421). -/
def State.contextBlock (s : State) : List Byte :=
  let aspect (a : Nat) : List Byte :=
    leBytes 4 (s.get (F.ASP_FST_ps a)) ++
      leBytes 2 ((s.fade a).f0 + 8192 * s.get (F.ASP_CTL_en a) + 16384 * s.get (F.ASP_FST_fading a)) ++
      leBytes 2 (s.get (F.ASP_CTL_ft a))
  let words (l : List Nat) : List Byte := l.flatMap fun a => leBytes 4 (s.regN a)
  let tail := leBytes 1 (s.get F.VIN_STAT_fnum) ++ leBytes 1 s.slotNow ++ leBytes 2 (s.get F.MSK_GEN_inforce) ++
    leBytes 4 (crcLink (words ((List.range 32).flatMap fun k => [R.MSK_RECTLo k, R.MSK_RECTHi k]))) ++
    leBytes 4 (crcLink (words ((List.range 160).flatMap fun a => [R.ASP_CTL a, R.ASP_POS a]))) ++ leBytes 4 (s.regN R.CLS_COUNT)
  (List.range 160).flatMap aspect ++ tail ++ List.replicate (256 - tail.length) 0

/-- The bytes of a restatement block (R420, R421): 0xFF the context block, else an array tile's states and ledger entries. -/
def State.restSize (s : State) (blk : Nat) : Nat := if blk = 0xFF then 1536 else 16384 + 8 * s.ledgerCap

/-- The SRAM address of byte `o` of a tile's restatement block (R420). -/
def restAddr (blk o : Nat) : Nat := if o < 16384 then 0xC00000 + 16384 * blk + o else ledgerAddr blk 0 + (o - 16384)

/-- The words of a chunk of `n` bytes are read: pixel states and ledger entries that cannot be read are restored or lost first (R187,
R291). -/
def State.readChunk (s : State) (blk off n : Nat) : State :=
  if blk = 0xFF then s
  else
    let states := min n (16384 - off)
    let s := if states = 0 then s else s.restore (wordIn (restAddr blk off) states)
    if n = states then s else s.readEntries (restAddr blk (off + states)) (n - states)

/-- A chunk of `n` bytes of a restatement block (R420, R421). -/
def State.restChunk (s : State) (blk off n : Nat) : List Byte :=
  if blk = 0xFF then (s.contextBlock.drop off).take n
  else (List.range n).map fun k => BitVec.ofNat 8 (s.rdByte (restAddr blk (off + k)))

/-- The block that follows another in a restatement; none after the last (R420). -/
def State.restNext (s : State) (blk : Nat) : Option Nat :=
  if blk = 0xFF then s.tileList.head? else s.tileList.find? fun t => blk < t

/-- Where a restatement goes on after a chunk of `n` bytes at an offset of a block (R420). -/
def State.restStep (s : State) (blk off n : Nat) : Option (Nat × Nat) :=
  if off + n < s.restSize blk then some (blk, off + n)
  else (s.restNext blk).map fun b => (b, 0)

/-- A failure entry of a LISTS (R415). -/
def failEntry (e : Nat × Nat) : List Byte := leBytes 4 (e.1 / 16384 + 128 * (e.1 % 16384) + 2 ^ 21 * e.2)

/-- A LISTS is built: the state after it, and its body (R415, R420). -/
def State.lists (s : State) : State × List Byte :=
  let fails := ((s.perRec (perAdd s.pnow (2 ^ 32 - 2))).getD {}).fails
  let recs := s.pair.recs.take 24
  let later := s.pair.recs.drop 24
  let (blk, off) := s.pair.restAt.getD (0, 0)
  let n := if s.pair.restAt.isSome then min 384 (s.restSize blk - off) else 0
  let s := s.readChunk blk off n
  let chunk := s.restChunk blk off n
  let next := if s.pair.restAt.isSome then s.restStep blk off chunk.length else none
  let last := s.pair.restAt.isSome && next.isNone
  let flags := bitmask 4 fun k => match k with
    | 0 => 96 < fails.length
    | 1 => s.pair.restAt.isSome
    | 2 => last
    | _ => !later.isEmpty
  let body := leBytes 1 2 ++ leBytes 1 flags ++ leBytes 1 (min 96 fails.length) ++ leBytes 1 recs.length ++ leBytes 1 blk ++
    leBytes 3 off ++ (fails.take 96).flatMap failEntry ++ recs.flatten ++ chunk
  let s := if last then (s.put F.AXO_STAT_restating 0).inc F.AXO_CNT_restatements else s
  (s.onPair fun a => { a with recs := later, restAt := next }, body)

/-- The body of a HEARTBEAT (R416). -/
def State.heartbeatBody (s : State) : List Byte :=
  s.pairHead 3 s.axoReady ++ leBytes 2 (s.regN R.AXO_DIV % 65536) ++ leBytes 1 (s.get F.SYS_ACKSTAT_count) ++
    leBytes 1 (s.get F.AXO_STAT_pos + 4 * s.get F.AXO_STAT_aligned + 8 * s.get F.AXO_STAT_restating)

/-- A PAIR packet is sent; src is the device's position (R113, R133, R413). -/
def State.sendPair (s : State) (l : Nat) (body : List Byte) : State := s.transmit l 0x60 s.hostHdr body

/-- The PAIR packets of a period start (R413). -/
def State.pairSend (s old : State) (w : StartDone) : State :=
  let s := match s.pairLane with
    | none => s
    | some l =>
      if s.paired = false then s
      else
        let s := s.onPair fun a => { a with hseq := (a.hseq + 1) % 65536 }
        if s.master then
          let (t, lists) := s.lists
          (t.sendPair l (s.digestBody old w)).sendPair l lists
        else s.sendPair l s.heartbeatBody
  s.onPair fun a => { a with names := a.names.filter fun e => !perReached e.2 s.pnow }

end Sys2Proof.Machine
end

