-- ==== Sys2Proof/Machine/Period.lean ====
section
/-! DEFINITION. The start of a PWM period (R225): the LATCHes whose period it is (R264, R265), the frame, mask and aspects off that come
into force (R10, R47, R48, R50, R176 to R180, R232, R321), the record of the period (R11, R282), the heartbeat (R19), fault reaction
(R313, R317, R318), acknowledgement (R44), fades (R207, R208), the markers (R251), and the pair (R410 to R413, R432). -/

namespace Sys2Proof.Machine

/-- The period number and the period's timing advance (R83, R225, R243). A standby's tail may be longer once (R410). -/
def State.nextPeriod (s : State) : State :=
  let start := s.pstart + s.periodCycles + s.pair.shift * 5000 / 4096
  let t := max s.now start
  let clk := s.vid.clk + 4096 * s.dNow + s.pair.shift
  let s := s.setRegN R.CLS_PNOW (perAdd s.pnow 1)
  let s := { s with now := t, pstart := t, vid := { s.vid with clk := clk } }
  (s.onPair fun a => { a with shift := 0 }).showTiming s.dNow s.pnow

/-- Whether the period of a waiting LATCH has come. -/
def State.latchDue (s : State) (w : Option WaitLatch) : Bool :=
  match w with | some w => perReached w.target s.pnow | none => false

/-- A LATCH applies on a chain (R264, R265, R266): its banks move, and rows that joined it and are not verified are sent again and not
judged until a later LATCH. -/
def State.latchApplies (s : State) (c : Nat) (frame : Bool) : State :=
  let ch := s.chain c
  match ch.mover (if frame then 0 else 1) with
  | none => s
  | some w =>
    let open' (r : Nat) : Bool := (ch.expect ++ ch.again).any fun e => e.typ == 1 && e.key == r && (frame || e.bank == 1)
    let late := ch.joined.filter open'
    let moved := ch.bankU ++ if frame then ch.bankF else []
    let s := s.onChain c fun ch =>
      { ch with movedAt := some s.pnow, movedU := if ch.movedAt = some s.pnow then addLast ch.bankU ch.movedU else ch.bankU,
                movedF := (if ch.movedAt = some s.pnow then ch.movedF else []) ++ if frame then ch.bankF else [],
                tag := w.ltag, latchF := if frame then none else ch.latchF, latchU := if frame then ch.latchU else none,
                bankU := [], bankF := if frame then [] else ch.bankF, joined := ch.joined.filter fun r => !open' r,
                unsure := late.foldr addNum (ch.unsure.filter fun r => !moved.contains r),
                again := ch.again.filter fun e => !(e.typ == 1 && late.contains e.key) }
    let s := s.queueReact late
    s.flag (F.CHN_STAT_lpend c) ((s.chain c).latchF.isSome || (s.chain c).latchU.isSome)

/-- The waiting LATCHes of every chain whose period has come apply, the urgent one first (R264). -/
def State.latchesApply (s : State) : State :=
  (List.range 20).foldl (fun u c =>
    let u := if u.latchDue (u.chain c).latchU then u.latchApplies c false else u
    if u.latchDue (u.chain c).latchF then u.latchApplies c true else u) s

/-- The offsets of the last frame LATCH are in force (R232, R242, R244). -/
def State.offsetsInForce (s : State) : State :=
  let n := ((List.range 80).filter fun t => (s.tile t).off != (s.tile t).prev).length
  let s := { s with tiles := s.tiles.map fun (t : Tile) => ({ t with off := t.prev } : Tile) }
  let s := (List.range 40).foldl (fun u k =>
    let f (t : Nat) : Nat := if (u.place t).isSome then (u.tile t).off else 0
    u.setRegN (R.PLC_OFF k) (f (2 * k) + 65536 * f (2 * k + 1))) s
  let s := s.setRegN R.PLC_OFFPER s.pnow
  if n = 0 then s else (s.incBy F.PLC_CNT_changes n).event 14 1

/-- The settings that govern the chains change with the frame that comes into force (R47, R48, R50): chains start or stop, and the
rows of tiles that are new or have moved follow. -/
def State.switchSettings (s : State) (fb : Bool) : State :=
  let old := s
  let s := { s with light := { s.light with fb := fb } }
  let s := (List.range 20).foldl (fun u c =>
    if 0 < old.pop c ∧ u.pop c = 0 then u.onChain c fun ch => { ch with stopAt := some u.pnow } else u.chainStart c) s
  s.queueFrame (((s.tileList.filter fun t => s.place t != old.place t)).flatMap tileRows)

/-- The mask generation in force, with its register and event (R176, R195, R197). -/
def State.maskInForce (s : State) (gen : Nat) (m : List Word) : State :=
  let new := gen != s.get F.MSK_GEN_inforce
  let s := (s.put F.MSK_GEN_inforce gen).onVid fun v => { v with maskNow := m }
  if new then (s.inc F.MSK_CNT_inforce).event 12 0 else s

/-- A mask generation that applied at period `a`, where it is not in force already, comes into force, late where more than a period has
passed (R176, R178). -/
def State.maskComes (s : State) (a : Option Nat) (gen : Nat) (m : List Word) : State :=
  let late := match a with | some a => !perReached s.pnow (perAdd a 1) | none => false
  let s := s.maskInForce gen m
  let s := if late then (s.inc F.MSK_LATE_late).event 12 1 else s
  if gen = s.get F.MSK_GEN_applied then s.onVid fun v => { v with maskGen := none } else s

/-- OPERATE begins with the frame that a BEAM item in FALLBACK brought (R50, R178, R180, R322, R359): its rows carry the mask of its LATCH
and the aspects that are off from its first period; what has changed since follows. -/
def State.operateBegins (s : State) : State :=
  let (a, gen, m) := s.light.backMask.getD (s.vid.maskGen, s.get F.MSK_GEN_applied, s.maskWords)
  let s := (((s.setMode .operate).balStart).clearFbInput).maskComes a gen m
  let s := { s with light := { s.light with back := false, backDue := false, backMask := none, offForce := s.light.backOff, offDue := [],
                                            maskDue := [] } }
  let s := s.queueUrgent (maskRows s.tileList m s.maskWords)
  ((s.showOff s.light.backOff).evalPolicies).retakeFallback

/-- The settings, and in MIRROR the mask, that come with a frame (R47, R48, R50, R180, R417). -/
def State.frameSettings (s : State) (kind : FrameKind) : State :=
  match kind with
  | .fallback =>
    if s.light.fb then s
    else
      let t := s.switchSettings true
      { t with light := { t.light with offForce := [], offDue := [] } }
  | .layers =>
    let t := if s.light.fb then s.switchSettings false else s
    if t.mode = .fallback then
      if t.light.backDue then t.operateBegins else { t with light := { t.light with offForce := t.light.backOff } }
    else if s.light.fb then t.maskComes t.vid.maskGen (t.get F.MSK_GEN_applied) t.maskWords
    else t
  | .dark => s

/-- A frame comes into force (R10, R47, R48, R50, R176, R180, R232, R265). -/
def State.frameInForce (s : State) (slot : Nat) (kind : FrameKind) : State :=
  let s := { s.put F.CMP_STAT_inforce slot with light := { s.light with frameDue := none } }
  let s := (List.range 20).foldl (fun u c =>
    if (u.chain c).latchF.isSome then u.onChain c fun ch => { ch with unsure := ch.bankF.foldr addNum ch.unsure } else u) s
  let s := s.frameSettings kind
  let clear := s.drained && (List.range 20).all fun c => (s.chain c).bankU.isEmpty && (s.chain c).unsure.isEmpty
  let s := if clear ∧ kind = FrameKind.layers then s.bringUrgent s.pnow else s
  s.offsetsInForce

/-- The frame whose period has come is in force. In MIRROR the partner's digest says so (R417). -/
def State.frameReached (s : State) : Bool :=
  s.mode != .mirror && match s.light.frameDue with | some (p, _, _) => perReached p s.pnow | none => false

/-- The clauses due at a period start are applied at it, so that their values govern that whole period (R74 to R77; DESIGN CHOICE, log
entry 64): the explicit one, then the implicit ones in arrival order. Beside the state, whether the explicit clause was applied, and the
tags of the implicit ones applied (R414). In MIRROR the partner's DIGEST applies them (R417). -/
def State.clausePeriod (s : State) : State × Bool × List Nat :=
  if s.mode = .mirror then (s, false, [])
  else
    let expl := s.explicitDue && (s.agree s.clauseWords).isNone
    let s := if s.explicitDue then s.applyClause true else s
    let (s, tags) := (s.cl.implicit.filter fun c => s.dueNow c.due).foldl (fun (e : State × List Nat) c =>
      let ok := (e.1.agree c.words).isNone && !(c.kind == 3 && e.1.enableBarred c.words)
      (e.1.takeImplicit c, if ok then e.2 ++ [c.tag] else e.2)) (s, [])
    (s, expl, tags)

/-- D for a period (R225, R47). In MIRROR the partner's digest gives it (R414). -/
def State.periodD (s : State) : Nat :=
  if s.mode = .mirror then s.dNow else if s.light.fb then s.fbByte 3 else s.get F.PLC_PWM_div

/-- The set of aspects off whose period has come is in force (R321). -/
def State.offInForce (s : State) : State :=
  match dueAt Prod.fst s.light.offDue s.pnow with
  | some e => { s with light := { s.light with offForce := e.2, offDue := s.light.offDue.filter fun x => !perReached x.1 s.pnow } }
  | none => s

/-- The mask generation and the aspects off whose period has come are in force (R176 to R178, R180, R197, R321). -/
def State.urgentInForce (s : State) : State :=
  let s := s.offInForce
  match dueAt Prod.fst s.light.maskDue s.pnow with
  | none => s
  | some (_, a, gen, m) =>
    let s := { s with light := { s.light with maskDue := s.light.maskDue.filter fun x => !perReached x.1 s.pnow } }
    if s.fbMode then s else s.maskComes (some a) gen m

/-- The mask history's entry of the period (R179, R180). -/
def State.writeMaskHist (s : State) : State :=
  let m := s.maskDriven
  s.setBytes (0x8E0000 + 512 * (s.pnow % 4))
    ((List.range 64).flatMap (fun k => leBytes 4 (m.getD k 0).toNat) ++ leBytes 4 s.pnow ++ leBytes 4 (s.get F.MSK_GEN_inforce) ++
      List.replicate 248 0)

/-- PROOF packets for the period that begins whose ACK has not come are abandoned; a replacement that found no time to be sent leaves
its tile to drive the pixels (R256, R299). -/
def State.closeProofs (s : State) : State :=
  (List.range 20).foldl (fun u c =>
    let past (l : List Sent) : List Sent := l.filter fun e => e.typ == 3 && perReached e.per u.pnow
    let u := (past (u.chain c).expect).foldl (fun v e => (v.unexpect c e).abandonProof c) u
    (past (u.chain c).again).foldl (fun v e =>
      let v := v.onChain c fun ch => { ch with again := ch.again.erase e }
      if e.unsent then v.proofDriven e.bank else v.abandonProof c) u) s

/-- The record of what is in force in the period, without its proofs. -/
def State.recNow (s : State) : PerRec :=
  { per := s.pnow, d := s.dNow, slot := s.slotNow, fb := s.light.fb, off := s.light.offForce,
    offs := s.tiles.toList.map Tile.off, tags := s.chains.toList.map Chain.tag,
    unsure := s.chains.toList.flatMap Chain.unsure }

/-- The period is recorded with its proofs (R11, R282, R283, R299); `own` are the pixels that a standby would prove (R419). -/
def State.record (s : State) (own : List Nat) : State :=
  let lit := !darkPeriod s.pnow
  let bad := s.light.proofBad
  let r := s.recNow
  let r := if lit = false then r
    else if s.mode = .mirror then { r with proof := own }
    else { r with proof := s.light.proofOk.flatMap Prod.snd, vague := bad.flatMap Prod.snd,
                  prf := (s.light.proofOk.filter fun e => (kvFind bad e.1).isNone).map Prod.fst }
  let s := { s with light := { s.light with hist := (r :: s.light.hist).take 8 } }
  if lit then { s with light := { s.light with proofSent := [], proofOk := [], proofBad := [] } } else s

/-- The heartbeat to the safety island (R19): a sequence count that does not follow the last one seen is a watchdog case too. -/
def State.heartbeat (s : State) : State :=
  let i := s.isl
  let n := i.sense.map (· + 1)
  let runs := match n with | some k => 2 ≤ k | none => false
  let miss := if runs && !i.hbFlag then i.hbClear + 1 else 0
  let skip := (i.hbSeq + 1) % 16 != (i.hbLast + 1) % 16
  { s with isl := { i with hbSeq := (i.hbSeq + 1) % 16, hbLast := (i.hbSeq + 1) % 16, hbGap := 0, sense := n, hbClear := miss,
                           hbFlag := false, wdogDue := i.wdogDue || skip || 2 ≤ miss } }

/-- Inward lock lost for a whole period in RUN (R274). -/
def State.lockPeriod (s : State) : State :=
  (List.range 20).foldl (fun u c => match (u.chain c).unlockAt with
    | some p => if u.get (F.CHN_STAT_state c) = 2 ∧ perReached (perAdd p 2) u.pnow then u.chainLoop c else u
    | none => u) s

/-- What an acknowledgement event does at its period start (R44, R288, R317, R318, R377, R388). -/
def State.ackApply (s : State) : State :=
  let s := s.sioAck
  (if s.lightMode then s.ackPixels else s).fltAck

/-- Whether a pass may start at the period start, a dirty row apart (R171, R208). -/
def State.passMay (s : State) (swap : Bool) : Bool :=
  s.get F.CMP_STAT_state != 1 && !s.vid.placing && s.slotFree &&
    (swap || (s.get F.CMP_STAT_state == 0 && (s.vid.passPer.isNone || s.vid.nominal + s.passGap ≤ s.vid.clk)))

/-- Whether the period start is an evaluation point of the fades (R208). In MIRROR it follows the digest. -/
def State.evalPoint (s : State) : Bool :=
  match s.mode with
  | .operate => s.passMay s.swapReached
  | .mirror => s.digestPass || s.passMay false
  | .configure => s.vid.evalPer.isNone || s.vid.evalClk + s.passGap ≤ s.vid.clk
  | .fallback => s.vid.evalPer.isNone || s.vid.evalClk + s.passGap ≤ s.vid.clk
  | _ => false

/-- Every aspect is evaluated where the period start is an evaluation point (R208). -/
def State.evalFades (s : State) : State :=
  if s.evalPoint then
    (List.range 160).foldl State.refade (s.onVid fun v => { v with evalPer := some s.pnow, evalClk := v.clk })
  else s

/-- The fades of the period: changes whose period has come start, those of fade groups too, and the engine evaluates (R207, R208, R211).
In MIRROR the digest starts them (R417). -/
def State.fadePeriod (s : State) : State :=
  let s := (List.range 160).foldl State.settleFade s
  if s.mode = .mirror then s else ((List.range 160).foldl State.groupChange s).evalFades

/-- The marker of a chain (R251), and what follows its first (R250, R273). -/
def State.sendMarker (s : State) (c : Nat) : State :=
  if s.driving ∧ s.on (F.CHN_STAT_drv c) ∧ s.get (F.CHN_STAT_state c) ≠ 0 then
    let ph := (5 - s.vid.clk % 5) % 5
    let s := (s.load c 6).emit (.marker c (s.pnow % 65536) s.dNow ph (crc8 (leBytes 2 s.pnow ++ leBytes 1 s.dNow ++ leBytes 1 ph)))
    if (s.chain c).marked.isSome then s
    else (s.onChain c fun ch => { ch with marked := some s.pnow }).readIds c
  else s

/-- The end of a chain's period: its load is shown, and a chain that the settings gave up stops (R47, R275). -/
def State.chainEnd (s : State) (c : Nat) : State :=
  let s := (s.put (F.CHN_LOAD_last c) (min 65535 (s.chain c).load)).peak (F.CHN_LOAD_highest c) (s.chain c).load
  let s := s.onChain c fun ch => { ch with load := 0 }
  match (s.chain c).stopAt with
  | some p => if p != s.pnow then s.chainOff c else s
  | none => s

/-- A chain's period: its marker is sent, and tile register requests that waited follow (R251, R270). -/
def State.chainPeriod (s : State) (c : Nat) : State := (s.sendMarker c).flushReg c

/-- The blocks that supervision will judge: each tile that will be sent a token owes one that covers this period and the one before
(R11, R267); what will not come is released. -/
def State.expectBlocks (s : State) : State :=
  let before := s.perRec (perAdd s.pnow (2 ^ 32 - 1))
  (List.range 80).foldl (fun u t =>
    let comes (p : Nat) : Bool := u.light.blocks.any (fun b => b.tile == t && b.per == p) ||
      (match u.place t with | some (c, _) => (u.chain c).expect.any fun e => e.typ == 6 && e.key == t && e.per == p | none => false)
    let u := u.onTile t fun x => { x with due := x.due.filter fun d => comes d.1 }
    match u.place t with
    | some (c, _) =>
      let shown : Bool := match (u.chain c).lit with | some l => perReached l u.pnow | none => false
      if u.chainRuns c ∧ shown then
        u.onTile t fun x => { x with due := x.due ++ [(u.pnow, u.slotNow), (u.pnow, match before with | some r => r.slot | none => u.slotNow)] }
      else u
    | none => u) s

/-- A standby's conditions for MIRROR (R26, R412). -/
def State.mirrorDue (s : State) : Bool :=
  s.mode == .configure && s.on F.SYS_STAT_cfg_ok && s.get F.AXO_STAT_role == 2 && s.heard s.pair.noDig &&
    (s.get F.AXO_STAT_pmode == 3 || s.get F.AXO_STAT_pmode == 5) && s.on F.AXO_STAT_sync

/-- Entry into MIRROR (R26, R170, R292, R359, R420, R422). -/
def State.enterMirror (s : State) : State :=
  let s := ((((s.setMode .mirror).clearStore).clearPixelClasses).markAll).balStart
  let s := ((s.put F.AXO_STAT_aligned 0).put F.AXO_STAT_pos 0).put F.AXO_STAT_afail 0
  let s := { s with light := { s.light with fb := s.pair.digMode == 5, hist := [], frameDue := none, offForce := [], offDue := [],
                                            maskDue := [], initial := false },
                    vid := { s.vid with passPer := none, swapDue := none } }
  s.onPair fun a => { a with joined := false, nextAt := none, ctx := [], snN := 0, snDir := false, susp := [], seen := [], rows := [],
                             held := [], lost := [], upTo := [], rowPer := [], off := [], edge := true, early := false, mark := true, badEdge := 0, tkReq := none,
                             slips := [], forFb := a.digMode == 5, missed := false }

/-- A standby enters MIRROR where its conditions hold. -/
def State.tryMirror (s : State) : State := if s.mirrorDue then s.enterMirror else s

/-- What the period start does for the pair before anything is sent (R410, R411, R418, R432). -/
def State.pairPeriod (s : State) : State :=
  let errs := s.mode == .mirror && !s.pair.edge && s.pair.mark
  let s := if errs then s.inc F.AXO_PSYNC_errs else s
  let s := if s.paired then s.inc F.AXO_HB_missed else s
  let up (n : Nat) : Nat := min 65535 (n + 1)
  let s := s.onPair fun a => { a with
    noPair := up a.noPair, noAct := up a.noAct, noConf := up a.noConf, noReady := up a.noReady, noDig := up a.noDig,
    noMark := up a.noMark, edge := a.early, early := false, mark := false, dig := [], lst := [], followed := false, missed := false }
  let s := if s.on F.AXO_STAT_aligned ∧ (s.mode ≠ .mirror ∨ s.pairLane = none) then s.loseAligned else s
  let s := if s.mode = .mirror then s else s.put F.AXO_STAT_pos 0
  let late := s.pair.lost.any fun e => perReached (perAdd e.2 4) s.pnow
  let s := if late then (s.loseAligned).onPair fun a => { a with lost := a.lost.filter fun e => !perReached (perAdd e.2 4) s.pnow }
    else s
  let s := if s.mode = .configure then s.evalRole else s
  (s.showPartner).tryMirror

/-- A takeover is complete at the period after its own (R427, R434, R437). -/
def State.takeoverPeriod (s : State) : State :=
  match s.pair.tkP with
  | none => s
  | some p =>
    if p = s.pnow then s
    else
      let s := ((s.put F.AXO_STAT_tk 0).put F.AXO_TKCNT_p1 s.pnow).onPair fun a => { a with tkP := none, tkReq := none }
      let s := (s.event 30 6).raise 42 0
      if s.mode = .operate then s.retakeFallback else s

/-- Fault reaction, acknowledgement and auto-clear at a period start, once every class has been evaluated there (R44, R313, R317,
R318); `ran` are the instances whose debounce count ran before it. -/
def State.faultPeriod (s : State) (ran : List Nat) : State :=
  let s := s.fltPeriod ran
  let s := if s.isl.ackEvent then ({ s with isl := { s.isl with ackEvent := false } }).ackApply else s
  s.clearAbsent false

/-- What the classes of a period start are evaluated from, as one core cycle (R274, R305, R313, R326, R363, R426, R432), and fault
reaction after them. -/
def State.classPeriod (s : State) (ran : List Nat) : State :=
  let was := s.flt.cyc
  let s := s.cycleOn
  let s := if s.lightMode ∧ s.pnow % cycleOf s.dNow = 0 then s.cycleEnd else s
  let s := (((s.supplyPeriod).lockPeriod).takeoverPeriod).pairPeriod
  (s.faultPeriod ran).cycleOff was

/-- What comes into force at a period start (R10, R75, R176, R225, R264, R297, R300), and as of `clausePeriod` what was applied. -/
def State.forcePeriod (s : State) : State × Bool × List Nat :=
  let mine := s.mode == .mirror && !darkPeriod s.pnow
  let s := if mine then s.tileList.foldl (fun u t => u.readProof t s.pnow) s else s
  let own := if mine then (List.range 80).flatMap fun t => s.proofList t s.pnow else []
  let s := s.latchesApply
  let frame := if s.frameReached then s.light.frameDue else none
  let s := match frame with | some (_, slot, kind) => s.frameInForce slot kind | none => s
  let (s, done) := s.clausePeriod
  let s := (s.setD s.periodD).urgentInForce
  let s := if frame.isSome then s.ledgerFrame s.vid.rows else s
  ((((s.showLow).writeMaskHist).closeProofs).record own, done)

/-- CMP_STAT.wait_rel (R171, R193): a swap that takes effect at this period start makes every row dirty. -/
def State.showWait (s : State) : State :=
  s.flag F.CMP_STAT_wait_rel ((if s.swapReached then s.markAll else s).passDue s.swapReached && !s.slotFree)

/-- A period starts (R225). -/
def State.startPeriod (old : State) : State :=
  let s := (List.range 20).foldl State.chainEnd (old.nextPeriod).fltEvents
  let ack := s.isl.ackEvent
  let frame := s.frameReached
  let ran := s.counting
  let (s, expl, tags) := s.forcePeriod
  let s := ((s.heartbeat.expectBlocks).fadePeriod).classPeriod ran
  let s := if s.get F.ADC_RCFG_trig = 2 then s.regTrigger else s
  let s := (List.range 20).foldl State.chainPeriod s
  let s := (s.onLink fun l => { l with pairN := 0 }).showWait
  let s := if s.master then s.emit (.psync s.pnow) else s
  (s.pairSend old { ack := ack, frame := frame, expl := expl, tags := tags }).serve

/-- A PWM period starts (R225). -/
def execPeriodStart (s : State) : Host.Outcome State Fault Refusal := .next (if s.live then s.startPeriod else s)

/-- The debounce count of an instance is reached and its action is taken (R317), in the mode in which it was reached (R319, R326). -/
def execDebounceExpiry (cls : Fin 64) (inst : BitVec 16) (s : State) : Host.Outcome State Fault Refusal :=
  .next (match (s.fltInst cls inst.toNat).due with
    | some m => (({ s with flt := { s.flt with cyc := some m } }).takeAction cls inst.toNat).cycleOff s.flt.cyc
    | none => s)

end Sys2Proof.Machine
end

