-- ==== Sys2Proof/Machine/Pair.lean ====
section
/-! DEFINITION. The redundant pair as a standby and an active device live it: period alignment (R410), the PAIR packets received (R413 to
R419), restatement (R420, R421), the snooped stream and divergence (R422 to R425), and takeover (R426 to R430, R434). -/

namespace Sys2Proof.Machine

/-- A PAIR packet arrives (R115, R133, R413): whether it goes on. -/
def State.pairArrives (s : State) (l kind : Nat) (lenOk : Bool) (p : Pkt) : State × Bool :=
  if s.live = false ∨ s.active l = false then (s, false)
  else
    let (t, ok) := s.pktWhole l 0x60 p
    if ok = false then (t, false)
    else if t.laneRole l ≠ 2 ∨ p.len.toNat < 8 ∨ 1024 < p.len.toNat then (t.pktMalf F.PKT_MALF_malf, false)
    else if 2 ≤ t.link.pairN then ((t.inc F.PKT_OVR_pair).event 8 5, false)
    else
      let t := t.onLink fun k => { k with pairN := k.pairN + 1 }
      if bodyLe p 4 1 % 16 ≠ kind ∨ lenOk = false then (t.pktMalf F.PKT_MALF_malf, false)
      else if t.paired = false then (t, false)
      else ((t.put F.AXO_HB_missed 0).onPair fun a => { a with noPair := 0 }, true)

/-- What the head of a DIGEST or HEARTBEAT says of the partner (R411, R414, R435, R436). -/
def State.notePartner (s : State) (p : Pkt) : State :=
  let m := bodyLe p 5 1 % 16
  let s := (((s.put F.AXO_STAT_pmode m).put F.AXO_HB_hseq (bodyLe p 6 2)).setRegN R.AXO_PSER (bodyLe p 12 4))
  s.onPair fun a => { a with pin := bits (bodyLe p 5 1) 4 1 == 1, noAct := if m = 3 ∨ m = 5 then 0 else a.noAct,
                             noConf := if m = 1 ∨ m = 2 then 0 else a.noConf }

/-- A rising PSYNC_IO edge `offset` chain clocks after the device's own period start, before its next one where negative (R410, R435): a
standby aligns to it, once, and in MIRROR it must lie within 4 chain clocks. -/
def execPsyncEdge (offset : Int) (s : State) : Host.Outcome State Fault Refusal :=
  .next (if s.live = false ∨ s.master ∨ s.get F.AXO_STAT_role ≠ 2 then s
  else
    let e := offset - s.get F.AXO_PSDLY_dly
    let near := decide (e.natAbs ≤ 8)
    let s := (s.put F.AXO_PSYNC_offset (unsigned 8 (clampInt (-128) 127 e))).onPair fun a =>
      { a with edge := a.edge || (near && decide (0 ≤ offset)), early := a.early || (near && decide (offset < 0)) }
    if s.on F.AXO_STAT_sync = false then
      if s.pair.setNow ∧ (s.pair.shift ≠ 0 ∨ e.natAbs ≤ 4) then s
      else
        let len : Int := 4096 * s.dNow
        s.onPair fun a => { a with shift := (e % len).toNat, setNow := true }
    else if s.mode ≠ .mirror then s
    else if e.natAbs ≤ 4 then s.onPair fun a => { a with badEdge := 0 }
    else
      let n := s.pair.badEdge + 1
      let s := (s.inc F.AXO_PSYNC_errs).event 30 8
      if n < 4 then s.onPair fun a => { a with badEdge := n }
      else ((s.put F.AXO_STAT_sync 0).loseAligned).onPair fun a => { a with badEdge := 0 })

/-- CLS_PNOW takes the pnum of a DIGEST once the periods coincide (R410). -/
def State.takePnum (s : State) (p : Pkt) : State :=
  if s.pair.setNow ∧ s.pair.shift = 0 ∧ s.master = false then
    let s := (s.setRegN R.CLS_PNOW (bodyLe p 8 4)).put F.AXO_STAT_sync 1
    (s.onPair fun a => { a with setNow := false }).showTiming s.dNow s.pnow
  else s

/-- The set bits of a mask of `n` bits in a packet, from byte `o`. -/
def pktMask (p : Pkt) (o n : Nat) : List Nat := (List.range n).filter fun i => (bodyLe p (o + i / 8) 1).testBit (i % 8)

/-- The aspects off of the active device (R417): the rows that change follow as fault-reaction rows. -/
def State.followOff (s : State) (off : List Nat) : State :=
  let changed := offDiff off s.pair.off
  if changed = [] then s else (s.onPair fun a => { a with off := off }).streamOff changed off

/-- The frame that a digest says is in force (R417): the standby's own that waits for its period or its LATCH. A frame that comes into force
carried the initial offsets where they were due (R233). -/
def State.followFrame (s : State) : State :=
  match s.light.frameDue with
  | some (_, slot, kind) => s.frameInForce slot kind
  | none =>
    if s.get F.CMP_STAT_state = 2 then
      let s := { s with light := { s.light with initial := false } }
      (s.put F.CMP_STAT_state 0).frameInForce (s.get F.CMP_STAT_target) (s.snapOf (s.get F.CMP_STAT_target)).kind
    else s.offsetsInForce

/-- What is in force in a period that is followed is recorded (R11, R179, R297, R300). -/
def State.followRecord (s : State) (frame : Bool) : State :=
  let s := if frame then s.ledgerFrame s.vid.rows else s
  ((s.showLow).writeMaskHist).onRec s.pnow fun r => { s.recNow with proof := r.proof }

/-- The offsets of a digest are those of the last frame LATCH (R233, R414, R417); once its target has come they are in force. -/
def State.followOffsets (s : State) (p : Pkt) : State :=
  let s := { s with tiles := Vector.ofFn fun (t : Fin 80) => { s.tiles[t] with prev := bodyLe p (120 + 2 * t.val) 2 % 2048 } }
  let came := (s.pnow + 65536 - bodyLe p 18 2) % 65536 < 32768
  if came && !(bodyLe p 76 1).testBit 4 && s.tiles.any fun t => t.off != t.prev then s.offsetsInForce else s

/-- The mode that a standby composes for changes (R417): as on the active device, the running pass is dropped and every row is dirty. -/
def State.followMode (s : State) (fb : Bool) : State :=
  if s.pair.forFb = fb then s else ((((s.onPair fun a => { a with forFb := fb }).dropPass).initOffsets).markAll).evalPolicies

/-- A name or tag of a digest that nothing held matches waits for its packet (R418). -/
def State.unmatched (s : State) (name : Nat) : State := s.onPair fun a => { a with lost := a.lost ++ [(name, s.pnow)] }

/-- A held timed write takes effect at the present period (R418). -/
def State.takeHeld (s : State) (h : Held) : State :=
  let s := s.onPair fun a => { a with held := a.held.erase h }
  if h.grp then s.fadeGroup (h.val.testBit 4) h.pdu h.nth s.pnow h.mem else s.retarget h.arg s.pnow h.val

/-- A held timed write that a digest names takes effect (R418). -/
def State.followName (s : State) (name : Nat) : State :=
  match s.pair.held.find? fun h => h.name == name with
  | none => s
  | some h => s.takeHeld h

/-- An implicit clause that a digest names is applied, in core arrival order with the timed writes that the digest names (R207, R417): those
that arrived before it take effect first, and a target change that arrived after it leaves the enable and target written last. -/
def State.followTag (names : List Nat) (s : State) (tag : Nat) : State :=
  match s.cl.implicit.find? fun c => c.tag == tag with
  | some c =>
    let s := (s.pair.held.filter fun h => names.contains h.name && h.nth < c.nth).foldl State.takeHeld s
    let fix (e : Nat × Word) : Nat × Word :=
      if s.pair.held.any fun h => !h.grp && e.1 == R.ASP_CTL h.arg && names.contains h.name then
        (e.1, (e.2 &&& ~~~0x3FFF) ||| (s.reg e.1 &&& 0x3FFF)) else e
    let s := { s with cl := { s.cl with implicit := s.cl.implicit.erase c } }
    s.takeImplicit { c with words := c.words.map fix }
  | none => s.unmatched tag

/-- The clauses, timed writes and fades of a digest (R207, R414, R417, R418): the started fades and their f0 must be the standby's own. -/
def State.followWrites (s : State) (p : Pkt) : State :=
  let old := s
  let ev := bodyLe p 76 1
  let s := if ev.testBit 2 then (if s.get F.CLS_STAT_state = 3 then s.applyClause true else s) else s
  let tags := ((List.range 8).map fun k => bodyLe p (78 + k) 1).filter (· != 0xFF)
  let names := ((List.range 8).map fun k => bodyLe p (86 + 3 * k) 3).filter fun n => n.testBit 23
  let s := (names.filter fun n => s.pair.held.all fun h => h.name != n).foldl State.unmatched s
  let s := tags.foldl (State.followTag names) s
  let s := names.foldl State.followName s
  let s := (List.range 160).foldl State.groupChange s
  let s := (List.range 160).foldl State.settleFade s
  let began := (List.range 160).filter (s.fadeBegan old)
  let same := began == pktMask p 52 160 && s.f0crc began == bodyLe p 72 4
  if (s.on F.AXO_STAT_aligned && !same) || ev.testBit 6 then s.loseAligned else s

/-- What a digest is compared with (R423): the CCV, the aspects that the standby's own policies and reactions switch off (DEDUCED, log entry
65), and its armed clause. -/
def State.compareDigest (s : State) (p : Pkt) : State :=
  let s := s.compareIf (bodyLe p 20 4 == s.regN R.SPD_CCVCALC) 8 0 0 0
  let s := s.compareIf (offDiff s.shownOff (pktMask p 32 160) == []) 6 0 0 0
  let armed := s.get F.CLS_STAT_state == 3
  let named := (bodyLe p 76 1).testBit 2
  s.compareIf (if named then armed else !(armed && s.cl.due == some (.period s.pnow))) 7 0 0 0

/-- The last CODES seen before a LATCH whose period it is are compared with the standby's own rows (R423), and stay beside that LATCH for a
takeover in the period (R428). -/
def State.compareCodes (s : State) : State :=
  let now := s.pair.seen.filter fun w => w.target == s.pnow && !w.done
  let covers (e : Nat × List Byte) : Bool := now.any fun w => (w.frame || e.1 % 2 == 1) &&
    match s.place (e.1 / 256) with | some (c, _) => c == w.chain | none => false
  let mine := s.pair.rows.filter covers
  let s := mine.foldl (fun u e =>
    let r := e.1 / 2
    let own := packCodes ((List.range 128).map fun k => u.driven u.slotNow u.maskShown u.light.offForce (128 * r + k))
    match u.place (r / 128) with
    | some (c, q) => u.compareIf (own == e.2.drop 4) 1 c q (r % 128)
    | none => u) s
  let of' (w : SeenLatch) : List Nat := (mine.map Prod.fst).filter fun k => (w.frame || k % 2 == 1) &&
    match s.place (k / 256) with | some (c, _) => c == w.chain | none => false
  s.onPair fun a => { a with rows := a.rows.filter fun e => !covers e,
                             seen := a.seen.map fun w => if w.target == s.pnow && !w.done then { w with done := true, rows := of' w } else w }

/-- The decisions of a DIGEST take the place of the standby's own (R417). A supply channel of a disabled page keeps its reset state (R63). -/
def State.followDigest (s : State) (p : Pkt) : State :=
  let ev := bodyLe p 76 1
  let s := s.compareDigest p
  let s := s.followOffsets p
  let s := if ev.testBit 4 then s.followFrame else s
  let s := (s.setD (bodyLe p 16 1)).followMode (bodyLe p 5 1 % 16 == 5)
  let s := if s.on (F.PCTRL_en 27) = false then s else (List.range 4).foldl (fun u g => u.put (F.SPL_STAT_code g) (bodyLe p (110 + 2 * g) 2 % 1024)) s
  let s := (s.followOff (pktMask p 32 160)).followRecord (ev.testBit 4)
  let s := if ev.testBit 1 then s.ackApply else s
  let s := if ev.testBit 0 then (s.takeSwap).put F.VIN_STAT_fnum (bodyLe p 77 1) else s
  let s := if s.on F.AXO_STAT_aligned then s
    else { s with light := { s.light with ltag := (bodyLe p 17 1 + 1) % 256 } }
  (s.followWrites p).compareCodes

/-- One judgement that a summary gives a pixel (R419): conf, its healthy state, the surplus and the ledger follow; it confirms no fault. -/
def State.followPixel (s : State) (r : PerRec) (mask : List Word) (p tok : Nat) (f : JForm) (res : Nat) : State :=
  if (match kvFind s.pair.upTo p with | some q => perReached tok q | none => false) then s
  else
    let s := if r.proof.contains p && f == .lit then s.addSurplus p (windowTicks r.d - s.driven r.slot mask r.off p) else s
    let st := s.pixState p
    let conf := s.pixConf p
    if faultState st then
      let (st', c) := faultStep st conf f res
      let s := (s.healthOf r mask p).1
      if st' = st then s.movePix p st c tok else s
    else
      let (s, healthy, why) := s.healthOf r mask p
      let (st', c, form) := healthyStep s.confN healthy conf (kvNat s.light.form p) f res
      if faultState st' then s
      else
        let s := ((s.movePix p st' c tok).setForm p form).setWhy p why
        if st' = 5 then s.noteUnverified r p else s

/-- The judgements of a row that a summary covers (R419). `kind` gives a failure's kind, and `judged` says whether a pixel is judged. -/
def State.followRow (s : State) (t tok row q : Nat) (kind : Nat → Nat) (judged : Nat → Bool) : State :=
  let gr := 128 * t + row
  match s.recOf q with
  | none => s
  | some r =>
    if !r.judges gr then s
    else
      let s := (s.restore (wordIn (0xC00000 + 128 * gr) 128)).readHist r.per
      let mask := s.maskOf r
      (List.range 128).foldl (fun u k =>
        let p := 128 * gr + k
        match u.formOf r mask p with
        | none => u
        | some f => if judged p then u.followPixel r mask p tok f (kind p) else u) s

/-- The failures that a LISTS carries, by pixel (R415). -/
def listFails (p : Pkt) : List (Nat × Nat) :=
  (List.range (bodyLe p 6 1)).map fun k =>
    let v := bodyLe p (12 + 4 * k) 4
    (16384 * bits v 0 7 + bits v 7 14, bits v 21 3)

/-- The summary of the blocks of tokens two periods back (R414, R415, R419). -/
def State.followSummary (s : State) (dig lst : Pkt) : State :=
  let tok := perAdd s.pnow (2 ^ 32 - 2)
  let tiles := pktMask dig 360 80
  let s := s.onRec tok fun r =>
    { r with proof := r.proof.filter fun p => tiles.contains (p / 16384), prf := tiles }
  let fails := listFails lst
  let last := match fails.getLast? with | some e => e.1 | none => 0
  let cut := bodyLe lst 5 1 % 2 == 1
  match s.recOf tok with
  | none => s
  | some r =>
    (List.range 80).foldl (fun u t => (pktMask dig (280 + t) 8).foldl (fun v g =>
      (List.range 16).foldl (fun w k =>
        let row := 16 * g + k
        match resultPeriod (w.dOf r.d) (r.offs.getD t 0) tok row with
        | none => w
        | some q =>
          if w.repeats t tok row q ∨ kvNat w.pair.rowPer (128 * t + row) = q + 1 then w
          else
            let w := w.onPair fun a => { a with rowPer := kvPut a.rowPer (128 * t + row) (q + 1) }
            w.followRow t tok row q (fun p => ((fails.find? fun e => e.1 == p).map Prod.snd).getD 0) fun p => !cut || p ≤ last) v) u) s

/-- The standby's own failures against the failure list (R423): for the segments that both accepted, up to the last listed entry. -/
def State.compareFails (s : State) (dig lst : Pkt) : State :=
  match s.recOf (perAdd s.pnow (2 ^ 32 - 2)) with
  | none => s
  | some r =>
    if s.get F.AXO_STAT_pos ≠ 2 then s
    else
      let fails := listFails lst
      let last := match fails.getLast? with | some e => e.1 | none => 0
      let cut := bodyLe lst 5 1 % 2 == 1
      let both (e : Nat × Nat) : Bool :=
        let t := e.1 / 16384
        let g := e.1 % 16384 / 2048
        (kvNat r.acc t).testBit g && (bodyLe dig (280 + t) 1).testBit g && (!cut || e.1 ≤ last)
      let own := r.fails.filter both
      let his := fails.filter both
      let odd := own.filter (fun e => !his.contains e) ++ his.filter fun e => !own.contains e
      odd.foldl (fun u e =>
        let (c, q) := (s.place (e.1 / 16384)).getD (0, 0)
        u.compareIf false 5 c q (e.1 / 16384)) s

/-- The record of the period in which a pixel was sensed whose result the block of token period `q` carried, else of `q`, else of now
(R303). -/
def State.senseRec (s : State) (p q : Nat) : PerRec :=
  let r := (s.recOf q).getD s.recNow
  match resultPeriod (s.dOf r.d) (r.offs.getD (p / 16384) 0) q (p % 16384 / 128) with
  | some x => (s.recOf x).getD r
  | none => r

/-- A pixel takes a state and conf from the active device, and is charged or released by the period of its sense (R291, R303, R309, R419). -/
def State.takeState (s : State) (p st conf q : Nat) : State :=
  let s := s.restore (wordIn (0xC00000 + p) 1)
  let was := s.pixState p
  let r := s.senseRec p q
  let s := (s.movePix p st conf q).setForm p 0
  let s := s.setWhy p (if st = 5 then some ((s.healthOf r (s.maskOf r) p).2.2.getD 1) else none)
  if faultState st then
    let (a, glare) := s.chargeTo r (s.maskOf r) p st
    if was = st then s else (s.listFault p st a glare q).1
  else if faultState was then s.unlistFault p else s

/-- A state-change record (R415, R419). -/
def State.takeRecord (s : State) (v q : Nat) : State :=
  let p := 16384 * bits v 0 7 + bits v 7 14
  (s.takeState p (bits v 21 3) (bits v 24 3) q).onPair fun a => { a with upTo := kvPut a.upTo p q }

/-- A byte of a restated tile block (R289, R420). -/
def State.restatePixel (s : State) (p v : Nat) : State :=
  let st := if bits v 0 3 = 7 then 4 else bits v 0 3
  (s.takeState p st (bits v 3 3) s.pnow).setPix p st (bits v 3 3) (bits v 6 2)

/-- A chunk of a tile block (R420). -/
def State.restateTile (s : State) (t off : Nat) (data : List Byte) : State :=
  let n := 16384 - off
  let s := ((data.take n).zipIdx).foldl (fun u (e : Byte × Nat) => u.restatePixel (16384 * t + off + e.2) e.1.toNat) s
  let rest := data.drop n
  if rest = [] then s else s.setBytes (ledgerAddr t 0 + (off + n - 16384)) rest

/-- The fades of a context block (R421). -/
def State.restateFades (s : State) (b : List Byte) : State :=
  (List.range 160).foldl (fun u a =>
    if u.on (F.ASP_CFG_def a) then
      let v := blkLe b (8 * a + 4) 2
      let tgt := if bits v 13 1 = 1 then blkLe b (8 * a + 6) 2 % 8192 else 0
      let u := u.onFade a fun fd => { fd with ps := blkLe b (8 * a) 4, f0 := v % 8192, tgt := tgt }
      (u.put (F.ASP_FST_ps a) (blkLe b (8 * a) 4)).put (F.ASP_FST_fading a) (bits v 14 1)
    else u) s

/-- The context block is complete: its five values are checked against the standby's own (R421). -/
def State.restateContext (s : State) (b : List Byte) : State :=
  let own := s.contextBlock
  let ok := (b.drop 1280).take 12 == (own.drop 1280).take 12
  (s.restateFades b).flag F.AXO_STAT_afail (!ok)

/-- A restatement is not followed to its end: the standby waits for the next (R420, R421). -/
def State.restStop (s : State) : State :=
  (s.put F.AXO_STAT_restating 0).onPair fun a => { a with nextAt := none, ctx := [], joined := false }

/-- A restatement chunk (R415, R420, R421, R435). -/
def State.takeChunk (s : State) (blk off : Nat) (data : List Byte) : State :=
  let first := blk == 0xFF && off == 0
  if !first && s.pair.nextAt != some (blk, off) then s.restStop
  else
    let s := ((s.put F.AXO_RSTATE_block blk).put F.AXO_RSTATE_offset off).put F.AXO_STAT_restating 1
    let s := if blk = 0xFF then s.onPair fun a => { a with ctx := (if first then [] else a.ctx) ++ data, joined := false }
      else s.restateTile blk off data
    let next := s.restStep blk off data.length
    let s := s.onPair fun a => { a with nextAt := next }
    let s := if blk = 0xFF ∧ s.pair.ctx.length = 1536 then s.restateContext s.pair.ctx else s
    if s.on F.AXO_STAT_afail ∧ blk = 0xFF ∧ off + data.length = 1536 then s.restStop
    else if next.isNone then (s.inc F.AXO_CNT_restatements).onPair fun a => { a with joined := true } else s

/-- The DIGEST and LISTS of the period have both come (R417, R419): the standby follows the period. -/
def State.followLists (s : State) (dig lst : Pkt) : State :=
  let s := s.onPair fun a => { a with followed := true, backlog := bits (bodyLe lst 5 1) 3 1 == 1 }
  let s := (s.compareFails dig lst).followSummary dig lst
  let nf := bodyLe lst 6 1
  let ns := bodyLe lst 7 1
  let s := (List.range ns).foldl (fun u k =>
    u.takeRecord (bodyLe lst (12 + 4 * nf + 8 * k) 4) (bodyLe lst (16 + 4 * nf + 8 * k) 4)) s
  let chunk := lst.body.drop (8 + 4 * nf + 8 * ns)
  let s := if bits (bodyLe lst 5 1) 1 1 = 1 then s.takeChunk (bodyLe lst 8 1) (bodyLe lst 9 2) chunk else s
  s.evalFades.showWait

/-- A packet with a body alone, as the DIGEST and LISTS of a period are kept. -/
def bodyPkt (b : List Byte) : Pkt := { hdr := 0, len := 0, body := b, crc := 0, eop := true }

/-- The period is followed once both packets are there, in time (R417). -/
def State.tryFollow (s : State) : State :=
  if s.mode = .mirror ∧ s.pair.dig ≠ [] ∧ s.pair.lst ≠ [] ∧ s.pair.followed = false ∧ s.pair.missed = false then
    (s.followDigest (bodyPkt s.pair.dig)).followLists (bodyPkt s.pair.dig) (bodyPkt s.pair.lst)
  else s

/-- A DIGEST arrives (R410, R412, R414, R417, R418, R423). -/
def execDigest (l : Fin 4) (p : Pkt) (s : State) : Host.Outcome State Fault Refusal :=
  .next (let (s, ok) := s.pairArrives l 1 (p.len.toNat == 368) p
    if ok = false then s
    else
      let s := (((s.notePartner p).onPair fun a => { a with noDig := 0, digMode := bodyLe p 5 1 % 16 }).takePnum p).showPartner
      if s.mode = .mirror then
        if bodyLe p 8 4 = s.pnow ∧ s.pair.dig = [] then (s.onPair fun a => { a with dig := p.body }).tryFollow else s
      else s.tryMirror)

/-- Whether a LISTS has a length that fits its counts (R413, R415). -/
def listsLenOk (p : Pkt) : Bool :=
  let n := 8 + 4 * bodyLe p 6 1 + 8 * bodyLe p 7 1
  bodyLe p 6 1 ≤ 96 && bodyLe p 7 1 ≤ 24 && n ≤ p.len.toNat && p.len.toNat ≤ n + 384 && p.len.toNat ≤ 968

/-- A LISTS arrives (R415, R417, R419, R420). -/
def execLists (l : Fin 4) (p : Pkt) (s : State) : Host.Outcome State Fault Refusal :=
  .next (let (s, ok) := s.pairArrives l 2 (listsLenOk p) p
    if ok = false then s
    else if s.mode = .mirror ∧ s.pair.lst = [] then (s.onPair fun a => { a with lst := p.body }).tryFollow else s)

/-- A HEARTBEAT arrives (R411, R416, R418, R420, R425, R432, R437). -/
def execHeartbeat (l : Fin 4) (p : Pkt) (s : State) : Host.Outcome State Fault Refusal :=
  .next (let (s, ok) := s.pairArrives l 3 (p.len.toNat == 32) p
    if ok = false then s
    else
      let ready := bits (bodyLe p 5 1) 5 1
      let div := bodyLe p 32 2
      let acks := bodyLe p 34 1
      let rose := match s.pair.divSeen with | some n => decide (n < div) | none => false
      let acked := match s.pair.ackSeen with | some n => decide (1 ≤ (acks + 256 - n) % 256 ∧ (acks + 256 - n) % 256 < 128) | none => false
      let s := (s.notePartner p).eventIf (ready == 1 && !s.on F.AXO_STAT_pready) 30 2
      let s := (s.put F.AXO_STAT_pready ready).onPair fun a =>
        { a with noReady := if ready = 1 then 0 else a.noReady, divSeen := some div, ackSeen := some acks }
      let s := s.showPartner
      if s.master = false then s
      else
        let s := if rose then (s.event 30 3).raise 40 0 else s
        let s := if acked then { s.incWrap F.SYS_ACKSTAT_count with isl := { s.isl with ackEvent := true } } else s
        if bits (bodyLe p 35 1) 2 2 = 0 then
          (s.put F.AXO_STAT_restating 1).onPair fun a => { a with restAt := some (0xFF, 0) }
        else s)

/-- The DIGEST and LISTS of a period have not both come within 100 µs (R417): the standby does not follow it, whatever comes later. -/
def execDigestTimeout (s : State) : Host.Outcome State Fault Refusal :=
  .next (if s.mode = .mirror ∧ s.pair.followed = false then (s.loseAligned).onPair fun a => { a with missed := true } else s)

/-- Held effects that no DIGEST has named within 4 periods are discarded (R418). -/
def execUnnamedEffectDiscard (s : State) : Host.Outcome State Fault Refusal :=
  .next (if s.mode = .mirror then
    let old (p : Nat) : Bool := perReached (perAdd p 4) s.pnow
    let stale (c : ImpClause) : Bool := match c.due with | .period p => old p | _ => false
    let n := (s.pair.held.filter fun h => old h.per).length + (s.cl.implicit.filter stale).length
    let s := (s.incBy F.AXO_CNT_unnamed n).onPair fun a => { a with held := a.held.filter fun h => !old h.per }
    { s with cl := { s.cl with implicit := s.cl.implicit.filter fun c => !stale c } }
  else s)

/-- Whether a chain is enabled under the settings in use. -/
def State.chainUsed (s : State) (c : Nat) : Bool := 0 < s.pop c || s.on (F.CHN_CTRL_en c)

/-- A period marker arrives on the inward pairs of a device that is not chain master (R251, R411, R423, R426, R436). -/
def execInwardPeriodMarker (c : Fin 20) (m : Marker) (s : State) : Host.Outcome State Fault Refusal :=
  .next (if s.live ∧ s.master = false ∧ s.chainUsed c ∧
      m.crc8.toNat = crc8 (leBytes 2 m.pnum.toNat ++ [m.d, m.ph]) then
    let s := (s.put F.AXO_STAT_markers 1).onPair fun a => { a with noMark := 0, mark := true }
    s.compareIf (m.pnum.toNat == s.pnow % 65536 && m.d.toNat == s.dNow) 4 c 0 0
  else s)

/-- The period that the low 16 bits of a target name, from the present one on (R264). -/
def State.fullTarget (s : State) (t : Nat) : Nat := perAdd s.pnow ((t + 65536 - s.pnow % 65536) % 65536)

/-- The first frame LATCH after a whole restatement sets aligned; it is compared already (R421). -/
def State.alignLatch (s : State) (body : List Byte) : State :=
  if blkLe body 3 1 = 1 ∧ s.pair.joined ∧ s.on F.AXO_STAT_afail = false ∧ s.on F.AXO_STAT_aligned = false then
    ((((s.put F.AXO_STAT_aligned 1).put F.AXO_STAT_restating 0).event 30 4)).onPair fun a => { a with joined := false }
  else s

/-- A standby observes a LATCH (R428). -/
def State.observeLatch (s : State) (c : Nat) (body : List Byte) : State :=
  let w : SeenLatch := { chain := c, frame := blkLe body 3 1 == 1, target := s.fullTarget (blkLe body 0 2), ltag := blkLe body 2 1,
                         body := body }
  s.onPair fun a => { a with seen := a.seen.filter (fun v => !(v.chain == c && v.ltag == w.ltag) && perReached s.pnow v.target) ++ [w] }

/-- The first LATCH of an event that a standby AHEAD sees is its own LATCH event too (R258, R417, R422): what it brings is in force from
its period. -/
def State.adoptLatch (s : State) (body : List Byte) : State :=
  let target := s.fullTarget (blkLe body 0 2)
  let s := (s.put F.CHN_LTAG_ltag (blkLe body 2 1)).put F.CHN_LTAG_target target
  let s := { s with light := { s.light with ltag := (blkLe body 2 1 + 1) % 256 } }
  if blkLe body 3 1 = 1 then
    let s := { s with light := { s.light with ftgt := target, initial := false } }.clauseLatch target
    if s.get F.CMP_STAT_state = 2 then
      let slot := s.get F.CMP_STAT_target
      let s := s.put F.CMP_STAT_state 0
      { s with light := { s.light with frameDue := some (target, slot, (s.snapOf slot).kind) } }
    else s
  else s.bringUrgent target

/-- A LATCH as a standby AHEAD sees it (R423): target, ltag, kind and offsets against its own. -/
def State.snoopLatch (s : State) (c : Nat) (body : List Byte) : State :=
  let s := s.alignLatch body
  let again := blkLe body 2 1 == s.get F.CHN_LTAG_ltag
  let frame := blkLe body 3 1 == 1
  let own := latchBody (if again then s.get F.CHN_LTAG_target else s.latchTarget)
    (if again then s.get F.CHN_LTAG_ltag else s.light.ltag) frame (s.latchOffs s.passKind c)
  let s := s.compareIf (own == body) 2 c 0 0
  (if again then s else s.adoptLatch body).observeLatch c body

/-- A standby receives on its inward pairs a chain packet as the master sent it (R422, R423). -/
def State.snoopItem (s : State) (c : Nat) (it : ChainPkt) : State :=
  if s.mode ≠ .mirror ∨ s.itemWhole c it = false then s
  else
    let s := s.snoop (it.h0.toNat.testBit 4)
    if s.get F.AXO_STAT_pos = 2 then s
    else match it.h0.toNat % 16, s.tileAt c (it.h1.toNat % 16) with
      | 1, some t =>
        let b := blkLe it.body 0 1
        s.onPair fun a => { a with rows := kvPut a.rows (2 * (128 * t + b % 128) + b / 128) it.body }
      | 2, _ => s.snoopLatch c it.body
      | 3, some t =>
        let own := s.proofList t (perAdd s.pnow 1)
        s.compareIf (proofPixels t it.body == own) 3 c (it.h1.toNat % 16) 0
      | _, _ => s

/-- A standby receives a chain packet on its inward pairs (R248, R249, R422, R423). -/
def execSnoopedChainItem (c : Fin 20) (it : ChainPkt) (s : State) : Host.Outcome State Fault Refusal :=
  .next ((s.snoopItem c it).hear c it.gap it.syms)

/-- The replica's prediction slipped on a chain (R424): its ACK comparisons are suspended, and more than slipmax slips in the last 1,024
periods are a divergence. While they are suspended no slip is found. -/
def State.slip (s : State) (c : Nat) : State :=
  if s.pair.susp.contains c then s
  else
    let slips := s.pnow :: s.pair.slips.filter fun p => (s.pnow + 2 ^ 32 - p) % 2 ^ 32 < 1024
    let s := (s.inc ⟨R.AXO_DIV, 16, 16⟩).onPair fun a => { a with susp := addNum c a.susp, slips := slips }
    s.compareIf (slips.length ≤ s.get F.AXO_DIVCFG_slipmax) 9 c 0 0

/-- An ACK as a standby BEHIND sees it (R423, R424): its ccrc against that of the packet that the replica sent. A corrupted or a refusing
item leads the replica to the retry decision that the master takes (R256). -/
def State.replicaAck (s : State) (c : Nat) (it : ChainPkt) : State :=
  if s.itemWhole c it = false then
    match (s.chain c).expect with | e :: _ => s.itemFails c it e | [] => s.corrupted c
  else match (s.chain c).expect.find? fun e => [1, 3, 4].contains e.typ && e.seq == it.seq.toNat with
    | none => s.slip c
    | some e =>
      if it.h0.toNat % 32 ≠ answerHead 9 ∨ it.h1.toNat ≠ s.answerHop c e.pos ∨ blkLe it.body 0 1 ≠ e.typ then s.slip c
      else if it.h0.toNat ≠ answerHead 9 then s.itemFails c it e
      else
        let same := blkLe it.body 1 2 == e.ccrc || s.pair.susp.contains c
        let s := s.compareIf same (if e.typ = 3 then 3 else 1) c e.pos (if e.typ = 1 then e.key % 128 else 0)
        let s := s.unexpect c e
        match e.typ with
        | 1 => s.rowVerified c e
        | 3 => s.proofVerified c e
        | _ => s

/-- An ACK returns: it is checked against the packet sent (R256), or on a standby BEHIND against the replica's (R424). -/
def execAckReturn (c : Fin 20) (it : ChainPkt) (s : State) : Host.Outcome State Fault Refusal :=
  .next (let s := s.snoop (it.h0.toNat.testBit 4)
    ((if s.replica then s.replicaAck c it else s.ackReturn c it).flushReg c).hear c it.gap it.syms)

/-- The replica takes the master's sequence numbers on a chain from a LATCH that it predicted (R424). -/
def State.reseq (s : State) (c own his : Nat) : State :=
  let d := his + 65536 - own
  s.onChain c fun ch => { ch with
    seq := (ch.seq + d) % 65536,
    expect := ch.expect.map fun e =>
      let q := (e.seq + d) % 65536
      { e with seq := q, ccrc := crcChain (chainHead e.typ 0 q ++ e.body) } }

/-- A returned LATCH as a standby BEHIND sees it (R421, R423, R424). -/
def State.replicaLatch (s : State) (c : Nat) (it : ChainPkt) (rtt : Nat) : State :=
  if s.itemWhole c it = false then
    match (s.chain c).expect with | e :: _ => s.itemFails c it e | [] => s.corrupted c
  else
    let s := s.alignLatch it.body
    let frame := blkLe it.body 3 1 == 1
    let mine := (s.chain c).expect.find? fun e => e.typ == 2 && (e.bank == 1) == frame
    let same := match mine with | some e => it.body == e.body | none => false
    let s := s.compareIf same 2 c 0 0
    let s := match mine with
      | some e =>
        if same then
          let s := if frame then (s.reseq c e.seq it.seq.toNat).onPair fun a => { a with susp := a.susp.filter (· != c) } else s
          s.latchReturn c it rtt
        else s.unexpect c e
      | none => s
    s.observeLatch c it.body

/-- A LATCH returns: its hop, count and content are checked and its round trip is measured (R256, R266, R276), or on a standby BEHIND
it is compared (R423). -/
def execLatchReturn (c : Fin 20) (it : ChainPkt) (rtt : Nat) (s : State) : Host.Outcome State Fault Refusal :=
  .next (let s := s.snoop (it.h0.toNat.testBit 4)
    ((if s.replica then s.replicaLatch c it rtt else s.latchReturn c it rtt).flushReg c).hear c it.gap it.syms)

/-- The rows of a chain that a row test selects, as packets to send again to a bank (R428). -/
def State.rowsAgain (s : State) (c bank : Nat) (rs : List Nat) : List Sent :=
  rs.filterMap fun r => match s.place (r / 128) with
    | some (d, q) => if d = c then some { typ := 1, pos := q, seq := 0, ccrc := 0, key := r, bank := bank, cls := if bank = 0 then 2 else 1 }
      else none
    | none => none

/-- The LATCHes that a device sends again on a chain after a takeover at the present period (R428): those observed with a target at or after
it, and those that its replica had issued. -/
def State.latchesAgain (s : State) (c : Nat) : List SeenLatch :=
  let ch := s.chain c
  let mine := s.pair.seen.filter fun w => w.chain == c && perReached s.pnow w.target
  let wait (frame : Bool) (w : Option WaitLatch) : List SeenLatch := match w with
    | some w => if s.replica && !mine.any (fun v => v.ltag == w.ltag) then
        [{ chain := c, frame := frame, target := w.target, ltag := w.ltag, body := w.body }] else []
    | none => []
  mine ++ wait false ch.latchU ++ wait true ch.latchF

/-- The rows that a chain's tiles hold pending in a bank, or took from it at the present period start, as far as the device knows: those
verified (R264, R428). -/
def State.rowsHeld (s : State) (c bank : Nat) : List Nat :=
  let ch := s.chain c
  (if bank = 0 then ch.bankF else ch.bankU) ++
    (if ch.movedAt = some s.pnow then (if bank = 0 then ch.movedF else ch.movedU) else [])

/-- The rows that were sent to a bank and that the device does not know to be verified: those of its replica without an ACK, and those that
it saw pass (R256, R428). -/
def State.rowsSent (s : State) (c bank : Nat) : List Nat :=
  let ch := s.chain c
  let seen := s.pair.rows.map Prod.fst ++ s.pair.seen.flatMap fun w => if w.chain = c ∧ perReached s.pnow w.target then w.rows else []
  ((ch.expect ++ ch.again).filter fun e => e.typ == 1 && e.bank == bank).map Sent.key ++
    if s.replica then [] else (seen.filter fun k => k % 2 == bank).map (· / 2)

/-- A chain after a takeover (R10, R428): before each LATCH that is sent again, the rows that it was to bring into force are. Rows of a bank
without such a LATCH follow the normal rules: verified ones stay there, the others are sent again, and those never sent follow. -/
def State.takeChain (s : State) (c : Nat) : State :=
  let latches := s.latchesAgain c
  let covered (bank : Nat) : Bool := latches.any fun w => w.frame || bank == 1
  let rows (bank : Nat) : List Nat := ((if covered bank then s.rowsHeld c bank else []) ++ s.rowsSent c bank).foldr addNum []
  let again := s.rowsAgain c 1 (rows 1) ++ s.rowsAgain c 0 (rows 0) ++
    latches.map fun w => { typ := 2, pos := 0, seq := 0, ccrc := 0, key := w.ltag, bank := w.frame.toNat, per := w.target, body := w.body }
  let onChain' (r : Nat) : Bool := match s.place (r / 128) with | some (d, _) => d == c | none => false
  let unsent := if s.replica ∨ s.get F.CMP_STAT_state = 0 then [] else s.vid.rows.filter fun r => onChain' r && !(rows 0).contains r
  s.onChain c fun ch =>
    { ch with expect := [], again := again, latchF := none, latchU := none, joined := [],
              bankF := if covered 0 then [] else ch.bankF, bankU := if covered 1 then [] else ch.bankU,
              frame := addLast unsent ch.frame,
              failed := ch.failed.filter fun f => !(rows (if f.2 = 2 then 0 else 1)).contains f.1 }

/-- A takeover without a followed state (R429): every row of the slot in force is sent with a frame LATCH, which carries the initial
offsets. -/
def State.takeCold (s : State) : State :=
  let s := ((s.inc F.AXO_TKCNT_cold).dropPass).initOffsets
  let s := (List.range 20).foldl (fun u c => u.onChain c fun ch => { seq := ch.seq, tag := ch.tag, errs := ch.errs }) s
  let d := s.dNow
  let place (t : Fin 80) : Tile := { s.tiles[t] with next := s.initialOff d s.light.fb t }
  let rows := s.tileList.flatMap tileRows
  let s := { s with tiles := Vector.ofFn place, light := { s.light with frameDue := none },
                    vid := { s.vid with rows := rows, placing := false } }
  ((s.put F.CMP_STAT_state 2).put F.CMP_STAT_target s.slotNow).queueFrame rows

/-- The mode and the role that a takeover gives (R26, R167, R170, R359, R363, R426, R427), the mode as in the last DIGEST. From a partner in
FALLBACK it gives FALLBACK, also where this device's SYS_FBSTAT.valid is clear, of which R49 does not speak (DESIGN CHOICE, log entry 66). -/
def State.takeRole (s : State) : State :=
  let s := s.ownSwap
  let s := (if s.pair.digMode = 5 then s.setMode .fallback else (s.setMode .operate).balStart).markAll
  let s := (((s.evalPolicies).put F.AXO_STAT_tk 1).inc F.AXO_TKCNT_takeovers).eventIf (s.get F.AXO_STAT_role != 1) 30 0
  let s := { s.put F.AXO_STAT_role 1 with isl := { s.isl with req := true, sense := none, hbClear := 0 } }
  s.onPair fun a => { a with tkP := some s.pnow, tkReq := none, rstLow := true }

/-- A takeover with a followed state (R428): the rows of changes that no LATCH has brought follow. -/
def State.takeWarm (s : State) : State :=
  let late := offDiff s.shownOff s.light.offForce
  let masks := if s.fbMode || s.vid.maskGen.isNone then [] else maskRows s.tileList s.vid.maskNow s.maskWords
  (s.queueReact (s.ownedRows late)).queueUrgent masks

/-- The standby takes over as chain master (R26, R233, R426 to R429). -/
def State.takeOver (s : State) : State :=
  if s.on F.AXO_STAT_aligned then (((List.range 20).foldl State.takeChain s).takeRole).takeWarm else (s.takeRole).takeCold

/-- 3 µs after a period start with no marker and no PSYNC pulse, or one that a takeover write requested, the standby takes over
(R426). -/
def execTakeoverDecision (s : State) : Host.Outcome State Fault Refusal :=
  .next (let asked : Bool := match s.pair.tkReq with | some t => decide (t + 800 ≤ s.pstart) | none => false
    if s.mode = .mirror ∧ s.on F.SYS_STAT_cfg_ok ∧ s.pair.tkP.isNone ∧ ((s.pair.edge = false ∧ s.pair.mark = false) ∨ asked) then
      s.takeOver
    else s)

/-- 10 µs after the decision PARTNER_RST_N is released (R427). -/
def execPartnerRstRelease (s : State) : Host.Outcome State Fault Refusal :=
  .next (if s.live then s.onPair fun a => { a with rstLow := false } else s)

end Sys2Proof.Machine
end

