-- ==== Sys2Proof/Machine/Dispatch.lean ====
section
/-! DEFINITION. The meaning of every command, one arm each. -/

namespace Sys2Proof.Machine

/-- The effect of a command on everything but the queue. -/
def exec (i : Instr) (s : State) : Host.Outcome State Fault Refusal :=
  match i with
  | .powerOnReset vsafeFell => Sys2Proof.Machine.execPowerOnReset vsafeFell s
  | .resetNFall ns => Sys2Proof.Machine.execResetNFall ns s
  | .partnerRstNFall ns => Sys2Proof.Machine.execPartnerRstNFall ns s
  | .resetGlitch => Sys2Proof.Machine.execResetGlitch s
  | .resetRelease ackN role => Sys2Proof.Machine.execResetRelease ackN role s
  | .pllLock => Sys2Proof.Machine.execPllLock s
  | .pllLockTimeout => Sys2Proof.Machine.execPllLockTimeout s
  | .pllRestart => Sys2Proof.Machine.execPllRestart s
  | .selftestStepComplete r => Sys2Proof.Machine.execSelftestStepComplete r s
  | .selftestTimerExpiry => Sys2Proof.Machine.execSelftestTimerExpiry s
  | .safetyTick p => Sys2Proof.Machine.execSafetyTick p s
  | .clockFault => Sys2Proof.Machine.execClockFault s
  | .watchdogExpiry => Sys2Proof.Machine.execWatchdogExpiry s
  | .supplyFault rail => Sys2Proof.Machine.execSupplyFault rail s
  | .vddhLossBypassClose => Sys2Proof.Machine.execVddhLossBypassClose s
  | .thermalTrip => Sys2Proof.Machine.execThermalTrip s
  | .crossingParityError x => Sys2Proof.Machine.execCrossingParityError x s
  | .periodStart => Sys2Proof.Machine.execPeriodStart s
  | .permitGrant => Sys2Proof.Machine.execPermitGrant s
  | .modereqHold src => Sys2Proof.Machine.execModereqHold src s
  | .modereqConfigure src => Sys2Proof.Machine.execModereqConfigure src s
  | .softReset src => Sys2Proof.Machine.execSoftReset src s
  | .darkReleaseEnd => Sys2Proof.Machine.execDarkReleaseEnd s
  | .hostLoss => Sys2Proof.Machine.execHostLoss s
  | .cfgTimeout => Sys2Proof.Machine.execCfgTimeout s
  | .ackNRelease => Sys2Proof.Machine.execAckNRelease s
  | .ackNStuck => Sys2Proof.Machine.execAckNStuck s
  | .ackNStuckClear => Sys2Proof.Machine.execAckNStuckClear s
  | .sysAckWrite src val => Sys2Proof.Machine.execSysAckWrite src val s
  | .ackArmTimeout => Sys2Proof.Machine.execAckArmTimeout s
  | .registerWrite src addr val => Sys2Proof.Machine.execRegisterWrite src addr val s
  | .pctrlSrst src page => Sys2Proof.Machine.execPctrlSrst src page s
  | .pctrlFreeze src page on => Sys2Proof.Machine.execPctrlFreeze src page on s
  | .pctrlPerrClr src page => Sys2Proof.Machine.execPctrlPerrClr src page s
  | .pirqSet src page val => Sys2Proof.Machine.execPirqSet src page val s
  | .pirqStatClear src page val => Sys2Proof.Machine.execPirqStatClear src page val s
  | .pageLock src page => Sys2Proof.Machine.execPageLock src page s
  | .stagedWrite src addr val => Sys2Proof.Machine.execStagedWrite src addr val s
  | .clauseCommit src val => Sys2Proof.Machine.execClauseCommit src val s
  | .clauseCheckDone => Sys2Proof.Machine.execClauseCheckDone s
  | .clauseApply => Sys2Proof.Machine.execClauseApply s
  | .clauseAbort src => Sys2Proof.Machine.execClauseAbort src s
  | .clauseLaneLossAbort => Sys2Proof.Machine.execClauseLaneLossAbort s
  | .implicitClauseApply => Sys2Proof.Machine.execImplicitClauseApply s
  | .windowWrite src addr w64 data => Sys2Proof.Machine.execWindowWrite src addr w64 data s
  | .detectProbe l found => Sys2Proof.Machine.execDetectProbe l found s
  | .tsSetReceive l ts2 rate align inv ok sent => Sys2Proof.Machine.execTsSetReceive l ts2 rate align inv ok sent s
  | .pollTimeout l => Sys2Proof.Machine.execPollTimeout l s
  | .capSetReceive l set => Sys2Proof.Machine.execCapSetReceive l set s
  | .capsTimeout l => Sys2Proof.Machine.execCapsTimeout l s
  | .electricalIdle l => Sys2Proof.Machine.execElectricalIdle l s
  | .eiosReceive l => Sys2Proof.Machine.execEiosReceive l s
  | .errorBucketFull l => Sys2Proof.Machine.execErrorBucketFull l s
  | .laneWordReceive l w => Sys2Proof.Machine.execLaneWordReceive l w s
  | .exitWaitDone l => Sys2Proof.Machine.execExitWaitDone l s
  | .downRetry l => Sys2Proof.Machine.execDownRetry l s
  | .skipSetSend l => Sys2Proof.Machine.execSkipSetSend l s
  | .skipSetReceive x => Sys2Proof.Machine.execSkipSetReceive x s
  | .bndSetReceive l mask seq skew => Sys2Proof.Machine.execBndSetReceive l mask seq skew s
  | .ebOverflow l => Sys2Proof.Machine.execEbOverflow l s
  | .rateChange src val => Sys2Proof.Machine.execRateChange src val s
  | .rateChangeStart => Sys2Proof.Machine.execRateChangeStart s
  | .lanePllRelock => Sys2Proof.Machine.execLanePllRelock s
  | .rateRevert => Sys2Proof.Machine.execRateRevert s
  | .lnkRetrain src l => Sys2Proof.Machine.execLnkRetrain src l s
  | .lnkRestart src l => Sys2Proof.Machine.execLnkRestart src l s
  | .lnkReadapt src l => Sys2Proof.Machine.execLnkReadapt src l s
  | .lnkEyeAbort src l => Sys2Proof.Machine.execLnkEyeAbort src l s
  | .lnkClrcnt src l => Sys2Proof.Machine.execLnkClrcnt src l s
  | .eyePoint src l val => Sys2Proof.Machine.execEyePoint src l val s
  | .eyeScan src l val => Sys2Proof.Machine.execEyeScan src l val s
  | .eyeOpComplete l r => Sys2Proof.Machine.execEyeOpComplete l r s
  | .marginCheck l => Sys2Proof.Machine.execMarginCheck l s
  | .marginCheckDone l width height => Sys2Proof.Machine.execMarginCheckDone l width height s
  | .adaptUpdate l ctle h1 h2 h3 => Sys2Proof.Machine.execAdaptUpdate l ctle h1 h2 h3 s
  | .adaptFreeze l => Sys2Proof.Machine.execAdaptFreeze l s
  | .adaptResume l => Sys2Proof.Machine.execAdaptResume l s
  | .readaptEnd l => Sys2Proof.Machine.execReadaptEnd l s
  | .rdreq l p => Sys2Proof.Machine.execRdreq l p s
  | .wrreq l p => Sys2Proof.Machine.execWrreq l p s
  | .returnPacketReceive l typ p => Sys2Proof.Machine.execReturnPacketReceive l typ p s
  | .vline l p => Sys2Proof.Machine.execVline l p s
  | .fend l p => Sys2Proof.Machine.execFend l p s
  | .maskupd l p => Sys2Proof.Machine.execMaskupd l p s
  | .symupdData l p => Sys2Proof.Machine.execSymupdData l p s
  | .symupdDescriptor l p => Sys2Proof.Machine.execSymupdDescriptor l p s
  | .aspupd l p => Sys2Proof.Machine.execAspupd l p s
  | .fcSend => Sys2Proof.Machine.execFcSend s
  | .irqmsgSend => Sys2Proof.Machine.execIrqmsgSend s
  | .irqmsgRepeat => Sys2Proof.Machine.execIrqmsgRepeat s
  | .spiFrameStart => Sys2Proof.Machine.execSpiFrameStart s
  | .spiFrameEnd cycles mosi => Sys2Proof.Machine.execSpiFrameEnd cycles mosi s
  | .spiNop => Sys2Proof.Machine.execSpiNop s
  | .spiRead => Sys2Proof.Machine.execSpiRead s
  | .spiWrite => Sys2Proof.Machine.execSpiWrite s
  | .spiAccessComplete => Sys2Proof.Machine.execSpiAccessComplete s
  | .pktClrcnt src => Sys2Proof.Machine.execPktClrcnt src s
  | .safePdu l p => Sys2Proof.Machine.execSafePdu l p s
  | .nop => Sys2Proof.Machine.execNop s
  | .write addr val => Sys2Proof.Machine.execWrite addr val s
  | .beam => Sys2Proof.Machine.execBeam s
  | .confirm lock ccv => Sys2Proof.Machine.execConfirm lock ccv s
  | .ccvComputeDone => Sys2Proof.Machine.execCcvComputeDone s
  | .otpcom blk => Sys2Proof.Machine.execOtpcom blk s
  | .otpfb blk => Sys2Proof.Machine.execOtpfb blk s
  | .otpProgramDone readbackOk => Sys2Proof.Machine.execOtpProgramDone readbackOk s
  | .deadlineMiss => Sys2Proof.Machine.execDeadlineMiss s
  | .spdResync src => Sys2Proof.Machine.execSpdResync src s
  | .spdClrcnt src => Sys2Proof.Machine.execSpdClrcnt src s
  | .statusPduSend => Sys2Proof.Machine.execStatusPduSend s
  | .ccvRecheckStart => Sys2Proof.Machine.execCcvRecheckStart s
  | .ccvRecheckDone => Sys2Proof.Machine.execCcvRecheckDone s
  | .fsyncEdge rising => Sys2Proof.Machine.execFsyncEdge rising s
  | .swapTakeEffect => Sys2Proof.Machine.execSwapTakeEffect s
  | .passStart => Sys2Proof.Machine.execPassStart s
  | .passComplete cycles => Sys2Proof.Machine.execPassComplete cycles s
  | .placementComplete cycles => Sys2Proof.Machine.execPlacementComplete cycles s
  | .scrubRead => Sys2Proof.Machine.execScrubRead s
  | .vinClrcnt src => Sys2Proof.Machine.execVinClrcnt src s
  | .cmpClrcnt src => Sys2Proof.Machine.execCmpClrcnt src s
  | .cmpCapclr src => Sys2Proof.Machine.execCmpCapclr src s
  | .mskClrcnt src => Sys2Proof.Machine.execMskClrcnt src s
  | .aspCtlWrite src a val => Sys2Proof.Machine.execAspCtlWrite src a val s
  | .fadeGroupWrite src val => Sys2Proof.Machine.execFadeGroupWrite src val s
  | .fadeGroupChange a => Sys2Proof.Machine.execFadeGroupChange a s
  | .calClrcnt src => Sys2Proof.Machine.execCalClrcnt src s
  | .plcClrcnt src => Sys2Proof.Machine.execPlcClrcnt src s
  | .codesSend c => Sys2Proof.Machine.execCodesSend c s
  | .latchSend frame only => Sys2Proof.Machine.execLatchSend frame only s
  | .proofSend c pos => Sys2Proof.Machine.execProofSend c pos s
  | .senseTokenSend c pos => Sys2Proof.Machine.execSenseTokenSend c pos s
  | .tileRegGo src inst val => Sys2Proof.Machine.execTileRegGo src inst val s
  | .ackReturn c it => Sys2Proof.Machine.execAckReturn c it s
  | .latchReturn c it rtt => Sys2Proof.Machine.execLatchReturn c it rtt s
  | .regrReply c it => Sys2Proof.Machine.execRegrReply c it s
  | .statusReply c it => Sys2Proof.Machine.execStatusReply c it s
  | .senseBlock c b => Sys2Proof.Machine.execSenseBlock c b s
  | .returnTimeout c => Sys2Proof.Machine.execReturnTimeout c s
  | .firstCodesTimeout c => Sys2Proof.Machine.execFirstCodesTimeout c s
  | .chainLockLoss x => Sys2Proof.Machine.execChainLockLoss x s
  | .statusStale t => Sys2Proof.Machine.execStatusStale t s
  | .chnClrcnt src => Sys2Proof.Machine.execChnClrcnt src s
  | .judgementRelease cycles => Sys2Proof.Machine.execJudgementRelease cycles s
  | .senseStale t => Sys2Proof.Machine.execSenseStale t s
  | .supClrcnt src => Sys2Proof.Machine.execSupClrcnt src s
  | .prfClrcnt src => Sys2Proof.Machine.execPrfClrcnt src s
  | .debounceExpiry cls inst => Sys2Proof.Machine.execDebounceExpiry cls inst s
  | .fltClrcnt src => Sys2Proof.Machine.execFltClrcnt src s
  | .fltLogclr src => Sys2Proof.Machine.execFltLogclr src s
  | .fastBurst slot win => Sys2Proof.Machine.execFastBurst slot win s
  | .conversionComplete x => Sys2Proof.Machine.execConversionComplete x s
  | .adcRstart src => Sys2Proof.Machine.execAdcRstart src s
  | .adcRstop src => Sys2Proof.Machine.execAdcRstop src s
  | .adcIstart src => Sys2Proof.Machine.execAdcIstart src s
  | .adcCalreq src => Sys2Proof.Machine.execAdcCalreq src s
  | .adcCaparm src => Sys2Proof.Machine.execAdcCaparm src s
  | .adcCapforce src => Sys2Proof.Machine.execAdcCapforce src s
  | .adcClrcnt src => Sys2Proof.Machine.execAdcClrcnt src s
  | .regularTimer => Sys2Proof.Machine.execRegularTimer s
  | .injectedSlotTrigger => Sys2Proof.Machine.execInjectedSlotTrigger s
  | .calibrationComplete r => Sys2Proof.Machine.execCalibrationComplete r s
  | .calibrationPeriod => Sys2Proof.Machine.execCalibrationPeriod s
  | .bgcUpdate ofs gainSkew => Sys2Proof.Machine.execBgcUpdate ofs gainSkew s
  | .adcDataRead src => Sys2Proof.Machine.execAdcDataRead src s
  | .adcInjRead src k => Sys2Proof.Machine.execAdcInjRead src k s
  | .winClrcnt src => Sys2Proof.Machine.execWinClrcnt src s
  | .balanceWindowEnd => Sys2Proof.Machine.execBalanceWindowEnd s
  | .balClrcnt src => Sys2Proof.Machine.execBalClrcnt src s
  | .tempNodata => Sys2Proof.Machine.execTempNodata s
  | .splClrcnt src => Sys2Proof.Machine.execSplClrcnt src s
  | .discrepancy k => Sys2Proof.Machine.execDiscrepancy k s
  | .testPulseStart n => Sys2Proof.Machine.execTestPulseStart n s
  | .offPulseStart k => Sys2Proof.Machine.execOffPulseStart k s
  | .testMissed k => Sys2Proof.Machine.execTestMissed k s
  | .sioClrcnt src => Sys2Proof.Machine.execSioClrcnt src s
  | .crcLoad src ctx => Sys2Proof.Machine.execCrcLoad src ctx s
  | .crcValWrite src ctx val => Sys2Proof.Machine.execCrcValWrite src ctx val s
  | .crcDin8 src ctx val => Sys2Proof.Machine.execCrcDin8 src ctx val s
  | .crcDin32 src ctx val => Sys2Proof.Machine.execCrcDin32 src ctx val s
  | .skinkGo src first => Sys2Proof.Machine.execSkinkGo src first s
  | .skinkAbort src => Sys2Proof.Machine.execSkinkAbort src s
  | .skinkWord => Sys2Proof.Machine.execSkinkWord s
  | .crcClrcnt src => Sys2Proof.Machine.execCrcClrcnt src s
  | .psyncEdge offset => Sys2Proof.Machine.execPsyncEdge offset s
  | .digest l p => Sys2Proof.Machine.execDigest l p s
  | .lists l p => Sys2Proof.Machine.execLists l p s
  | .heartbeat l p => Sys2Proof.Machine.execHeartbeat l p s
  | .digestTimeout => Sys2Proof.Machine.execDigestTimeout s
  | .unnamedEffectDiscard => Sys2Proof.Machine.execUnnamedEffectDiscard s
  | .takeoverDecision => Sys2Proof.Machine.execTakeoverDecision s
  | .axoTakeover src => Sys2Proof.Machine.execAxoTakeover src s
  | .axoRealign src => Sys2Proof.Machine.execAxoRealign src s
  | .axoClrcnt src => Sys2Proof.Machine.execAxoClrcnt src s
  | .partnerRstRelease => Sys2Proof.Machine.execPartnerRstRelease s
  | .chainInwardLock c => Sys2Proof.Machine.execChainInwardLock c s
  | .bypassLegsOpen c => Sys2Proof.Machine.execBypassLegsOpen c s
  | .pollTs2TimeLimit l => Sys2Proof.Machine.execPollTs2TimeLimit l s
  | .testPulseEnd n => Sys2Proof.Machine.execTestPulseEnd n s
  | .offPulseEnd k => Sys2Proof.Machine.execOffPulseEnd k s
  | .snoopedChainItem c it => Sys2Proof.Machine.execSnoopedChainItem c it s
  | .inwardPeriodMarker c m => Sys2Proof.Machine.execInwardPeriodMarker c m s

end Sys2Proof.Machine
end

