-- ==== Sys2Proof/Machine/Step.lean ====
section
/-! DEFINITION. One step of the machine: the command at the front of the queue takes its effect; with an empty queue one core
cycle passes. -/

namespace Sys2Proof.Machine

/-- The state in which the first waiting command has left the queue. -/
def State.withPending (s : State) (q : List Instr) : State := { s with pending := q }

/-- One core cycle passes without a command (DESIGN CHOICE, log entry 2). -/
def State.idle (s : State) : State := { s with now := s.now + 1 }

/-- One step. -/
def step (s : State) : Host.Outcome State Fault Refusal :=
  match s.pending with
  | [] => .next s.idle
  | c :: q => exec c (s.withPending q)

/-- The state with the command that a word spells put at the front of the queue; unchanged where it spells none. -/
def State.withFetchWord (s : State) (nbits w : Nat) : State :=
  match decodeTableWord nbits w with
  | some c => s.withPending (c :: s.pending)
  | none => s

end Sys2Proof.Machine
end

