-- ==== Sys2Proof/Machine/Pins.lean ====
section
/-! DEFINITION. The states of the pins (R32, R33, R408, R410, R446), as the device's own state gives them. In reset and in SELFTEST the mode is
SELFTEST. -/

namespace Sys2Proof.Machine

/-- What the device does with a pin. -/
inductive Drive where
  | highZ | low | high
deriving DecidableEq, Repr

/-- Whether the outward pairs of a chain are driven; otherwise they are at high impedance (R32, R250). -/
def State.outwardDriven (s : State) (c : Nat) : Bool := s.on (F.CHN_STAT_drv c)

/-- Whether the bypass legs of a chain are open (R32, R246). -/
def State.bypassOpen (s : State) (c : Nat) : Bool := s.on (F.CHN_STAT_byp c)

/-- Whether the inward receivers of the chains are on: in every mode after SELFTEST (R32). -/
def State.inwardOn (s : State) : Bool := s.live

/-- Whether the inward receivers of the chains are terminated: only while the device is chain master (R446). -/
def State.inwardTerminated (s : State) : Bool := s.master

/-- Whether the transmitter of a lane is in electrical idle: OFF, DETECT, DOWN and EXIT, in which it sends EIOS first (R32, R93). -/
def State.ltxIdle (s : State) (l : Nat) : Bool := !s.live || [0, 1, 5, 7].contains (s.get (F.LNK_STAT_state l))

/-- Whether the receivers of the lanes are terminated (R32). -/
def State.lrxTerminated (s : State) : Bool := s.live

/-- Whether a safety output drives its load on (R32, R383). -/
def State.soOn (s : State) (k : Nat) : Bool := s.on (F.SIO_OST_drv k)

/-- The state of a test-pulse source: off in reset and SELFTEST and while it is not enabled, else on but for its pulses (R32, R378). -/
def State.tpsPin (s : State) (n : Nat) : Bool := s.live && s.tpsOn n && !(s.tps n).low

/-- Whether the supply references SC0 to SC3 are driven: only while the device is chain master (R32, R33). -/
def State.scDriven (s : State) : Bool := s.master

/-- PARTNER_RST_N: driven low from a takeover decision for 10 µs, else released (R30, R32, R427). -/
def State.partnerRst (s : State) : Drive := if s.pair.rstLow then .low else .highZ

/-- Whether PSYNC_IO is an output: while the device is chain master with the permit (R32, R410). -/
def State.psyncDriven (s : State) : Bool := s.master

/-- PSYNC_IO `t` chain clocks after a period start (R410). -/
def State.psyncPin (s : State) (t : Nat) : Drive :=
  if s.psyncDriven then (if t < 16 then .high else .low) else .highZ

/-- Whether SPI_SDO is driven: while SPI_CS_N is low, in every mode after SELFTEST (R32). -/
def State.sdoDriven (s : State) : Bool := s.live && s.spi.low

end Sys2Proof.Machine
end

