-- ==== Sys2Proof/WellFormed.lean ====
section
/-! DEFINITION. What a command's operands must satisfy beside their types: an address of the space that the row names, a WO bit that
the row names, and bodies and lists of a length that the hardware can deliver. -/

namespace Sys2Proof

/-- A packet's body fits the 16-bit length field's range with its end marker (R113). -/
def Pkt.wf (p : Pkt) : Bool := decide (p.body.length ≤ 65535)

/-- A chain packet's body fits the longest item, CODES or an ACK with its lists (R252, R257). -/
def ChainPkt.wf (p : ChainPkt) : Bool := decide (p.body.length ≤ 4096)

/-- A command's operands are such as the hardware can meet. -/
def Instr.wf : Instr → Bool
  | .registerWrite _ addr _ => decide (addr < 0x1F000) && addr % 4 == 0
  | .stagedWrite _ addr _ => decide (addr < 0x1F000) && addr % 4 == 0
  | .windowWrite _ addr w64 data =>
    decide (0x80000 ≤ addr) && decide (addr < 0x100000) && addr % (if w64 then 8 else 4) == 0 &&
      (w64 || decide (data.toNat < 2 ^ 32))
  | .selftestStepComplete r => decide (r.words.length ≤ 5)
  | .safetyTick p => decide (-273 ≤ p.temp) && decide (p.temp ≤ 1000)
  | .eyePoint _ _ val => val.toNat % 4 == 1
  | .eyeScan _ _ val => val.toNat % 4 == 2
  | .eyeOpComplete _ r => r.up.length == r.down.length && (r.up.length == 0 || r.up.length == 64)
  | .skipSetReceive x => decide (1 ≤ x.skps ∧ x.skps ≤ 5 ∧ -24 ≤ x.drift ∧ x.drift ≤ 24)
  | .fastBurst slot _ => decide (slot < 1638)
  | .rdreq _ p => p.wf
  | .wrreq _ p => p.wf
  | .returnPacketReceive _ _ p => p.wf
  | .vline _ p => p.wf
  | .fend _ p => p.wf
  | .maskupd _ p => p.wf
  | .symupdData _ p => p.wf
  | .symupdDescriptor _ p => p.wf
  | .aspupd _ p => p.wf
  | .safePdu _ p => p.wf
  | .digest _ p => p.wf
  | .lists _ p => p.wf
  | .heartbeat _ p => p.wf
  | .tileRegGo _ _ val => val.getLsbD 17
  | .ackReturn _ it => it.wf
  | .latchReturn _ it _ => it.wf
  | .regrReply _ it => it.wf
  | .statusReply _ it => it.wf
  | .snoopedChainItem _ it => it.wf
  | .senseBlock _ b => b.segs.toList.all fun g => decide (g.data.length ≤ 512)
  | _ => true

end Sys2Proof
end

