-- ==== Sys2Proof/Safety.lean ====
section
/-! DEFINITION. The terms in which claims speak of the ORX-1310: the invariant that every step keeps, what two states agree in, the
conditions under which the register path carries out a write, and the footprint of a command. -/

namespace Sys2Proof.Machine

/-- What every state of the device satisfies: the SRAM and the OTP keep their canonical form and SYS_STAT.mode holds the code of one
of the six modes (R25). -/
def State.Inv (s : State) : Prop := s.sram.wf = true ∧ s.otp.wf = true ∧ s.get F.SYS_STAT_mode ≤ 5

/-- Two states agree in every register word but those of a list. -/
def regsBut (as : List Nat) (s t : State) : Prop := ∀ a, a ∉ as → t.reg a = s.reg a

/-- Two states agree in everything but the register words. -/
def onlyRegs (s t : State) : Prop := t = { s with regs := t.regs }

/-- A source may carry out a write that commands the block of page `p` and holds no lockable or staged field: SELFTEST is over, the
mode is not HOLD or the page is one that HOLD leaves writable, and the source owns the page (R61, R37, R69). -/
def State.mayCommand (s : State) (src : Src) (p : Nat) : Prop :=
  s.live = true ∧ (s.mode = .hold → holdWritable p = true) ∧ s.owns src p = true

namespace P

abbrev pending : Nat := 1
abbrev now : Nat := 2
abbrev pstart : Nat := 4
abbrev sram : Nat := 8
abbrev ecc : Nat := 16
abbrev otp : Nat := 32
abbrev boot : Nat := 64
abbrev isl : Nat := 128
abbrev cl : Nat := 256
abbrev vid : Nat := 512
abbrev fades : Nat := 1024
abbrev chains : Nat := 2048
abbrev tiles : Nat := 4096
abbrev light : Nat := 8192
abbrev flt : Nat := 16384
abbrev adc : Nat := 32768
abbrev bal : Nat := 65536
abbrev spl : Nat := 131072
abbrev sio : Nat := 262144
abbrev skink : Nat := 524288
abbrev link : Nat := 1048576
abbrev spi : Nat := 2097152
abbrev spd : Nat := 4194304
abbrev pair : Nat := 8388608
abbrev out : Nat := 16777216
abbrev draws : Nat := 33554432
abbrev mode : Nat := 67108864
abbrev stat : Nat := 134217728
abbrev hold : Nat := 268435456
abbrev ack : Nat := 536870912
abbrev rst : Nat := 1073741824
abbrev sys : Nat := 2147483648
abbrev clk : Nat := 4294967296
abbrev bist : Nat := 8589934592
abbrev pnow : Nat := 17179869184
abbrev cls : Nat := 34359738368
abbrev pgLnk : Nat := 68719476736
abbrev pgPkt : Nat := 137438953472
abbrev pgSpd : Nat := 274877906944
abbrev pgVin : Nat := 549755813888
abbrev pgCmp : Nat := 1099511627776
abbrev pgMsk : Nat := 2199023255552
abbrev pgCal : Nat := 4398046511104
abbrev pgPlc : Nat := 8796093022208
abbrev pgSup : Nat := 17592186044416
abbrev pgAsp : Nat := 35184372088832
abbrev pgFlt : Nat := 70368744177664
abbrev pgPrf : Nat := 140737488355328
abbrev pgChn : Nat := 281474976710656
abbrev pgTil : Nat := 562949953421312
abbrev pgAdc : Nat := 1125899906842624
abbrev pgWin : Nat := 2251799813685248
abbrev pgBal : Nat := 4503599627370496
abbrev pgSpl : Nat := 9007199254740992
abbrev pgSio : Nat := 18014398509481984
abbrev pgCrc : Nat := 36028797018963968
abbrev pgAxo : Nat := 72057594037927936
abbrev pgOff : Nat := 144115188075855872
/-- What a fault that is raised may change: its action may change the mode. -/
abbrev fault : Nat := 55144189394713564
/-- What a write of a register word may change. -/
abbrev write : Nat := 288230376151711708

end P

/-- The part of a register word: a block's page, or the group of the words of pages 0 to 3. -/
def wordPart (a : Nat) : Nat :=
  if a < 0x4000 then
    (if a = R.SYS_HOLDCAUSE then 28 else if a = R.SYS_ACKSTAT then 29 else if a = R.SYS_RSTCAUSE ∨ a = R.SYS_RSTCNT then 30
    else if a = R.CLS_PNOW then 34 else if a < 0x1000 then 31 else if a < 0x2000 then 32 else if a < 0x3000 then 33 else 35)
  else [36, 36, 36, 36, 37, 38, 39, 40, 41, 42, 43, 44, 45, 45, 46, 47, 48, 48, 49, 49, 50, 51, 52, 53, 54, 55, 56].getD
    (a / 0x1000 - 4) 57

/-- Whether a footprint leaves a register word: one past the header of its page, other than SYS_STAT, of a part outside it. -/
def leaves (E a : Nat) : Bool := decide (0x40 ≤ a % 0x1000) && a != 0x48 && !E.testBit (wordPart a)

/-- The step from `s` to `t` changes nothing outside the footprint `E`, a set of parts with one bit for each, and keeps the invariant.
The page headers, with the interrupt events, belong to every footprint. -/
structure Only (E : Nat) (s t : State) : Prop where
  pending : E.testBit 0 = false → t.pending = s.pending
  now : E.testBit 1 = false → t.now = s.now
  pstart : E.testBit 2 = false → t.pstart = s.pstart
  sram : E.testBit 3 = false → t.sram = s.sram
  ecc : E.testBit 4 = false → t.ecc1 = s.ecc1 ∧ t.ecc2 = s.ecc2
  otp : E.testBit 5 = false → t.otp = s.otp
  boot : E.testBit 6 = false → t.boot = s.boot
  isl : E.testBit 7 = false → t.isl = s.isl
  cl : E.testBit 8 = false → t.cl = s.cl
  vid : E.testBit 9 = false → t.vid = s.vid
  fades : E.testBit 10 = false → t.fades = s.fades
  chains : E.testBit 11 = false → t.chains = s.chains
  tiles : E.testBit 12 = false → t.tiles = s.tiles
  light : E.testBit 13 = false → t.light = s.light
  flt : E.testBit 14 = false → t.flt = s.flt
  adc : E.testBit 15 = false → t.adc = s.adc
  bal : E.testBit 16 = false → t.bal = s.bal
  spl : E.testBit 17 = false → t.spl = s.spl
  sio : E.testBit 18 = false → t.sio = s.sio
  skink : E.testBit 19 = false → t.skink = s.skink
  link : E.testBit 20 = false → t.link = s.link
  spi : E.testBit 21 = false → t.spi = s.spi
  spd : E.testBit 22 = false → t.spd = s.spd
  pair : E.testBit 23 = false → t.pair = s.pair
  out : E.testBit 24 = false → t.out = s.out
  draws : E.testBit 25 = false → t.draws = s.draws
  mode : E.testBit 26 = false → t.get F.SYS_STAT_mode = s.get F.SYS_STAT_mode
  stat : E.testBit 27 = false → getBits (t.reg R.SYS_STAT) 4 28 = getBits (s.reg R.SYS_STAT) 4 28
  word : ∀ a, leaves E a = true → t.reg a = s.reg a
  inv : s.Inv → t.Inv

/-- A command completes: it answers a next state that has a property and differs from the present one only within a footprint. -/
def Does (c : Instr) (s : State) (E : Nat) (Q : State → Prop) : Prop := ∃ t, exec c s = .next t ∧ Only E s t ∧ Q t

/-- A command completes and changes register words only, those of a list. -/
def Puts (c : Instr) (s : State) (as : List Nat) (Q : State → Prop) : Prop :=
  ∃ t, exec c s = .next t ∧ onlyRegs s t ∧ regsBut as s t ∧ Q t

/-- A packet from the host is whole, addressed to this device, and arrives on an ACTIVE lane of the host path with a length that its type
allows, with no word of it in error (R98, R113 to R116). -/
def State.admits (s : State) (l typ lo hi : Nat) (p : Pkt) : Prop :=
  s.live = true ∧ s.active l = true ∧ s.hostPath l = true ∧ p.eop = true ∧ p.body.length = p.len.toNat ∧ lo ≤ p.len.toNat ∧
    p.len.toNat ≤ hi ∧ p.crc.toNat = crcLink (pktHead typ p ++ p.body) ∧ (s.lane (s.linkLow l)).rxBad = false ∧
    p.hdr.getLsbD (s.get F.PKT_POS_pos) = true

/-- The state in which the completion of a request on lane `l` has been handed to its link (R100, R119): it carries the request's tag, the
status, the words done, its type, and data. -/
def State.completion (s : State) (l typ : Nat) (p : Pkt) (status done : Nat) (data : List Byte) : State :=
  s.transmit l 0x03 s.hostHdr (leBytes 1 (pktTag p) ++ leBytes 1 status ++ leBytes 1 done ++ leBytes 1 typ ++ leBytes 4 0 ++ data)

/-- A request from the link alone in the queue, in which its tag is in use (R121, R122). -/
def State.holding (s : State) (l typ : Nat) (p : Pkt) : State :=
  (s.onLink fun k => { k with queue := [{ lane := l, typ := typ, pkt := p }] }).peak F.PKT_TAGS_high 1

/-- A counter field one higher, held at its field's highest value (R78). -/
def State.plusOne (s : State) (f : Fld) : Nat := min (s.get f + 1) (2 ^ f.w - 1)

end Sys2Proof.Machine
end

