-- ==== Sys2Proof/Certificates/Slice0/Obligations.lean ====
section
/-! DEFINITION. The statements for the provers: what the commands and the machine do, from the numbered rules of the spec. -/

open Sys2Proof Sys2Proof.Machine

/-- The step takes the command at the front of the queue and answers its outcome on the queue's rest. -/
def Obligations.StepRunsFront : Prop :=
  ∀ (s : State) (c : Instr) (r : List Instr), s.pending = c :: r → step s = exec c { s with pending := r }

/-- With no command waiting the device idles for one core cycle and nothing else changes (log entry 2). -/
def Obligations.StepIdles : Prop :=
  ∀ s : State, s.pending = [] → step s = .next { s with now := s.now + 1 }

/-- Every step keeps the invariant: the SRAM and the OTP in canonical form, and SYS_STAT.mode a mode of R25. -/
def Obligations.StepKeepsInv : Prop := ∀ s t : State, s.Inv → step s = .next t → t.Inv

/-- Every command answers a next state. That one whose condition the state does not meet leaves the state as it is, in place of a refusal, is
the model's choice (log entry 1). -/
def Obligations.EveryCommandCompletes : Prop := ∀ (c : Instr) (s : State), ∃ t, exec c s = .next t

/-- No command touches the queue, and none but a period start moves the clock. -/
def Obligations.CommandsLeaveQueue : Prop :=
  ∀ (c : Instr) (s t : State), exec c s = .next t → t.pending = s.pending ∧ (c ≠ .periodStart → t.now = s.now)

/-- Only the end of OTP programming changes the OTP: no reset and no other command does. -/
def Obligations.OtpKept : Prop :=
  ∀ (c : Instr) (s t : State), (∀ ok, c ≠ .otpProgramDone ok) → exec c s = .next t → t.otp = s.otp

/-- What a power-on leaves before the first command: no command waits, every register word at the reset value of the register tables
(nine of them spelled out), the mode SELFTEST, the device held in reset, and no SRAM byte listed (that an unlisted byte reads zero is the
model's choice, log entry 9). -/
def Obligations.ResetValues : Prop :=
  (∀ a, State.reset.reg a = resetWord a) ∧ State.reset.pending = [] ∧ State.reset.mode = .selftest ∧ State.reset.boot.phase = .held ∧
    State.reset.sram = [] ∧
    State.reset.reg R.SYS_RSTCAUSE = 1 ∧ State.reset.reg R.SYS_ACKSTAT = 0x200 ∧ State.reset.reg R.SYS_HOSTTO = 0x64 ∧
    State.reset.reg R.SYS_CFGTO = 0x3E8 ∧ State.reset.reg R.SYS_OWN0 = 0xFFFFFFFF ∧ State.reset.reg R.SYS_OWN1 = 0x3FFFFFFF ∧
    State.reset.reg R.PLC_PWM = 0x32 ∧ State.reset.reg R.VIN_RATE = 0x1E0 ∧ State.reset.reg R.SUP_CFG = 0x1002

/-- The invariant holds right after reset. -/
def Obligations.ResetMeetsInvariant : Prop := State.reset.Inv

/-- A power-on reset puts every register at its reset value and the device into reset; the OTP, the commands that wait and what the
model records of the outside remain, and an OTP block whose programming it cuts short is marked (R40, R158). The model's choices: the SRAM
lists nothing then (log entry 9), the state beside the registers starts empty or off (log entry 3), and both ways to a power-on reset act
alike (log entry 17). -/
def Obligations.PowerOnReset : Prop :=
  ∀ (vsafeFell : Bool) (s : State), ∃ t, exec (.powerOnReset vsafeFell) s = .next t ∧ (∀ a, t.reg a = resetWord a) ∧
    t.mode = .selftest ∧ t.sram = [] ∧ t.otp = s.otp ∧ t.boot = { rolePin := s.boot.rolePin } ∧
    t.spd = { cutCom := s.spd.cutCom || s.spd.otp.any (!·.1), cutFb := s.spd.cutFb || s.spd.otp.any (·.1) } ∧
    t = { State.reset with pending := s.pending, now := s.now, otp := s.otp, out := s.out, draws := s.draws, spd := t.spd,
                           boot := t.boot }

/-- A reset input held low for 200 ns or longer, and the soft reset key in a mode that drives nothing, reset the device: the cause bit
is set and the count of SYS_RSTCNT rises, the code of SYS_HOLDCAUSE is copied into SYS_RSTCAUSE.last_hold, every other register
takes its reset value, the OTP is kept, and no pin is driven (R30, R32, R33, R39, R40); that the SRAM is kept too is the model's choice
(log entry 9). In OPERATE and FALLBACK the soft reset key begins a dark release first, and where one runs already it makes the reset that
one's end (R28, R39; log entry 22). -/
def Obligations.ResetSources : Prop :=
  (∀ (src : Src) (s : State), src ≠ .lane → s.live = true → s.owns src 0 = true → s.driving = true →
     (s.boot.dark = none → Does (.softReset src) s P.fault fun t => t.mode = s.mode ∧ t.get F.SYS_STAT_dark_rel = 1 ∧
       t.boot = { s.boot with dark := some .reset, darkFrom := none } ∧ t.vid.dirty = List.range 10240) ∧
     (s.boot.dark.isSome = true → exec (.softReset src) s = .next { s with boot := { s.boot with dark := some .reset } })) ∧
  ∀ (c : Instr) (bit ns : Nat) (src : Src) (s : State),
    (200 ≤ ns ∧ s.boot.phase ≠ .held ∧ c = .resetNFall ns ∧ bit = 1) ∨
      (200 ≤ ns ∧ s.boot.phase ≠ .held ∧ s.pair.rstLow = false ∧ c = .partnerRstNFall ns ∧ bit = 2) ∨
      (s.live = true ∧ s.driving = false ∧ src ≠ .lane ∧ s.owns src 0 = true ∧ c = .softReset src ∧ bit = 3) →
    ∃ t, exec c s = .next t ∧ t.mode = .selftest ∧ t.boot = { rolePin := s.boot.rolePin } ∧ t.sram = s.sram ∧ t.otp = s.otp ∧
      t.pending = s.pending ∧ t.get F.SYS_RSTCNT_cnt = min (s.get F.SYS_RSTCNT_cnt + 1) 65535 ∧
      (∀ n < 8, t.bit R.SYS_RSTCAUSE n = (n == bit || s.bit R.SYS_RSTCAUSE n)) ∧
      t.get F.SYS_RSTCAUSE_last_hold = s.get F.SYS_HOLDCAUSE_code ∧ t.scDriven = false ∧ t.psyncDriven = false ∧ t.sdoDriven = false ∧
      t.lrxTerminated = false ∧ (∀ l < 4, t.ltxIdle l = true ∧ t.tpsPin l = false) ∧ (∀ k < 8, t.soOn k = false) ∧
      (∀ c < 20, t.outwardDriven c = false ∧ t.bypassOpen c = false) ∧
      ∀ a, a ≠ R.SYS_RSTCNT → a ≠ R.SYS_RSTCAUSE → t.reg a = resetWord a

/-- A low pulse on a reset input that does not reset withdraws the permit, turns the safety outputs off and is kept as a glitch, which
forces HOLD with cause RESET_GLITCH (R30, R383): shorter than 50 ns always, below 200 ns where the free value says so (log entry 8). -/
def Obligations.ResetPulse : Prop :=
  ∀ (c : Instr) (which ns : Nat) (s : State), s.boot.phase ≠ .held →
    (ns < 50 ∨ ns < 200 ∧ Config.pulseResets s.draws = false) →
    (c = .resetNFall ns ∧ which = 1 ∨ s.pair.rstLow = false ∧ c = .partnerRstNFall ns ∧ which = 2) →
    Does c s (P.chains ||| P.sio ||| P.stat ||| P.clk ||| P.pgChn ||| P.pgTil ||| P.pgSio ||| P.boot ||| P.draws) fun t =>
      t.boot = { s.boot with glitch := which } ∧ t.get F.CLK_STAT_permit = 0 ∧ t.get F.SYS_STAT_permit = 0 ∧ t.mode = s.mode ∧
        ∀ k < 8, t.soOn k = false

/-- The start of the device from reset release to SELFTEST (R30, R31, R42). -/
def Obligations.StartUp : Prop :=
  ∀ (ackN role : Bool) (s : State),
    (s.boot.phase = .held → Does (.resetRelease ackN role) s (P.boot ||| P.isl ||| P.clk) fun t =>
      t.boot = { s.boot with phase := .locking, rolePin := role, ackLow := !ackN } ∧ t.isl.ackLvl = ackN ∧
        t.get F.CLK_STAT_safe_osc = 1) ∧
    (s.boot.phase = .locking → s.boot.early = none → Does .pllLock s (P.boot ||| P.clk) fun t =>
      t.boot = { s.boot with phase := .up } ∧ t.get F.CLK_STAT_core_lock = 1 ∧ t.get F.CLK_STAT_chain_lock = 1 ∧
        t.get F.CLK_STAT_conv_lock = 1 ∧ t.get F.CLK_STAT_ltx_lock = 1) ∧
    (s.boot.phase = .locking → Does .pllLockTimeout s (P.boot ||| P.rst) fun t =>
      t.boot = { s.boot with phase := .noLock } ∧ t.get F.SYS_RSTCAUSE_pll = 1 ∧
        t.get F.SYS_HOLDCAUSE_code = s.get F.SYS_HOLDCAUSE_code) ∧
    (s.boot.phase = .noLock → exec .pllRestart s = .next { s with boot := { s.boot with phase := .locking } })

/-- The causes for which the safety island forces HOLD: the command, the condition under which it acts, the code and the detail. The supply
references, the chains' outward pairs and PSYNC_IO are no longer driven, the bypass legs are closed and the safety outputs off (R18,
R19, R20, R27, R30, R32, R33, R38, R367, R439, R441). A supply fault names the rail, index 4 for VSAFE. -/
def Obligations.IslandHold : Prop :=
  ∀ (c : Instr) (code detail : Nat) (s : State), s.boot.phase = .up → (s.mode = .selftest → s.boot.ackLow = false) →
    (c = .clockFault ∧ code = 3 ∧ s.isl.clkBad = false ∧ s.isl.clkOff.toList.findIdx? (2 ≤ ·) = some detail) ∨
      (c = .watchdogExpiry ∧ code = 2 ∧ s.live = true ∧ s.isl.wdogDue = true ∧ s.isl.wdogExp = false ∧ detail = s.isl.hbLast) ∨
      (∃ rail, c = .supplyFault rail ∧ code = 4 ∧ detail = rail.val) ∨
      (c = .thermalTrip ∧ code = 5 ∧ 3 ≤ s.isl.hot ∧ s.isl.hotTrip = false ∧ detail = unsigned 16 (s.isl.tempC + 64)) ∨
      (c = .resetGlitch ∧ code = 11 ∧ s.boot.glitch ≠ 0 ∧ detail = s.boot.glitch) →
    Does c s (P.fault ||| P.bist) fun t => t.mode = .hold ∧ t.get F.CLK_STAT_permit = 0 ∧ t.get F.SYS_STAT_permit = 0 ∧
      (s.mode ≠ .hold → t.get F.SYS_HOLDCAUSE_code = code ∧ t.get F.SYS_HOLDCAUSE_detail = detail % 65536) ∧
      (s.mode = .hold → t.get F.SYS_HOLDCAUSE_more = 1 ∧ t.get F.SYS_HOLDCAUSE_code = s.get F.SYS_HOLDCAUSE_code) ∧
      t.scDriven = false ∧ t.psyncDriven = false ∧ (∀ c < 20, t.outwardDriven c = false ∧ t.bypassOpen c = false) ∧
      ∀ k < 8, t.soOn k = false

/-- The steps of SELFTEST: what a passed step leaves, what a failed one leaves, and the end of the last one (R34, R35, R38, R55, R93, R457).
Step 1 passes where the identity block of the OTP has a correct CRC. Where the timer ends SELFTEST, the total duration is what the safety
ticks have counted (the model's choice, log entry 57). -/
def Obligations.Selftest : Prop :=
  ∀ (r : StepRes) (s : State), s.boot.phase = .up → s.mode = .selftest → s.boot.ackLow = false →
    (s.boot.step = 0 → s.idOk = true → Does (.selftestStepComplete r) s (P.boot ||| P.adc ||| P.bist ||| P.pgAdc ||| P.draws |||
        P.sys ||| P.pgSpd) fun t => t.mode = .selftest ∧ t.boot = { s.boot with step := 1 } ∧
          t.reg R.SYS_ID0 = BitVec.ofNat 32 (blkLe s.idBlock 0 4)) ∧
    (s.boot.step = 0 → s.idOk = false → Does (.selftestStepComplete r) s (P.fault ||| P.adc ||| P.draws ||| P.sys ||| P.bist ||| P.pgAdc)
        fun t => t.mode = .hold ∧ t.get F.SYS_HOLDCAUSE_code = 10 ∧ t.bit R.SYS_STRES 0 = true) ∧
    (∀ n, n = s.boot.step + 1 → 2 ≤ n → n ≤ 9 → r.pass = false → Does (.selftestStepComplete r) s
        (P.fault ||| P.adc ||| P.draws ||| P.sys ||| P.bist ||| P.pgAdc) fun t => t.mode = .hold ∧ t.get F.SYS_HOLDCAUSE_code = 1 ∧
          t.get F.SYS_HOLDCAUSE_detail = (4096 * n + r.inst.toNat) % 65536 ∧ t.bit R.SYS_STRES (n - 1) = true ∧
          t.get F.BIST_TIME2_total = min r.tot10 65535) ∧
    (∀ n, n = s.boot.step + 1 → 2 ≤ n → n < 9 → r.pass = true → Does (.selftestStepComplete r) s
        (P.boot ||| P.sram ||| P.ecc ||| P.adc ||| P.bist ||| P.pgAdc ||| P.pgLnk) fun t => t.mode = .selftest ∧ t.boot = { s.boot with step := n } ∧
          (n = 4 → t.sram = []) ∧ (n ≠ 4 → t.sram = s.sram) ∧ (n = 5 → ∀ l : Fin 4, t.laneState l = 6)) ∧
    (s.boot.step = 8 → r.pass = true → Does (.selftestStepComplete r) s (P.fault ||| P.adc ||| P.draws ||| P.sys ||| P.bist ||| P.pgAdc)
        fun t => t.mode = .configure ∧ t.get F.SYS_STRES_complete = 1 ∧ t.sram = [] ∧
          t.get F.SYS_STAT_role_pin = s.boot.rolePin.toNat ∧ t.get F.BIST_TIME2_total = min r.tot10 65535) ∧
    Does .selftestTimerExpiry s (P.fault ||| P.bist) fun t => t.mode = .hold ∧ t.get F.SYS_HOLDCAUSE_code = 1 ∧
      t.get F.SYS_HOLDCAUSE_detail = 4096 * (s.boot.step + 1) % 65536 ∧ t.get F.BIST_TIME2_total = min (10 * s.boot.selfT) 65535

/-- The sizes of register accesses (R58): an aligned 32-bit word of the 31 register pages, below 0x1F000, or of the SRAM window, and an
aligned 64-bit word of the window are taken to the checks of their range, and any other read or write, one between the two included, is
refused with access-error, status 1, and changes no register but the two records of refused accesses. The witness in the tests is
witness_accessSizes. -/
def Obligations.AccessSizes : Prop :=
  ∀ (s : State) (src : Src) (a n v : Nat),
    let window := 0x80000 ≤ a ∧ a < 0x100000
    let allowed := (n = 4 ∧ a % 4 = 0 ∧ (a < 0x1F000 ∨ window)) ∨ (n = 8 ∧ a % 8 = 0 ∧ window)
    (¬ allowed → (s.readWord src a n).2 = (1, 0) ∧ (s.writeWord src a n v).2 = 1 ∧
      ∀ b, b % 0x1000 ≠ 0x28 → b ≠ R.SYS_WINERR → (s.writeWord src a n v).1.reg b = s.reg b) ∧
    (allowed → (s.readWord src a n).2.1 ≠ 1 ∧
      s.writeWord src a n v = if a < 0x1F000 then s.writeReg src a (BitVec.ofNat 32 v) else s.writeWindow src a n v)

/-- The interrupts of a page (R65): an event sets its bit of PIRQ_RAW and nothing else, PIRQ_STAT reads as PIRQ_RAW and PIRQ_EN, bit p
of SYS_IRQSUM is set while it is not zero, a write of PIRQ_STAT clears the bits of its ones in any mode after SELFTEST, a write of
PIRQ_SET sets them, and an event beside the clearing write leaves its bit set. That the four registers hold all 32 bits on every page,
those of events that no table lists included, is the model's choice (log entry 56). -/
def Obligations.PageInterrupts : Prop :=
  ∀ (s : State) (p : Fin 31) (k : Nat), k < 32 →
    ((s.event p k).bit (R.PIRQ_RAW p) k = true ∧ (∀ j, j ≠ k → (s.event p k).bit (R.PIRQ_RAW p) j = s.bit (R.PIRQ_RAW p) j) ∧
      ∀ b, b ≠ R.PIRQ_RAW p → (s.event p k).reg b = s.reg b) ∧
    s.present (R.PIRQ_STAT p) = s.reg (R.PIRQ_RAW p) &&& s.reg (R.PIRQ_EN p) ∧
    (s.present R.SYS_IRQSUM).getLsbD p = (s.present (R.PIRQ_STAT p) != 0) ∧
    ∀ (src : Src) (v : Word), s.live = true → s.owns src p = true →
      Puts (.pirqSet src p v) s [R.PIRQ_RAW p] (fun t => t.reg (R.PIRQ_RAW p) = s.reg (R.PIRQ_RAW p) ||| v) ∧
      Puts (.pirqStatClear src p v) s [R.PIRQ_RAW p] fun t => t.reg (R.PIRQ_RAW p) = s.reg (R.PIRQ_RAW p) &&& ~~~v ∧
        (t.event p k).bit (R.PIRQ_RAW p) k = true

/-- The body of a CODES packet (R257): byte 4 holds the row and the bank, bytes 5 to 7 are zero, and bytes 8 to 199 hold the 128 codes,
each 3-byte group with the even pixel in [11:0] and the odd one in [23:12]; packet byte i is body byte i - 4. -/
def Obligations.CodesPacketBody : Prop :=
  ∀ (s : State) (row bank slot : Nat), bank ≤ 1 →
    let b := s.codesBody row bank slot
    let code := fun k => s.driven slot (s.sendMask slot) (s.sendOff slot) (128 * row + k)
    b.length = 196 ∧ bits (b.getD 0 0).toNat 0 7 = row % 128 ∧ bits (b.getD 0 0).toNat 7 1 = bank ∧ (b.drop 1).take 3 = [0, 0, 0] ∧
      ∀ k < 64, bits (leNat ((b.drop (4 + 3 * k)).take 3)) 0 12 = code (2 * k) ∧
        bits (leNat ((b.drop (4 + 3 * k)).take 3)) 12 12 = code (2 * k + 1)

/-- A lane that fails in POLL or CAPS goes to EXIT with the reason: the state, freason, the count of failures up to 16, the event
and the EIOS (R93, R95). A lane leaves ACTIVE for EXIT with a cause in xreason and the loss event, and this is no training failure:
electrical idle 1, the error bucket 2, an EIOS 3, a retraining command 4 (R96, R109). -/
def Obligations.LaneEnds : Prop :=
  (∀ (c : Instr) (l : Fin 4) (reason : Nat) (s : State),
     (c = .pollTimeout l ∧ s.laneState l = 2 ∧ reason = 1) ∨ (c = .capsTimeout l ∧ s.laneState l = 3 ∧ reason = 2) ∨
       (c = .electricalIdle l ∧ (s.laneState l = 2 ∧ s.on (F.LNK_STAT_sym_lock l) = true ∨ s.laneState l = 3) ∧ reason = 7) →
     Does c s (P.link ||| P.out ||| P.pgLnk ||| P.pgPkt) fun t => t.laneState l = 7 ∧ t.get (F.LNK_STAT_freason l) = reason ∧
       t.get (F.LNK_STAT_fails l) = min 16 (s.get (F.LNK_STAT_fails l) + 1) ∧ (t.lane l).failed = true ∧
       t.out = .ordered l 6 eiosSet :: s.out) ∧
  (∀ (c : Instr) (l : Fin 4) (src : Src) (cause : Nat) (s : State), s.laneState l = 4 →
     (c = .electricalIdle l ∧ cause = 1) ∨ (c = .errorBucketFull l ∧ 256 ≤ (s.lane l).bucket ∧ cause = 2) ∨
       (c = .eiosReceive l ∧ cause = 3) ∨ (c = .lnkRetrain src l ∧ s.mayCommand src (4 + l) ∧ cause = 4) →
     Does c s (P.link ||| P.out ||| P.pgLnk ||| P.pgPkt) fun t => t.laneState l = 7 ∧ t.get (F.LNK_STAT_xreason l) = cause ∧
       t.get (F.LNK_STAT_fails l) = s.get (F.LNK_STAT_fails l) ∧ (t.lane l).failed = false ∧ t.out = .ordered l 6 eiosSet :: s.out)

/-- A lane trains through DETECT and POLL: the probe, the symbol lock after three COMs at one alignment, the 20 ms mark, and the
step to CAPS once eight TS2 sets came in a row and 16 were sent (R93, R101); that one set goes out on entering a state and one for each
that comes in is the model's choice (log entry 12). A lane that may train starts again in DETECT: after an
EXIT wait, unless it has failed 16 times, after one second in DOWN, and by LNK_CTRL.restart, which clears the count of failures. A
lane that has failed 16 times goes to DOWN (R93, R95, R109). -/
def Obligations.LaneTrains : Prop :=
  (∀ (l : Fin 4) (s : State),
     (s.laneState l = 1 → Does (.detectProbe l true) s (P.link ||| P.out ||| P.pgLnk ||| P.pgPkt) fun t =>
       t.laneState l = 2 ∧ (t.lane l).comN = 0 ∧ (t.lane l).validN = 0 ∧ (t.lane l).ts2N = 0 ∧ (t.lane l).past20 = false ∧
         t.eqNow l = (if (s.lane l).fresh then (8, 0, 0, 0) else (s.lane l).eqKept) ∧ t.out = .ordered l 1 (tsSet false s.link.rate) :: s.out) ∧
     (s.laneState l = 1 → exec (.detectProbe l false) s = .next (s.put (F.LNK_STAT_far_term l) 0)) ∧
     (s.laneState l = 2 → Does (.pollTs2TimeLimit l) s (P.link ||| P.out) fun t => (t.lane l).past20 = true) ∧
     (∀ (ts2 inv ok : Bool) (rate : Byte) (align : Fin 10) (sent : Nat), s.laneState l = 2 →
       (s.on (F.LNK_STAT_sym_lock l) = false → (s.lane l).comAt = align.val → 2 ≤ (s.lane l).comN →
         Does (.tsSetReceive l ts2 rate align inv ok sent) s (P.link ||| P.out ||| P.pgLnk ||| P.pgPkt) fun t =>
           t.get (F.LNK_STAT_sym_lock l) = 1) ∧
       (s.on (F.LNK_STAT_sym_lock l) = false → (s.lane l).comAt ≠ align.val →
         Does (.tsSetReceive l ts2 rate align inv ok sent) s (P.link ||| P.pgLnk) fun t =>
           t.get (F.LNK_STAT_sym_lock l) = 0 ∧ (t.lane l).comAt = align.val ∧ (t.lane l).comN = 1) ∧
       (s.on (F.LNK_STAT_sym_lock l) = true → ok = true → rate.toNat = s.link.rate → ts2 = true → 7 ≤ (s.lane l).ts2N →
         7 ≤ (s.lane l).validN → 16 ≤ sent → (s.on (F.LNK_ADAPT_conv l) = true ∨ (s.lane l).past20 = true) →
         Does (.tsSetReceive l ts2 rate align inv ok sent) s (P.link ||| P.out ||| P.pgLnk ||| P.pgPkt) fun t =>
           t.laneState l = 3 ∧ (t.lane l).capN = 0 ∧
             t.out = .ordered l 3 (capSet (t.capOwn l)) :: .ordered l 2 (tsSet true s.link.rate) :: s.out))) ∧
  (∀ (l : Fin 4) (src : Src) (s : State), s.laneOn l = true →
     (s.laneState l = 7 → s.link.change < 2 → ((s.lane l).failed = false ∨ s.get (F.LNK_STAT_fails l) ≠ 16) →
       Does (.exitWaitDone l) s (P.pgLnk ||| P.pgPkt) fun t => t.laneState l = 1) ∧
     (s.laneState l = 7 → s.link.change < 2 → (s.lane l).failed = true → s.get (F.LNK_STAT_fails l) = 16 →
       Does (.exitWaitDone l) s (P.fault ||| P.link ||| P.pgPkt) fun t => t.laneState l = 5 ∧ (t.lane l).down = true) ∧
     (s.laneState l = 5 → Does (.downRetry l) s (P.link ||| P.pgLnk ||| P.pgPkt) fun t =>
       t.laneState l = 1 ∧ (t.lane l).fresh = true ∧ t.get (F.LNK_STAT_fails l) = s.get (F.LNK_STAT_fails l)) ∧
     (s.mayCommand src (4 + l) → s.laneState l = 5 ∨ s.laneState l = 7 ∧ s.link.change < 2 →
       Does (.lnkRestart src l) s (P.link ||| P.pgLnk ||| P.pgPkt) fun t => t.laneState l = 1 ∧ t.get (F.LNK_STAT_fails l) = 0))

/-- A crossing that fails parity sets its bit of CLK_XERR (R17), and the loss of VDDH closes every bypass leg: each chain stops and its
drivers and its legs are off (R441, R447). -/
def Obligations.CrossingAndVddh : Prop :=
  ∀ s : State,
    (∀ x : Fin 10, Does (.crossingParityError x) s (P.fault ||| P.clk) fun t => t.bit R.CLK_XERR x = true) ∧
    Does .vddhLossBypassClose s (P.boot ||| P.chains ||| P.pgChn ||| P.pgTil) fun t =>
      t.boot = { s.boot with vddhLow := true } ∧
        ∀ c : Fin 20, t.get (F.CHN_STAT_state c) = 0 ∧ t.get (F.CHN_STAT_drv c) = 0 ∧ t.get (F.CHN_STAT_byp c) = 0

/-- A press of ACK_N of 20 ms to 2 s is one acknowledgement in every mode, SELFTEST included, and so is the second write of the SYS_ACK
sequence; the key that arms it, its time limit, and any other value (R41, R43, R44). ACK_N low for 2 s is stuck and voids the press; after
1,000 high samples it is no longer (R41, R42). The times are counted in samples of the safety tick, 200 and 20,000 (the model's reading,
log entry 15). -/
def Obligations.Acknowledgements : Prop :=
  (∀ (src : Src) (v : Word) (n : Nat) (s : State),
     (s.boot.phase = .up → s.isl.ackRel = some n → s.isl.ackVoid = false → 200 ≤ n → n < 20000 →
       Does .ackNRelease s (P.isl ||| P.ack) fun t => t.get F.SYS_ACKSTAT_count = (s.get F.SYS_ACKSTAT_count + 1) % 256 ∧
         t.get F.SYS_ACKSTAT_src = 1 ∧ t.isl = { s.isl with ackRel := none, ackEvent := s.isl.ackEvent || s.mode != .mirror }) ∧
     (s.boot.phase = .up → s.isl.ackRel = some n → s.isl.ackVoid = true ∨ n < 200 ∨ 20000 ≤ n →
       exec .ackNRelease s = .next { s with isl := { s.isl with ackRel := none } }) ∧
     Does .ackArmTimeout s (P.isl ||| P.ack) (fun t => t.get F.SYS_ACKSTAT_armed = 0 ∧ t.isl = { s.isl with ackSrc := none } ∧
       t.get F.SYS_ACKSTAT_count = s.get F.SYS_ACKSTAT_count) ∧
     (src ≠ .lane → s.live = true → s.owns src 0 = true →
       Does (.sysAckWrite src 0xA5) s (P.isl ||| P.ack) (fun t => t.get F.SYS_ACKSTAT_armed = 1 ∧
         t.isl = { s.isl with ackSrc := some src } ∧ t.get F.SYS_ACKSTAT_count = s.get F.SYS_ACKSTAT_count) ∧
       (s.isl.ackSrc = some src → s.mode ≠ .mirror → Does (.sysAckWrite src 0x5A) s (P.isl ||| P.ack) fun t =>
         t.get F.SYS_ACKSTAT_armed = 0 ∧ t.get F.SYS_ACKSTAT_count = (s.get F.SYS_ACKSTAT_count + 1) % 256 ∧
           t.get F.SYS_ACKSTAT_src = (if src = .spi then 2 else 3) ∧ t.isl = { s.isl with ackSrc := none, ackEvent := true }) ∧
       (v ≠ 0xA5 → (v ≠ 0x5A ∨ s.isl.ackSrc ≠ some src) → Does (.sysAckWrite src v) s (P.isl ||| P.ack) fun t =>
         t.get F.SYS_ACKSTAT_armed = 0 ∧ t.get F.SYS_ACKSTAT_count = s.get F.SYS_ACKSTAT_count ∧
           t.isl = { s.isl with ackSrc := none }))) ∧
  (∀ s : State,
     (s.boot.phase = .up → s.isl.ackLvl = false → 20000 ≤ s.isl.ackLen → Does .ackNStuck s (P.fault ||| P.ack) fun t =>
       t.get F.SYS_ACKSTAT_stuck = 1 ∧ t.isl.ackVoid = true ∧ t.get F.SYS_ACKSTAT_count = s.get F.SYS_ACKSTAT_count) ∧
     (s.get F.SYS_ACKSTAT_stuck = 1 → 1000 ≤ s.isl.ackHigh → Does .ackNStuckClear s (P.fault ||| P.ack) fun t =>
       t.get F.SYS_ACKSTAT_stuck = 0 ∧ t.get F.SYS_ACKSTAT_count = s.get F.SYS_ACKSTAT_count))

/-- A PWM period starts, with no request waiting in the queue: CLS_PNOW goes on by one, the clock stands at the start of the period, and
the heartbeat to the safety island has its next sequence number (R19, R83, R225). -/
def Obligations.PeriodStarts : Prop :=
  ∀ s : State, s.live = true → s.link.queue = [] → Does .periodStart s (P.write ||| P.now) fun t =>
    t.pnow = perAdd s.pnow 1 ∧ t.now = max s.now (s.pstart + s.periodCycles + s.pair.shift * 5000 / 4096) ∧
      t.isl.hbSeq = (s.isl.hbSeq + 1) % 16

/-- One safety tick in a device that is up: the four clock counts are shown and each is judged against a drift of 6 % from its expected
count, the lane transmit clock not around a change of rate (R20, R89), the temperature is sampled and compared with the shutdown level
(R367; its nominal 165 degrees Celsius is the model's choice, log entry 13), and ACK_N is sampled, its level held once three samples in a
row show it (R41). -/
def Obligations.SafetyTick : Prop :=
  ∀ (p : TickIn) (s : State), s.boot.phase = .up →
    Does (.safetyTick p) s (P.fault ||| P.link ||| P.ack) fun t =>
      t.get F.CLK_FCORE_n = p.fcore.toNat ∧ t.get F.CLK_FCHAIN_n = p.fchain.toNat ∧ t.get F.CLK_FCONV_n = p.fconv.toNat ∧
      t.get F.CLK_FLTX_n = p.fltx.toNat ∧ t.isl.tempC = p.temp ∧ t.isl.hot = (if 165 ≤ p.temp then s.isl.hot + 1 else 0) ∧
      t.isl.ackLvl = (if p.ackN = s.isl.ackH1 ∧ p.ackN = s.isl.ackH2 then p.ackN else s.isl.ackLvl) ∧
      t.get F.SYS_ACKSTAT_ack_level = t.isl.ackLvl.toNat ∧
      ∀ (k : Fin 4) (n two : Nat), n = [p.fcore.toNat, p.fchain.toNat, p.fconv.toNat, p.fltx.toNat].getD k 0 →
        two = [80000, 65536, 25000, [6250, 12500, 15625, 25000, 31250].getD s.link.rate 6250].getD k 0 →
        t.isl.clkOff[k] = if 6 * two < 100 * (2 * n - two + (two - 2 * n)) ∧ (k.val = 3 → s.link.change = 0 ∧ s.link.unjudged = 0) then
          s.isl.clkOff[k] + 1 else 0

/-- SYS_MODEREQ: from CONFIGURE and MIRROR the target HOLD is entered at once, and CONFIGURE from MIRROR; from OPERATE and FALLBACK
a dark release begins first (R26, R28, R29); where the mode does not lead to the target, the request is counted as refused (R26). A
dark release ends two complete periods after the all-dark frame was latched, in the state it was asked for (R28). The model's readings:
a request for HOLD too waits for a dark release, and a second request is refused while one runs (log entry 22); the SRAM stays over the
reset that ends one (log entry 9). -/
def Obligations.ModeChanges : Prop :=
  (∀ (src : Src) (s : State), src ≠ .lane → s.live = true → s.owns src 0 = true → s.pair.tkP = none → s.boot.dark = none →
     (s.mode = .configure ∨ s.mode = .mirror → Does (.modereqHold src) s P.fault fun t => t.mode = .hold ∧
       t.get F.SYS_HOLDCAUSE_code = 7 ∧ t.get F.SYS_HOLDCAUSE_detail = (if src = .spi then 1 else 2) ∧ t.get F.SYS_STAT_permit = 0) ∧
     (s.mode = .mirror → Does (.modereqConfigure src) s P.fault fun t => t.mode = .configure ∧ t.get F.SYS_STAT_permit = 0 ∧
       t.get F.SYS_STAT_cfg_fail = 0 ∧ t.isl.req = false) ∧
     (s.driving = true → Does (.modereqHold src) s P.fault (fun t => t.mode = s.mode ∧ t.get F.SYS_STAT_dark_rel = 1 ∧
         t.boot = { s.boot with dark := some (.hold (if src = .spi then 1 else 2)), darkFrom := none }) ∧
       Does (.modereqConfigure src) s P.fault fun t => t.mode = s.mode ∧ t.get F.SYS_STAT_dark_rel = 1 ∧
         t.boot = { s.boot with dark := some .configure, darkFrom := none }) ∧
     (s.mode = .hold ∨ s.mode = .configure → Puts (.modereqConfigure src) s [R.SYS_STAT] fun t =>
       t.get F.SYS_STAT_refused = min (s.get F.SYS_STAT_refused + 1) 255 ∧ t.mode = s.mode)) ∧
  (∀ (src : Src) (c : Instr) (s : State), src ≠ .lane → s.live = true → s.owns src 0 = true → s.boot.dark.isSome = true →
     c = .modereqHold src ∨ c = .modereqConfigure src → Puts c s [R.SYS_STAT] fun t =>
       t.get F.SYS_STAT_refused = min (s.get F.SYS_STAT_refused + 1) 255 ∧ t.mode = s.mode) ∧
  (∀ (p d : Nat) (s : State), s.driving = true → s.boot.darkFrom = some p → perReached (perAdd p 2) s.pnow = true →
     (s.boot.dark = some .configure → Does .darkReleaseEnd s P.fault fun t => t.mode = .configure ∧ t.get F.SYS_STAT_permit = 0 ∧
       t.get F.SYS_STAT_dark_rel = 0 ∧ t.boot.dark = none ∧ t.isl.req = false) ∧
     (s.boot.dark = some (.hold d) → Does .darkReleaseEnd s P.fault fun t => t.mode = .hold ∧ t.get F.SYS_STAT_permit = 0 ∧
       t.get F.SYS_HOLDCAUSE_code = 7 ∧ t.get F.SYS_HOLDCAUSE_detail = d % 65536 ∧ t.boot.dark = none) ∧
     (s.boot.dark = some .reset → ∃ t, exec .darkReleaseEnd s = .next t ∧ t.mode = .selftest ∧ t.bit R.SYS_RSTCAUSE 3 = true ∧
       t.boot = { rolePin := s.boot.rolePin } ∧ t.sram = s.sram ∧ t.otp = s.otp))

/-- Host loss after SYS_HOSTTO.ms without an accepted safe PDU: the connection is not synchronised, OPERATE gives way to FALLBACK where the
descriptor is valid, to HOLD where it is not, also where the host was lost before a takeover, and CONFIGURE to FALLBACK where a
configuration has failed since, the descriptor is valid and the role is active; a deadline that passes counts and its next one follows
after the same time; the configuration time limit is a configuration failure (R48, R49, R147, R149, R412). -/
def Obligations.HostConnection : Prop :=
  ∀ s : State,
    (s.live = true → 10 * s.get F.SYS_HOSTTO_ms < s.spd.host →
      (s.get F.SYS_STAT_host_lost = 0 → s.mode = .mirror ∨ s.mode = .hold ∨ s.mode = .configure ∧ s.boot.cfgFailed = false ∨
          s.mode = .fallback ∧ s.light.back = false → Puts .hostLoss s [R.SYS_STAT, R.SPD_RXSTAT] fun t =>
        t.get F.SYS_STAT_host_lost = 1 ∧ t.get F.SPD_RXSTAT_synced = 0 ∧ t.mode = s.mode) ∧
      (s.mode = .operate → s.boot.dark = none → s.get F.SYS_FBSTAT_valid = 1 →
        Does .hostLoss s (P.fault ||| P.bal ||| P.spl ||| P.sys ||| P.pgSup ||| P.pgSpl ||| P.pgAxo) fun t =>
          t.mode = .fallback ∧ t.get F.SYS_STAT_host_lost = 1 ∧
            (s.get F.SYS_STAT_host_lost = 0 → t.get F.SPD_RXSTAT_synced = 0)) ∧
      (s.mode = .operate → s.boot.dark = none → s.get F.SYS_FBSTAT_valid = 0 →
        Does .hostLoss s (P.fault ||| P.bal ||| P.spl ||| P.sys ||| P.pgSup ||| P.pgSpl ||| P.pgAxo) fun t =>
          t.mode = .hold ∧ t.get F.SYS_HOLDCAUSE_code = 8 ∧ t.get F.SYS_HOLDCAUSE_detail = s.get F.SYS_FBSTAT_check)) ∧
    (s.mode = .configure → s.boot.cfgFailed = true → 10 * s.get F.SYS_HOSTTO_ms < s.spd.failT → s.get F.SYS_FBSTAT_valid = 1 →
      s.roleRow.1 ≤ 1 → Does .hostLoss s (P.fault ||| P.bal ||| P.spl ||| P.sys ||| P.pgSup ||| P.pgSpl ||| P.pgAxo) fun t =>
        t.mode = .fallback ∧ t.light.fb = true) ∧
    (s.mode = .configure → s.get F.SYS_CFGTO_ms ≠ 0 → s.spd.cfgOver = false → 10 * s.get F.SYS_CFGTO_ms < s.spd.cfgT →
      Does .cfgTimeout s (P.boot ||| P.spd ||| P.stat) fun t => t.get F.SYS_STAT_cfg_fail = 1 ∧ t.mode = .configure ∧
        t.boot = { s.boot with cfgFailed := true } ∧
        t.spd = { s.spd with failT := if s.boot.cfgFailed then s.spd.failT else 0, cfgOver := true }) ∧
    (s.live = true → s.spd.texp ≠ 0 → 10 * s.spd.texp < s.spd.dl → Does .deadlineMiss s P.fault fun t =>
      t.get F.SPD_RXSTAT_miss = min (s.get F.SPD_RXSTAT_miss + 1) 255 ∧ t.get F.SPD_LOST_late = min (s.get F.SPD_LOST_late + 1) 65535)

/-- A write of one RW word: PIRQ_EN of a page takes the value in every mode but SELFTEST and no other word changes (four pages whose
outputs follow their settings apart). A write of a page that the source does not own, of a read-only word or at an address that is
not aligned changes nothing but PERR, which captures the first one and marks a later one (R58, R59, R61, R68, R69). In HOLD a write
of a register of a page that HOLD leaves locked out is refused with mode-error and recorded in PERR (R37, R61, R68). That PIRQ_EN takes
all 32 bits of the value is the model's choice (log entry 56). -/
def Obligations.WriteChecks : Prop :=
  (∀ (src : Src) (v : Word) (s : State), s.live = true →
     (∀ p : Fin 31, s.owns src p = true → p.val ∉ [18, 24, 26, 28] → Puts (.registerWrite src (R.PIRQ_EN p) v) s [R.PIRQ_EN p] fun t =>
       t.reg (R.PIRQ_EN p) = v) ∧
     (∀ p : Fin 31, s.owns src p = false → s.get (F.PERR_valid p) = 0 →
       Puts (.registerWrite src (R.PIRQ_EN p) v) s [R.PERR p] fun t => t.get (F.PERR_type p) = 6 ∧ t.get (F.PERR_offset p) = 0x14 ∧
         t.get (F.PERR_src p) = (if src = .spi then 2 else 1) ∧ t.get (F.PERR_wr p) = 1 ∧ t.get (F.PERR_valid p) = 1) ∧
     (∀ p : Fin 31, s.get (F.PERR_valid p) = 0 → Puts (.registerWrite src (R.PID p) v) s [R.PERR p] fun t =>
       t.get (F.PERR_type p) = 3 ∧ t.get (F.PERR_offset p) = 0 ∧ t.get (F.PERR_valid p) = 1) ∧
     (∀ p : Fin 31, s.get (F.PERR_valid p) = 1 → Puts (.registerWrite src (R.PID p) v) s [R.PERR p] fun t =>
       t.get (F.PERR_more p) = 1 ∧ t.get (F.PERR_type p) = s.get (F.PERR_type p) ∧ t.get (F.PERR_offset p) = s.get (F.PERR_offset p)) ∧
     (∀ a, a < 0x1F000 → a % 4 ≠ 0 → s.get (F.PERR_valid (pageOf a)) = 0 → Puts (.registerWrite src a v) s [R.PERR (pageOf a)] fun t =>
       t.get (F.PERR_type (pageOf a)) = 1 ∧ t.get (F.PERR_offset (pageOf a)) = a % 0x1000)) ∧
  (∀ (src : Src) (v : Word) (s : State), s.mode = .hold → s.get (F.PERR_valid 10) = 0 →
     Puts (.registerWrite src R.VIN_CFG v) s [R.PERR 10] fun t => t.get (F.PERR_type 10) = 4 ∧ t.get (F.PERR_offset 10) = 0x40 ∧
       t.get (F.PERR_valid 10) = 1)

/-- A write of a word of RWS fields joins the explicit clause: the first one opens it for its source, the shadow holds the new value as
it will read back, CLS_STAT.regs counts the registers, and the effective value stays (R59, R72, R73, R84). It does so in every mode that
admits it: PLC_PWM, CHN_CTRL and TIL_MAP are written in CONFIGURE alone, and HOLD leaves some pages writable (R37, R61). -/
def Obligations.StagedWrite : Prop :=
  ∀ (src : Src) (a : Nat) (v : Word) (r : RegSpec) (s : State), regSpec a = some r → a % 4 = 0 → r.rws ≠ 0 →
    r.rw = 0 → r.rwl = 0 → r.wo = 0 → r.w1c = 0 → r.ro = 0 → s.live = true → s.owns src (pageOf a) = true →
    (s.mode = .hold → holdWritable (pageOf a) = true) →
    (s.mode ≠ .configure → a ≠ R.PLC_PWM ∧ (∀ c : Fin 20, a ≠ R.CHN_CTRL c) ∧ ∀ i : Fin 80, a ≠ R.TIL_MAP i) →
    s.locked (pageOf a) = false → s.spd.conf = false → reservedEntry a = false →
    (s.get F.CLS_STAT_state = 0 ∨ s.get F.CLS_STAT_state = 1 ∧ s.get F.CLS_STAT_owner = ownerOfSrc src) →
    Does (.stagedWrite src a v) s (P.cl ||| P.cls) fun t => t.reg a = s.reg a ∧ t.get F.CLS_STAT_state = 1 ∧
      t.get F.CLS_STAT_owner = ownerOfSrc src ∧ t.get F.CLS_STAT_regs = t.cl.shadow.length % 65536 ∧
      t.shadow a = BitVec.ofNat 32 (normWord a ((s.shadow a &&& ~~~(BitVec.ofNat 32 r.rws)) ||| (v &&& BitVec.ofNat 32 r.rws)).toNat) ∧
      (∀ b, b ≠ a → b ≠ R.CLS_STAT → t.shadow b = s.shadow b)

/-- A write through the SRAM window that the rules of its range admit stores its bytes, lowest address first, and no other byte changes;
a write into the safety parameter set loses the confirmed configuration; elsewhere it is refused with its cause (R58, R79, R80, R82,
R155). -/
def Obligations.WindowWrite : Prop :=
  ∀ (src : Src) (addr : Nat) (w64 : Bool) (d : BitVec 64) (s : State), s.live = true → s.sram.wf = true → s.ecc1 = [] → s.ecc2 = [] →
    0x80000 ≤ addr → addr < 0x100000 → addr % (if w64 then 8 else 4) = 0 →
    (s.windowCheck (s.windowAddr src addr) (if w64 then 8 else 4) = 0 →
      Does (.windowWrite src addr w64 d) s P.write fun t =>
        t.le (s.windowAddr src addr) (if w64 then 8 else 4) = d.toNat % (if w64 then 2 ^ 64 else 2 ^ 32) ∧
        (∀ b, b < s.windowAddr src addr ∨ s.windowAddr src addr + (if w64 then 8 else 4) ≤ b → t.byte b = s.byte b) ∧
        (inSet (s.windowAddr src addr) = true → t.get F.SYS_STAT_cfg_ok = 0)) ∧
    (s.windowAddr src addr < 0x8C0000 → s.get F.SYS_WINERR_valid = 0 → Puts (.windowWrite src addr w64 d) s [R.SYS_WINERR] fun t =>
      t.get F.SYS_WINERR_type = 1 ∧ t.get F.SYS_WINERR_addr = s.windowAddr src addr / 4 ∧ t.get F.SYS_WINERR_valid = 1)

/-- The commands of a page header: freeze holds the words a page shows, perr_clr clears the record of refused accesses, the PLOCK key
locks a lockable page, and srst, in CONFIGURE and in HOLD on a page that HOLD leaves writable, shows every word again, loses the confirmed
configuration on a lockable page and puts the registers of the page back to their reset values, on a LNK page all but those in which its
lane shows that it starts anew (R37, R60, R63, R66, R68, R82, R155). -/
def Obligations.PageHeader : Prop :=
  ∀ (src : Src) (p : Fin 31) (on : Bool) (s : State), s.live = true → s.owns src p = true →
    (s.get (F.PCTRL_en p) = 1 ∨ enWritable p = true → s.get (F.PCTRL_freeze p) ≠ on.toNat → Does (.pctrlFreeze src p on) s P.cl fun t =>
      t.get (F.PCTRL_freeze p) = on.toNat ∧ t.get (F.PCTRL_en p) = s.get (F.PCTRL_en p) ∧
      (on = true → ∀ a, pageOf a = p.val → roWord a = true → a % 4 = 0 → t.peek a = s.present a) ∧
      (on = false → ∀ a, pageOf a = p.val → kvFind t.cl.frozen a = none)) ∧
    (s.get (F.PCTRL_en p) = 1 ∨ enWritable p = true →
      Puts (.pctrlPerrClr src p) s (if p.val = 0 then [R.PERR p, R.SYS_WINERR] else [R.PERR p]) fun t =>
        t.reg (R.PERR p) = 0 ∧ (p.val = 0 → t.reg R.SYS_WINERR = 0)) ∧
    (s.mode ≠ .hold ∨ holdWritable p = true →
      (lockable p = true → Puts (.pageLock src p) s [R.PLOCK p] fun t => t.locked p = true) ∧
      (lockable p = false → exec (.pageLock src p) s = .next s)) ∧
    (enWritable p = true → s.mode = .configure ∨ s.mode = .hold ∧ holdWritable p = true → s.locked p = false → s.spd.conf = false →
      Does (.pctrlSrst src p) s P.write fun t => (lockable p = true → t.get F.SYS_STAT_cfg_ok = 0) ∧ (p.val = 30 → t.pair = {}) ∧
        (∀ a, pageOf a = p.val → kvFind t.cl.frozen a = none) ∧
        (24 ≤ p.val → ∀ a, pageOf a = p.val → t.reg a = resetWord a) ∧
        (p.val ≤ 7 → ∀ a, pageOf a = p.val → a ∉ [R.PIRQ_RAW p, R.LNK_STAT (p - 4), R.LNK_RATE 0] → t.reg a = resetWord a))

/-- The clrcnt commands whose counters fill their words, and CMP_CTRL.capclr: every counter word that the block's table names becomes
zero and nothing else changes (R138, R189, R192, R195, R223, R242, R306, R368, R370, R391, R405). Which words of a page are counters is
read from its table (the model's reading, log entry 25): the words that keep a longest or highest value stay. -/
def Obligations.CountersClear : Prop :=
  ∀ (c : Instr) (src : Src) (p : Nat) (as : List Nat) (s : State), s.mayCommand src p →
    (c = .pktClrcnt src ∧ p = 8 ∧ as = [R.PKT_DISC, R.PKT_MALF, R.PKT_OVR, R.PKT_VCNT, R.PKT_SPICNT]) ∨
      (c = .vinClrcnt src ∧ p = 10 ∧ as = [R.VIN_CNT, R.VIN_MISS]) ∨
      (c = .cmpCapclr src ∧ p = 11 ∧ as = [R.CMP_ECCCAP, R.CMP_ECCSYN]) ∨
      (c = .mskClrcnt src ∧ p = 12 ∧ as = [R.MSK_CNT, R.MSK_LATE]) ∨ (c = .calClrcnt src ∧ p = 13 ∧ as = [R.CAL_TCHG]) ∨
      (c = .plcClrcnt src ∧ p = 14 ∧ as = [R.PLC_CNT, R.PLC_WRAP]) ∨ (c = .supClrcnt src ∧ p = 15 ∧ as = [R.SUP_CONF, R.SUP_SKIP]) ∨
      (c = .balClrcnt src ∧ p = 26 ∧ as = [R.BAL_CNT]) ∨ (c = .splClrcnt src ∧ p = 27 ∧ as = [R.SPL_CNT]) ∨
      (c = .sioClrcnt src ∧ p = 28 ∧ as = [R.SIO_CNT, R.SIO_TCNT]) ∨
      (c = .crcClrcnt src ∧ p = 29 ∧ as = [R.CRC_SKCNT, R.CRC_CCVRUN, R.CRC_STAT]) →
    Puts c s as fun t => ∀ a ∈ as, t.reg a = 0

/-- The clrcnt commands of the lanes and the chains, and those whose words hold counters beside other fields: the counters become zero,
the other fields stay; FLT_CTRL.logclr empties the fault log (R109, R160, R192, R275, R309, R329, R332, R351, R354, R435). Which fields of
a word are counters is the model's reading (log entry 25): the longest wait of CMP_WAIT stays, its count of aged grants is cleared. -/
def Obligations.CountersClearApart : Prop :=
  ∀ (src : Src) (s : State),
    (∀ l : Fin 4, s.mayCommand src (4 + l) →
      Puts (.lnkClrcnt src l) s [R.LNK_ERRCNT l, R.LNK_EBCNT l, R.LNK_TRCNT l, R.LNK_FWDDROP l] fun t =>
        t.reg (R.LNK_ERRCNT l) = 0 ∧ t.reg (R.LNK_EBCNT l) = 0 ∧ t.reg (R.LNK_TRCNT l) = 0 ∧ t.reg (R.LNK_FWDDROP l) = 0) ∧
    (s.mayCommand src 11 →
      Puts (.cmpClrcnt src) s [R.CMP_PASS, R.CMP_WAIT, R.CMP_SCRPASS, R.CMP_ECCCNT 0, R.CMP_ECCCNT 1, R.CMP_ECCCNT 2, R.CMP_ECCCNT 3,
        R.CMP_UECNT] fun t => t.reg R.CMP_PASS = 0 ∧ t.reg R.CMP_SCRPASS = 0 ∧ (∀ k < 4, t.reg (R.CMP_ECCCNT k) = 0) ∧
          t.reg R.CMP_UECNT = 0 ∧ t.get ⟨R.CMP_WAIT, 16, 16⟩ = 0 ∧ t.get ⟨R.CMP_WAIT, 0, 16⟩ = s.get ⟨R.CMP_WAIT, 0, 16⟩) ∧
    (s.mayCommand src 20 →
      Puts (.chnClrcnt src) s ((List.range 20).flatMap fun c => [R.CHN_ERR c, R.CHN_RETX c, R.CHN_SENSE c]) fun t =>
        ∀ c : Fin 20, t.reg (R.CHN_ERR c) = 0 ∧ t.reg (R.CHN_RETX c) = 0 ∧ t.reg (R.CHN_SENSE c) = 0) ∧
    (s.mayCommand src 19 → Puts (.prfClrcnt src) s [R.PRF_CNT, R.PRF_REPL, R.PRF_LOW] fun t =>
      t.reg R.PRF_CNT = 0 ∧ t.reg R.PRF_REPL = 0 ∧ t.get F.PRF_LOW_frames = 0 ∧ t.get F.PRF_LOW_pixels = s.get F.PRF_LOW_pixels) ∧
    (s.mayCommand src 18 →
      Puts (.fltClrcnt src) s [R.FLT_CNT, R.FLT_LOGPTR] (fun t => t.reg R.FLT_CNT = 0 ∧ t.get F.FLT_LOGPTR_written = 0 ∧
        t.get F.FLT_LOGPTR_next = s.get F.FLT_LOGPTR_next) ∧
      Does (.fltLogclr src) s (P.flt ||| P.pgFlt) fun t => t.flt = { s.flt with unread := [] } ∧ t.reg R.FLT_LOGPTR = 0 ∧
        t.reg R.FLT_CNT = s.reg R.FLT_CNT ∧ ∀ k : Fin 16, t.reg (R.FLT_LOGLo k) = 0 ∧ t.reg (R.FLT_LOGHi k) = 0) ∧
    (s.mayCommand src 24 → Puts (.adcClrcnt src) s [R.ADC_CNT, R.ADC_RNG, R.ADC_BURST, R.ADC_CALSTAT] fun t =>
      t.reg R.ADC_CNT = 0 ∧ t.reg R.ADC_RNG = 0 ∧ t.reg R.ADC_BURST = 0 ∧ t.get F.ADC_CALSTAT_done = 0 ∧
        t.get F.ADC_CALSTAT_result = s.get F.ADC_CALSTAT_result ∧ t.get F.ADC_CALSTAT_aband = s.get F.ADC_CALSTAT_aband) ∧
    (s.mayCommand src 25 → Puts (.winClrcnt src) s ((List.range 16).map R.WIN_LAST) fun t => ∀ k : Fin 16,
      t.get (F.WIN_LAST_exits k) = 0 ∧ t.get (F.WIN_LAST_value k) = s.get (F.WIN_LAST_value k)) ∧
    (s.mayCommand src 30 → Puts (.axoClrcnt src) s [R.AXO_DIV, R.AXO_DIVCAP, R.AXO_CNT, R.AXO_TKCNT, R.AXO_PSYNC, R.AXO_HB] fun t =>
      t.reg R.AXO_DIV = 0 ∧ t.reg R.AXO_DIVCAP = 0 ∧ t.reg R.AXO_CNT = 0 ∧ t.get ⟨R.AXO_TKCNT, 0, 16⟩ = 0 ∧
        t.get ⟨R.AXO_TKCNT, 16, 16⟩ = s.get ⟨R.AXO_TKCNT, 16, 16⟩ ∧ t.get ⟨R.AXO_PSYNC, 16, 16⟩ = 0 ∧
        t.get ⟨R.AXO_PSYNC, 0, 16⟩ = s.get ⟨R.AXO_PSYNC, 0, 16⟩ ∧ t.get F.AXO_HB_missed = 0 ∧
        t.get F.AXO_HB_hseq = s.get F.AXO_HB_hseq) ∧
    (s.mayCommand src 9 →
      Puts (.spdClrcnt src) s [R.SPD_DISC, R.SPD_LOST, R.SPD_CCVSTAT, R.SPD_RXSTAT] (fun t => t.reg R.SPD_DISC = 0 ∧ t.reg R.SPD_LOST = 0 ∧
        t.get F.SPD_CCVSTAT_count = 0 ∧ t.get F.SPD_CCVSTAT_state = s.get F.SPD_CCVSTAT_state ∧
        t.get F.SPD_CCVSTAT_reason = s.get F.SPD_CCVSTAT_reason ∧ t.get F.SPD_RXSTAT_miss = 0 ∧
        t.get F.SPD_RXSTAT_synced = s.get F.SPD_RXSTAT_synced ∧ t.get F.SPD_RXSTAT_last = s.get F.SPD_RXSTAT_last) ∧
      Puts (.spdResync src) s [R.SPD_RXSTAT] fun t => t.get F.SPD_RXSTAT_synced = 0 ∧
        t.get F.SPD_RXSTAT_miss = s.get F.SPD_RXSTAT_miss ∧ t.get F.SPD_RXSTAT_last = s.get F.SPD_RXSTAT_last)

/-- The regular and injected sequences of the converter: their start by ADC_CTRL, where that is the regular trigger, by the timer and by the
slot, the stop, and a trigger that comes too early (R342, R343, R345, R351). Foreground calibration: a request starts one where the converter is free,
else it waits; one whose references and coefficients lie in their limits sets the coefficients, else the first slice that fails is named
(R340, R341, R345, R351). -/
def Obligations.ConverterOperation : Prop :=
  (∀ (src : Src) (s : State), s.live = true → s.get (F.PCTRL_en 24) = 1 →
     (s.mayCommand src 24 → s.get F.ADC_RCFG_trig ≠ 0 → exec (.adcRstart src) s = .next s) ∧
     (∀ c, c = .adcRstart src ∧ s.mayCommand src 24 ∧ s.get F.ADC_RCFG_trig = 0 ∨ c = .regularTimer ∧ s.get F.ADC_RCFG_trig = 3 →
       (s.get F.ADC_STAT_rbusy = 0 → s.adc.running = none → s.adc.reserved = false → s.get F.ADC_STAT_ibusy = 0 → s.get F.ADC_STAT_cal_pend = 0 →
         s.get F.ADC_STAT_cal_run = 0 → Does c s (P.adc ||| P.pgAdc) fun t => t.get F.ADC_STAT_rbusy = 1 ∧
           t.get F.ADC_STAT_rnext = 0 ∧ t.adc.running = some (false, 0) ∧ t.adc.rseq = s.rseqNow ∧ t.adc.rstop = false) ∧
       (s.get F.ADC_STAT_rbusy = 1 → Does c s P.pgAdc fun t => t.get F.ADC_CNT_rmiss = min (s.get F.ADC_CNT_rmiss + 1) 255 ∧
         t.adc = s.adc ∧ t.reg R.ADC_STAT = s.reg R.ADC_STAT)) ∧
     (s.mayCommand src 24 → s.get F.ADC_STAT_rbusy = 1 →
       (∀ k, s.adc.running = some (false, k) → Does (.adcRstop src) s P.adc fun t => t.adc = { s.adc with rstop := true }) ∧
       (s.adc.running = none ∨ (∃ k, s.adc.running = some (true, k)) → Does (.adcRstop src) s (P.adc ||| P.pgAdc) fun t =>
         t.get F.ADC_STAT_rbusy = 0 ∧ t.get F.ADC_STAT_rnext = 0 ∧ t.adc = { s.adc with rstop := false, rback := false })) ∧
     (∀ c, c = .adcIstart src ∧ s.mayCommand src 24 ∨ c = .injectedSlotTrigger ∧ s.get F.ADC_ICFG_trig = 2 ∧ s.get F.ADC_ICFG_slot < slotsOf s.dNow →
       (s.get F.ADC_STAT_ibusy = 0 → s.get F.ADC_STAT_cal_run = 0 → s.adc.reserved = false →
         (s.adc.running = none → Does c s (P.fault ||| P.adc ||| P.pgAdc) fun t => t.get F.ADC_STAT_ibusy = 1 ∧
           t.get F.ADC_STAT_ipend = 0 ∧ t.adc = { s.adc with running := some (true, 0), iseq := s.iseqNow, ipos := 0 }) ∧
         (∀ k, s.adc.running = some (false, k) → Does c s (P.fault ||| P.adc ||| P.pgAdc) fun t => t.get F.ADC_STAT_ibusy = 1 ∧
           t.adc = { s.adc with running := some (true, 0), rback := true, iseq := s.iseqNow, ipos := 0 } ∧
           t.get F.ADC_CNT_abort = min (s.get F.ADC_CNT_abort + 1) 255)) ∧
       (s.get F.ADC_STAT_ibusy = 1 → s.get F.ADC_STAT_ipend = 0 → Does c s (P.fault ||| P.adc ||| P.pgAdc) fun t =>
         t.get F.ADC_STAT_ipend = 1 ∧ t.adc = s.adc))) ∧
  (∀ (src : Src) (s : State),
     (∀ c, c = .adcCalreq src ∧ s.mayCommand src 24 ∨ c = .calibrationPeriod ∧ s.live = true ∧ s.get F.ADC_CALCFG_period ≠ 0 →
       s.get (F.PCTRL_en 24) = 1 → s.get F.ADC_STAT_cal_run = 0 → s.get F.ADC_STAT_cal_pend = 0 → s.get F.ADC_CALSTAT_aband < 8 →
         (s.adc.running = none → s.adc.reserved = false → s.get F.ADC_STAT_ibusy = 0 → s.adc.rback = false →
           Does c s (P.adc ||| P.pgAdc) fun t =>
           t.get F.ADC_STAT_cal_run = 1 ∧ t.get F.ADC_STAT_cal_pend = 0 ∧ t.adc = s.adc) ∧
         (s.adc.running.isSome = true → Does c s (P.adc ||| P.pgAdc) fun t => t.get F.ADC_STAT_cal_pend = 1 ∧
           t.get F.ADC_STAT_cal_run = 0 ∧ t.adc = s.adc)) ∧
     (s.get F.ADC_STAT_cal_run = 1 → s.get F.ADC_STAT_cal_pend = 0 →
       ∀ cs : Vector CalSlice 4,
       let refs := fun k : Fin 4 => cs[k].gnd.2 ≤ 0x008 ∧ 0x7F8 ≤ cs[k].mid.1 ∧ cs[k].mid.2 ≤ 0x808 ∧ 0x9B4 ≤ cs[k].gap.1 ∧ cs[k].gap.2 ≤ 0x9D4
       let fits := fun k : Fin 4 => -128 ≤ cs[k].ofs ∧ cs[k].ofs ≤ 127 ∧
         (k.val = 0 ∨ -2048 ≤ cs[k].gain ∧ cs[k].gain ≤ 2047 ∧ -128 ≤ cs[k].skew ∧ cs[k].skew ≤ 127)
       ((∀ k, refs k) → (∀ k, fits k) → Does (.calibrationComplete cs) s (P.fault ||| P.adc ||| P.pgAdc) fun t =>
         (∀ k : Fin 4, signed 8 (t.get (F.ADC_COEF_ofs k)) = cs[k].ofs ∧ (k.val ≠ 0 →
           signed 12 (t.get (F.ADC_COEF_gain k)) = cs[k].gain ∧ signed 8 (t.get (F.ADC_COEF_skew k)) = cs[k].skew)) ∧
           t.get F.ADC_CALSTAT_result = 1 ∧ t.get F.ADC_CALSTAT_aband = 0 ∧
           t.get F.ADC_CALSTAT_done = min (s.get F.ADC_CALSTAT_done + 1) 65535 ∧ t.get F.ADC_STAT_cal_run = 0 ∧
           t.get F.ADC_STAT_cal_ok = 1) ∧
       (∀ k result, (¬ refs k ∧ (∀ j, j < k → refs j) ∧ result = 2) ∨ ((∀ j, refs j) ∧ ¬ fits k ∧ (∀ j, j < k → fits j) ∧ result = 3) →
         Does (.calibrationComplete cs) s (P.fault ||| P.adc ||| P.pgAdc) fun t => t.get F.ADC_CALSTAT_result = result ∧
           t.get F.ADC_CALSTAT_slice = k.val ∧ t.get F.ADC_STAT_cal_run = 0 ∧ ∀ j : Fin 4, t.reg (R.ADC_COEF j) = s.reg (R.ADC_COEF j))))

/-- A conversion of the regular or the injected sequence leaves its code, its channel and VALID in the result register, corrected
where the sample lies within the range, and sets DOVR where a result that nobody read is overwritten; a sense slot's burst is taken, or
lost while a calibration runs, which the balance engine counts as excluded; a balance window ends for every rail whose time is over, with
its sums at zero, and counts where a rail is judged; the die sensors' silence is shown (R337, R338, R342, R343, R344, R346, R357, R359,
R366). The capture buffer is armed and triggered by ADC_CTRL, the reads of the result registers clear VALID and DOVR and keep
the result, and background correction, after 65,536 burst samples that span at least 64 codes, moves each coefficient by one step, held to
its field's range (R339, R344, R349, R351). -/
def Obligations.ConverterData : Prop :=
  let moved (f : Fld) (m : Move) (s t : State) : Prop :=
    (m = .up → signed f.w (t.get f) = min (2 ^ (f.w - 1) - 1) (signed f.w (s.get f) + 1)) ∧
    (m = .stay → t.get f = s.get f) ∧
    (m = .down → signed f.w (t.get f) = max (-2 ^ (f.w - 1)) (signed f.w (s.get f) - 1))
  (∀ s : State,
     (∀ (x : Sample) (inj : Bool) (k : Nat) (w : Word) (code : Nat), s.live = true → s.get (F.PCTRL_en 24) = 1 →
       s.adc.running = some (inj, k) → (inj = true → k < 4) → w = (if inj then s.adc.iseq else s.adc.rseq).getD k 0 →
       code = (if x.ovr then 4095 else if x.unr then 0 else s.correct (entrySlice w) x.raw.toNat) →
       Does (.conversionComplete x) s (P.fault ||| P.adc ||| P.draws ||| P.pgAdc ||| P.pgWin ||| P.pgSpl) fun t =>
         let a := if inj then R.ADC_INJ k else R.ADC_DATA
         t.get ⟨a, 0, 12⟩ = code ∧ t.get ⟨a, 12, 1⟩ = x.ovr.toNat ∧ t.get ⟨a, 13, 1⟩ = x.unr.toNat ∧ t.get ⟨a, 15, 1⟩ = 1 ∧
           t.get ⟨a, 16, 6⟩ = getBits w 0 6 ∧ t.get ⟨a, 31, 1⟩ = max (s.get ⟨a, 15, 1⟩) (s.get ⟨a, 31, 1⟩)) ∧
     (∀ (slot : Nat) (win : Vector Sample 64), s.live = true → s.get (F.PCTRL_en 24) = 1 → s.get F.ADC_CFG_ilv = 1 →
       s.get F.ADC_CFG_fmask ≠ 0 → slot < slotsOf s.dNow →
       (s.get F.ADC_STAT_cal_run = 1 → Puts (.fastBurst slot win) s [R.ADC_BURST, R.BAL_CNT] fun t =>
         t.get F.ADC_BURST_lost = min (s.get F.ADC_BURST_lost + 1) 65535 ∧ t.get F.BAL_CNT_excl = min (s.get F.BAL_CNT_excl + 1) 65535) ∧
       (s.get F.ADC_STAT_cal_run = 0 → Does (.fastBurst slot win) s (P.fault ||| P.adc ||| P.bal ||| P.draws ||| P.pgAdc ||| P.pgBal) fun t =>
         t.get F.ADC_BURST_taken = min (s.get F.ADC_BURST_taken + 1) 65535 ∧ t.adc.burstN = s.adc.burstN + 1)) ∧
     (∀ ends : List (Fin 4), (∀ g, g ∈ ends ↔ perReached (perAdd s.bal.start[g] (s.get F.BAL_CFG_win * cycleOf s.dNow)) s.pnow = true) →
       Does .balanceWindowEnd s (P.fault ||| P.bal ||| P.pgBal) fun t =>
         t.bal.sums = s.bal.sums.filter (fun e => ends.all fun g => e.1 / 64 != g.val) ∧
         t.bal.counts = s.bal.counts.filter (fun e => ends.all fun g => e.1 / 64 != g.val) ∧
         (∀ g : Fin 4, t.bal.start[g] = if g ∈ ends then s.pnow else s.bal.start[g]) ∧
         t.get F.BAL_STAT_windows =
           if (∃ g ∈ ends, s.balJudges g = true) then (s.get F.BAL_STAT_windows + 1) % 256 else s.get F.BAL_STAT_windows) ∧
     Does .tempNodata s P.pgSpl fun t => t.get F.SPL_TEMP_nodata = 1 ∧ t.get F.SPL_TEMP_warn = s.get F.SPL_TEMP_warn) ∧
  (∀ (src : Src) (s : State),
     (s.mayCommand src 24 → s.get (F.PCTRL_en 24) = 1 → Does (.adcCaparm src) s (P.adc ||| P.pgAdc) fun t =>
       t.get F.ADC_CAPSTAT_state = 1 ∧ t.get F.ADC_CAPSTAT_trg = 0 ∧ t.get F.ADC_CAPSTAT_pre = 0 ∧
         t.adc = { s.adc with capAt := 0, capN := 0, capLeft := 0 }) ∧
     (s.mayCommand src 24 → s.get F.ADC_CAPSTAT_state = 1 → Does (.adcCapforce src) s (P.adc ||| P.pgAdc) fun t =>
       t.get F.ADC_CAPSTAT_state = 2 ∧ t.get F.ADC_CAPSTAT_trg = s.adc.capAt % 4096 ∧
         t.get F.ADC_CAPSTAT_pre = min s.adc.capN (4095 - s.get F.ADC_CAPCFG_post) ∧
         t.adc = { s.adc with capLeft := s.get F.ADC_CAPCFG_post + 1 }) ∧
     (s.live = true →
       Puts (.adcDataRead src) s [R.ADC_DATA] (fun t => t.get F.ADC_DATA_VALID = 0 ∧ t.get F.ADC_DATA_DOVR = 0 ∧
         t.get F.ADC_DATA_code = s.get F.ADC_DATA_code ∧ t.get F.ADC_DATA_channel = s.get F.ADC_DATA_channel) ∧
       ∀ k : Fin 4, Puts (.adcInjRead src k) s [R.ADC_INJ k] fun t => t.get ⟨R.ADC_INJ k, 15, 1⟩ = 0 ∧ t.get ⟨R.ADC_INJ k, 31, 1⟩ = 0 ∧
         t.get ⟨R.ADC_INJ k, 0, 15⟩ = s.get ⟨R.ADC_INJ k, 0, 15⟩ ∧ t.get ⟨R.ADC_INJ k, 16, 15⟩ = s.get ⟨R.ADC_INJ k, 16, 15⟩) ∧
     (∀ (ofs : Vector Move 4) (gainSkew : Vector (Move × Move) 4), s.live = true → s.get (F.PCTRL_en 24) = 1 → s.get F.ADC_CFG_bgc = 1 →
       65536 ≤ s.adc.bgcN →
       (s.adc.bgcHi + 1 < s.adc.bgcLo + 64 →
         exec (.bgcUpdate ofs gainSkew) s = .next (s.onAdc fun a => { a with bgcN := 0, bgcLo := 4095, bgcHi := 0 })) ∧
       (s.adc.bgcLo + 64 ≤ s.adc.bgcHi + 1 → Does (.bgcUpdate ofs gainSkew) s (P.adc ||| P.pgAdc) fun t => t.adc.bgcN = 0 ∧
         (∀ k : Fin 4, moved (F.ADC_COEF_ofs k) ofs[k] s t) ∧
         (∀ k : Fin 4, k.val ≠ 0 → moved (F.ADC_COEF_gain k) gainSkew[k].1 s t ∧ moved (F.ADC_COEF_skew k) gainSkew[k].2 s t) ∧
         t.get (F.ADC_COEF_gain 0) = s.get (F.ADC_COEF_gain 0) ∧ t.get (F.ADC_COEF_skew 0) = s.get (F.ADC_COEF_skew 0))))

/-- The contexts of the CRC engines as a program uses them: ld loads CRC_INIT, CRC_VAL takes a value cut to the width, CRC_DIN8 feeds one
byte and CRC_DIN32 four, lowest first; a write to a context that a job names has no effect but CRC_STAT.clash; the CCV context takes
none (R394, R396, R397, R398, R404). -/
def Obligations.CrcContexts : Prop :=
  ∀ (src : Src) (x : Fin 64) (v : Word) (s : State), s.mayCommand src 29 →
    (x.val ≠ 63 → s.jobNames x = false →
      Puts (.crcLoad src x) s [R.CRC_CFG x, R.CRC_POLY x, R.CRC_INIT x, R.CRC_XOUT x, R.CRC_VAL x] (fun t =>
        t.regN (R.CRC_VAL x) = s.regN (R.CRC_INIT x) % 2 ^ t.get (F.CRC_CFG_w x) ∧ t.reg (R.CRC_VAL x) = t.reg (R.CRC_INIT x)) ∧
      Puts (.crcValWrite src x v) s [R.CRC_VAL x] (fun t => t.regN (R.CRC_VAL x) = v.toNat % 2 ^ s.get (F.CRC_CFG_w x)) ∧
      Puts (.crcDin8 src x v) s [R.CRC_VAL x] (fun t => t.reg (R.CRC_VAL x) = BitVec.ofNat 32 (crcFeed (s.get (F.CRC_CFG_w x))
        (s.regN (R.CRC_POLY x)) (s.on (F.CRC_CFG_refin x)) (s.regN (R.CRC_VAL x)) [BitVec.ofNat 8 v.toNat])) ∧
      Puts (.crcDin32 src x v) s [R.CRC_VAL x] (fun t => t.reg (R.CRC_VAL x) = BitVec.ofNat 32 (crcFeed (s.get (F.CRC_CFG_w x))
        (s.regN (R.CRC_POLY x)) (s.on (F.CRC_CFG_refin x)) (s.regN (R.CRC_VAL x)) (leBytes 4 v.toNat)))) ∧
    (x.val ≠ 63 → s.jobNames x = true → ∀ c, c = .crcLoad src x ∨ c = .crcValWrite src x v ∨ c = .crcDin8 src x v ∨ c = .crcDin32 src x v →
      Puts c s [R.CRC_STAT, R.PIRQ_RAW 29] fun t => t.get F.CRC_STAT_clash = 1) ∧
    (x.val = 63 → exec (.crcDin8 src x v) s = .next s ∧ exec (.crcDin32 src x v) s = .next s)

/-- A Skink job: go starts the first descriptor, or clashes with a running job; abort ends a job with error 6; each word of SRAM or of the
registers is fed to the descriptor's context and the position moves on, the last word of the last descriptor ends the job without an
error, and a word of the CCV sequence is fed to the CCV context (R399, R400, R401, R402, R404). -/
def Obligations.SkinkJob : Prop :=
  ∀ (src : Src) (first : BitVec 10) (s : State),
    (s.mayCommand src 29 → s.get F.CRC_SKSTAT_state = 0 → s.get F.CRC_SKSTAT_ccv = 0 → s.ecc1 = [] → s.ecc2 = [] →
      let w := s.skDesc first.toNat
      (descErr (w 0) (w 1) (w 2) = 0 → Does (.skinkGo src first) s P.fault fun t => t.get F.CRC_SKSTAT_state = 1 ∧
        t.get F.CRC_SKSTAT_err = 0 ∧ t.get F.CRC_SKSTAT_desc = first.toNat ∧ t.skink.count = 1 ∧ t.skink.at' = bits (w 0) 0 24 ∧
        t.skink.left = bits (w 1) 0 25 ∧ t.skink.used = [descCtx (w 2)] ∧ t.get F.CRC_SKPOS_addr = bits (w 0) 0 24) ∧
      (descErr (w 0) (w 1) (w 2) ≠ 0 → Does (.skinkGo src first) s P.fault fun t => t.get F.CRC_SKSTAT_state = 0 ∧
        t.get F.CRC_SKSTAT_err = descErr (w 0) (w 1) (w 2) ∧ t.get F.CRC_SKCNT_err = min (s.get F.CRC_SKCNT_err + 1) 65535)) ∧
    (s.mayCommand src 29 → s.get F.CRC_SKSTAT_state ≠ 0 →
      Puts (.skinkGo src first) s [R.CRC_STAT, R.PIRQ_RAW 29] (fun t => t.get F.CRC_STAT_clash = 1) ∧
      Puts (.skinkAbort src) s [R.CRC_SKSTAT, R.CRC_SKCNT, R.PIRQ_RAW 29] fun t => t.get F.CRC_SKSTAT_state = 0 ∧
        t.get F.CRC_SKSTAT_err = 6 ∧ t.get F.CRC_SKCNT_err = min (s.get F.CRC_SKCNT_err + 1) 65535) ∧
    (∀ x n, s.skink.ccv = 0 → s.get F.CRC_SKSTAT_state = 1 → s.ecc1 = [] → s.ecc2 = [] → getBits s.skink.desc[0] 24 1 = 0 →
      x = descCtx s.skink.desc[2].toNat → n = 8 - s.skink.at' % 8 → n < s.skink.left →
      Does .skinkWord s (P.fault ||| P.draws) fun t => t.skink = { s.skink with at' := s.skink.at' + n, left := s.skink.left - n } ∧
        t.reg (R.CRC_VAL x) = BitVec.ofNat 32 (crcFeed (s.get (F.CRC_CFG_w x)) (s.regN (R.CRC_POLY x)) (s.on (F.CRC_CFG_refin x))
          (s.regN (R.CRC_VAL x)) (leBytes n (s.le s.skink.at' n)))) ∧
    (∀ x, s.skink.ccv = 0 → s.get F.CRC_SKSTAT_state = 1 → getBits s.skink.desc[0] 24 1 = 1 → x = descCtx s.skink.desc[2].toNat →
      4 < s.skink.left → Does .skinkWord s (P.fault ||| P.draws) fun t =>
        t.skink = { s.skink with at' := s.skink.at' + 4, left := s.skink.left - 4 } ∧
        t.reg (R.CRC_VAL x) = BitVec.ofNat 32 (crcFeed (s.get (F.CRC_CFG_w x)) (s.regN (R.CRC_POLY x)) (s.on (F.CRC_CFG_refin x))
          (s.regN (R.CRC_VAL x)) (leBytes 4 (s.peek s.skink.at').toNat))) ∧
    (s.skink.ccv = 0 → s.get F.CRC_SKSTAT_state = 1 → s.ecc1 = [] → s.ecc2 = [] → getBits s.skink.desc[0] 24 1 = 0 →
      s.skink.left ≤ 8 - s.skink.at' % 8 → getBits s.skink.desc[3] 15 1 = 1 → Does .skinkWord s (P.fault ||| P.draws) fun t =>
        t.get F.CRC_SKSTAT_state = 0 ∧ t.get F.CRC_SKSTAT_err = 0 ∧ t.get F.CRC_SKCNT_ok = s.plusOne F.CRC_SKCNT_ok) ∧
    (s.skink.ccv ≠ 0 → s.skink.pos < ccvTotal → s.ecc1 = [] → s.ecc2 = [] → Does .skinkWord s (P.fault ||| P.draws) fun t =>
      t.skink = { s.skink with pos := s.skink.pos + 1 } ∧ t.reg (R.CRC_VAL 63) =
        BitVec.ofNat 32 (crcFeed 32 0xF4ACFB13 false (s.regN (R.CRC_VAL 63)) (s.ccvBytes s.skink.pos)))

/-- The CCV: a CONFIRM in CONFIGURE with no clause open starts its computation; where the computed value is the one supplied and nothing in
the OTP speaks against it the configuration is confirmed, else the configuration has failed; a recheck runs in a driving mode and loses
the configuration where the value has changed, and one that an uncorrectable word abandons leaves no result (R152, R154, R155, R156, R402). -/
def Obligations.Confirmation : Prop :=
  ∀ (lock : Bool) (ccv : Word) (s : State),
    (s.mode = .configure → s.blocked = false → s.get F.CLS_STAT_state = 0 → s.cl.implicit = [] →
      Does (.confirm lock ccv) s P.fault fun t => t.reg R.SPD_CCVSUP = ccv ∧ t.get F.SPD_CCVSTAT_state = 1 ∧
        t.get F.SPD_CCVSTAT_lockreq = lock.toNat ∧ t.get F.SPD_CCVSTAT_count = min (s.get F.SPD_CCVSTAT_count + 1) 65535 ∧
        t.spd = { s.spd with conf := true, lock := lock } ∧ t.get F.CRC_SKSTAT_ccv = 1 ∧ t.reg (R.CRC_VAL 63) = 0xFFFFFFFF ∧
        t.skink.ccv = 1 ∧ t.skink.pos = 0) ∧
    (s.live = true → s.blocked = false → s.mode ≠ .configure ∨ s.get F.CLS_STAT_state ≠ 0 ∨ s.cl.implicit ≠ [] →
      exec (.confirm lock ccv) s = .next s) ∧
    (s.lightMode = true → s.get F.SYS_STAT_cfg_ok = 1 → s.skink.ccv = 0 → Does .ccvRecheckStart s (P.skink ||| P.pgCrc) fun t =>
      t.skink = { s.skink with ccv := 2, pos := 0 } ∧ t.get F.CRC_SKSTAT_ccv = 1 ∧ t.reg (R.CRC_VAL 63) = 0xFFFFFFFF ∧
        t.get F.CRC_SKSTAT_state = (if s.get F.CRC_SKSTAT_state = 1 then 2 else s.get F.CRC_SKSTAT_state)) ∧
    (∀ (v : Word) (bs : List Byte), bs = (List.range (ccvTotal - s.skink.pos)).flatMap (fun i => s.ccvBytes (s.skink.pos + i)) →
      v = BitVec.ofNat 32 (crcResult 32 (s.on (F.CRC_CFG_refout 63)) (s.regN (R.CRC_XOUT 63))
        (BitVec.ofNat 32 (crcFeed 32 0xF4ACFB13 false (s.regN (R.CRC_VAL 63)) bs)).toNat) → s.get (F.CRC_CFG_w 63) = 32 → s.ecc1 = [] → s.ecc2 = [] →
      (s.spd.conf = true → s.spd.pdu = none → s.link.queue = [] → s.spd.lock = false → s.get F.SPD_OTPSTAT_com = 0 → s.get F.SYS_LOCK_cl = 0 →
        (v = s.reg R.SPD_CCVSUP → Does .ccvComputeDone s P.write fun t => t.reg R.SPD_CCVCALC = v ∧ t.get F.SYS_STAT_cfg_ok = 1 ∧
          t.get F.SPD_CCVSTAT_state = 2 ∧ t.get F.SPD_CCVSTAT_cfg_ok = 1 ∧ t.spd.conf = false ∧ t.skink.ccv = 0) ∧
        (v ≠ s.reg R.SPD_CCVSUP → Does .ccvComputeDone s P.write fun t => t.reg R.SPD_CCVCALC = v ∧ t.get F.SYS_STAT_cfg_ok = 0 ∧
          t.get F.SPD_CCVSTAT_state = 3 ∧ t.get F.SPD_CCVSTAT_reason = 1 ∧ t.get F.SYS_STAT_cfg_fail = 1 ∧
          t.boot.cfgFailed = true ∧ t.spd.conf = false)) ∧
      (s.skink.ccv = 2 →
        (v = s.reg R.SPD_CCVCALC → Does .ccvRecheckDone s (P.fault ||| P.draws) fun t => t.skink.ccv = 0 ∧
          t.get F.SYS_STAT_cfg_ok = s.get F.SYS_STAT_cfg_ok ∧ t.get F.CRC_CCVRUN_done = min (s.get F.CRC_CCVRUN_done + 1) 65535) ∧
        (v ≠ s.reg R.SPD_CCVCALC → Does .ccvRecheckDone s (P.fault ||| P.draws) fun t => t.get F.SYS_STAT_cfg_ok = 0 ∧
          t.get F.SPD_CCVSTAT_reason = 5)))

/-- A register request of one 32-bit word that arrives alone: a read returns the word, as it reads while the request's tag is in use, and a
write makes it, each with a completion that carries the tag and is handed to the link; a request with fields that are not allowed
completes with malformed and does nothing (R115, R118, R119, R121, R122). An update packet that is admitted, allowed and agrees
becomes an implicit clause that waits for its point of application, behind those already waiting, and its credit returns: a mask, a
symbol descriptor, an aspect (R76, R123, R129, R131); a standby to which a DIGEST has named it before it came applies it at once (R418). The data of a symbol update goes into the symbol store at once, unless a symbol in
use lies there (R130, R183). That PIRQ_EN takes all 32 bits is the model's choice (log entry 56). -/
def Obligations.LinkRequests : Prop :=
  (∀ (l : Fin 4) (p : Pkt) (s : State), s.link.queue = [] → s.blocked = false →
     (s.admits l 1 8 8 p →
       (∀ a u, regReqOk false p = true → bodyLe p 5 1 = 1 → bodyLe p 8 4 = a → a < 0x1F000 → a % 4 = 0 →
         u = s.completion l 1 p 0 1 (leBytes 4 ((s.holding l 1 p).readBy .lane a).toNat) →
         Does (.rdreq l p) s P.write fun t => t.link = u.link ∧ t.out = u.out) ∧
       (∀ u, regReqOk false p = false → u = s.completion l 1 p 0xB 0 [] →
         Does (.rdreq l p) s (P.pgPkt ||| P.link ||| P.out) fun t => t.link = u.link ∧ t.out = u.out)) ∧
     (s.admits l 2 8 65535 p →
       (∀ (k : Fin 31) (u : State), regReqOk true p = true → bodyLe p 5 1 = 1 → bodyLe p 8 4 = R.PIRQ_EN k → s.owns .lane k = true →
         u = s.completion l 2 p 0 1 [] → Does (.wrreq l p) s P.write fun t =>
           t.link = u.link ∧ t.out = u.out ∧ t.reg (R.PIRQ_EN k) = BitVec.ofNat 32 (bodyLe p 12 4)) ∧
       (∀ u, regReqOk true p = false → u = s.completion l 2 p 0xB 0 [] →
         Does (.wrreq l p) s (P.pgPkt ||| P.link ||| P.out) fun t => t.link = u.link ∧ t.out = u.out))) ∧
  (∀ (c : Instr) (l : Fin 4) (p : Pkt) (typ kind : Nat) (ws : List (Nat × Word)) (s u : State), s.link.queue = [] → s.blocked = false →
     s.mode ≠ .hold →
     (c = .maskupd l p ∧ s.admits l 0x20 20 268 p ∧ maskupdOk p = true ∧ typ = 0x20 ∧ kind = 1 ∧ ws = maskupdWords p) ∨
       (c = .symupdDescriptor l p ∧ s.admits l 0x21 16 1036 p ∧ symDescOk p = true ∧ bits (bodyLe p 5 1) 2 1 = 1 ∧ typ = 0x21 ∧ kind = 2 ∧
         ws = [(R.MSK_SYMLo (bodyLe p 6 1), BitVec.ofNat 32 (bodyLe p 12 4)),
           (R.MSK_SYMHi (bodyLe p 6 1), BitVec.ofNat 32 (bodyLe p 16 4))]) ∨
       (c = .aspupd l p ∧ s.admits l 0x22 12 44 p ∧ aspupdOk p = true ∧ s.aspupdBarred p = false ∧ typ = 0x22 ∧ kind = 3 ∧
         ws = aspupdWords p) →
     (∀ (e : Nat × Nat) (k : ImpClause), s.agree ws = none → s.mode = .mirror → s.pair.lost.find? (fun e => e.1 == pktTag p) = some e →
       k = ⟨kind, ws, (s.pointOf (bodyLe p 5 1 % 4) (bodyLe p 8 4)).1, pktTag p, s.cl.arrived + 1⟩ → Does c s P.write fun t =>
         t.pair.lost = s.pair.lost.erase e ∧ t.cl.implicit = (s.cl.implicit ++ [k]).erase k ∧ t.link.retU = s.link.retU + 1) ∧
     (s.agree ws = none → (s.mode = .mirror → ∀ e ∈ s.pair.lost, e.1 ≠ pktTag p) → u = s.completion l typ p 0 0 [] → Does c s (P.cl ||| P.link ||| P.out ||| P.pgPkt) fun t =>
       t.cl = { s.cl with arrived := s.cl.arrived + 1, implicit := s.cl.implicit ++
         [⟨kind, ws, (s.pointOf (bodyLe p 5 1 % 4) (bodyLe p 8 4)).1, pktTag p, s.cl.arrived + 1⟩] } ∧
       t.link = { u.link with retU := s.link.retU + 1 } ∧ t.out = u.out) ∧
     (∀ e, s.agree ws = some e → u = s.completion l typ p 0xA 0 [] → Does c s (P.link ||| P.out ||| P.pgPkt ||| P.cls) fun t =>
       t.get F.CLS_ISTAT_rule = e.1 % 256 ∧ t.get F.CLS_ISTAT_kind = kind ∧ t.get F.CLS_ISTAT_count = s.plusOne F.CLS_ISTAT_count ∧
       t.link = { u.link with retU := s.link.retU + 1 } ∧ t.out = u.out)) ∧
  (∀ (l : Fin 4) (p : Pkt) (off : Nat) (s u : State), s.link.queue = [] → s.blocked = false → s.admits l 0x21 16 1036 p →
     symDataOk p = true → bits (bodyLe p 5 1) 2 1 = 0 → bodyLe p 12 4 = off → s.sram.wf = true → s.ecc1 = [] → s.ecc2 = [] →
     (s.storeUsed off (p.body.length - 12) = false → u = s.completion l 0x21 p 0 0 [] →
       Does (.symupdData l p) s (P.sram ||| P.ecc ||| P.link ||| P.out ||| P.pgPkt) fun t =>
       (∀ i, i < p.body.length - 12 → t.byte (0xE00000 + off + i) = p.body.getD (12 + i) 0) ∧
       (∀ a, a < 0xE00000 + off ∨ 0xE00000 + off + (p.body.length - 12) ≤ a → t.byte a = s.byte a) ∧
       t.link = { u.link with retU := s.link.retU + 1 } ∧ t.out = u.out) ∧
     (s.storeUsed off (p.body.length - 12) = true → u = s.completion l 0x21 p 0xC 0 [] →
       Does (.symupdData l p) s (P.link ||| P.out ||| P.pgPkt) fun t =>
       t.link = { u.link with retU := s.link.retU + 1 } ∧ t.out = u.out))

/-- A safe PDU: a correct one synchronises the connection and its items are not executed; from then on each in sequence is accepted
and its items run; one of another connection is discarded (R141, R146, R147, R148, R149). The items of an accepted safe PDU:
NOP, WRITE, and BEAM, which takes CONFIGURE to OPERATE where the configuration is confirmed and the role, evaluated again, is active, asks
for the normal frame in FALLBACK, and is refused without a confirmed configuration (R26, R50, R143, R144, R145, R363, R412). The model's
choices: an accepted PDU restarts the time after a configuration failure too (log entry 52), PIRQ_EN takes all 32 bits (log entry 56). -/
def Obligations.SafeTransactions : Prop :=
  (∀ (l : Fin 4) (p : Pkt) (s : State), s.link.queue = [] → s.blocked = false → s.admits l 0x40 16 268 p → hostHdrOk p = true →
     (∀ id seq texp pw, s.regN R.SPD_RXID = id → id ≠ 0 → blkLe p.body 0 4 = id → blkLe p.body 4 2 = seq → blkLe p.body 6 1 = texp →
       texp ≠ 0 → blkLe p.body 7 1 = pw → 1 ≤ pw → pw ≤ 64 → p.body.length = 12 + 4 * pw →
       crcSafe id (p.body.take (8 + 4 * pw)) = blkLe p.body (8 + 4 * pw) 4 →
       (s.get F.SPD_RXSTAT_synced = 0 → Does (.safePdu l p) s P.write fun t => t.get F.SPD_RXSTAT_synced = 1 ∧
         t.get F.SPD_RXSTAT_last = seq ∧ t.get F.SPD_RXSTAT_miss = 0 ∧ t.get F.SYS_STAT_host_lost = 0 ∧
         t.spd = { s.spd with host := 0, failT := 0, dl := 0, texp := texp } ∧ t.reg R.SPD_LASTRES = s.reg R.SPD_LASTRES ∧
         t.link = { s.link with retS := s.link.retS + 1 }) ∧
       (∀ d, s.get F.SPD_RXSTAT_synced = 1 → d = (seq + 65536 - s.get F.SPD_RXSTAT_last) % 65536 → 1 ≤ d →
         d ≤ s.get F.SPD_RXCFG_window → pw = 1 → blkLe p.body 8 4 = 0 → Does (.safePdu l p) s P.write fun t =>
           t.get F.SPD_RXSTAT_last = seq ∧ t.get F.SPD_RXSTAT_miss = 0 ∧ t.get F.SYS_STAT_host_lost = 0 ∧
           t.get F.SPD_LOST_gap = min (s.get F.SPD_LOST_gap + (d - 1)) 65535 ∧ t.get F.SPD_LASTRES_seq = seq ∧
           t.get F.SPD_LASTRES_status = 0 ∧ t.get F.SPD_LASTRES_done = 1 ∧ t.get F.SPD_LASTRES_parse = 0)) ∧
     (blkLe p.body 0 4 ≠ s.regN R.SPD_RXID → Does (.safePdu l p) s (P.link ||| P.pgSpd) fun t =>
       t.get F.SPD_DISC_conn = s.plusOne F.SPD_DISC_conn ∧ t.spd = s.spd ∧ t.link = { s.link with retS := s.link.retS + 1 } ∧
         t.get F.SPD_RXSTAT_last = s.get F.SPD_RXSTAT_last)) ∧
  (∀ s : State, s.live = true →
     exec .nop s = .next s ∧
     (∀ (k : Fin 31) (v : Word), s.owns .pdu k = true → k.val ∉ [18, 24, 26, 28] →
       Puts (.write (BitVec.ofNat 32 (R.PIRQ_EN k)) v) s [R.PIRQ_EN k] fun t => t.reg (R.PIRQ_EN k) = v) ∧
     (s.mode = .configure → s.get F.SYS_STAT_cfg_ok = 1 → s.roleRow.1 ≤ 1 →
       (∀ e ∈ s.flt.insts, e.2.latched = true → s.get (F.FLT_RCT_action (e.1 / 65536)) ≠ 3) →
       Does .beam s P.write fun t => t.mode = .operate ∧ t.light.fb = false ∧ t.reg R.SUP_CNT0 = 0 ∧ t.reg R.SUP_CNT1 = 0 ∧
         t.spl = {} ∧ t.get F.AXO_STAT_role = s.roleRow.1 ∧ (∀ g : Fin 4, t.regN (R.SPL_STAT g) =
           (if s.get (F.PCTRL_en 27) = 1 ∧ s.get (F.SPL_CTRL_en g) = 1 then s.get (F.SPL_INIT_code g) else 0)) ∧
         (∀ a : Fin 160, t.get (F.ASP_FLT_faulty a) = 0)) ∧
     (s.mode = .fallback → s.get F.SYS_STAT_cfg_ok = 1 → s.get F.SYS_STAT_host_lost = 0 → s.boot.dark = none → s.light.back = false →
       Does .beam s (P.vid ||| P.chains ||| P.tiles ||| P.light ||| P.pgCmp) fun t => t.mode = .fallback ∧ t.light.back = true ∧
         t.light.backDue = false ∧ t.light.initial = true ∧ t.vid.passPer = none ∧ t.vid.dirty = List.range 10240) ∧
     (s.mode = .fallback → s.light.back = true ∨ s.get F.SYS_STAT_cfg_ok = 0 ∨ s.get F.SYS_STAT_host_lost = 1 ∨ s.boot.dark ≠ none →
       exec .beam s = .next s) ∧
     (s.mode = .hold ∨ s.mode = .configure ∧ s.get F.SYS_STAT_cfg_ok = 0 → exec .beam s = .next s) ∧
     (s.mode = .configure → s.get F.SYS_STAT_cfg_ok = 1 → 1 < s.roleRow.1 → Does .beam s P.pgAxo fun t => t.mode = .configure ∧
       t.get F.AXO_STAT_role = s.roleRow.1) ∧
     (s.mode = .operate ∨ s.mode = .mirror → exec .beam s = .next s))

/-- OTP programming: an item for a blank block with good contents starts it in CONFIGURE under a confirmed configuration, without the
commissioning lock; its end writes the block and no other byte, and a read-back difference marks it (R70, R158, R159). -/
def Obligations.OtpProgramming : Prop :=
  ∀ s : State,
    (s.mode = .configure → s.get F.SYS_STAT_cfg_ok = 1 → s.get F.SYS_LOCK_cl = 0 → s.blocked = false →
      (∀ blk : Vector Byte 32, blank s.comBlock = true → s.spd.cutCom = false → comValid s.serialLo blk.toList = true →
        blkLe blk.toList 4 4 = s.regN R.SPD_CCVCALC → Does (.otpcom blk) s (P.spd ||| P.pgSpd) fun t =>
          t.get F.SPD_OTPSTAT_busy = 1 ∧ t.spd = { s.spd with otp := some (false, blk.toList) }) ∧
      (∀ blk : Vector Byte 232, blank s.fbBlock = true → s.spd.cutFb = false → fbCheck s.serialLo blk.toList = 0 →
        Does (.otpfb blk) s (P.spd ||| P.pgSpd) fun t =>
          t.get F.SPD_OTPSTAT_busy = 1 ∧ t.spd = { s.spd with otp := some (true, blk.toList) }) ∧
      (∀ blk : Vector Byte 32, blank s.comBlock = false → exec (.otpcom blk) s = .next s) ∧
      (∀ blk : Vector Byte 232, blank s.fbBlock = false → exec (.otpfb blk) s = .next s)) ∧
    (∀ (ok fb : Bool) (blk : List Byte), s.spd.otp = some (fb, blk) → s.spd.pdu = none → s.link.queue = [] →
      Does (.otpProgramDone ok) s (P.otp ||| P.spd ||| P.pgSpd) fun t =>
        (∀ i, i < blk.length → s.otp.wf = true → memByte t.otp ((if fb then 0x40 else 0x20) + i) = blk.getD i 0) ∧
        (∀ a, a < (if fb then 0x40 else 0x20) ∨ (if fb then 0x40 else 0x20) + blk.length ≤ a → s.otp.wf = true →
          memByte t.otp a = memByte s.otp a) ∧
        t.get F.SPD_OTPSTAT_busy = 0 ∧ t.get F.SPD_OTPSTAT_err = (!ok).toNat ∧ t.spd.otp = none ∧
        (ok = false → (fb = true → t.spd.cutFb = true) ∧ (fb = false → t.spd.cutCom = true)))

/-- What the device sends on the host path: a status PDU with its sequence number, an interrupt message when the summary has changed
and again while it is not zero, and the credit of a link, first with the pool sizes once every pool is empty (R124, R134, R151). A packet
leaves in words of four symbols, or waits for the link's first BND set (R91, R100, R113). That IRQMSG counts from 1 and goes out on the
lowest ACTIVE host lane is the model's reading (log entry 26). Packets that pass through: a packet of the
device behind goes on to the host as it came, is stored while the host link waits, and is dropped where 4 KiB would not hold it; a word
without errors drains the error bucket, and with no packet open or starting it does nothing else but advance the counts of the
adaptation (R90, R96, R99, R102, R117). That no word in POLL or CAPS counts as scrambled data is the model's reading (log entry 75). -/
def Obligations.HostPath : Prop :=
  (∀ (l : Nat) (s : State), s.live = true →
     (s.hostOut = some l → s.regN R.SPD_TXID ≠ 0 → Does .statusPduSend s (P.link ||| P.out ||| P.spd ||| P.pgSpd) fun t =>
       t.link = (s.transmit l 0x40 s.hostHdr s.statusPdu).link ∧ t.out = (s.transmit l 0x40 s.hostHdr s.statusPdu).out ∧
         t.get F.SPD_TXSEQ_seq = s.spd.txN % 65536 ∧
         t.spd = { s.spd with txN := (s.spd.txN + 1) % 65536, sent := s.statusWords }) ∧
     (∀ (c : Instr) (u : State), s.hostOut = some l → s.get F.PKT_CFG_irq_en = 1 →
       c = .irqmsgSend ∧ BitVec.ofNat 32 s.irqSum ≠ s.link.irqLast ∨ c = .irqmsgRepeat ∧ s.get F.PKT_CFG_repeat ≠ 0 ∧ s.irqSum ≠ 0 →
       u = s.transmit l 0x30 s.hostHdr (leBytes 4 ((s.get F.PKT_IRQSEQ_seq + 1) % 256) ++ leBytes 4 s.irqSum ++
         leBytes 4 (s.regN R.SYS_STAT)) →
       Does c s (P.link ||| P.out ||| P.pgPkt) fun t => t.get F.PKT_IRQSEQ_seq = (s.get F.PKT_IRQSEQ_seq + 1) % 256 ∧
         t.link = { u.link with irqLast := BitVec.ofNat 32 s.irqSum } ∧ t.out = u.out) ∧
     (l < 4 → s.hostLanes = [l] → s.active l = true → s.bonded l = false →
       ((s.lane l).fcSent = true → Does .fcSend s (P.link ||| P.out) fun t =>
         t.link = (s.transmit l 0x50 s.hostHdr (s.fcBody l)).link ∧ t.out = (s.transmit l 0x50 s.hostHdr (s.fcBody l)).out) ∧
       (∀ u, (s.lane l).fcSent = false → s.poolsEmpty = true →
         u = s.transmit l 0x50 s.hostHdr (leBytes 2 512 ++ leBytes 1 16 ++ leBytes 1 8) → Does .fcSend s (P.link ||| P.out) fun t =>
           t.out = u.out ∧ (t.lane l).fcSent = true ∧ (t.lane l).fcBase = (s.link.retV, s.link.retU, s.link.retS)) ∧
       ((s.lane l).fcSent = false → s.poolsEmpty = false → exec .fcSend s = .next s)) ∧
     (∀ (typ hdr : Nat) (body : List Byte), l < 4 →
       (s.linkOpen l = true → (s.transmit l typ hdr body).out.head? = some (.packet l typ hdr body) ∧
         (s.transmit l typ hdr body).out.length = s.out.length + 1 + ceilDiv (body.length + 10) 4) ∧
       (s.linkOpen l = false → (s.transmit l typ hdr body).out = s.out ∧
         ((s.transmit l typ hdr body).lane (s.linkLow l)).txWait = (s.lane (s.linkLow l)).txWait ++ [(typ, hdr, body)]))) ∧
  (∀ (l : Fin 4) (s : State), s.live = true →
     (∀ (typ : Byte) (p : Pkt) (h : Nat), s.active l = true → typ ∈ ([0x03, 0x30, 0x40, 0x50] : List Byte) → s.laneRole l = 2 →
       s.get (F.LNK_STAT_end l) = 1 → p.eop = true → p.body.length = p.len.toNat →
       p.crc.toNat = crcLink (pktHead typ.toNat p ++ p.body) → (s.lane (s.linkLow l)).rxBad = false → s.hostOut = some h →
       (s.linkOpen h = true → Does (.returnPacketReceive l typ p) s (P.link ||| P.out) fun t =>
         t = s.sendPacket h typ.toNat p.hdr.toNat p.body ∧ t.out.head? = some (.packet h typ.toNat p.hdr.toNat p.body)) ∧
       (∀ held, s.linkOpen h = false → held = p.body.length + 8 + (s.link.ret.map fun e => e.2.2.length + 8).sum →
         (held ≤ 4096 → Does (.returnPacketReceive l typ p) s P.link fun t =>
           t.link = { s.link with ret := s.link.ret ++ [(typ.toNat, p.hdr.toNat, p.body)] }) ∧
         (4096 < held → Does (.returnPacketReceive l typ p) s P.pgPkt fun t =>
           t.get F.PKT_OVR_ret = s.plusOne F.PKT_OVR_ret ∧ t.bit (R.PIRQ_RAW 8) 5 = true))) ∧
     (∀ (w : Vector (BitVec 10) 4) (ys : List Sym) (rd : Bool), s.decodeWord l w.toList = (ys, rd) →
       ys.all (fun y => !y.codeErr && !y.dispErr) = true →
       (s.laneState l = 2 ∨ s.laneState l = 3 → Does (.laneWordReceive l w) s P.link fun t =>
         (t.lane l).rd = rd ∧ (t.lane l).bucket = (s.lane l).bucket - 1 ∧ (t.lane l).plainN = min 256 ((s.lane l).plainN + 4) ∧
           (t.lane l).dataN = 0 ∧ ∀ m, m ≠ l.val → t.lane m = s.lane m) ∧
       (s.laneState l = 4 → (s.lane (s.linkLow l)).rxOpen = false → (s.lane (s.linkLow l)).rxFwd = false →
         ys.all (fun y => !(y.k && y.val == 0xFB)) = true →
         Does (.laneWordReceive l w) s P.link fun t =>
           (t.lane l).rd = rd ∧ (t.lane l).bucket = (s.lane l).bucket - 1 ∧ (t.lane l).rxOpen = (s.lane l).rxOpen ∧
             (t.lane l).plainN = min 256 ((s.lane l).plainN + 4) ∧ (t.lane l).dataN = 0 ∧ ∀ m, m ≠ l.val → t.lane m = s.lane m)))

/-- The SPI port: a frame's falling edge takes up the MISO frame, which says busy while an access waits or runs, and its rising edge the
access, or the error of a frame with a wrong CRC-8, length or operation; a frame that began busy is discarded; the waiting access is
executed and then reports its status (R58, R61, R135, R136, R137). The model's readings: an access that completed before a frame in error
reports first, and a frame with operation 0b11 counts among the executed (log entry 72); PIRQ_EN takes all 32 bits (log entry 56). -/
def Obligations.SpiPort : Prop :=
  ∀ s : State,
    (s.live = true → s.spi.low = false → s.spi.running = none → s.spi.waiting = none →
      (s.spi.done = [] → exec .spiFrameStart s = .next (s.onSpi fun p =>
        { p with low := true, discard := false, miso := s.misoFrame 0 0 (s.peek R.SYS_STAT).toNat })) ∧
      (∀ a r, s.spi.done = a :: r → exec .spiFrameStart s = .next (s.onSpi fun p =>
        { p with low := true, discard := false, done := r, miso := s.misoFrame a.status a.seq a.res.toNat }))) ∧
    (∀ a, s.live = true → s.spi.low = false → s.spi.running.or s.spi.waiting = some a → exec .spiFrameStart s =
      .next (s.onSpi fun p => { p with low := true, discard := true, miso := s.misoFrame 0xE a.seq 0 })) ∧
    (∀ mosi : BitVec 64, s.live = true → s.spi.low = true → s.spi.discard = true →
      crc8 ((frameBytes mosi.toNat).take 7) = mosi.toNat % 256 →
      exec (.spiFrameEnd 64 mosi) s = .next (s.onSpi fun p => { p with low := false, discard := false })) ∧
    (∀ mosi : BitVec 64, s.live = true → s.spi.low = true → s.spi.discard = false →
      (crc8 ((frameBytes mosi.toNat).take 7) = mosi.toNat % 256 → bits mosi.toNat 62 2 ≠ 3 →
        ∃ a : SpiAcc, a.op = bits mosi.toNat 62 2 ∧ a.seq = bits mosi.toNat 60 2 ∧ a.addr = bits mosi.toNat 40 20 ∧
          a.data = BitVec.ofNat 32 (bits mosi.toNat 8 32) ∧
          exec (.spiFrameEnd 64 mosi) s = .next (s.onSpi fun p => { p with low := false, discard := false, waiting := some a })) ∧
      (crc8 ((frameBytes mosi.toNat).take 7) = mosi.toNat % 256 → bits mosi.toNat 62 2 = 3 →
        Does (.spiFrameEnd 64 mosi) s (P.spi ||| P.pgPkt) fun t => t.get F.PKT_SPICNT_ok = s.plusOne F.PKT_SPICNT_ok ∧ t.spi.low = false ∧
          t.spi.waiting = s.spi.waiting ∧ (t.spi.done.getLast?.map SpiAcc.status) = some 0xB) ∧
      (∀ n, n ≠ 64 ∨ crc8 ((frameBytes mosi.toNat).take 7) ≠ mosi.toNat % 256 → Does (.spiFrameEnd n mosi) s (P.spi ||| P.pgPkt) fun t =>
        t.get F.PKT_SPICNT_err = s.plusOne F.PKT_SPICNT_err ∧ t.spi.low = false ∧ t.spi.waiting = s.spi.waiting ∧
          (t.spi.done.getLast?.map SpiAcc.status) = some 0xD)) ∧
    (∀ a : SpiAcc, s.live = true → s.spi.waiting = some a →
      (a.op = 0 → Does .spiNop s (P.spi ||| P.pgPkt) fun t => t.get F.PKT_SPICNT_ok = s.plusOne F.PKT_SPICNT_ok ∧
        t.spi = { s.spi with waiting := none, running := some { a with status := 0, res := s.peek R.SYS_STAT } }) ∧
      (a.op = 1 → a.addr < 0x1F000 → a.addr % 4 = 0 →
        Does .spiRead s (P.fault ||| P.spi ||| P.draws ||| P.sys ||| P.pgPkt ||| P.pgAdc) fun t =>
          t.spi = { s.spi with waiting := none,
                               running := some { a with status := 0, res := (s.inc F.PKT_SPICNT_ok).readBy .spi a.addr } }) ∧
      (∀ k : Fin 31, a.op = 2 → a.addr = R.PIRQ_EN k → s.owns .spi k = true → Does .spiWrite s P.write fun t =>
        t.reg (R.PIRQ_EN k) = a.data ∧ t.spi = { s.spi with waiting := none, running := some { a with status := 0, res := 0 } })) ∧
    (∀ a, s.spi.running = some a → exec .spiAccessComplete s =
      .next (s.onSpi fun p => { p with running := none, done := p.done ++ [a] }))

/-- Video packets in a pool without waiting packets: a VLINE with allowed fields opens its frame where none is open, writes its pixels
into the back buffer and nothing else of the SRAM, makes the back buffer open and returns its credit; an FEND whose CRC and number match
counts a good frame and seals it, or swaps it in at once where VIN_CFG.swap says so; the FEND of a repeat frame ends the count of held
frames; one whose CRC or number does not match, one for a frame that is bad, and one of a repeat frame with a wrong CRC drop the frame, and
in OPERATE at the limit of held frames this leads to FALLBACK (R113, R115, R123, R126, R127, R128, R139, R163, R164). That PKT_VSTAT.cur
reads zero while no frame is open is the model's reading (log entry 26). -/
def Obligations.VideoPackets : Prop :=
  ∀ (l : Fin 4) (p : Pkt) (s : State), s.link.vwait = [] →
    (s.admits l 0x10 11 3080 p → vlineOk p = true → s.get F.VIN_STAT_back ≤ 1 → s.get F.PKT_VSTAT_open = 0 → s.ecc1 = [] →
      s.ecc2 = [] → s.sram.wf = true → Does (.vline l p) s (P.fault ||| P.link ||| P.draws ||| P.pgPkt ||| P.pgVin) fun t =>
        let at' := fun k => videoAddr (1 - s.get F.VIN_STAT_front) (pixOf (bodyLe p 8 2 + k) (bodyLe p 6 2))
        t.get F.PKT_VSTAT_open = 1 ∧ t.get F.PKT_VSTAT_cur = bodyLe p 4 1 ∧ t.get F.PKT_VSTAT_bad = 0 ∧
          t.get F.VIN_STAT_back = 1 ∧ t.get F.VIN_STAT_front = s.get F.VIN_STAT_front ∧
          (∀ k < bodyLe p 10 2, t.le (at' k) 2 = bits (bodyLe p (12 + 3 * (k / 2)) 3) (12 * (k % 2)) 12) ∧
          (∀ a, (∀ k < bodyLe p 10 2, a < at' k ∨ at' k + 2 ≤ a) → t.byte a = s.byte a) ∧
          t.link.vcrc = crcLinkOn 0 p.body ∧ t.link.retV = s.link.retV + videoUnits p ∧ t.link.vwait = []) ∧
    (s.admits l 0x11 8 8 p → hostHdrOk p = true → bodyLe p 5 3 = 0 → s.get F.PKT_VSTAT_open = 1 → s.get F.PKT_VSTAT_bad = 0 →
      s.get F.PKT_VSTAT_cur = bodyLe p 4 1 → bodyLe p 8 4 = s.link.vcrc → s.get F.VIN_CFG_swap ≠ 0 →
      Does (.fend l p) s (P.fault ||| P.link ||| P.draws ||| P.pgPkt ||| P.pgVin) fun t =>
        t.get F.PKT_VCNT_good = s.plusOne F.PKT_VCNT_good ∧ t.get F.PKT_VSTAT_held = 0 ∧ t.get F.PKT_VSTAT_good = bodyLe p 4 1 ∧
          t.get F.PKT_VSTAT_open = 0 ∧ t.get F.PKT_VSTAT_cur = 0 ∧ t.get F.VIN_STAT_back = 2 ∧
          t.get F.VIN_STAT_front = s.get F.VIN_STAT_front ∧ t.vid.backNum = bodyLe p 4 1 ∧ t.link.retV = s.link.retV + 1 ∧
          t.sram = s.sram) ∧
    (s.admits l 0x11 8 8 p → hostHdrOk p = true → bodyLe p 5 3 = 0 → s.get F.PKT_VSTAT_open = 1 → s.get F.PKT_VSTAT_bad = 0 →
      s.get F.PKT_VSTAT_cur = bodyLe p 4 1 → bodyLe p 8 4 = s.link.vcrc → s.get F.VIN_CFG_swap = 0 →
      Does (.fend l p) s (P.fault ||| P.link ||| P.draws ||| P.pgPkt ||| P.pgVin) fun t =>
        t.get F.PKT_VCNT_good = s.plusOne F.PKT_VCNT_good ∧ t.get F.PKT_VSTAT_open = 0 ∧ t.get F.VIN_STAT_back = 0 ∧
          t.get F.VIN_STAT_front = 1 - s.get F.VIN_STAT_front ∧ t.get F.VIN_STAT_pend = 1 ∧ t.vid.backNum = bodyLe p 4 1 ∧
          t.get F.VIN_STAT_fnum = bodyLe p 4 1 ∧ t.get F.VIN_CNT_swaps = s.plusOne F.VIN_CNT_swaps ∧ t.vid.swapEv = some s.now ∧
          t.link.retV = s.link.retV + 1 ∧ t.sram = s.sram) ∧
    (s.admits l 0x11 8 8 p → hostHdrOk p = true → bodyLe p 5 3 = 0 → s.get F.PKT_VSTAT_open = 0 → bodyLe p 8 4 = 0 →
      Does (.fend l p) s (P.fault ||| P.link ||| P.draws ||| P.pgPkt ||| P.pgVin) fun t =>
        t.get F.PKT_VCNT_good = s.plusOne F.PKT_VCNT_good ∧ t.get F.PKT_VSTAT_held = 0 ∧ t.get F.PKT_VSTAT_good = bodyLe p 4 1 ∧
          t.reg R.VIN_STAT = s.reg R.VIN_STAT ∧ t.sram = s.sram) ∧
    (∀ drops, s.admits l 0x11 8 8 p → hostHdrOk p = true → bodyLe p 5 3 = 0 →
      s.get F.PKT_VSTAT_open = 1 ∧
          (bodyLe p 8 4 ≠ s.link.vcrc ∨ s.get F.PKT_VSTAT_bad = 1 ∨ s.get F.PKT_VSTAT_cur ≠ bodyLe p 4 1) ∨
        s.get F.PKT_VSTAT_open = 0 ∧ bodyLe p 8 4 ≠ 0 →
      drops = (s.mode == .operate && decide (s.get F.VIN_CFG_hold_lim ≤ s.plusOne F.PKT_VSTAT_held)) →
      (drops = true → s.boot.dark = none ∧ s.get F.SYS_FBSTAT_valid = 1) →
      Does (.fend l p) s (P.fault ||| P.link ||| P.draws ||| P.pgPkt ||| P.pgVin) fun t =>
        t.get F.PKT_VCNT_dropped = s.plusOne F.PKT_VCNT_dropped ∧ t.get F.PKT_VSTAT_held = s.plusOne F.PKT_VSTAT_held ∧
          t.get F.PKT_VSTAT_open = 0 ∧ t.get F.PKT_VSTAT_cur = 0 ∧ t.get F.PKT_VSTAT_bad = 0 ∧
          (s.get F.VIN_STAT_back = 1 → t.get F.VIN_STAT_back = 0) ∧ t.link.retV = s.link.retV + 1 ∧
          t.get F.PKT_VCNT_good = s.get F.PKT_VCNT_good ∧ t.mode = (if drops then .fallback else s.mode))

/-- Swaps: the FSYNC_IN edge that VIN_CFG.swap selects exchanges front and back where the back buffer is sealed, and counts a missed
swap where it is not; the other edge shows in VIN_STAT.fsync alone; at its period start the swap takes effect and marks every row
dirty (R164, R165, R166, R167, R168, R170). -/
def Obligations.Swaps : Prop :=
  ∀ (rising : Bool) (s : State), s.live = true →
    (s.get F.VIN_CFG_swap = (if rising then 1 else 2) → s.get F.VIN_STAT_back = 2 → s.link.vwait = [] →
      Does (.fsyncEdge rising) s (P.fault ||| P.link ||| P.draws ||| P.pgPkt ||| P.pgVin) fun t =>
        t.get F.VIN_STAT_front = 1 - s.get F.VIN_STAT_front ∧ t.get F.VIN_STAT_back = 0 ∧ t.get F.VIN_STAT_pend = 1 ∧
          t.get F.VIN_STAT_fsync = rising.toNat ∧ t.get F.VIN_STAT_fnum = s.vid.backNum % 256 ∧
          t.get F.VIN_CNT_swaps = s.plusOne F.VIN_CNT_swaps ∧ t.vid.swapEv = some s.now ∧
          (s.mode = .mirror → t.vid.swapDue = none) ∧ (s.mode ≠ .mirror → t.vid.swapDue = some s.nextStart)) ∧
    (s.get F.VIN_CFG_swap = (if rising then 1 else 2) → s.get F.VIN_STAT_back ≠ 2 →
      Does (.fsyncEdge rising) s P.pgVin fun t => t.get F.VIN_MISS_nosync = s.plusOne F.VIN_MISS_nosync ∧
        t.get F.VIN_STAT_fsync = rising.toNat ∧ t.get F.VIN_STAT_front = s.get F.VIN_STAT_front ∧
        t.get F.VIN_STAT_back = s.get F.VIN_STAT_back) ∧
    (s.get F.VIN_CFG_swap ≠ (if rising then 1 else 2) →
      exec (.fsyncEdge rising) s = .next (s.put F.VIN_STAT_fsync rising.toNat)) ∧
    (∀ p, s.vid.swapDue = some p → perReached p s.pnow = true → Does .swapTakeEffect s (P.vid ||| P.pgVin) fun t =>
      t.reg R.VIN_SWPER = s.reg R.CLS_PNOW ∧ t.get F.VIN_STAT_pend = 0 ∧
        t.vid = { s.vid with swapDue := none, swapAt := some s.pnow, fresh := true, dirty := List.range 10240 })

/-- A composition pass starts where its conditions hold and its slot is free: it runs into the slot that is not in force, with its
snapshot. It ends with its counts, and placement runs; placement, which reads no SRAM, ends with its duration, and where PLC_CFG.flat was
clear as it started the tiles keep their offsets. The scrubber reads the next word of each bank and corrects a single error (R10, R11, R171, R172, R173, R188, R189, R205, R232,
R238, R242). -/
def Obligations.CompositionPasses : Prop :=
  ∀ s : State,
    (s.passDue (s.vid.swapAt == some s.pnow) = true → s.slotFree = true → s.ecc1 = [] → s.ecc2 = [] →
      Does .passStart s (P.fault ||| P.draws ||| P.pgSup) fun t => t.get F.CMP_STAT_state = 1 ∧
        t.get F.CMP_STAT_target = 1 - s.get F.CMP_STAT_inforce ∧ t.get F.CMP_STAT_inforce = s.get F.CMP_STAT_inforce ∧
        t.vid.passPer = some s.pnow ∧ (t.snapOf (1 - s.get F.CMP_STAT_inforce)).kind = s.passKind) ∧
    (∀ cycles, s.get F.CMP_STAT_state = 1 → s.vid.lossy = [] ∨ s.get (F.FLT_RCT_action 6) ≤ 2 → Does (.passComplete cycles) s P.fault fun t =>
      (s.vid.rows ≠ [] → t.get F.CMP_STAT_state = 2 ∧ t.vid.placing = true ∧ t.vid.flat = s.on F.PLC_CFG_flat) ∧
        (s.vid.rows = [] → t.get F.CMP_STAT_state = 0) ∧ t.mode = s.mode ∧ t.get F.CMP_PASS_done = s.plusOne F.CMP_PASS_done ∧
        t.get F.CMP_LAST_composed = s.vid.rows.length % 2 ^ 14 ∧ t.get F.CMP_LAST_copied = s.vid.copied % 2 ^ 14 ∧
        t.get F.CMP_LASTT_t = cycles % 2 ^ 24) ∧
    (∀ cycles, s.vid.placing = true → Does (.placementComplete cycles) s (P.vid ||| P.tiles ||| P.pgPlc) fun t =>
      t.vid = { s.vid with placing := false } ∧ t.get F.PLC_RUN_last = cycles % 2 ^ 16 ∧
        t.get F.PLC_RUN_longest = max (s.get F.PLC_RUN_longest) (min cycles 65535) ∧
        t.get F.PLC_CNT_done = s.plusOne F.PLC_CNT_done ∧
        ((s.snapOf (s.get F.CMP_STAT_target)).kind = .layers → s.light.initial = false → s.vid.flat = false →
          ∀ x ∈ s.tilesIn false, x < 80 → (t.tile x).next = (s.tile x).prev)) ∧
    (s.live = true → s.vid.scrubAt + 1 < 131072 → s.ecc2 = [] →
      (s.ecc1 = [] → exec .scrubRead s = .next (s.onVid fun v => { v with scrubAt := v.scrubAt + 1 })) ∧
      (∀ b : Fin 16, s.ecc1 = [131072 * b + s.vid.scrubAt] → s.vid.scrubOld = [] → Does .scrubRead s (P.fault ||| P.draws) fun t =>
        t.ecc1 = [] ∧ t.vid.scrubAt = s.vid.scrubAt + 1 ∧ t.vid.scrubErr = s.vid.scrubErr + 1 ∧ t.sram = s.sram ∧
          t.get ⟨R.CMP_ECCCNT (b / 4), 8 * (b % 4), 8⟩ = s.plusOne ⟨R.CMP_ECCCNT (b / 4), 8 * (b % 4), 8⟩))

/-- Capability sets in CAPS (R94). A set is sent for each that comes in, 16 bytes with the identity, the check value and seen once a valid
set was received (R91, R94; that one is sent for each is the model's choice, log entry 12). A set with a wrong check value or version is
ignored. One of a partner whose pair setting differs sets AXO_STAT.cfgmis (R436; that it stays set is the model's choice, log entry 76). A
valid one that differs in class, rate, scrambling or bonding, or whose end conflicts, fails training with the reason of the
first check that it fails (R93, R95). A valid set with seen counts when it is identical to the one before it, the fourth in a row takes
the lane to ACTIVE with the end that it resolved once eight were sent, and LNK_CAPRX holds it (R93, R94; that the accepted set is this one
is the model's reading, log entry 67). -/
def Obligations.LaneAgrees : Prop :=
  ∀ (l : Fin 4) (set : Vector Byte 16) (bs : List Byte) (s : State), s.laneState l = 3 → bs = set.toList →
    let sent := fun t : State => .ordered l 3 (capSet (t.capOwn l)) :: s.out
    let valid := crcLink (bs.take 12) = leNat (bs.drop 12) ∧ (bs.getD 0 0).toNat = 1
    let seen := bits (bs.getD 8 0).toNat 2 1 = 1
    let check := s.capCheck l fun i => (bs.getD i 0).toNat
    (¬ valid → Does (.capSetReceive l set) s (P.link ||| P.out) fun t => t.laneState l = 3 ∧ (t.lane l).capN = (s.lane l).capN ∧
      (t.lane l).capLast = (s.lane l).capLast ∧ t.out = sent t) ∧
    (∀ reason, valid → check = .inl reason → Does (.capSetReceive l set) s (P.link ||| P.out ||| P.pgLnk ||| P.pgPkt ||| P.pgAxo) fun t =>
      t.laneState l = 7 ∧ t.get (F.LNK_STAT_freason l) = reason ∧
        t.get (F.LNK_STAT_fails l) = min 16 (s.get (F.LNK_STAT_fails l) + 1) ∧
        ∃ cs, t.out = .ordered l 6 eiosSet :: .ordered l 3 cs :: s.out) ∧
    (∀ e, valid → check = .inr e → seen → (s.lane l).capLast = bs → 3 ≤ (s.lane l).capN → 7 ≤ (s.lane l).capSent →
      Does (.capSetReceive l set) s (P.fault ||| P.link ||| P.out ||| P.pgPkt ||| P.pgAxo) fun t =>
        t.laneState l = 4 ∧ t.get (F.LNK_STAT_end l) = e ∧ t.get (F.LNK_STAT_fails l) = 0 ∧
          t.get (F.LNK_TRCNT_act l) = s.plusOne (F.LNK_TRCNT_act l) ∧ (t.lane l).bucket = 0 ∧
          ∀ k : Fin 3, t.reg (R.LNK_CAPRX l k) = BitVec.ofNat 32 (leNat ((bs.drop (4 * k)).take 4))) ∧
    (∀ e n, valid → check = .inr e → n = (if seen then (if (s.lane l).capLast = bs then (s.lane l).capN + 1 else 1) else 0) →
      n < 4 ∨ (s.lane l).capSent < 7 → Does (.capSetReceive l set) s (P.link ||| P.out ||| P.pgAxo) fun t => t.laneState l = 3 ∧
        t.get F.AXO_STAT_cfgmis = (if (bs.getD 1 0).toNat = 1 ∧ bits (bs.getD 8 0).toNat 0 1 ≠ s.get F.AXO_CFG_pair then 1
          else s.get F.AXO_STAT_cfgmis) ∧
        (t.lane l).capN = n ∧ (t.lane l).capLast = (if seen then bs else []) ∧ (t.lane l).capSent = (s.lane l).capSent + 1 ∧
        t.out = sent t)

/-- Skip and BND sets (R91, R97 to R100): on its ACTIVE lanes a link sends every 16th set, and the first after a change of width, as a BND
set with the mask of its lanes and the next number of the link (that the number counts the link's BND sets is the model's choice, log
entry 46). A skip set corrects the fill of the elastic buffer towards its middle and keeps one SKP, the lanes of a bonded link alike by the
lower one's fill (R98, R99). The words of a set that comes in whole are words without errors (R96). A BND set gives the receive width and takes a lane with too much skew out of ACTIVE (R92, R96, R99, R100). An
overflow of the elastic buffer counts as a code error (R96, R98, R112). -/
def Obligations.RateMatching : Prop :=
  ∀ (l : Fin 4) (s : State) (low : Nat), low = (if s.bonded l then lowerLane l else l.val) →
    (s.laneState l = 2 ∨ s.laneState l = 3 → exec (.skipSetSend l) s =
      .next (s.emit (.ordered l 4 [(true, 0xBC), (true, 0x1C), (true, 0x1C), (true, 0x1C)]))) ∧
    (∀ (on : List Nat) (bnd : Prop), on = (s.linkLanes l).filter s.active → on.head? = some l.val →
      (bnd ↔ ((s.lane l).sets + 1) % 16 = 0 ∨ low % 2 = 0 ∧ s.get (F.LNK_STAT_txw low) ≠ s.txMask l ∨
        ∃ k ∈ on, (s.lane k).bndSent = false) →
      (¬ bnd → Does (.skipSetSend l) s (P.link ||| P.out) fun t => (∀ k ∈ on, (t.lane k).sets = (s.lane k).sets + 1) ∧
        t.out = (on.map fun k => Out.ordered k 4 [(true, 0xBC), (true, 0x1C), (true, 0x1C), (true, 0x1C)]).reverse ++ s.out) ∧
      (bnd → Does (.skipSetSend l) s (P.link ||| P.out ||| P.pgLnk) fun t =>
        (∀ k ∈ on, (t.lane k).sets = (s.lane k).sets + 1 ∧ (t.lane k).bndSent = true) ∧
          (t.lane low).bndSeq = ((s.lane low).bndSeq + 1) % 256 ∧ (low % 2 = 0 → t.get (F.LNK_STAT_txw low) = s.txMask l) ∧
          (t.lane low).txWait = [] ∧ ∃ packets, t.out = packets ++ (on.map fun k => Out.ordered k 5
            [(true, 0xBC), (true, 0xF7), (false, s.txMask l), (false, (s.lane low).bndSeq)]).reverse ++ s.out)) ∧
    (∀ (skps : Nat) (drift : Int) (pair : Prop) (fill del ins : Nat), 2 ≤ s.laneState l → s.laneState l ≤ 4 →
      (pair ↔ s.bonded l = true ∧ s.active (lowerLane l) = true ∧ s.active (lowerLane l + 1) = true) →
      (fill : Int) = max 0 (min 24 ((s.lane l).fill + drift)) →
      del = min (if 18 < fill then 2 else if 14 < fill then 1 else 0) (skps - 1) →
      ins = (if fill < 6 then 2 else if fill < 10 then 1 else 0) →
      Does (.skipSetReceive ⟨l, skps, drift⟩) s (P.link ||| P.pgLnk) fun t =>
        (t.lane l).bucket = (s.lane l).bucket - max 1 ((skps + 1) / 4) ∧
        (¬ pair ∨ l.val = low → (s.lane l).recenter = true → (t.lane l).fill = 12 ∧ (t.lane l).recenter = false) ∧
        (¬ pair ∨ l.val = low → (s.lane l).recenter = false → (t.lane l).fill = fill + ins - del ∧
          t.get (F.LNK_EBCNT_del l) = min (s.get (F.LNK_EBCNT_del l) + del) 255 ∧
          t.get (F.LNK_EBCNT_ins l) = min (s.get (F.LNK_EBCNT_ins l) + ins) 255) ∧
        (pair → l.val = low → (s.lane (l + 1)).recenter = false → (t.lane (l + 1)).fill = (s.lane (l + 1)).fill + ins - del) ∧
        (pair → l.val ≠ low → (t.lane l).fill = fill ∧ (t.lane l).recenter = (s.lane l).recenter)) ∧
    (∀ (mask : BitVec 2) (seq : Byte) (skew : Nat), s.active l = true →
      Does (.bndSetReceive l mask seq skew) s (P.link ||| P.out ||| P.pgLnk ||| P.pgPkt) fun t =>
        (t.lane l).lfsr = 0xFFFF ∧ (low % 2 = 0 → t.get (F.LNK_STAT_rxw low) = mask.toNat) ∧
        (s.bonded l = false ∨ skew ≤ 8 → t.laneState l = 4 ∧ t.out = s.out ∧ (t.lane l).bucket = (s.lane l).bucket - 1) ∧
        (s.bonded l = true → 8 < skew → s.active (lowerLane l + 1) = true →
          t.laneState (lowerLane l + 1) = 7 ∧ t.get (F.LNK_STAT_xreason (lowerLane l + 1)) = 7)) ∧
    (2 ≤ s.laneState l → s.laneState l ≤ 4 → Does (.ebOverflow l) s (P.link ||| P.pgLnk) fun t =>
      t.get (F.LNK_EBCNT_ovf l) = s.plusOne (F.LNK_EBCNT_ovf l) ∧ t.get (F.LNK_ERRCNT_code l) = s.plusOne (F.LNK_ERRCNT_code l) ∧
        (t.lane l).bucket = (s.lane l).bucket + 64 ∧ (t.lane l).recenter = true ∧ (t.lane low).rxBad = true ∧
        t.laneState l = s.laneState l)

/-- The change of rate: a write of another rate in CONFIGURE or HOLD is scheduled, with a reserved rate read as 4, also while the lane PLL
relocks for one before, a write of the rate in use takes one back that has not started (the model's choice, log entry 69), and every
accepted write clears LNK_RATE.reverted; it takes every lane out of its state and the lane PLL out of
lock; after the relock the lanes train again, or the next change follows; without an ACTIVE host lane the old rate comes back and
LNK_RATE.reverted says so (R89, R93, R107, R109). -/
def Obligations.RateChanges : Prop :=
  ∀ s : State,
    (∀ (src : Src) (val : Word) (r : Nat), r = (if 5 ≤ val.toNat % 8 then 4 else val.toNat % 8) → s.mayCommand src 4 →
      s.mode = .configure ∨ s.mode = .hold →
      (val.toNat % 8 ≠ s.get (F.LNK_RATE_rate 0) → Does (.rateChange src val) s (P.link ||| P.pgLnk) fun t =>
        t.get (F.LNK_RATE_rate 0) = r ∧ t.get (F.LNK_RATE_reverted 0) = 0 ∧
          t.link = { s.link with change :=
            if s.link.change ≤ 1 then (if r = s.link.rate then 0 else 1) else if r = s.link.rate then 2 else 3 } ∧
          (s.link.change = 0 → r ≠ s.link.rate → t.get (F.LNK_RATE_busy 0) = 1) ∧
          (s.link.change = 1 → r = s.link.rate → t.get (F.LNK_RATE_busy 0) = 0)) ∧
      (val.toNat % 8 = s.get (F.LNK_RATE_rate 0) →
        exec (.rateChange src val) s = .next (s.put (F.LNK_RATE_reverted 0) 0))) ∧
    (s.link.change = 1 → Does .rateChangeStart s (P.link ||| P.out ||| P.clk ||| P.pgLnk ||| P.pgPkt) fun t =>
      t.link.rate = s.get (F.LNK_RATE_rate 0) ∧ t.link.oldRate = s.link.rate ∧ t.link.change = 2 ∧ t.link.watch = true ∧
        t.get F.CLK_STAT_ltx_lock = 0 ∧ ∀ l : Fin 4, t.get (F.LNK_STAT_fails l) = 0 ∧ (s.laneState l = 0 → t.laneState l = 0) ∧
          (s.laneState l ≠ 0 → t.laneState l = 7) ∧ (s.laneState l = 4 → t.get (F.LNK_STAT_xreason l) = 5)) ∧
    (2 ≤ s.link.change → Does .lanePllRelock s (P.fault ||| P.link ||| P.pgPkt) fun t =>
      t.get (F.LNK_RATE_busy 0) = (if s.link.change = 3 then 1 else 0) ∧ t.get F.CLK_STAT_ltx_lock = 1 ∧
        t.link.change = (if s.link.change = 3 then 1 else 0) ∧
        ∀ l : Fin 4, s.laneState l = 7 → t.laneState l = if s.laneOn l then 1 else 0) ∧
    (s.link.watch = true → s.link.change = 0 → Does .rateRevert s (P.link ||| P.out ||| P.clk ||| P.pgLnk ||| P.pgPkt) fun t =>
      t.get (F.LNK_RATE_rate 0) = s.link.oldRate % 8 ∧ t.get (F.LNK_RATE_reverted 0) = 1 ∧ t.get (F.LNK_RATE_busy 0) = 1 ∧
        t.link.rate = s.link.oldRate ∧ t.link.change = 2 ∧ t.link.watch = false)

/-- The equaliser (R101, R102, R104): once 256 scrambled data symbols have come, 32 in a re-adaptation, an update moves the CTLE and the
taps by at most one step within their ranges and conv is set where 64 in a row kept within one step; 256 symbols in a row that are no
scrambled data freeze it, so that a running eye operation waits, and 64 that are let it go on unless LNK_CFG.adapt_hold holds it; LNK_CTRL
starts a re-adaptation, which ends after 65,536 such symbols. A margin check of an ACTIVE lane that comes out low starts one where
LNK_CFG.readapt asks for it (R104, R109, R110). The eye monitor (R103, R109, R111): an operation starts at once, or waits for a margin
check; it ends with its count of errors and, for a scan, the highest and lowest passing code of each phase; LNK_CTRL.eye_abort, and an
operation written while one runs, end it with LNK_EYESTAT.aborted; that the operation so written does not
start then is the model's choice (log entry 68). -/
def Obligations.EqualiserAndEye : Prop :=
  (∀ (l : Fin 4) (s : State),
     (∀ (ctle m1 m2 m3 : Move) (c : Nat) (h1 h2 h3 : Int), 2 ≤ s.laneState l → s.laneState l ≤ 4 → s.get (F.LNK_ADAPT_frozen l) = 0 →
       (if s.get (F.LNK_ADAPT_readapt l) = 1 then 32 else 256) ≤ (s.lane l).fed →
       (c : Int) = moved ctle (s.eqNow l).1 0 15 → h1 = moved m1 (s.eqNow l).2.1 (-32) 31 → h2 = moved m2 (s.eqNow l).2.2.1 (-32) 31 →
       h3 = moved m3 (s.eqNow l).2.2.2 (-32) 31 →
       Does (.adaptUpdate l ctle m1 m2 m3) s (P.link ||| P.pgLnk) fun t => t.eqNow l = (c, h1, h2, h3) ∧ (t.lane l).fed = 0 ∧
         regsBut [R.LNK_ADAPT l] s t ∧ t.get (F.LNK_ADAPT_conv l) =
           if converged (t.lane l).eqHist then 1 else s.get (F.LNK_ADAPT_conv l)) ∧
     (256 ≤ (s.lane l).plainN → Does (.adaptFreeze l) s (P.link ||| P.pgLnk) fun t => t.get (F.LNK_ADAPT_frozen l) = 1 ∧
       t.get (F.LNK_EYESTAT_wait l) = s.get (F.LNK_EYESTAT_busy l) ∧ regsBut [R.LNK_ADAPT l, R.LNK_EYESTAT l] s t) ∧
     (64 ≤ (s.lane l).dataN → Does (.adaptResume l) s (P.link ||| P.pgLnk) fun t =>
       t.get (F.LNK_ADAPT_frozen l) = s.get (F.LNK_CFG_adapt_hold l) ∧ (t.lane l).iced = false ∧
         (s.get (F.LNK_CFG_adapt_hold l) = 0 → t.get (F.LNK_EYESTAT_wait l) = 0) ∧ regsBut [R.LNK_ADAPT l, R.LNK_EYESTAT l] s t) ∧
     (∀ src, s.mayCommand src (4 + l) → exec (.lnkReadapt src l) s =
       .next ((s.onLane l fun a => { a with fed := 0, readN := 0 }).put (F.LNK_ADAPT_readapt l) 1)) ∧
     (65536 ≤ (s.lane l).readN → exec (.readaptEnd l) s = .next (s.put (F.LNK_ADAPT_readapt l) 0)) ∧
     (s.active l = true → s.get (F.LNK_CFG_mon l) = 1 → exec (.marginCheck l) s = .next (s.onLane l fun a => { a with margin := true })) ∧
     (∀ w h : BitVec 7, (s.lane l).margin = true → Does (.marginCheckDone l w h) s (P.link ||| P.pgLnk) fun t =>
       t.get (F.LNK_EYEMRG_width l) = w.toNat ∧ t.get (F.LNK_EYEMRG_height l) = h.toNat ∧ t.get (F.LNK_EYEMRG_valid l) = 1 ∧
         (t.lane l).margin = false ∧
         (w.toNat < s.get (F.LNK_EYETHR_width l) ∨ h.toNat < s.get (F.LNK_EYETHR_height l) →
           t.bit (R.PIRQ_RAW (4 + l)) 4 = true ∧ (s.get (F.LNK_CFG_readapt l) = 1 → t.get (F.LNK_ADAPT_readapt l) = 1)) ∧
         ((s.lane l).eyeWait = true → t.get (F.LNK_EYESTAT_busy l) = 1 ∧ (t.lane l).eyeWait = false))) ∧
  (∀ (l : Fin 4) (src : Src) (val : Word) (s : State), s.mayCommand src (4 + l) →
     let written := fun (t : State) (op : Nat) => t.get (F.LNK_EYECTL_op l) = op ∧ t.get (F.LNK_EYECTL_phase l) = getBits val 8 6 ∧
       t.get (F.LNK_EYECTL_dwell l) = min 14 (getBits val 24 4) ∧ t.get (F.LNK_EYECTL_maxerr l) = getBits val 28 4 ∧
       t.get (F.LNK_EYECTL_volt l) = (if getBits val 16 7 = 64 then 65 else getBits val 16 7)
     let started := fun t : State => t.get (F.LNK_EYESTAT_done l) = 0 ∧ t.get (F.LNK_EYESTAT_aborted l) = 0 ∧
       ((s.lane l).margin = false → t.get (F.LNK_EYESTAT_busy l) = 1 ∧ t.get (F.LNK_EYESTAT_wait l) = s.get (F.LNK_ADAPT_frozen l)) ∧
       ((s.lane l).margin = true → t.get (F.LNK_EYESTAT_busy l) = 0 ∧ (t.lane l).eyeWait = true)
     let aborted := fun t : State => t.get (F.LNK_EYECTL_op l) = 0 ∧ t.get (F.LNK_EYESTAT_busy l) = 0 ∧
       t.get (F.LNK_EYESTAT_aborted l) = 1 ∧ (t.lane l).eyeWait = false
     (s.get (F.LNK_EYESTAT_busy l) = 0 → (s.lane l).eyeWait = false →
       Does (.eyePoint src l val) s (P.link ||| P.pgLnk) (fun t => written t 1 ∧ started t) ∧
       Does (.eyeScan src l val) s (P.link ||| P.pgLnk) (fun t => written t 2 ∧ started t)) ∧
     (s.get (F.LNK_EYESTAT_busy l) = 1 ∨ (s.lane l).eyeWait = true →
       Does (.lnkEyeAbort src l) s (P.link ||| P.pgLnk) aborted ∧
       Does (.eyePoint src l val) s (P.link ||| P.pgLnk) aborted ∧ Does (.eyeScan src l val) s (P.link ||| P.pgLnk) aborted)) ∧
  (∀ (l : Fin 4) (r : EyeRes) (s : State), s.get (F.LNK_EYESTAT_busy l) = 1 → Does (.eyeOpComplete l r) s P.pgLnk fun t =>
     t.get (F.LNK_EYESTAT_errs l) = min r.errs 65535 ∧ t.get (F.LNK_EYESTAT_busy l) = 0 ∧ t.get (F.LNK_EYESTAT_done l) = 1 ∧
       t.get (F.LNK_EYECTL_op l) = 0 ∧
       (s.get (F.LNK_EYECTL_op l) ≠ 2 → ∀ k : Fin 64, t.reg (R.LNK_EYEMAP l k) = s.reg (R.LNK_EYEMAP l k)) ∧
       (∀ (k : Fin 64) (n z : Nat) (ps : List Nat), s.get (F.LNK_EYECTL_op l) = 2 → n = s.get (F.LNK_EYECTL_maxerr l) →
         r.up.getD k [] = z :: ps →
         (n < z → t.reg (R.LNK_EYEMAP l k) = 0) ∧
         (z ≤ n → t.get (F.LNK_EYEMAP_open l k) = 1 ∧
           t.get (F.LNK_EYEMAP_top l k) = min 63 (ps.takeWhile fun x => x ≤ n).length ∧
           t.get (F.LNK_EYEMAP_bottom l k) = min 63 ((r.down.getD k []).takeWhile fun x => x ≤ n).length)))

/-- A write of ASP_CTL from an entitled source takes effect: its fields, the cancelled group change, the rows marked dirty, and the
new target from the first period start at least 2 µs away (R170, R200, R207, R212, R219). Fade groups (R211; a device whose writes
carry no pair name): an entitled write of ASP_FGRP schedules the change of every defined member, at the first period start at least
2 µs away, its delay later unless nodelay is set, and with group 0 it has no effect; at its period the change sets en and starts the
fade from the level of the one before, none where the target is the running one; a member whose en already has the value does nothing,
and one with regulatory weight changes only where an accepted safe PDU carried the write. That the change does nothing before its period
is the model's choice (log entry 1), and that a change overtakes the targets that wait its reading (log entry 60). -/
def Obligations.AspectChanges : Prop :=
  (∀ (src : Src) (a : Fin 160) (val : Word) (s : State), s.mayCommand src (16 + a / 80) →
     (src = .pdu ∨ s.regulatory a = false ∨ val.getLsbD 0 = s.on (F.ASP_CTL_en a)) →
     let ft := min 4096 (getBits val 1 13)
     let tgt := if val.getLsbD 0 then ft else 0
     Does (.aspCtlWrite src a val) s P.write fun t =>
       t.get (F.ASP_CTL_en a) = getBits val 0 1 ∧ t.get (F.ASP_CTL_ft a) = ft ∧ t.get (F.ASP_CTL_cst a) = getBits val 16 12 ∧
         (src = .pdu ∨ s.regulatory a = false → (t.fade a).group = none ∧ t.get (F.ASP_FST_gpend a) = 0) ∧
         (∀ r ∈ s.aspectRows a, r ∈ t.vid.dirty) ∧
         (tgt = s.target a ∨ s.get (F.ASP_CFG_def a) = 0 → (t.fade a).waits = (s.fade a).waits) ∧
         (tgt ≠ s.target a → s.get (F.ASP_CFG_def a) = 1 → s.pair.name = 0 →
           (t.fade a).waits = ((s.fade a).retarget s.nextStart tgt).waits)) ∧
  (∀ s : State,
     s.nextStart = (if s.now + 800 ≤ s.pstart + s.periodCycles then perAdd s.pnow 1 else perAdd s.pnow 2) ∧
     (∀ (src : Src) (val : Word), s.mayCommand src 16 → s.pair.name = 0 →
       (getBits val 0 4 = 0 → exec (.fadeGroupWrite src val) s = .next s) ∧
       (∀ g, g = getBits val 0 4 → g ≠ 0 →
         (src = .pdu ∨ ∀ a ∈ s.members g, s.regulatory a = false ∨ val.getLsbD 4 = s.on (F.ASP_CTL_en a)) →
         Does (.fadeGroupWrite src val) s P.write fun t => ∀ a : Fin 160,
           (s.get (F.ASP_CFG_def a) = 1 ∧ s.get (F.ASP_FADE_fgrp a) = g →
             (t.fade a).group = some ⟨perAdd s.nextStart (if getBits val 5 1 = 1 then 0 else s.get (F.ASP_FADE_delay a)),
               val.getLsbD 4, src == .pdu, s.cl.arrived + 1⟩ ∧ t.get (F.ASP_FST_gpend a) = 1) ∧
           (s.get (F.ASP_CFG_def a) = 0 ∨ s.get (F.ASP_FADE_fgrp a) ≠ g → t.fade a = s.fade a))) ∧
     (∀ (a : Fin 160) (p : Nat) (on pdu : Bool) (nth : Nat), (s.fade a).group = some ⟨p, on, pdu, nth⟩ →
       (perReached p s.pnow = false → exec (.fadeGroupChange a) s = .next s) ∧
       (∀ tgt prev, perReached p s.pnow = true → s.ecc1 = [] → s.ecc2 = [] → tgt = (if on then s.get (F.ASP_CTL_ft a) else 0) →
         prev = (if (s.fade a).ps = p then (s.fade a).was else ((s.fade a).ps, (s.fade a).f0, (s.fade a).tgt)) →
         Does (.fadeGroupChange a) s (P.vid ||| P.fades ||| P.pgAsp) fun t =>
         (t.fade a).group = none ∧ t.get (F.ASP_FST_gpend a) = 0 ∧
         (s.get (F.ASP_CTL_en a) = on.toNat ∨ s.get (F.ASP_CFG_def a) = 0 ∨ s.regulatory a = true ∧ pdu = false →
           t.fade a = { s.fade a with group := none } ∧ t.reg (R.ASP_CTL a) = s.reg (R.ASP_CTL a)) ∧
         (s.get (F.ASP_CTL_en a) ≠ on.toNat → s.get (F.ASP_CFG_def a) = 1 → s.regulatory a = false ∨ pdu = true →
           t.get (F.ASP_CTL_en a) = on.toNat ∧ (t.fade a).tgt = tgt ∧ (t.fade a).waits = [] ∧ (∀ r ∈ s.aspectRows a, r ∈ t.vid.dirty) ∧
           (tgt ≠ prev.2.2 → (t.fade a).ps = p ∧
             (t.fade a).f0 = (s.fadeAt a { ps := prev.1, f0 := prev.2.1, tgt := prev.2.2 } p).1) ∧
           (tgt = prev.2.2 → (t.fade a).ps = prev.1 ∧ (t.fade a).f0 = prev.2.1)))))

/-- The debounce count of an instance is reached and its action is taken, that of the mode in which it was reached, in FALLBACK the floor of
the class: the instance latches, the action counts and is logged with its class, instance and action; no action below FALLBACK changes the
mode, an action FALLBACK in OPERATE enters FALLBACK, and an action HOLD enters HOLD with code 6 (R38, R317, R318, R319, R326, R329, R331). -/
def Obligations.DebouncedAction : Prop :=
  ∀ (cls : Fin 64) (inst : BitVec 16) (m : Mode) (act : Nat) (s : State), (s.fltInst cls inst.toNat).due = some m →
    act = (if m = .fallback then (clsInfo cls).floor else s.get (F.FLT_RCT_action cls)) →
    (act ≤ 2 → Does (.debounceExpiry cls inst) s P.fault fun t => t.mode = s.mode ∧
      (t.fltInst cls inst.toNat).latched = true ∧ (t.fltInst cls inst.toNat).due = none ∧
        (t.fltInst cls inst.toNat).act = act ∧ t.get F.FLT_CNT_actions = s.plusOne F.FLT_CNT_actions ∧
        t.get F.FLT_LOGPTR_next = (s.get F.FLT_LOGPTR_next + 1) % 16 ∧
        t.reg (R.FLT_LOGLo (s.get F.FLT_LOGPTR_next)) = BitVec.ofNat 32 (cls + 64 + 256 * act + 65536 * inst.toNat) ∧
        t.reg (R.FLT_LOGHi (s.get F.FLT_LOGPTR_next)) = s.reg R.CLS_PNOW) ∧
    (act = 3 → m = .operate → s.mode = .operate → s.boot.dark = none → s.pair.tkP = none → s.get F.SYS_FBSTAT_valid = 1 →
      Does (.debounceExpiry cls inst) s P.fault fun t => t.mode = .fallback ∧ t.get F.FLT_ACT_mclass = cls) ∧
    (act = 4 → m = .operate ∨ m = .fallback ∨ m = .configure → s.mode ≠ .hold → Does (.debounceExpiry cls inst) s P.fault fun t =>
      t.mode = .hold ∧ t.get F.SYS_HOLDCAUSE_code = 6 ∧ t.get F.SYS_HOLDCAUSE_detail = cls)

/-- A chain comes up: with the permit granted every chain that is off and has tiles goes to START, the legs open and the drivers are
enabled, which needs VDDH; inward lock comes and goes; a chain without a verified CODES four periods after its first marker raises
CHAIN_LOOP (R18, R36, R246, R249, R250, R274, R275, R277, R447). -/
def Obligations.ChainStart : Prop :=
  ∀ s : State,
    (s.driving = true → s.get F.CLK_STAT_permit = 0 → { s with isl := { s.isl with req := true } }.permitOk = true →
      s.boot.glitch = 0 → s.pair.tkP = none →
      Does .permitGrant s (P.isl ||| P.chains ||| P.sio ||| P.stat ||| P.clk ||| P.pgChn ||| P.pgSio) fun t =>
        t.get F.CLK_STAT_permit = 1 ∧ t.get F.SYS_STAT_permit = 1 ∧ t.isl.req = true ∧ ∀ c : Fin 20,
          t.get (F.CHN_STAT_state c) =
            if s.get (F.CHN_STAT_state c) = 0 ∧ 0 < s.pop c then 1 else s.get (F.CHN_STAT_state c)) ∧
    (∀ c : Fin 20,
      (s.boot.vddhLow = true → exec (.bypassLegsOpen c) s = .next s) ∧
      (s.driving = true → s.get F.CLK_STAT_permit = 1 → s.boot.vddhLow = false → s.get (F.CHN_STAT_state c) ≠ 0 →
        Puts (.bypassLegsOpen c) s [R.CHN_STAT c] fun t => t.get (F.CHN_STAT_byp c) = 1 ∧ t.get (F.CHN_STAT_drv c) = 1 ∧
          t.get (F.CHN_STAT_state c) = s.get (F.CHN_STAT_state c)) ∧
      (∀ errs, s.live = true → s.get (F.CHN_STAT_lock c) = 1 → Does (.chainLockLoss ⟨c, errs⟩) s (P.chains ||| P.pgChn) fun t =>
        t.get (F.CHN_STAT_lock c) = 0 ∧ t.get (F.CHN_ERR_pairs c) = min (s.get (F.CHN_ERR_pairs c) + errs) 65535 ∧
          (t.chain c).unlockAt = some s.pnow ∧ t.bit (R.PIRQ_RAW (20 + c / 10)) 3 = true) ∧
      (s.live = true → Does (.chainInwardLock c) s (P.chains ||| P.pgChn) fun t =>
        t.get (F.CHN_STAT_lock c) = 1 ∧ (t.chain c).unlockAt = none) ∧
      (∀ m, (s.chain c).marked = some m → s.get (F.CHN_STAT_state c) = 1 ∨ (s.chain c).silent = true →
        perReached (perAdd m 4) s.pnow = true → s.live = true → Does (.firstCodesTimeout c) s P.fault fun t =>
          t.bit (R.PIRQ_RAW (20 + c / 10)) 1 = true ∧ (t.fltInst 10 c).event = true))

/-- What a chain master sends, each packet with the chain's next sequence number and its CRC-16 (R252): the row that is due as CODES, the
PROOF of a tile for the coming lit-check period where it fits, and a SENSE_TOKEN with a STATUS request behind it, whose answers are
expected; a go written to TIL_RACC in RUN sends a REGW or REGR, once nothing of a higher class waits (R257, R259, R260, R261, R262, R267,
R270, R280, R298). The order among packets that could start at one moment, what fits before a token and when the requests that wait go
out are the model's reading (log entry 61). -/
def Obligations.ChainSends : Prop :=
  ∀ (c : Fin 20) (s : State), s.mode ≠ .mirror → (s.chain c).regq = [] →
    let sent := fun (typ hop seq : Nat) (body : List Byte) => Out.chain c typ hop seq body (crcChain (chainHead typ hop seq ++ body))
    (∀ row cls d pos, s.chainLive c = true → s.nextRow c = some (row, cls, none) → s.place (row / 128) = some (d, pos) →
      s.ecc1 = [] → s.ecc2 = [] → Does (.codesSend c) s (P.chains ||| P.out) fun t =>
        let bank := (s.chain c).bankOf cls
        t.out = sent 1 pos (s.chain c).seq (s.codesBody row bank (s.rowSlot cls bank)) :: s.out ∧
          (t.chain c).seq = ((s.chain c).seq + 1) % 65536 ∧
          ∃ e, (t.chain c).expect = (s.chain c).expect ++ [e] ∧ e.typ = 1 ∧ e.key = row ∧ e.bank = bank ∧ e.tries = 0) ∧
    (∀ (pos : Fin 8) (x p : Nat) (ps : List Nat), s.tileAt c pos = some x → s.chainRuns c = true → p = perAdd s.pnow 1 →
      darkPeriod p = false → kvFind s.light.proofSent x = none → ps = s.proofList x p → ps ≠ [] →
      s.proofAgain c pos = none → s.fits c (12 + 2 * ps.length) = true → symCycles (12 + 2 * ps.length) + 800 ≤ s.until p →
      s.ecc1 = [] → s.ecc2 = [] →
      Does (.proofSend c pos) s (P.chains ||| P.light ||| P.out) fun t =>
        t.out = sent 3 pos (s.chain c).seq (leBytes 2 p ++ leBytes 1 ps.length ++ [0] ++ ps.flatMap fun p => leBytes 2 (p % 16384)) :: s.out ∧
          kvFind t.light.proofSent x = some ps) ∧
    (∀ (pos : Fin 8) (x l q : Nat), s.tileAt c pos = some x → (s.chain c).lit = some l → s.chainRuns c = true →
      perReached l s.pnow = true → q = (s.chain c).seq → Does (.senseTokenSend c pos) s (P.isl ||| P.chains ||| P.out) fun t =>
        t.out = sent 8 pos ((q + 1) % 65536) [] :: sent 6 pos q (leBytes 2 s.pnow) :: s.out ∧
          (s.driving = true → s.isl.sense = none → t.isl.sense = some 0) ∧
          ∃ e f, (t.chain c).expect = (s.chain c).expect ++ [e, f] ∧ e.typ = 6 ∧ e.key = x ∧ e.per = s.pnow ∧ f.typ = 8 ∧
            f.key = x) ∧
    (∀ (src : Src) (i : Fin 80) (val : Word) (pos typ : Nat) (body : List Byte), s.mayCommand src (22 + i / 40) →
      s.get (F.TIL_MAP_en i) = 1 → s.place (s.get (F.TIL_MAP_index i)) = some (c.val, pos) → s.chainRuns c = true →
      s.get (F.TIL_RACC_busy i) = 0 → s.locked (22 + i / 40) = false ∨ val.getLsbD 16 = false →
      typ = (if val.getLsbD 16 then 4 else 5) →
      body = leBytes 2 (getBits val 0 16) ++ leBytes 4 (if val.getLsbD 16 then s.regN (R.TIL_RDATA i) else 0) →
      let waits := s.proofWaits c = true ∨ (s.rowDue c 0).isSome = true ∨ s.latchWaits c = true ∨ (s.rowDue c 1).isSome = true ∨
        s.fits c 14 = false
      Does (.tileRegGo src i val) s P.write fun t =>
        t.get (F.TIL_RACC_busy i) = 1 ∧ t.get (F.TIL_RACC_done i) = 0 ∧ t.get (F.TIL_RACC_addr i) = getBits val 0 16 ∧
          (¬ waits → t.out = sent typ pos (s.chain c).seq body :: s.out ∧ (t.chain c).regq = []) ∧
          (waits → t.out = s.out ∧ ∃ e, (t.chain c).regq = [e] ∧ e.typ = typ ∧ e.pos = pos ∧ e.key = i ∧ e.body = body))

/-- LATCH events: a frame LATCH goes to every live chain once every row of the pass is verified; it names one period, brings the new slot
into force there, and its tag and offsets, the initial ones after an event that asks for them, are the ones in use from then on; an urgent LATCH names one for the newest mask generation and
the aspects off, which in FALLBACK stay as they are (R10, R173, R176, R180, R232, R233, R258, R265, R266, R275, R321). Both wait for what comes
before them in the order of R270. -/
def Obligations.LatchEvents : Prop :=
  ∀ s : State,
    (s.frameVerified = true → s.driving = true → s.liveChains.all s.latchNew = true → Does (.latchSend true none) s
      (P.boot ||| P.cl ||| P.vid ||| P.chains ||| P.tiles ||| P.light ||| P.out ||| P.pgCmp ||| P.pgPrf ||| P.pgChn) fun t =>
        t.get F.CMP_STAT_state = 0 ∧ t.get F.CHN_LTAG_ltag = s.light.ltag % 256 ∧ t.get F.CHN_LTAG_target = s.latchTarget % 65536 ∧
          t.light.ltag = (s.light.ltag + 1) % 256 ∧
          t.light.frameDue = some (s.latchTarget, s.get F.CMP_STAT_target, (s.snapOf (s.get F.CMP_STAT_target)).kind) ∧
          (s.light.initial = false → ∀ x : Fin 80, (t.tile x).prev = (s.tile x).next) ∧
          (∀ k c q, s.light.initial = true → k = (s.snapOf (s.get F.CMP_STAT_target)).kind →
            ∀ x : Fin 80, s.placeIn (s.passFb k) x = some (c, q) →
              (t.tile x).prev = slotsOf (s.passD k) * q / s.popIn (s.passFb k) c) ∧
          ∀ c ∈ s.liveChains, ((t.chain c).latchF.map fun w => (w.target, w.ltag)) = some (s.latchTarget, s.light.ltag)) ∧
    (s.urgentReady = true → s.urgentChains.all s.latchNew = true → Does (.latchSend false none) s
      (P.boot ||| P.cl ||| P.vid ||| P.chains ||| P.tiles ||| P.light ||| P.out ||| P.pgCmp ||| P.pgPrf ||| P.pgChn) fun t =>
        t.get F.CHN_LTAG_ltag = s.light.ltag % 256 ∧ t.light.ltag = (s.light.ltag + 1) % 256 ∧
          t.light.offDue = (if s.mode = .fallback then s.light.offDue
            else s.light.offDue ++ [(s.latchTarget, s.sendOff s.slotNow)]) ∧
          (∀ a, s.vid.maskGen = some a → s.fbMode = false → s.light.maskDue = [] →
            t.light.maskDue = [(s.latchTarget, a, s.get F.MSK_GEN_applied, s.maskWords)]) ∧
          t.light.frameDue = s.light.frameDue ∧
          ∀ c ∈ s.liveChains, (s.chain c).bankU ≠ [] →
            ((t.chain c).latchU.map fun w => (w.target, w.ltag)) = some (s.latchTarget, s.light.ltag))

/-- What comes back intact on a chain of a device that is no standby: an ACK with the type and check value of the packet it answers
verifies a row and takes a starting chain to RUN; a LATCH that came round unchanged is confirmed; a REGR reply puts its value into
TIL_RDATA and ends the access; a STATUS reply gives the tile's flags. One that differs makes the row be sent again (R250, R255, R256,
R258, R260, R262, R263, R266, R269, R276, R280). -/
def Obligations.ChainAnswers : Prop :=
  ∀ (c : Fin 20) (it : ChainPkt) (e : Sent) (s : State), s.chainLive c = true → s.mode ≠ .mirror → (s.chain c).regq = [] →
    (s.meet c [1, 3, 4] it = .answers e → e.typ = 1 → e.cls ≠ 3 → it.h0.toNat = 25 → it.h1.toNat = s.pop c - 1 - e.pos → it.body.length = 3 →
      leNat (it.body.take 1) = 1 → leNat ((it.body.drop 1).take 2) = e.ccrc →
      Does (.ackReturn c it) s (P.fault ||| P.pair ||| P.out ||| P.pgAxo) fun t =>
        (t.chain c).expect = (s.chain c).expect.erase e ∧ (e.bank = 0 → e.key ∈ (t.chain c).bankF) ∧
          (e.bank ≠ 0 → e.key ∈ (t.chain c).bankU) ∧ (t.chain c).silent = false ∧
          t.get (F.CHN_STAT_state c) = if s.get (F.CHN_STAT_state c) = 1 then 2 else s.get (F.CHN_STAT_state c)) ∧
    (s.meet c [1, 3, 4] it = .fails e → s.itemWhole c it = true → e.typ = 1 → e.cls ≠ 3 → e.tries < s.get (F.CHN_CFG_retry c) →
      Does (.ackReturn c it) s (P.fault ||| P.pair ||| P.out ||| P.pgAxo) fun t =>
        (t.chain c).expect = (s.chain c).expect.erase e ∧
          (t.chain c).again = (s.chain c).again ++ [{ e with tries := e.tries + 1 }]) ∧
    (∀ rtt, s.meet c [2] it = .answers e → rtt ≤ 655 → it.h0.toNat = 2 → it.h1.toNat = 17 * s.pop c → it.body = e.body →
      Does (.latchReturn c it rtt) s (P.fault ||| P.pair ||| P.out ||| P.pgAxo) fun t =>
        (t.chain c).expect = (s.chain c).expect.erase e ∧ t.get (F.CHN_STAT_ltag c) = e.key % 256 ∧
          t.get (F.CHN_RTT_last c) = rtt ∧ t.get (F.CHN_STAT_slow c) = 0 ∧
          ∀ w, (if e.bank = 1 then (s.chain c).latchF else (s.chain c).latchU) = some w → w.ltag = e.key →
            (if e.bank = 1 then (t.chain c).latchF else (t.chain c).latchU) = some { w with ok := true }) ∧
    (s.meet c [5] it = .answers e → e.bank = 0 → e.key < 80 → it.h0.toNat = 21 → it.h1.toNat = s.pop c - 1 - e.pos →
      it.body.length = 6 → it.body.take 2 = e.body.take 2 →
      Does (.regrReply c it) s (P.fault ||| P.pair ||| P.out ||| P.pgAxo) fun t =>
        t.reg (R.TIL_RDATA e.key) = BitVec.ofNat 32 (leNat (it.body.drop 2)) ∧ t.get (F.TIL_RACC_busy e.key) = 0 ∧
          t.get (F.TIL_RACC_done e.key) = 1 ∧ t.get (F.TIL_RACC_fail e.key) = 0) ∧
    (s.meet c [8] it = .answers e → e.key < 80 → it.h0.toNat = 24 → it.h1.toNat = s.pop c - 1 - e.pos → it.body.length = 8 →
      Does (.statusReply c it) s (P.fault ||| P.pair ||| P.out ||| P.pgCal ||| P.pgAxo) fun t =>
        (t.tile e.key).flags = leNat ((it.body.drop 6).take 2) ∧ (t.tile e.key).head = some (leNat ((it.body.drop 2).take 2)) ∧
          (t.tile e.key).stale = false ∧ (t.tile e.key).statMiss = 0)

/-- Sense blocks: a whole block whose header agrees with what was in force in its period is accepted and waits for its judgement,
with the block counted; a judgement releases the oldest block, beats the heart, keeps the longest time, and skips rows that were not
verified (R11, R19, R261, R265, R268, R282, R284, R306). An expectation without an answer: a CODES row is sent again while tries are
left, a SENSE_BLOCK releases its slot, a STATUS request counts as missed; after 16 in a row the tile is stale, and a row without
accepted results for more than SUP_CFG.stale whole cycles (the model's reading, log entry 33) makes SENSE_STALE present (R11, R256, R269,
R295, R306, R308). -/
def Obligations.SenseAnswers : Prop :=
  (∀ s : State,
     (∀ (c : Fin 20) (b : SenseBlk) (e : Sent) (r : PerRec), s.chainLive c = true → s.mode ≠ .mirror → b.ebp = false →
       s.itemErrs c b.gap b.syms = 0 → b.hcrc.toNat = crcChain (b.h0 :: b.h1 :: leBytes 2 b.seq.toNat ++ b.hdr.toList) →
       (s.chain c).expect.find? (fun e => e.typ == 6 && e.seq == b.seq.toNat) = some e → e.key < 80 → b.h0.toNat = 23 →
       b.h1.toNat = s.pop c - 1 - e.pos → s.recOf e.per = some r →
       leNat (b.hdr.toList.take 2) = e.per % 65536 → leNat ((b.hdr.toList.drop 2).take 1) = r.tags.getD c 0 →
       leNat ((b.hdr.toList.drop 3).take 2) = r.offs.getD e.key 0 → leNat ((b.hdr.toList.drop 5).take 1) = r.d →
       (∀ k : Fin 8, b.segs[k].data.length = 512 ∧ b.segs[k].crc.toNat = crcChain b.segs[k].data) →
       Does (.senseBlock c b) s (P.fault ||| P.pair ||| P.pgSup ||| P.pgAxo) fun t =>
         (t.chain c).expect = (s.chain c).expect.erase e ∧ t.get (F.CHN_SENSE_blocks c) = s.plusOne (F.CHN_SENSE_blocks c) ∧
           (t.tile e.key).syncBad = false ∧
           ∃ rows, t.light.blocks = s.light.blocks ++ [{ tile := e.key, per := e.per, rows := rows }]) ∧
     (∀ (cycles : Nat) b rest, s.light.blocks = b :: rest →
       Does (.judgementRelease cycles) s (P.fault ||| P.pair ||| P.draws ||| P.sys ||| P.pgSup ||| P.pgAxo) fun t =>
         t.isl.hbFlag = true ∧ t.get F.SUP_JRUN_t = max (s.get F.SUP_JRUN_t) (min cycles 65535) ∧
         (b.rows = [] → t.light.blocks = rest ∧
           (b.tile < 80 → (t.tile b.tile).due = (s.tile b.tile).due.filter fun d => d.1 != b.per)) ∧
         (∀ row q data r, b.rows = [(row, q, data)] → s.recOf q = some r → r.judges (128 * b.tile + row) = false →
           t.get F.SUP_SKIP_rows = s.plusOne F.SUP_SKIP_rows ∧ t.light.blocks = rest))) ∧
  (∀ s : State,
     (∀ (c : Fin 20) (e : Sent) (r : List Sent), (s.chain c).expect = e :: r → (s.chain c).regq = [] →
       (e.typ = 1 → e.cls ≠ 3 → e.tries < s.get (F.CHN_CFG_retry c) → Does (.returnTimeout c) s (P.fault ||| P.out) fun t =>
         (t.chain c).expect = r ∧ (t.chain c).again = (s.chain c).again ++ [{ e with tries := e.tries + 1 }]) ∧
       (e.typ = 6 → e.key < 80 → Does (.returnTimeout c) s (P.fault ||| P.out) fun t => (t.chain c).expect = r ∧
         (t.tile e.key).due = (s.tile e.key).due.filter fun d => d.1 != e.per) ∧
       (e.typ = 8 → e.key < 80 → Does (.returnTimeout c) s (P.fault ||| P.out) fun t => (t.chain c).expect = r ∧
         (t.tile e.key).statMiss = (s.tile e.key).statMiss + 1)) ∧
     (∀ x : Fin 80, 16 ≤ (s.tile x).statMiss → (s.tile x).stale = false →
       Does (.statusStale x) s P.fault fun t => (t.tile x).stale = true) ∧
     (∀ x : Fin 80, (s.tile x).staleRows = [] → (∃ e ∈ (s.tile x).rowAge, s.get F.SUP_CFG_stale < e.2) →
       Does (.senseStale x) s (P.fault ||| P.pgSup) fun t => (t.tile x).staleRows = List.range 128 ∧
         t.bit (R.SUP_STALE (x / 32)) (x % 32) = true))

/-- The safety inputs and outputs: a disagreement that reached its count latches the input at its safe value; test pulses start in their
place of the frame and end after their width; a due off-pulse of a tested output starts and ends; a missed test latches its output off
with cause 3 (R375, R377, R378, R379, R383, R385, R386, R387, R388). -/
def Obligations.SafetyInputsOutputs : Prop :=
  ∀ s : State,
    (∀ k : Fin 8, k.val ∈ s.sio.due → s.sio.fbDue = false → Does (.discrepancy k) s P.fault fun t =>
      t.get (F.SIO_INST_lat k) = 1 ∧ t.get (F.SIO_INST_val k) = getBits (s.sioWord (1 + k)) 2 1 ∧
        t.get (F.SIO_INST_cause k) = (if k.val ∈ s.sio.echoed then s.get (F.SIO_INST_cause k) else 1) ∧
        t.get F.SIO_CNT_disc = s.plusOne F.SIO_CNT_disc ∧ k.val ∉ t.sio.due) ∧
    (∀ k : Fin 8, s.sio.fbDue = true → s.fbInput = some k.val → Does (.discrepancy k) s P.fault fun t =>
      t.get (F.SIO_INST_fbval k) = 0 ∧ t.sio.fbDue = false ∧
        (k.val ∉ s.sio.echoed ∨ s.sio.fbCause = 0 → t.mode = s.mode → t.sio.fbCause = 1) ∧
        t.get F.SIO_CNT_disc = s.plusOne F.SIO_CNT_disc) ∧
    (∀ n : Fin 4, s.live = true → s.tpsOn n = true → (s.tps n).runs = false → s.sio.fpos = n * (s.sioFrame / 4) →
      Does (.testPulseStart n) s (P.sio ||| P.pgSio) fun t =>
        t.tps n = { runs := true, low := true, tick := 0, w := s.tpsWidth n, a0 := s.sio.rawA, b0 := s.sio.rawB } ∧
          t.bit R.SIO_STAT (4 + n) = true) ∧
    (∀ n : Fin 4, (s.tps n).low = true → (s.tps n).w ≤ (s.tps n).tick →
      exec (.testPulseEnd n) s = .next (s.onTps n fun p => { p with low := false })) ∧
    (∀ (k : Fin 8) (per : Nat), getBits (s.sioWord (9 + k)) 7 1 = 1 → s.get (F.SIO_OST_drv k) = 1 → (s.sioOut k).test = false →
      per = getBits (s.sioWord (9 + k)) 16 16 → s.get (F.SIO_OST_tclk k) = per ∧ s.get (F.SIO_OST_retry k) = 0 ∨
        10 ≤ (s.sioOut k).onFor ∧ (s.get (F.SIO_OST_retry k) = 1 ∨ per ≤ s.get (F.SIO_OST_tclk k)) → Does (.offPulseStart k) s (P.sio ||| P.pgSio) fun t =>
        t.get (F.SIO_OST_pulse k) = 1 ∧ t.get (F.SIO_OST_drv k) = 0 ∧ t.get (F.SIO_OST_retry k) = 0 ∧
          (t.sioOut k).test = true ∧ (t.sioOut k).tick = 0 ∧ (t.sioOut k).w = getBits (s.sioWord (9 + k)) 8 4 ∧
          (t.sioOut k).dropped = false) ∧
    (∀ k : Fin 8, s.get (F.SIO_OST_pulse k) = 1 → (s.sioOut k).w ≤ (s.sioOut k).tick →
      Does (.offPulseEnd k) s (P.sio ||| P.pgSio) fun t => t.get (F.SIO_OST_pulse k) = 0 ∧ (t.sioOut k).skip = 2) ∧
    (∀ k : Fin 8, (s.sioOut k).missDue = true → Does (.testMissed k) s P.fault fun t =>
      t.get (F.SIO_OST_lat k) = 1 ∧ t.get (F.SIO_OST_cause k) = 3 ∧ t.get (F.SIO_OST_drv k) = 0 ∧
        t.get F.SIO_CNT_missed = s.plusOne F.SIO_CNT_missed ∧ (t.sioOut k).missDue = false)

/-- The explicit clause: a commit with the key from its owner, its check, its application in one step at its point, at once for when = 0, and its end by
an abort of its owner or the SPI port, or by the loss of every lane (R72, R73, R74, R77, R83, R84, R85). Implicit clauses: the first
in arrival order whose point has come, once no explicit clause is due, leaves the queue and is applied, or is discarded with its rule and
instance in CLS_ISTAT where an agreement rule fails (R76, R77, R83, R85). The model's choices: an application whose point has not come,
and an implicit clause behind an explicit one that is due, change nothing (log entry 1); every agreement rule is checked (log entry 24). -/
def Obligations.Clauses : Prop :=
  (∀ s : State,
     (∀ (src : Src) (val : Word), s.mayCommand src 3 → getBits val 16 16 = 0xC1A5 → s.get F.CLS_STAT_state = 1 →
       s.get F.CLS_STAT_owner = ownerOfSrc src → Puts (.clauseCommit src val) s [R.CLS_STAT] fun t =>
         t.get F.CLS_STAT_state = 2 ∧ t.get F.CLS_STAT_when = getBits val 0 2 ∧ t.get F.CLS_STAT_late = 0 ∧
           t.get F.CLS_STAT_fail = 0 ∧ t.get F.CLS_STAT_owner = s.get F.CLS_STAT_owner) ∧
     (s.get F.CLS_STAT_state = 2 →
       (∀ e, s.agree s.clauseWords = some e → Does .clauseCheckDone s (P.cl ||| P.cls) fun t =>
         t.get F.CLS_STAT_state = 1 ∧ t.get F.CLS_STAT_fail = 1 ∧ t.get F.CLS_FAIL_rule = e.1 % 2 ^ 8 ∧
           t.get F.CLS_FAIL_inst = e.2 % 2 ^ 16 ∧ t.get F.CLS_FAIL_phase = 1 ∧
           t.get F.CLS_COUNT_failed = s.plusOne F.CLS_COUNT_failed ∧ t.cl = { s.cl with due := none }) ∧
       (∀ due late, s.agree s.clauseWords = none → s.pointOf (s.get F.CLS_STAT_when) (s.regN R.CLS_PTGT) = (due, late) →
         due ≠ .now ∨ s.mode = .mirror → Does .clauseCheckDone s (P.cl ||| P.cls) fun t => t.get F.CLS_STAT_state = 3 ∧
           t.cl = { s.cl with due := some due } ∧ (late = true → t.get F.CLS_STAT_late = 1)) ∧
       (s.agree s.clauseWords = none → s.get F.CLS_STAT_when = 0 → s.mode ≠ .mirror → Does .clauseCheckDone s P.write fun t =>
         t.get F.CLS_STAT_state = 0 ∧ t.reg R.CLS_APPLY = s.reg R.CLS_PNOW ∧ t.cl.shadow = [] ∧
           t.get F.CLS_COUNT_applied = s.plusOne F.CLS_COUNT_applied)) ∧
     (∀ d, s.cl.due = some d → s.get F.CLS_STAT_state = 3 → s.dueNow d = true → s.mode ≠ .mirror → s.agree s.clauseWords = none →
       Does .clauseApply s (P.fault ||| P.fades ||| P.bal ||| P.link ||| P.pair ||| P.out ||| P.draws ||| P.pgPkt ||| P.pgVin ||| P.pgMsk ||| P.pgCal |||
         P.pgSup ||| P.pgAdc ||| P.pgWin ||| P.pgBal ||| P.pgSpl ||| P.pgAxo ||| P.pgOff) fun t =>
           t.get F.CLS_STAT_state = 0 ∧ t.get F.CLS_STAT_owner = 0 ∧ t.get F.CLS_STAT_regs = 0 ∧
             t.reg R.CLS_APPLY = s.reg R.CLS_PNOW ∧ t.get F.CLS_COUNT_applied = s.plusOne F.CLS_COUNT_applied ∧
             t.cl.shadow = [] ∧ t.cl.due = none ∧
             ∀ a w, s.clauseWords = [(a, w)] → a ∈ [R.VIN_RATE, R.PLC_PWM, R.SUP_CFG, R.PRF_CFG, R.BAL_CTRL, R.ADC_CFG] →
               t.reg a = w) ∧
     (∀ d e, s.cl.due = some d → s.get F.CLS_STAT_state = 3 → s.dueNow d = true → s.mode ≠ .mirror → s.agree s.clauseWords = some e →
       Does .clauseApply s (P.cl ||| P.cls) fun t => t.get F.CLS_STAT_state = 1 ∧ t.get F.CLS_STAT_fail = 1 ∧
         t.get F.CLS_FAIL_rule = e.1 % 2 ^ 8 ∧ t.get F.CLS_FAIL_inst = e.2 % 2 ^ 16 ∧ t.get F.CLS_FAIL_phase = 2 ∧
         t.get F.CLS_COUNT_failed = s.plusOne F.CLS_COUNT_failed ∧ t.cl = { s.cl with due := none }) ∧
     (∀ src, s.mayCommand src 3 → s.get F.CLS_STAT_state ≠ 0 →
       (src = .spi ∨ s.get F.CLS_STAT_owner = 1 → Does (.clauseAbort src) s P.write fun t => t.get F.CLS_STAT_state = 0 ∧
         t.get F.CLS_STAT_owner = 0 ∧ t.get F.CLS_STAT_regs = 0 ∧ t.cl = { s.cl with shadow := [], due := none }) ∧
       (src ≠ .spi → s.get F.CLS_STAT_owner ≠ 1 → exec (.clauseAbort src) s = .next s)) ∧
     (s.get F.CLS_STAT_owner = 1 → s.get F.CLS_STAT_state ≠ 0 → (∀ l : Fin 4, s.active l = false) →
       Does .clauseLaneLossAbort s (P.cl ||| P.cls) fun t => t.get F.CLS_STAT_state = 0 ∧ t.get F.CLS_STAT_owner = 0 ∧
         t.get F.CLS_STAT_sysabort = 1 ∧ t.cl = { s.cl with shadow := [], due := none })) ∧
  (∀ (s : State) (c : ImpClause), s.cl.implicit.find? (fun d => s.dueNow d.due) = some c → s.mode ≠ .mirror →
     ((∃ d, s.cl.due = some d ∧ s.get F.CLS_STAT_state = 3 ∧ s.dueNow d = true) → exec .implicitClauseApply s = .next s) ∧
     (s.cl.due = none ∨ s.get F.CLS_STAT_state ≠ 3 ∨ (∃ d, s.cl.due = some d ∧ s.dueNow d = false) → Does .implicitClauseApply s (P.fault ||| P.fades ||| P.bal ||| P.link ||| P.pair ||| P.out ||| P.draws ||| P.pgPkt ||| P.pgVin |||
       P.pgMsk ||| P.pgCal ||| P.pgSup ||| P.pgAdc ||| P.pgWin ||| P.pgBal ||| P.pgSpl ||| P.pgAxo ||| P.pgOff) fun t =>
         t.cl.implicit = s.cl.implicit.erase c ∧
           ((∀ (a : Fin 160) w, (R.ASP_CTL a, w) ∈ c.words → (s.fade a).group = none) →
           (∀ e, s.agree c.words = some e → t.get F.CLS_ISTAT_rule = e.1 % 256 ∧ t.get F.CLS_ISTAT_inst = e.2 % 256 ∧
             t.get F.CLS_ISTAT_count = s.plusOne F.CLS_ISTAT_count ∧ t.bit (R.PIRQ_RAW 3) 3 = true ∧ t.sram = s.sram) ∧
           (s.agree c.words = none → c.kind ≠ 3 → t.get F.CLS_ISTAT_count = s.get F.CLS_ISTAT_count ∧
             ∀ a w, c.words = [(a, w)] → a ∈ [R.MSK_RECTLo 0, R.MSK_SYMLo 0, R.MSK_SYMHi 255] → t.reg a = w))))

/-- Period alignment of a standby: one PSYNC_IO edge gives the shift that brings the periods together, the next one confirms it or gives
another, then each edge shows its deviation, of which four bad ones in a row lose alignment; an edge within 8 chain clocks of a period
start is that period's pulse; inward markers of the master are heard, and one that disagrees with the standby is a divergence (R251, R410,
R411, R423, R425, R435, R436, R437). The model's readings: an edge that reaches a device of another role changes nothing (log entry 1),
and a pulse before the period start belongs to the period that follows (log entry 40). -/
def Obligations.PairAlignment : Prop :=
  ∀ s : State, s.live = true → s.master = false →
    (∀ offset, s.get F.AXO_STAT_role ≠ 2 → exec (.psyncEdge offset) s = .next s) ∧
    (∀ (offset e : Int) (edge early : Bool), e = offset - s.get F.AXO_PSDLY_dly → s.get F.AXO_STAT_role = 2 →
      edge = (s.pair.edge || decide (e.natAbs ≤ 8 ∧ 0 ≤ offset)) → early = (s.pair.early || decide (e.natAbs ≤ 8 ∧ offset < 0)) →
      (s.get F.AXO_STAT_sync = 0 → s.pair.setNow = false ∨ s.pair.shift = 0 ∧ 4 < e.natAbs → Does (.psyncEdge offset) s (P.pair ||| P.pgAxo) fun t =>
        t.pair = { s.pair with edge := edge, early := early, shift := (e % (4096 * s.dNow : Int)).toNat, setNow := true } ∧
          t.get F.AXO_PSYNC_offset = unsigned 8 (clampInt (-128) 127 e)) ∧
      (s.get F.AXO_STAT_sync = 0 → s.pair.setNow = true → s.pair.shift ≠ 0 ∨ e.natAbs ≤ 4 →
        Does (.psyncEdge offset) s (P.pair ||| P.pgAxo) fun t => t.pair = { s.pair with edge := edge, early := early } ∧
          t.get F.AXO_PSYNC_offset = unsigned 8 (clampInt (-128) 127 e)) ∧
      (s.get F.AXO_STAT_sync = 1 → s.mode = .mirror → e.natAbs ≤ 4 → Does (.psyncEdge offset) s (P.pair ||| P.pgAxo) fun t =>
        t.pair = { s.pair with edge := edge, early := early, badEdge := 0 } ∧ t.get F.AXO_PSYNC_errs = s.get F.AXO_PSYNC_errs) ∧
      (s.get F.AXO_STAT_sync = 1 → s.mode = .mirror → 4 < e.natAbs → Does (.psyncEdge offset) s (P.pair ||| P.pgAxo) fun t =>
        t.get F.AXO_PSYNC_errs = s.plusOne F.AXO_PSYNC_errs ∧ t.bit (R.PIRQ_RAW 30) 8 = true ∧
        t.pair.edge = edge ∧ t.pair.early = early ∧
        (s.pair.badEdge < 3 → t.pair.badEdge = s.pair.badEdge + 1 ∧ t.get F.AXO_STAT_sync = 1) ∧
        (3 ≤ s.pair.badEdge → t.pair.badEdge = 0 ∧ t.get F.AXO_STAT_sync = 0 ∧ t.get F.AXO_STAT_aligned = 0))) ∧
    (∀ (c : Fin 20) (m : Marker), s.chainUsed c = true → m.crc8.toNat = crc8 (leBytes 2 m.pnum.toNat ++ [m.d, m.ph]) →
      m.pnum.toNat = s.pnow % 65536 → m.d.toNat = s.dNow →
      Does (.inwardPeriodMarker c m) s (P.fault ||| P.pair ||| P.pgAxo) fun t =>
        t.get F.AXO_STAT_markers = 1 ∧ t.pair = { s.pair with noMark := 0, mark := true } ∧ t.reg R.AXO_DIV = s.reg R.AXO_DIV) ∧
    (∀ (c : Fin 20) (m : Marker), s.chainUsed c = true → m.crc8.toNat = crc8 (leBytes 2 m.pnum.toNat ++ [m.d, m.ph]) →
      m.pnum.toNat ≠ s.pnow % 65536 ∨ m.d.toNat ≠ s.dNow → s.compares = true →
      Does (.inwardPeriodMarker c m) s (P.fault ||| P.pair ||| P.pgAxo) fun t =>
        t.get ⟨R.AXO_DIV, 0, 16⟩ = s.plusOne ⟨R.AXO_DIV, 0, 16⟩ ∧ t.get F.AXO_DIVCAP_valid = 1 ∧
          (s.get F.AXO_DIVCAP_valid = 0 → t.get F.AXO_DIVCAP_what = 4 ∧ t.get F.AXO_DIVCAP_chain = c))

/-- PAIR packets that are whole and taken in: a DIGEST and a HEARTBEAT show the partner, the first DIGEST after alignment gives the period
number, LISTS wait for the DIGEST of the period; without both of them in time the standby is no longer aligned, and follows neither in
that period; a HEARTBEAT of an unaligned standby makes the active device start its restatement, anew where one runs; held effects that
no DIGEST names within four periods are dropped and counted; a standby AHEAD keeps the CODES that pass it (R410, R411, R413, R414, R415,
R416, R417, R418, R420, R422, R423, R435). Which missing item ends alignment, and when, is the model's reading (log entry 36). -/
def Obligations.PairPackets : Prop :=
  ∀ s : State,
    (∀ (l : Fin 4) (p : Pkt), (s.pairArrives l 1 (p.len.toNat == 368) p).2 = true → s.mode ≠ .mirror →
      Does (.digest l p) s (P.fault ||| P.fades ||| P.bal ||| P.link ||| P.pair ||| P.out ||| P.draws ||| P.sys ||| P.pnow ||| P.pgPkt |||
        P.pgVin ||| P.pgMsk ||| P.pgCal ||| P.pgSup ||| P.pgAdc ||| P.pgWin ||| P.pgBal ||| P.pgSpl ||| P.pgAxo ||| P.pgOff) fun t =>
          t.get F.AXO_STAT_pmode = bodyLe p 5 1 % 16 ∧ t.get F.AXO_HB_hseq = bodyLe p 6 2 ∧
            t.reg R.AXO_PSER = BitVec.ofNat 32 (bodyLe p 12 4) ∧ t.pair.noDig = 0 ∧ t.pair.noPair = 0 ∧
            (s.pair.setNow = true → s.pair.shift = 0 → s.master = false →
              t.reg R.CLS_PNOW = BitVec.ofNat 32 (bodyLe p 8 4) ∧ t.get F.AXO_STAT_sync = 1)) ∧
    (∀ (l : Fin 4) (p : Pkt), (s.pairArrives l 2 (listsLenOk p) p).2 = true → s.mode = .mirror → s.pair.lst = [] → s.pair.dig = [] →
      Does (.lists l p) s (P.link ||| P.pair ||| P.pgPkt ||| P.pgAxo) fun t =>
        t.pair = { s.pair with lst := p.body, noPair := 0 } ∧ t.get F.AXO_HB_missed = 0 ∧ t.link.pairN = s.link.pairN + 1) ∧
    (∀ (l : Fin 4) (p : Pkt), (s.pairArrives l 3 (p.len.toNat == 32) p).2 = true → s.master = false →
      Does (.heartbeat l p) s (P.fault ||| P.link ||| P.pair ||| P.ack ||| P.pgPkt ||| P.pgAxo) fun t =>
        t.get F.AXO_STAT_pready = bits (bodyLe p 5 1) 5 1 ∧ t.get F.AXO_STAT_pmode = bodyLe p 5 1 % 16 ∧
          t.pair.divSeen = some (bodyLe p 32 2) ∧ t.pair.ackSeen = some (bodyLe p 34 1) ∧ t.pair.noPair = 0) ∧
    (∀ (l : Fin 4) (p : Pkt), (s.pairArrives l 3 (p.len.toNat == 32) p).2 = true → s.master = true → bits (bodyLe p 35 1) 2 2 = 0 →
      Does (.heartbeat l p) s (P.fault ||| P.link ||| P.pair ||| P.ack ||| P.pgPkt ||| P.pgAxo) fun t =>
        t.get F.AXO_STAT_restating = 1 ∧ t.pair.restAt = some (0xFF, 0) ∧ t.pair.divSeen = some (bodyLe p 32 2)) ∧
    (s.mode = .mirror → s.pair.followed = false → Does .digestTimeout s (P.pair ||| P.pgAxo) fun t =>
      t.get F.AXO_STAT_aligned = 0 ∧ t.get F.AXO_STAT_restating = 0 ∧
        (s.get F.AXO_STAT_aligned = 1 → t.bit (R.PIRQ_RAW 30) 5 = true) ∧ t.pair.joined = false ∧ t.pair.missed = true) ∧
    (s.mode = .mirror → s.cl.implicit = [] → Does .unnamedEffectDiscard s (P.cl ||| P.pair ||| P.pgAxo) fun t =>
      t.pair.held = s.pair.held.filter (fun h => !perReached (perAdd h.per 4) s.pnow) ∧
        t.get F.AXO_CNT_unnamed = min (s.get F.AXO_CNT_unnamed +
          (s.pair.held.filter fun h => perReached (perAdd h.per 4) s.pnow).length) 65535) ∧
    (∀ (c : Fin 20) (it : ChainPkt) (x : Nat), s.mode = .mirror → s.get F.AXO_STAT_pos = 1 → s.itemWhole c it = true →
      it.h0.toNat % 16 = 1 → s.tileAt c (it.h1.toNat % 16) = some x →
      Does (.snoopedChainItem c it) s (P.fault ||| P.pair ||| P.pgAxo) fun t =>
        kvFind t.pair.rows (2 * (128 * x + blkLe it.body 0 1 % 128) + blkLe it.body 0 1 / 128) = some it.body ∧
          t.reg R.AXO_DIV = s.reg R.AXO_DIV)

/-- Takeover: an entitled write asks for it where the standby is ready; a standby without a marker and without a PSYNC pulse, or asked,
becomes the active device in the mode of the last DIGEST with PARTNER_RST_N low, which is released after; a realign write drops the
alignment of a standby (R26, R420, R426, R427, R429, R435). The model's choices: the role is active at once (log entry 39), FALLBACK is
taken over also with no valid descriptor (log entry 66), and a release with the pin released changes nothing (log entry 1). -/
def Obligations.Takeover : Prop :=
  ∀ s : State,
    (∀ src, s.mayCommand src 30 → src ≠ .lane → s.axoReady = true →
      exec (.axoTakeover src) s = .next (s.onPair fun a => { a with tkReq := some s.now })) ∧
    (s.mode = .mirror → s.get F.SYS_STAT_cfg_ok = 1 → s.pair.tkP = none →
      (s.pair.edge = false ∧ s.pair.mark = false) ∨ (∃ n, s.pair.tkReq = some n ∧ n + 800 ≤ s.pstart) →
      Does .takeoverDecision s (P.isl ||| P.vid ||| P.chains ||| P.tiles ||| P.light ||| P.flt ||| P.bal ||| P.pair ||| P.mode |||
        P.pgCmp ||| P.pgPlc ||| P.pgAsp ||| P.pgAxo) fun t =>
          t.mode = (if s.pair.digMode = 5 then .fallback else .operate) ∧ t.get F.AXO_STAT_role = 1 ∧
            t.get F.AXO_STAT_tk = 1 ∧ t.get F.AXO_TKCNT_takeovers = s.plusOne F.AXO_TKCNT_takeovers ∧
            t.get F.AXO_TKCNT_cold = (if s.on F.AXO_STAT_aligned then s.get F.AXO_TKCNT_cold else s.plusOne F.AXO_TKCNT_cold) ∧
            t.pair.tkP = some s.pnow ∧ t.pair.rstLow = true ∧ t.isl.req = true) ∧
    (s.live = true → exec .partnerRstRelease s = .next (s.onPair fun a => { a with rstLow := false })) ∧
    (∀ src, s.mayCommand src 30 →
      (s.mode = .mirror → Does (.axoRealign src) s P.write fun t => t.get F.AXO_STAT_aligned = 0 ∧
        t.get F.AXO_STAT_restating = 0 ∧ t.pair.joined = false ∧ t.pair.nextAt = none) ∧
      (s.mode ≠ .mirror → exec (.axoRealign src) s = .next s))
end

