-- ==== Sys2Proof/Laws/Tables.lean ====
section
/-! SUPPORT. The laws of the sparse tables and of the byte memory: a read after a write, and the canonical form kept. -/

set_option Elab.async false

namespace Sys2Proof.Machine

@[simp] theorem kvFind_kvPut_same {α : Type} (t : List (Nat × α)) (a : Nat) (x : α) : kvFind (kvPut t a x) a = some x := by
  induction t with
  | nil => simp [kvPut, kvFind]
  | cons e r ih =>
    obtain ⟨k, v⟩ := e
    simp only [kvPut]
    split
    · simp [kvFind]
    · split
      · simp [kvFind]
      · simp [kvFind, *]

theorem kvFind_kvPut_ne {α : Type} (t : List (Nat × α)) {a b : Nat} (x : α) (h : b ≠ a) :
    kvFind (kvPut t a x) b = kvFind t b := by
  induction t with
  | nil => simp [kvPut, kvFind, h]
  | cons e r ih =>
    obtain ⟨k, v⟩ := e
    simp only [kvPut]
    split
    · subst_vars; simp [kvFind, h]
    · split
      · simp only [kvFind, h, if_false]
      · simp only [kvFind, ih]

/-- A table of which the keys that a test passes stay. -/
theorem kvFind_filter {α : Type} (t : List (Nat × α)) (f : Nat → Bool) (a : Nat) :
    kvFind (t.filter fun e => f e.1) a = if f a then kvFind t a else none := by
  induction t with
  | nil => simp [kvFind]
  | cons e r ih =>
    obtain ⟨k, v⟩ := e
    rw [List.filter_cons]
    by_cases h : a = k
    · subst h
      split <;> simp_all [kvFind]
    · split
      · simp [kvFind, h, ih]
      · simp [kvFind, h, ih]

theorem memWfFrom_mono {lo lo' : Nat} {m : Memory} (h : memWfFrom lo m = true) (hl : lo' ≤ lo) : memWfFrom lo' m = true := by
  cases m with
  | nil => rfl
  | cons e r =>
    obtain ⟨k, v⟩ := e
    simp only [memWfFrom, Bool.and_eq_true, decide_eq_true_eq] at *
    exact ⟨⟨by omega, h.1.2⟩, h.2⟩

theorem memWfFrom_memPut {lo : Nat} {m : Memory} {a : Nat} {x : Byte} (h : memWfFrom lo m = true) (ha : lo ≤ a) :
    memWfFrom lo (memPut m a x) = true := by
  induction m generalizing lo with
  | nil =>
    simp only [memPut]
    split <;> simp_all [memWfFrom]
  | cons e r ih =>
    obtain ⟨k, v⟩ := e
    simp only [memWfFrom, Bool.and_eq_true, decide_eq_true_eq] at h
    simp only [memPut]
    split
    · split
      · exact memWfFrom_mono h.2 (by omega)
      · simp_all [memWfFrom]
    · split
      · split
        · simp_all [memWfFrom]
        · simp only [memWfFrom, Bool.and_eq_true, decide_eq_true_eq]
          refine ⟨⟨by omega, by simpa using by assumption⟩, ⟨by omega, h.1.2⟩, h.2⟩
      · simp only [memWfFrom, Bool.and_eq_true, decide_eq_true_eq]
        exact ⟨h.1, ih h.2 (by omega)⟩

theorem memWf_memPut {m : Memory} {a : Nat} {x : Byte} (h : m.wf = true) : Memory.wf (memPut m a x) = true :=
  memWfFrom_memPut h (Nat.zero_le _)

theorem memWf_memPutBytes {m : Memory} {a : Nat} {bs : List Byte} (h : m.wf = true) : Memory.wf (memPutBytes m a bs) = true := by
  induction bs generalizing m a with
  | nil => exact h
  | cons b r ih => exact ih (memWf_memPut h)

theorem memWfFrom_filter {lo : Nat} {m : Memory} {f : Host.Cell → Bool} (h : memWfFrom lo m = true) :
    memWfFrom lo (m.filter f) = true := by
  induction m generalizing lo with
  | nil => rfl
  | cons e r ih =>
    obtain ⟨k, v⟩ := e
    simp only [memWfFrom, Bool.and_eq_true, decide_eq_true_eq] at h
    simp only [List.filter_cons]
    split
    · simp only [memWfFrom, Bool.and_eq_true, decide_eq_true_eq]
      exact ⟨h.1, ih h.2⟩
    · exact memWfFrom_mono (ih h.2) (by omega)

theorem memWf_memZero {m : Memory} {a n : Nat} (h : m.wf = true) : Memory.wf (memZero m a n) = true := memWfFrom_filter h

theorem memByte_below {lo : Nat} {m : Memory} {a : Nat} (h : memWfFrom lo m = true) (ha : a < lo) : memByte m a = 0 := by
  cases m with
  | nil => rfl
  | cons e r =>
    obtain ⟨k, v⟩ := e
    simp only [memWfFrom, Bool.and_eq_true, decide_eq_true_eq] at h
    simp only [memByte]
    rw [if_neg (by omega), if_pos (by omega)]

theorem memByte_memPut_from {lo : Nat} {m : Memory} {a b : Nat} {x : Byte} (h : memWfFrom lo m = true) :
    memByte (memPut m a x) b = if b = a then x else memByte m b := by
  induction m generalizing lo with
  | nil =>
    simp only [memPut]
    split
    · subst_vars; simp [memByte]
    · simp [memByte]
  | cons e r ih =>
    obtain ⟨k, v⟩ := e
    simp only [memWfFrom, Bool.and_eq_true, decide_eq_true_eq] at h
    have hb (c : Nat) (hc : c ≤ k) : memByte r c = 0 := memByte_below h.2 (by omega)
    simp only [memPut]
    split
    · subst_vars
      split
      · subst_vars
        by_cases hba : b = k
        · subst hba; simp [hb]
        · simp only [memByte, hba, if_false]
          split
          · exact hb _ (by omega)
          · rfl
      · simp only [memByte]
        by_cases hba : b = k <;> simp [hba]
    · split
      · split
        · subst_vars
          by_cases hba : b = a
          · subst hba; simp only [memByte, if_true]; rw [if_neg (by omega), if_pos (by omega)]
          · simp [hba]
        · simp only [memByte]
          by_cases hba : b = a
          · simp [hba]
          · simp only [hba, if_false]
            by_cases h1 : b = k
            · simp only [h1, if_true]
              rw [if_neg (by omega)]
            · simp only [h1, if_false]
              repeat' split
              all_goals first | rfl | omega
      · simp only [memByte, ih h.2]
        by_cases hba : b = a
        · subst hba
          rw [if_neg (by omega), if_neg (by omega), if_pos rfl, if_pos rfl]
        · simp [hba]

/-- A byte of memory reads as it was last written. -/
theorem memByte_memPut {m : Memory} {a b : Nat} {x : Byte} (h : m.wf = true) :
    memByte (memPut m a x) b = if b = a then x else memByte m b := memByte_memPut_from h

theorem memByte_memZero_from {lo : Nat} {m : Memory} {a n b : Nat} (h : memWfFrom lo m = true) :
    memByte (memZero m a n) b = if a ≤ b ∧ b < a + n then 0 else memByte m b := by
  induction m generalizing lo with
  | nil => simp [memZero, memByte]
  | cons e r ih =>
    obtain ⟨k, v⟩ := e
    simp only [memWfFrom, Bool.and_eq_true, decide_eq_true_eq] at h
    have hb (c : Nat) (hc : c ≤ k) : memByte r c = 0 := memByte_below h.2 (by omega)
    have ih' := ih h.2
    simp only [memZero] at ih' ⊢
    simp only [List.filter_cons]
    split
    · rename_i hk
      simp only [memByte, ih']
      simp at hk
      by_cases hbk : b = k
      · subst hbk; rw [if_pos rfl, if_pos rfl, if_neg (by omega)]
      · simp only [hbk, if_false]
        repeat' split
        all_goals rfl
    · rename_i hk
      simp at hk
      rw [ih']
      simp only [memByte]
      by_cases hbk : b = k
      · subst hbk; rw [if_pos (by omega), if_pos (by omega)]
      · simp only [hbk, if_false]
        repeat' split
        all_goals first | rfl | omega | exact hb _ (by omega)

/-- A range set to zero reads as zero, and nothing else changes. -/
theorem memByte_memZero {m : Memory} {a n b : Nat} (h : m.wf = true) :
    memByte (memZero m a n) b = if a ≤ b ∧ b < a + n then 0 else memByte m b := memByte_memZero_from h

/-- Bytes written from `a` up read back, and nothing else changes. -/
theorem memByte_memPutBytes {m : Memory} {a b : Nat} {bs : List Byte} (h : m.wf = true) :
    memByte (memPutBytes m a bs) b = if a ≤ b ∧ b < a + bs.length then bs.getD (b - a) 0 else memByte m b := by
  induction bs generalizing m a with
  | nil => simp [memPutBytes]
  | cons x r ih =>
    rw [memPutBytes, ih (memWf_memPut h), memByte_memPut h]
    by_cases hb : b = a
    · subst hb; simp
    · by_cases h1 : a ≤ b ∧ b < a + (r.length + 1)
      · rw [if_pos (by omega), if_pos (by simpa using h1)]
        obtain ⟨n, rfl⟩ : ∃ n, b = a + n + 1 := ⟨b - a - 1, by omega⟩
        rw [show a + n + 1 - (a + 1) = n by omega, show a + n + 1 - a = n + 1 by omega]
        rfl
      · rw [if_neg (by omega), if_neg hb, if_neg (by simpa using h1)]

end Sys2Proof.Machine
end

