-- ==== Sys2Proof/Laws/State.lean ====
section
/-! SUPPORT. The laws of the state's records and of the named operations over registers: for each operation what it changes and
that it changes nothing else. -/

set_option Elab.async false

namespace Sys2Proof.Machine

/-- Writing a word of the register file leaves every other part of the state. -/
theorem setReg_eq (s : State) (a : Nat) (v : Word) : s.setReg a v = { s with regs := (s.setReg a v).regs } := rfl

@[simp] theorem setReg_pending (s : State) (a : Nat) (v : Word) : (s.setReg a v).pending = s.pending := rfl
@[simp] theorem setReg_now (s : State) (a : Nat) (v : Word) : (s.setReg a v).now = s.now := rfl
@[simp] theorem setReg_pstart (s : State) (a : Nat) (v : Word) : (s.setReg a v).pstart = s.pstart := rfl
@[simp] theorem setReg_sram (s : State) (a : Nat) (v : Word) : (s.setReg a v).sram = s.sram := rfl
@[simp] theorem setReg_ecc1 (s : State) (a : Nat) (v : Word) : (s.setReg a v).ecc1 = s.ecc1 := rfl
@[simp] theorem setReg_ecc2 (s : State) (a : Nat) (v : Word) : (s.setReg a v).ecc2 = s.ecc2 := rfl
@[simp] theorem setReg_otp (s : State) (a : Nat) (v : Word) : (s.setReg a v).otp = s.otp := rfl
@[simp] theorem setReg_boot (s : State) (a : Nat) (v : Word) : (s.setReg a v).boot = s.boot := rfl
@[simp] theorem setReg_isl (s : State) (a : Nat) (v : Word) : (s.setReg a v).isl = s.isl := rfl
@[simp] theorem setReg_cl (s : State) (a : Nat) (v : Word) : (s.setReg a v).cl = s.cl := rfl
@[simp] theorem setReg_vid (s : State) (a : Nat) (v : Word) : (s.setReg a v).vid = s.vid := rfl
@[simp] theorem setReg_fades (s : State) (a : Nat) (v : Word) : (s.setReg a v).fades = s.fades := rfl
@[simp] theorem setReg_chains (s : State) (a : Nat) (v : Word) : (s.setReg a v).chains = s.chains := rfl
@[simp] theorem setReg_tiles (s : State) (a : Nat) (v : Word) : (s.setReg a v).tiles = s.tiles := rfl
@[simp] theorem setReg_light (s : State) (a : Nat) (v : Word) : (s.setReg a v).light = s.light := rfl
@[simp] theorem setReg_flt (s : State) (a : Nat) (v : Word) : (s.setReg a v).flt = s.flt := rfl
@[simp] theorem setReg_adc (s : State) (a : Nat) (v : Word) : (s.setReg a v).adc = s.adc := rfl
@[simp] theorem setReg_bal (s : State) (a : Nat) (v : Word) : (s.setReg a v).bal = s.bal := rfl
@[simp] theorem setReg_spl (s : State) (a : Nat) (v : Word) : (s.setReg a v).spl = s.spl := rfl
@[simp] theorem setReg_sio (s : State) (a : Nat) (v : Word) : (s.setReg a v).sio = s.sio := rfl
@[simp] theorem setReg_skink (s : State) (a : Nat) (v : Word) : (s.setReg a v).skink = s.skink := rfl
@[simp] theorem setReg_link (s : State) (a : Nat) (v : Word) : (s.setReg a v).link = s.link := rfl
@[simp] theorem setReg_spi (s : State) (a : Nat) (v : Word) : (s.setReg a v).spi = s.spi := rfl
@[simp] theorem setReg_spd (s : State) (a : Nat) (v : Word) : (s.setReg a v).spd = s.spd := rfl
@[simp] theorem setReg_pair (s : State) (a : Nat) (v : Word) : (s.setReg a v).pair = s.pair := rfl
@[simp] theorem setReg_out (s : State) (a : Nat) (v : Word) : (s.setReg a v).out = s.out := rfl
@[simp] theorem setReg_draws (s : State) (a : Nat) (v : Word) : (s.setReg a v).draws = s.draws := rfl
@[simp] theorem put_pending (s : State) (f : Fld) (v : Nat) : (s.put f v).pending = s.pending := rfl
@[simp] theorem put_now (s : State) (f : Fld) (v : Nat) : (s.put f v).now = s.now := rfl
@[simp] theorem put_pstart (s : State) (f : Fld) (v : Nat) : (s.put f v).pstart = s.pstart := rfl
@[simp] theorem put_sram (s : State) (f : Fld) (v : Nat) : (s.put f v).sram = s.sram := rfl
@[simp] theorem put_ecc1 (s : State) (f : Fld) (v : Nat) : (s.put f v).ecc1 = s.ecc1 := rfl
@[simp] theorem put_ecc2 (s : State) (f : Fld) (v : Nat) : (s.put f v).ecc2 = s.ecc2 := rfl
@[simp] theorem put_otp (s : State) (f : Fld) (v : Nat) : (s.put f v).otp = s.otp := rfl
@[simp] theorem put_boot (s : State) (f : Fld) (v : Nat) : (s.put f v).boot = s.boot := rfl
@[simp] theorem put_isl (s : State) (f : Fld) (v : Nat) : (s.put f v).isl = s.isl := rfl
@[simp] theorem put_cl (s : State) (f : Fld) (v : Nat) : (s.put f v).cl = s.cl := rfl
@[simp] theorem put_vid (s : State) (f : Fld) (v : Nat) : (s.put f v).vid = s.vid := rfl
@[simp] theorem put_fades (s : State) (f : Fld) (v : Nat) : (s.put f v).fades = s.fades := rfl
@[simp] theorem put_chains (s : State) (f : Fld) (v : Nat) : (s.put f v).chains = s.chains := rfl
@[simp] theorem put_tiles (s : State) (f : Fld) (v : Nat) : (s.put f v).tiles = s.tiles := rfl
@[simp] theorem put_light (s : State) (f : Fld) (v : Nat) : (s.put f v).light = s.light := rfl
@[simp] theorem put_flt (s : State) (f : Fld) (v : Nat) : (s.put f v).flt = s.flt := rfl
@[simp] theorem put_adc (s : State) (f : Fld) (v : Nat) : (s.put f v).adc = s.adc := rfl
@[simp] theorem put_bal (s : State) (f : Fld) (v : Nat) : (s.put f v).bal = s.bal := rfl
@[simp] theorem put_spl (s : State) (f : Fld) (v : Nat) : (s.put f v).spl = s.spl := rfl
@[simp] theorem put_sio (s : State) (f : Fld) (v : Nat) : (s.put f v).sio = s.sio := rfl
@[simp] theorem put_skink (s : State) (f : Fld) (v : Nat) : (s.put f v).skink = s.skink := rfl
@[simp] theorem put_link (s : State) (f : Fld) (v : Nat) : (s.put f v).link = s.link := rfl
@[simp] theorem put_spi (s : State) (f : Fld) (v : Nat) : (s.put f v).spi = s.spi := rfl
@[simp] theorem put_spd (s : State) (f : Fld) (v : Nat) : (s.put f v).spd = s.spd := rfl
@[simp] theorem put_pair (s : State) (f : Fld) (v : Nat) : (s.put f v).pair = s.pair := rfl
@[simp] theorem put_out (s : State) (f : Fld) (v : Nat) : (s.put f v).out = s.out := rfl
@[simp] theorem put_draws (s : State) (f : Fld) (v : Nat) : (s.put f v).draws = s.draws := rfl

@[simp] theorem reg_setReg_same (s : State) (a : Nat) (v : Word) : (s.setReg a v).reg a = v := by simp [State.reg, State.setReg]

theorem reg_setReg_ne (s : State) {a b : Nat} (v : Word) (h : b ≠ a) : (s.setReg a v).reg b = s.reg b := by
  simp [State.reg, State.setReg, kvFind_kvPut_ne _ _ h]

theorem reg_setReg (s : State) (a b : Nat) (v : Word) : (s.setReg a v).reg b = if b = a then v else s.reg b := by
  split
  · subst_vars; simp
  · exact reg_setReg_ne s v ‹_›

/-- Registers depend on the register file alone. -/
theorem reg_congr {s t : State} (h : t.regs = s.regs) (a : Nat) : t.reg a = s.reg a := by simp [State.reg, h]

theorem get_congr {s t : State} (h : t.regs = s.regs) (f : Fld) : t.get f = s.get f := by simp [State.get, reg_congr h]

/-- A bit of a field's mask. -/
theorem getLsbD_fieldMask (lo w i : Nat) : (fieldMask lo w).getLsbD i = (decide (i < 32) && decide (lo ≤ i) && decide (i < lo + w)) := by
  simp only [fieldMask, BitVec.getLsbD_shiftLeft, BitVec.getLsbD_setWidth, BitVec.getLsbD_allOnes]
  rw [Bool.eq_iff_iff]
  simp only [Bool.and_eq_true, decide_eq_true_eq, Bool.not_eq_true', decide_eq_false_iff_not]
  omega

/-- A bit of a word with a field replaced. -/
theorem getLsbD_insBits (x : Word) (lo w v i : Nat) (hi : i < 32) :
    (insBits x lo w v).getLsbD i = if lo ≤ i ∧ i < lo + w then v.testBit (i - lo) else x.getLsbD i := by
  simp only [insBits, BitVec.getLsbD_or, BitVec.getLsbD_and, BitVec.getLsbD_not, getLsbD_fieldMask, BitVec.getLsbD_shiftLeft,
    BitVec.getLsbD_setWidth, BitVec.getLsbD_ofNat]
  by_cases h1 : lo ≤ i <;> by_cases h2 : i < lo + w
  · simp [h1, h2, hi, Nat.not_lt.mpr h1, show i - lo < w by omega, show i - lo < 32 by omega]
  · simp [h1, h2, hi, Nat.not_lt.mpr h1, show ¬ i - lo < w by omega]
  · simp [h1, hi, show i < lo by omega]
  · omega

/-- Fields that share no bit do not disturb each other. -/
theorem getBits_insBits_ne (x : Word) {lo w lo' w' : Nat} (v : Nat) (h : lo' + w' ≤ lo ∨ lo + w ≤ lo') :
    getBits (insBits x lo w v) lo' w' = getBits x lo' w' := by
  unfold getBits
  congr 1
  apply BitVec.eq_of_getLsbD_eq
  intro i hi
  simp only [BitVec.getLsbD_extractLsb']
  by_cases h32 : lo' + i < 32
  · rw [getLsbD_insBits _ _ _ _ _ h32, if_neg (by omega)]
  · simp [BitVec.getLsbD_of_ge _ _ (Nat.not_lt.mp h32)]

/-- A field within the word takes the value put there, modulo its width. -/
theorem getBits_insBits_same (x : Word) {lo w : Nat} (v : Nat) (h : lo + w ≤ 32) : getBits (insBits x lo w v) lo w = v % 2 ^ w := by
  unfold getBits
  rw [← BitVec.toNat_ofNat v w]
  congr 1
  apply BitVec.eq_of_getLsbD_eq
  intro i hi
  simp only [BitVec.getLsbD_extractLsb', BitVec.getLsbD_ofNat, hi, decide_true, Bool.true_and]
  rw [getLsbD_insBits _ _ _ _ _ (by omega), if_pos (by omega)]
  congr 1; omega

theorem reg_put (s : State) (f : Fld) (v a : Nat) :
    (s.put f v).reg a = if a = f.addr then insBits (s.reg f.addr) f.lo f.w v else s.reg a := reg_setReg s f.addr a _

theorem reg_put_ne (s : State) (f : Fld) (v : Nat) {a : Nat} (h : a ≠ f.addr) : (s.put f v).reg a = s.reg a :=
  reg_setReg_ne s _ h

/-- A field reads back as it was put, modulo its width. -/
theorem get_put_same (s : State) (f : Fld) (v : Nat) (h : f.lo + f.w ≤ 32) : (s.put f v).get f = v % 2 ^ f.w := by
  simp [State.get, State.put, getBits_insBits_same _ _ h]

/-- Two fields that share no bit. -/
def Fld.apart (f g : Fld) : Bool := f.addr != g.addr || decide (f.lo + f.w ≤ g.lo) || decide (g.lo + g.w ≤ f.lo)

/-- Putting a field leaves every field that shares no bit with it. -/
theorem get_put_apart (s : State) (f g : Fld) (v : Nat) (h : f.apart g = true) : (s.put f v).get g = s.get g := by
  simp only [Fld.apart, Bool.or_eq_true, bne_iff_ne, decide_eq_true_eq] at h
  simp only [State.get, reg_put]
  split
  · rename_i he
    rw [he, getBits_insBits_ne]
    omega
  · rfl

theorem get_setReg_ne (s : State) {a : Nat} {g : Fld} (v : Word) (h : g.addr ≠ a) : (s.setReg a v).get g = s.get g := by
  simp [State.get, reg_setReg_ne s v h]

/-- A part of a field follows the field. -/
theorem getBits_part {x y : Word} {lo w lo' w' : Nat} (h : getBits x lo w = getBits y lo w) (hp : lo ≤ lo' ∧ lo' + w' ≤ lo + w) :
    getBits x lo' w' = getBits y lo' w' := by
  have hb := BitVec.eq_of_toNat_eq h
  have key (z : Word) : z.extractLsb' lo' w' = (z.extractLsb' lo w).extractLsb' (lo' - lo) w' := by
    apply BitVec.eq_of_getLsbD_eq
    intro i hi
    simp only [BitVec.getLsbD_extractLsb', hi, decide_true, Bool.true_and, show lo' - lo + i < w by omega]
    congr 1; omega
  simp only [getBits, key x, key y, hb]

/-- A field of SYS_STAT above the mode follows that part of the word. -/
theorem get_of_stat {s t : State} {f : Fld} (h : getBits (t.reg R.SYS_STAT) 4 28 = getBits (s.reg R.SYS_STAT) 4 28)
    (hf : f.addr = R.SYS_STAT ∧ 4 ≤ f.lo ∧ f.lo + f.w ≤ 32) : t.get f = s.get f := by
  simp only [State.get, hf.1]
  exact getBits_part h (by omega)

theorem get_lt (s : State) (f : Fld) : s.get f < 2 ^ f.w := by
  simp only [State.get, getBits]; exact BitVec.isLt _

end Sys2Proof.Machine
end

