-- ==== Sys2Proof/Laws/Only.lean ====
section
/-! SUPPORT. Footprints: a step after a step, a record update, and a write of a register word. -/

set_option Elab.async false

namespace Sys2Proof.Machine

theorem testBit_of_or {E M i : Nat} (h : E ||| M = E) (hi : E.testBit i = false) : M.testBit i = false := by
  rw [← h, Nat.testBit_or] at hi
  exact (Bool.or_eq_false_iff.mp hi).2

theorem leaves_of_or {E M a : Nat} (h : E ||| M = E) (ha : leaves E a = true) : leaves M a = true := by
  simp only [leaves, Bool.and_eq_true, Bool.not_eq_true'] at ha ⊢
  exact ⟨ha.1, testBit_of_or h ha.2⟩

theorem Only.refl (E : Nat) (s : State) : Only E s s := by
  constructor <;> intros <;> first | rfl | exact ⟨rfl, rfl⟩ | assumption

/-- A step with a smaller footprint may follow. -/
theorem Only.comp {E M : Nat} {s t u : State} (h : Only E s t) (k : Only M t u) (hE : E ||| M = E := by decide) : Only E s u := by
  constructor
  · intro hb; exact (k.pending (testBit_of_or hE hb)).trans (h.pending hb)
  · intro hb; exact (k.now (testBit_of_or hE hb)).trans (h.now hb)
  · intro hb; exact (k.pstart (testBit_of_or hE hb)).trans (h.pstart hb)
  · intro hb; exact (k.sram (testBit_of_or hE hb)).trans (h.sram hb)
  · intro hb; exact ⟨((k.ecc (testBit_of_or hE hb)).1.trans (h.ecc hb).1), ((k.ecc (testBit_of_or hE hb)).2.trans (h.ecc hb).2)⟩
  · intro hb; exact (k.otp (testBit_of_or hE hb)).trans (h.otp hb)
  · intro hb; exact (k.boot (testBit_of_or hE hb)).trans (h.boot hb)
  · intro hb; exact (k.isl (testBit_of_or hE hb)).trans (h.isl hb)
  · intro hb; exact (k.cl (testBit_of_or hE hb)).trans (h.cl hb)
  · intro hb; exact (k.vid (testBit_of_or hE hb)).trans (h.vid hb)
  · intro hb; exact (k.fades (testBit_of_or hE hb)).trans (h.fades hb)
  · intro hb; exact (k.chains (testBit_of_or hE hb)).trans (h.chains hb)
  · intro hb; exact (k.tiles (testBit_of_or hE hb)).trans (h.tiles hb)
  · intro hb; exact (k.light (testBit_of_or hE hb)).trans (h.light hb)
  · intro hb; exact (k.flt (testBit_of_or hE hb)).trans (h.flt hb)
  · intro hb; exact (k.adc (testBit_of_or hE hb)).trans (h.adc hb)
  · intro hb; exact (k.bal (testBit_of_or hE hb)).trans (h.bal hb)
  · intro hb; exact (k.spl (testBit_of_or hE hb)).trans (h.spl hb)
  · intro hb; exact (k.sio (testBit_of_or hE hb)).trans (h.sio hb)
  · intro hb; exact (k.skink (testBit_of_or hE hb)).trans (h.skink hb)
  · intro hb; exact (k.link (testBit_of_or hE hb)).trans (h.link hb)
  · intro hb; exact (k.spi (testBit_of_or hE hb)).trans (h.spi hb)
  · intro hb; exact (k.spd (testBit_of_or hE hb)).trans (h.spd hb)
  · intro hb; exact (k.pair (testBit_of_or hE hb)).trans (h.pair hb)
  · intro hb; exact (k.out (testBit_of_or hE hb)).trans (h.out hb)
  · intro hb; exact (k.draws (testBit_of_or hE hb)).trans (h.draws hb)
  · intro hb; exact (k.mode (testBit_of_or hE hb)).trans (h.mode hb)
  · intro hb; exact (k.stat (testBit_of_or hE hb)).trans (h.stat hb)
  · intro a ha; exact (k.word a (leaves_of_or hE ha)).trans (h.word a ha)
  · exact fun hi => k.inv (h.inv hi)

theorem Only.mono {E M : Nat} {s t : State} (k : Only M s t) (hE : E ||| M = E := by decide) : Only E s t := (Only.refl E s).comp k hE

/-- A field outside a footprint keeps its value. -/
theorem Only.get {E : Nat} {s t : State} {f : Fld} (h : Only E s t) (hf : leaves E f.addr = true := by decide) : t.get f = s.get f := by
  simp only [State.get, h.word f.addr hf]

theorem Only.modeEq {E : Nat} {s t : State} (h : Only E s t) (hE : E.testBit 26 = false := by decide) : t.mode = s.mode := by
  simp only [State.mode, h.mode hE]

theorem Only.ite {E : Nat} {s a b : State} {c : Prop} [Decidable c] (ha : Only E s a) (hb : Only E s b) :
    Only E s (if c then a else b) := by split <;> assumption

/-- A step that one side of a choice adds to the other. -/
theorem Only.iteOn {E : Nat} {s a b : State} {c : Prop} [Decidable c] (hb : Only E s b) (ha : Only E b a) :
    Only E s (if c then a else b) := by split; exacts [hb.comp ha (Nat.or_self E), hb]

theorem Only.iteOff {E : Nat} {s a b : State} {c : Prop} [Decidable c] (ha : Only E s a) (hb : Only E a b) :
    Only E s (if c then a else b) := by split; exacts [ha, ha.comp hb (Nat.or_self E)]

theorem Only.dite {E : Nat} {s : State} {c : Prop} [Decidable c] {a : c → State} {b : ¬c → State} (ha : ∀ h, Only E s (a h))
    (hb : ∀ h, Only E s (b h)) : Only E s (if h : c then a h else b h) := by split <;> simp_all

theorem Only.ofPair {E : Nat} {s u : State} {α : Type} {p : State × α} {v : α} (h : p = (u, v)) (k : Only E s p.1) : Only E s u := by
  subst h; exact k

theorem Only.iteFst {E : Nat} {s : State} {α : Type} {a b : State × α} {c : Prop} [Decidable c] (ha : Only E s a.1)
    (hb : Only E s b.1) : Only E s (if c then a else b).1 := by split <;> assumption

theorem Only.diteFst {E : Nat} {s : State} {α : Type} {c : Prop} [Decidable c] {a : c → State × α} {b : ¬c → State × α}
    (ha : ∀ h, Only E s (a h).1) (hb : ∀ h, Only E s (b h).1) : Only E s (if h : c then a h else b h).1 := by split <;> simp_all

theorem Only.foldlFst {E : Nat} {s : State} {α β : Type} {p : State × β} {f : State × β → α → State × β} {l : List α} (h : Only E s p.1)
    (hf : ∀ u x, Only E u.1 (f u x).1) : Only E s (l.foldl f p).1 := by
  induction l generalizing p with
  | nil => exact h
  | cons x r ih => exact ih (h.comp (hf p x) (Nat.or_self E))

theorem Only.foldl {E : Nat} {s t : State} {α : Type} {f : State → α → State} {l : List α} (h : Only E s t)
    (hf : ∀ u x, Only E u (f u x)) : Only E s (l.foldl f t) := by
  induction l generalizing t with
  | nil => exact h
  | cons x r ih => exact ih (h.comp (hf t x) (Nat.or_self E))

theorem Only.foldlMem {E : Nat} {s t : State} {α : Type} {f : State → α → State} {l : List α} (h : Only E s t)
    (hf : ∀ u, ∀ x ∈ l, Only E u (f u x)) : Only E s (l.foldl f t) := by
  induction l generalizing t with
  | nil => exact h
  | cons x r ih => exact ih (h.comp (hf t x (by simp)) (Nat.or_self E)) fun u y hy => hf u y (by simp [hy])

theorem Only.when {E : Nat} {s t : State} {c : Bool} {f : State → State} (h : Only E s t) (hf : Only E t (f t)) :
    Only E s (t.when c f) := by
  unfold State.when
  split
  · exact h.comp hf (Nat.or_self E)
  · exact h

/-- A record update that leaves the register file, the SRAM and the OTP. -/
theorem Only.upd {E : Nat} {s t : State} (h : Only E s t)
    {pending' : List Instr} (h_pending : E.testBit 0 = false → pending' = t.pending := by first | exact fun h => absurd h (by decide) | exact fun _ => rfl)
    {now' : Nat} (h_now : E.testBit 1 = false → now' = t.now := by first | exact fun h => absurd h (by decide) | exact fun _ => rfl)
    {pstart' : Nat} (h_pstart : E.testBit 2 = false → pstart' = t.pstart := by first | exact fun h => absurd h (by decide) | exact fun _ => rfl)
    {ecc1' : List Nat} (h_ecc1 : E.testBit 4 = false → ecc1' = t.ecc1 := by first | exact fun h => absurd h (by decide) | exact fun _ => rfl)
    {ecc2' : List Nat} (h_ecc2 : E.testBit 4 = false → ecc2' = t.ecc2 := by first | exact fun h => absurd h (by decide) | exact fun _ => rfl)
    {boot' : Boot} (h_boot : E.testBit 6 = false → boot' = t.boot := by first | exact fun h => absurd h (by decide) | exact fun _ => rfl)
    {isl' : Island} (h_isl : E.testBit 7 = false → isl' = t.isl := by first | exact fun h => absurd h (by decide) | exact fun _ => rfl)
    {cl' : Clauses} (h_cl : E.testBit 8 = false → cl' = t.cl := by first | exact fun h => absurd h (by decide) | exact fun _ => rfl)
    {vid' : Video} (h_vid : E.testBit 9 = false → vid' = t.vid := by first | exact fun h => absurd h (by decide) | exact fun _ => rfl)
    {fades' : Vector Fade 160} (h_fades : E.testBit 10 = false → fades' = t.fades := by first | exact fun h => absurd h (by decide) | exact fun _ => rfl)
    {chains' : Vector Chain 20} (h_chains : E.testBit 11 = false → chains' = t.chains := by first | exact fun h => absurd h (by decide) | exact fun _ => rfl)
    {tiles' : Vector Tile 80} (h_tiles : E.testBit 12 = false → tiles' = t.tiles := by first | exact fun h => absurd h (by decide) | exact fun _ => rfl)
    {light' : Light} (h_light : E.testBit 13 = false → light' = t.light := by first | exact fun h => absurd h (by decide) | exact fun _ => rfl)
    {flt' : Flt} (h_flt : E.testBit 14 = false → flt' = t.flt := by first | exact fun h => absurd h (by decide) | exact fun _ => rfl)
    {adc' : Adc} (h_adc : E.testBit 15 = false → adc' = t.adc := by first | exact fun h => absurd h (by decide) | exact fun _ => rfl)
    {bal' : Bal} (h_bal : E.testBit 16 = false → bal' = t.bal := by first | exact fun h => absurd h (by decide) | exact fun _ => rfl)
    {spl' : Spl} (h_spl : E.testBit 17 = false → spl' = t.spl := by first | exact fun h => absurd h (by decide) | exact fun _ => rfl)
    {sio' : Sio} (h_sio : E.testBit 18 = false → sio' = t.sio := by first | exact fun h => absurd h (by decide) | exact fun _ => rfl)
    {skink' : Skink} (h_skink : E.testBit 19 = false → skink' = t.skink := by first | exact fun h => absurd h (by decide) | exact fun _ => rfl)
    {link' : Link} (h_link : E.testBit 20 = false → link' = t.link := by first | exact fun h => absurd h (by decide) | exact fun _ => rfl)
    {spi' : Spi} (h_spi : E.testBit 21 = false → spi' = t.spi := by first | exact fun h => absurd h (by decide) | exact fun _ => rfl)
    {spd' : Spd} (h_spd : E.testBit 22 = false → spd' = t.spd := by first | exact fun h => absurd h (by decide) | exact fun _ => rfl)
    {pair' : Pair} (h_pair : E.testBit 23 = false → pair' = t.pair := by first | exact fun h => absurd h (by decide) | exact fun _ => rfl)
    {out' : List Out} (h_out : E.testBit 24 = false → out' = t.out := by first | exact fun h => absurd h (by decide) | exact fun _ => rfl)
    {draws' : Nat} (h_draws : E.testBit 25 = false → draws' = t.draws := by first | exact fun h => absurd h (by decide) | exact fun _ => rfl)
    : Only E s (State.mk pending' now' pstart' t.regs t.sram ecc1' ecc2' t.otp boot' isl' cl' vid' fades' chains' tiles' light' flt' adc' bal' spl' sio' skink' link' spi' spd' pair' out' draws') := by
  constructor
  · intro hb; exact (h_pending hb).trans (h.pending hb)
  · intro hb; exact (h_now hb).trans (h.now hb)
  · intro hb; exact (h_pstart hb).trans (h.pstart hb)
  · exact h.sram
  · intro hb; exact ⟨(h_ecc1 hb).trans (h.ecc hb).1, (h_ecc2 hb).trans (h.ecc hb).2⟩
  · exact h.otp
  · intro hb; exact (h_boot hb).trans (h.boot hb)
  · intro hb; exact (h_isl hb).trans (h.isl hb)
  · intro hb; exact (h_cl hb).trans (h.cl hb)
  · intro hb; exact (h_vid hb).trans (h.vid hb)
  · intro hb; exact (h_fades hb).trans (h.fades hb)
  · intro hb; exact (h_chains hb).trans (h.chains hb)
  · intro hb; exact (h_tiles hb).trans (h.tiles hb)
  · intro hb; exact (h_light hb).trans (h.light hb)
  · intro hb; exact (h_flt hb).trans (h.flt hb)
  · intro hb; exact (h_adc hb).trans (h.adc hb)
  · intro hb; exact (h_bal hb).trans (h.bal hb)
  · intro hb; exact (h_spl hb).trans (h.spl hb)
  · intro hb; exact (h_sio hb).trans (h.sio hb)
  · intro hb; exact (h_skink hb).trans (h.skink hb)
  · intro hb; exact (h_link hb).trans (h.link hb)
  · intro hb; exact (h_spi hb).trans (h.spi hb)
  · intro hb; exact (h_spd hb).trans (h.spd hb)
  · intro hb; exact (h_pair hb).trans (h.pair hb)
  · intro hb; exact (h_out hb).trans (h.out hb)
  · intro hb; exact (h_draws hb).trans (h.draws hb)
  · exact h.mode
  · exact h.stat
  · exact h.word
  · exact h.inv

/-- A record update of the memories beside other parts. -/
theorem Only.updMem {E : Nat} {s t : State} (h : Only E s t)
    {pending' : List Instr} (h_pending : E.testBit 0 = false → pending' = t.pending := by first | exact fun h => absurd h (by decide) | exact fun _ => rfl)
    {now' : Nat} (h_now : E.testBit 1 = false → now' = t.now := by first | exact fun h => absurd h (by decide) | exact fun _ => rfl)
    {pstart' : Nat} (h_pstart : E.testBit 2 = false → pstart' = t.pstart := by first | exact fun h => absurd h (by decide) | exact fun _ => rfl)
    {ecc1' : List Nat} (h_ecc1 : E.testBit 4 = false → ecc1' = t.ecc1 := by first | exact fun h => absurd h (by decide) | exact fun _ => rfl)
    {ecc2' : List Nat} (h_ecc2 : E.testBit 4 = false → ecc2' = t.ecc2 := by first | exact fun h => absurd h (by decide) | exact fun _ => rfl)
    {boot' : Boot} (h_boot : E.testBit 6 = false → boot' = t.boot := by first | exact fun h => absurd h (by decide) | exact fun _ => rfl)
    {isl' : Island} (h_isl : E.testBit 7 = false → isl' = t.isl := by first | exact fun h => absurd h (by decide) | exact fun _ => rfl)
    {cl' : Clauses} (h_cl : E.testBit 8 = false → cl' = t.cl := by first | exact fun h => absurd h (by decide) | exact fun _ => rfl)
    {vid' : Video} (h_vid : E.testBit 9 = false → vid' = t.vid := by first | exact fun h => absurd h (by decide) | exact fun _ => rfl)
    {fades' : Vector Fade 160} (h_fades : E.testBit 10 = false → fades' = t.fades := by first | exact fun h => absurd h (by decide) | exact fun _ => rfl)
    {chains' : Vector Chain 20} (h_chains : E.testBit 11 = false → chains' = t.chains := by first | exact fun h => absurd h (by decide) | exact fun _ => rfl)
    {tiles' : Vector Tile 80} (h_tiles : E.testBit 12 = false → tiles' = t.tiles := by first | exact fun h => absurd h (by decide) | exact fun _ => rfl)
    {light' : Light} (h_light : E.testBit 13 = false → light' = t.light := by first | exact fun h => absurd h (by decide) | exact fun _ => rfl)
    {flt' : Flt} (h_flt : E.testBit 14 = false → flt' = t.flt := by first | exact fun h => absurd h (by decide) | exact fun _ => rfl)
    {adc' : Adc} (h_adc : E.testBit 15 = false → adc' = t.adc := by first | exact fun h => absurd h (by decide) | exact fun _ => rfl)
    {bal' : Bal} (h_bal : E.testBit 16 = false → bal' = t.bal := by first | exact fun h => absurd h (by decide) | exact fun _ => rfl)
    {spl' : Spl} (h_spl : E.testBit 17 = false → spl' = t.spl := by first | exact fun h => absurd h (by decide) | exact fun _ => rfl)
    {sio' : Sio} (h_sio : E.testBit 18 = false → sio' = t.sio := by first | exact fun h => absurd h (by decide) | exact fun _ => rfl)
    {skink' : Skink} (h_skink : E.testBit 19 = false → skink' = t.skink := by first | exact fun h => absurd h (by decide) | exact fun _ => rfl)
    {link' : Link} (h_link : E.testBit 20 = false → link' = t.link := by first | exact fun h => absurd h (by decide) | exact fun _ => rfl)
    {spi' : Spi} (h_spi : E.testBit 21 = false → spi' = t.spi := by first | exact fun h => absurd h (by decide) | exact fun _ => rfl)
    {spd' : Spd} (h_spd : E.testBit 22 = false → spd' = t.spd := by first | exact fun h => absurd h (by decide) | exact fun _ => rfl)
    {pair' : Pair} (h_pair : E.testBit 23 = false → pair' = t.pair := by first | exact fun h => absurd h (by decide) | exact fun _ => rfl)
    {out' : List Out} (h_out : E.testBit 24 = false → out' = t.out := by first | exact fun h => absurd h (by decide) | exact fun _ => rfl)
    {draws' : Nat} (h_draws : E.testBit 25 = false → draws' = t.draws := by first | exact fun h => absurd h (by decide) | exact fun _ => rfl)
    {sram' otp' : Memory} (h_sram : E.testBit 3 = false → sram' = t.sram := by first | exact fun h => absurd h (by decide) | exact fun _ => rfl) (h_otp : E.testBit 5 = false → otp' = t.otp := by first | exact fun _ => rfl | exact fun h => absurd h (by decide))
    (hs : t.sram.wf = true → Memory.wf sram' = true := by exact id) (ho : t.otp.wf = true → Memory.wf otp' = true := by exact id)
    : Only E s (State.mk pending' now' pstart' t.regs sram' ecc1' ecc2' otp' boot' isl' cl' vid' fades' chains' tiles' light' flt' adc' bal' spl' sio' skink' link' spi' spd' pair' out' draws') := by
  constructor
  · intro hb; exact (h_pending hb).trans (h.pending hb)
  · intro hb; exact (h_now hb).trans (h.now hb)
  · intro hb; exact (h_pstart hb).trans (h.pstart hb)
  · intro hb; exact (h_sram hb).trans (h.sram hb)
  · intro hb; exact ⟨(h_ecc1 hb).trans (h.ecc hb).1, (h_ecc2 hb).trans (h.ecc hb).2⟩
  · intro hb; exact (h_otp hb).trans (h.otp hb)
  · intro hb; exact (h_boot hb).trans (h.boot hb)
  · intro hb; exact (h_isl hb).trans (h.isl hb)
  · intro hb; exact (h_cl hb).trans (h.cl hb)
  · intro hb; exact (h_vid hb).trans (h.vid hb)
  · intro hb; exact (h_fades hb).trans (h.fades hb)
  · intro hb; exact (h_chains hb).trans (h.chains hb)
  · intro hb; exact (h_tiles hb).trans (h.tiles hb)
  · intro hb; exact (h_light hb).trans (h.light hb)
  · intro hb; exact (h_flt hb).trans (h.flt hb)
  · intro hb; exact (h_adc hb).trans (h.adc hb)
  · intro hb; exact (h_bal hb).trans (h.bal hb)
  · intro hb; exact (h_spl hb).trans (h.spl hb)
  · intro hb; exact (h_sio hb).trans (h.sio hb)
  · intro hb; exact (h_skink hb).trans (h.skink hb)
  · intro hb; exact (h_link hb).trans (h.link hb)
  · intro hb; exact (h_spi hb).trans (h.spi hb)
  · intro hb; exact (h_spd hb).trans (h.spd hb)
  · intro hb; exact (h_pair hb).trans (h.pair hb)
  · intro hb; exact (h_out hb).trans (h.out hb)
  · intro hb; exact (h_draws hb).trans (h.draws hb)
  · exact h.mode
  · exact h.stat
  · exact h.word
  · exact fun hi => ⟨hs (h.inv hi).1, ho (h.inv hi).2.1, (h.inv hi).2.2⟩

/-- A register word may be written within a footprint. -/
def covers (E a : Nat) : Bool := decide (a % 0x1000 < 0x40) || (a != 0x48 && E.testBit (wordPart a))

theorem wordPart_page {a b : Nat} (ha : 0x4000 ≤ a) (h : a / 0x1000 = b / 0x1000) : wordPart a = wordPart b := by
  unfold wordPart
  rw [if_neg (by omega), if_neg (by omega), h]

theorem covers_same {E a b : Nat} (h : 0x4000 ≤ a ∧ a / 0x1000 = b / 0x1000) (hE : E.testBit (wordPart b) = true) :
    covers E a = true := by
  have := wordPart_page h.1 h.2
  simp [covers, this, hE, show a ≠ 0x48 by omega]

theorem covers_page {E p k : Nat} (h : k < 0x40 := by decide) : covers E (pageAddr p + k) = true := by
  have : (pageAddr p + k) % 0x1000 < 0x40 := by unfold pageAddr; omega
  simp [covers, this]

/-- An array of registers lies on one page of the footprint. -/
def arrOk (E b m n o : Nat) : Bool :=
  decide (0 < n ∧ 0x4000 ≤ b ∧ (b + m * (n - 1) + o) / 0x1000 = b / 0x1000) && E.testBit (wordPart b)

theorem covers_arr2 {E b m n k o : Nat} (h : arrOk E b m n o = true := by decide) : covers E (b + m * (k % n) + o) = true := by
  simp only [arrOk, Bool.and_eq_true, decide_eq_true_eq] at h
  obtain ⟨⟨hn, hb, hp⟩, hE⟩ := h
  have hk : k % n ≤ n - 1 := by have := Nat.mod_lt k hn; omega
  have := Nat.mul_le_mul_left m hk
  have h1 : b / 0x1000 ≤ (b + m * (k % n) + o) / 0x1000 := Nat.div_le_div_right (by omega)
  have h2 : (b + m * (k % n) + o) / 0x1000 ≤ (b + m * (n - 1) + o) / 0x1000 := Nat.div_le_div_right (by omega)
  exact covers_same ⟨by omega, by omega⟩ hE

theorem covers_arr {E b m n k : Nat} (h : arrOk E b m n 0 = true := by decide) : covers E (b + m * (k % n)) = true :=
  covers_arr2 (o := 0) h

theorem covers_lnk {E n k : Nat} (h : k < 0x1000 ∧ E.testBit 36 = true := by decide) : covers E (lnkAddr n + k) = true := by
  have hn : n % 4 < 4 := Nat.mod_lt _ (by decide)
  have hE : ∀ i < 4, E.testBit (wordPart (0x4000 + i * 0x1000)) = true := by
    intro i hi
    have : wordPart (0x4000 + i * 0x1000) = 36 := by
      rcases i with _ | _ | _ | _ | i <;> first | rfl | omega
    rw [this, h.2]
  exact covers_same (by unfold lnkAddr; omega) (hE _ hn)

theorem covers_lnk2 {E n j m q k : Nat} (h : (0 < q ∧ j + m * (q - 1) < 0x1000) ∧ E.testBit 36 = true := by decide) :
    covers E (lnkAddr n + j + m * (k % q)) = true := by
  have hk : k % q ≤ q - 1 := by have := Nat.mod_lt k h.1.1; omega
  have := Nat.mul_le_mul_left m hk
  rw [Nat.add_assoc]
  exact covers_lnk ⟨by omega, h.2⟩

theorem covers_two {E a b : Nat} {i : Nat} (hi : i < 2) (ha : a / 0x1000 = b / 0x1000 + i) (hb : 0x4000 ≤ b)
    (h0 : E.testBit (wordPart b) = true) (h1 : E.testBit (wordPart (b + 0x1000)) = true) : covers E a = true := by
  rcases i with _ | _ | i
  · exact covers_same ⟨by omega, by omega⟩ h0
  · exact covers_same ⟨by omega, by omega⟩ h1
  · omega

theorem covers_chn {E c k : Nat} (h : k < 0x40 ∧ E.testBit 48 = true := by decide) : covers E (chnAddr c + k) = true :=
  covers_two (b := 0x14000) (i := c / 10 % 2) (by omega) (by unfold chnAddr; omega) (by decide) h.2 h.2

theorem covers_til {E i k : Nat} (h : k < 0x20 ∧ E.testBit 49 = true := by decide) : covers E (tilAddr i + k) = true :=
  covers_two (b := 0x16000) (i := i / 40 % 2) (by omega) (by unfold tilAddr; omega) (by decide) h.2 h.2

theorem covers_asp {E a k : Nat} (h : k < 0x20 ∧ E.testBit 45 = true := by decide) : covers E (aspAddr a + k) = true :=
  covers_two (b := 0x10000) (i := a / 80 % 2) (by omega) (by unfold aspAddr; omega) (by decide) h.2 h.2

theorem covers_ite {E a b : Nat} {c : Prop} [Decidable c] (ha : covers E a = true) (hb : covers E b = true) :
    covers E (if c then a else b) = true := by split <;> assumption

theorem wordPart_range (a : Nat) : 28 ≤ wordPart a ∧ wordPart a < 58 := by
  unfold wordPart
  split
  · repeat' split
    all_goals omega
  · have key : ∀ k, 28 ≤ [36, 36, 36, 36, 37, 38, 39, 40, 41, 42, 43, 44, 45, 45, 46, 47, 48, 48, 49, 49, 50, 51, 52, 53, 54, 55,
        56].getD k 57 ∧ [36, 36, 36, 36, 37, 38, 39, 40, 41, 42, 43, 44, 45, 45, 46, 47, 48, 48, 49, 49, 50, 51, 52, 53, 54, 55,
        56].getD k 57 < 58 := by
      intro k
      by_cases hk : k < 27
      · revert k; decide
      · rw [List.getD_eq_default _ _ (by simpa using hk)]; decide
    exact key _

/-- Every register but SYS_STAT, where a footprint holds every part that words have. -/
theorem covers_any {E a : Nat} (ha : a ≠ 0x48) (hE : (List.range 30).all (fun i => E.testBit (28 + i)) = true := by decide) :
    covers E a = true := by
  have hr := wordPart_range a
  have := List.all_eq_true.mp hE (wordPart a - 28) (List.mem_range.mpr (by omega))
  rw [show 28 + (wordPart a - 28) = wordPart a by omega] at this
  simp [covers, this, ha]

/-- Every register of pages 4 and up, where a footprint holds the parts of those pages. -/
theorem covers_high {E a : Nat} (ha : 0x4000 ≤ a) (hE : (List.range 22).all (fun i => E.testBit (36 + i)) = true := by decide) :
    covers E a = true := by
  have hr := wordPart_range a
  have h36 : 36 ≤ wordPart a := by
    have key : ∀ k, 36 ≤ [36, 36, 36, 36, 37, 38, 39, 40, 41, 42, 43, 44, 45, 45, 46, 47, 48, 48, 49, 49, 50, 51, 52, 53, 54, 55,
        56].getD k 57 := by
      intro k
      by_cases hk : k < 27
      · revert k; decide
      · rw [List.getD_eq_default _ _ (by simpa using hk)]; decide
    unfold wordPart
    rw [if_neg (by omega)]
    exact key _
  have := List.all_eq_true.mp hE (wordPart a - 36) (List.mem_range.mpr (by omega))
  rw [show 36 + (wordPart a - 36) = wordPart a by omega] at this
  simp [covers, this, show a ≠ 0x48 by omega]

theorem ne_of_leaves_covers {E a b : Nat} (ha : leaves E a = true) (hb : covers E b = true) : a ≠ b := by
  rintro rfl
  simp only [leaves, covers, Bool.and_eq_true, Bool.or_eq_true, decide_eq_true_eq, Bool.not_eq_true', bne_iff_ne, ne_eq] at ha hb
  rcases hb with hb | hb
  · omega
  · simp_all

theorem stat_of_covers {E a : Nat} (h : covers E a = true) : R.SYS_STAT ≠ a := by
  rintro rfl
  revert h
  simp [covers, R.SYS_STAT]

/-- The state is replaced but for the parts that a reset keeps. -/
theorem Only.ofReset {E : Nat} {s t : State} (hp : t.pending = s.pending) (hn : t.now = s.now) (ho : t.otp = s.otp)
    (hout : t.out = s.out) (hd : t.draws = s.draws) (hs : s.sram.wf = true → t.sram.wf = true) (hm : t.get F.SYS_STAT_mode ≤ 5)
    (hE : (List.range 58).all (fun i => E.testBit i || [0, 1, 5, 24, 25].contains i) = true := by decide) : Only E s t := by
  have key (i : Nat) (hi : i < 58) (h : E.testBit i = false) : i = 0 ∨ i = 1 ∨ i = 5 ∨ i = 24 ∨ i = 25 := by
    have := List.all_eq_true.mp hE i (List.mem_range.mpr hi)
    simpa [h] using this
  constructor
  case pending => exact fun _ => hp
  case now => exact fun _ => hn
  case otp => exact fun _ => ho
  case out => exact fun _ => hout
  case draws => exact fun _ => hd
  case word =>
    intro a ha
    simp only [leaves, Bool.and_eq_true, Bool.not_eq_true'] at ha
    have := wordPart_range a
    have := key _ this.2 ha.2
    omega
  case inv => exact fun hi => ⟨hs hi.1, ho ▸ hi.2.1, hm⟩
  all_goals exact fun h => absurd (key _ (by decide) h) (by decide)

/-- Register words may have gone back to their reset values. -/
theorem Only.regs {E : Nat} {s t : State} {rs : List (Nat × Word)} (h : Only E s t)
    (hr : ∀ a, ({ t with regs := rs } : State).reg a = t.reg a ∨ ({ t with regs := rs } : State).reg a = resetWord a)
    (hE : (List.range 58).all (fun i => E.testBit i || decide (i < 26)) = true) : Only E s { t with regs := rs } := by
  have key (i : Nat) (hi : i < 58) (h : E.testBit i = false) : i < 26 := by
    have := List.all_eq_true.mp hE i (List.mem_range.mpr hi)
    simpa [h] using this
  obtain ⟨h1, h2, h3, h4, h5, h6, h7, h8, h9, h10, h11, h12, h13, h14, h15, h16, h17, h18, h19, h20, h21, h22, h23, h24, h25, h26,
    -, -, -, hi⟩ := h
  refine ⟨h1, h2, h3, h4, h5, h6, h7, h8, h9, h10, h11, h12, h13, h14, h15, h16, h17, h18, h19, h20, h21, h22, h23, h24, h25, h26,
    ?_, ?_, ?_, ?_⟩
  · exact fun h => absurd (key _ (by decide) h) (by decide)
  · exact fun h => absurd (key _ (by decide) h) (by decide)
  · intro a ha
    simp only [leaves, Bool.and_eq_true, Bool.not_eq_true'] at ha
    have := wordPart_range a
    have := key _ this.2 ha.2
    omega
  · intro hs
    refine ⟨(hi hs).1, (hi hs).2.1, ?_⟩
    have hm := (hi hs).2.2
    unfold State.get at hm ⊢
    rcases hr F.SYS_STAT_mode.addr with h | h
    · rw [h]; exact hm
    · rw [h]; decide

theorem Only.setReg {E : Nat} {s t : State} {a : Nat} {v : Word} (h : Only E s t) (hc : covers E a = true := by decide) :
    Only E s (t.setReg a v) := by
  have hs : R.SYS_STAT ≠ a := stat_of_covers hc
  have hm : (t.setReg a v).get F.SYS_STAT_mode = t.get F.SYS_STAT_mode := get_setReg_ne t v hs
  constructor
  · exact h.pending
  · exact h.now
  · exact h.pstart
  · exact h.sram
  · exact h.ecc
  · exact h.otp
  · exact h.boot
  · exact h.isl
  · exact h.cl
  · exact h.vid
  · exact h.fades
  · exact h.chains
  · exact h.tiles
  · exact h.light
  · exact h.flt
  · exact h.adc
  · exact h.bal
  · exact h.spl
  · exact h.sio
  · exact h.skink
  · exact h.link
  · exact h.spi
  · exact h.spd
  · exact h.pair
  · exact h.out
  · exact h.draws
  · intro hb; exact hm.trans (h.mode hb)
  · intro hb; rw [reg_setReg_ne t v hs]; exact h.stat hb
  · intro b hb; rw [reg_setReg_ne t v (ne_of_leaves_covers hb hc)]; exact h.word b hb
  · intro hi; exact ⟨(h.inv hi).1, (h.inv hi).2.1, hm ▸ (h.inv hi).2.2⟩

theorem Only.setRegN {E : Nat} {s t : State} {a v : Nat} (h : Only E s t) (hc : covers E a = true := by decide) :
    Only E s (t.setRegN a v) := h.setReg hc

theorem Only.put {E : Nat} {s t : State} {f : Fld} {v : Nat} (h : Only E s t) (hc : covers E f.addr = true := by decide) :
    Only E s (t.put f v) := h.setReg hc

theorem Only.flag {E : Nat} {s t : State} {f : Fld} {b : Bool} (h : Only E s t) (hc : covers E f.addr = true := by decide) :
    Only E s (t.flag f b) := h.put hc

theorem Only.incBy {E : Nat} {s t : State} {f : Fld} {n : Nat} (h : Only E s t) (hc : covers E f.addr = true := by decide) :
    Only E s (t.incBy f n) := h.put hc

theorem Only.inc {E : Nat} {s t : State} {f : Fld} (h : Only E s t) (hc : covers E f.addr = true := by decide) : Only E s (t.inc f) := h.put hc

theorem Only.incWrap {E : Nat} {s t : State} {f : Fld} (h : Only E s t) (hc : covers E f.addr = true := by decide) : Only E s (t.incWrap f) :=
  h.put hc

theorem Only.peak {E : Nat} {s t : State} {f : Fld} {v : Nat} (h : Only E s t) (hc : covers E f.addr = true := by decide) :
    Only E s (t.peak f v) := h.put hc

theorem Only.setBit {E : Nat} {s t : State} {a n : Nat} {b : Bool} (h : Only E s t) (hc : covers E a = true := by decide) :
    Only E s (t.setBit a n b) := h.setReg hc

theorem covers_raw (E p : Nat) : covers E (R.PIRQ_RAW p) = true := covers_page (by decide)

theorem Only.event {E : Nat} {s t : State} {p n : Nat} (h : Only E s t) : Only E s (t.event p n) := h.setBit (covers_raw E p)

theorem Only.eventIf {E : Nat} {s t : State} {c : Bool} {p n : Nat} (h : Only E s t) : Only E s (t.eventIf c p n) := by
  unfold State.eventIf
  split
  · exact h.event
  · exact h

theorem Only.zeroRegs {E : Nat} {s t : State} {as : List Nat} (h : Only E s t) (hc : ∀ a ∈ as, covers E a = true := by decide) :
    Only E s (t.zeroRegs as) := by
  unfold State.zeroRegs
  induction as generalizing t with
  | nil => exact h
  | cons a r ih => exact ih (h.setReg (hc a (by simp))) fun b hb => hc b (by simp [hb])

/-- A field of SYS_STAT above the mode. -/
theorem Only.putStat {E : Nat} {s t : State} {f : Fld} {v : Nat} (h : Only E s t) (hf : f.addr = R.SYS_STAT ∧ 4 ≤ f.lo ∧ E.testBit 27 = true := by decide) :
    Only E s (t.put f v) := by
  have hm : (t.put f v).get F.SYS_STAT_mode = t.get F.SYS_STAT_mode :=
    get_put_apart t f _ v (by simp [Fld.apart, F.SYS_STAT_mode, hf.2.1])
  constructor
  · exact h.pending
  · exact h.now
  · exact h.pstart
  · exact h.sram
  · exact h.ecc
  · exact h.otp
  · exact h.boot
  · exact h.isl
  · exact h.cl
  · exact h.vid
  · exact h.fades
  · exact h.chains
  · exact h.tiles
  · exact h.light
  · exact h.flt
  · exact h.adc
  · exact h.bal
  · exact h.spl
  · exact h.sio
  · exact h.skink
  · exact h.link
  · exact h.spi
  · exact h.spd
  · exact h.pair
  · exact h.out
  · exact h.draws
  · intro hb; exact hm.trans (h.mode hb)
  · intro hb; simp [hf.2.2] at hb
  · intro b hb
    rw [reg_put_ne t f v]
    · exact h.word b hb
    · rintro rfl; rw [hf.1] at hb; revert hb; simp [leaves, R.SYS_STAT]
  · intro hi; exact ⟨(h.inv hi).1, (h.inv hi).2.1, hm ▸ (h.inv hi).2.2⟩

theorem Only.flagStat {E : Nat} {s t : State} {f : Fld} {b : Bool} (h : Only E s t)
    (hf : f.addr = R.SYS_STAT ∧ 4 ≤ f.lo ∧ E.testBit 27 = true := by decide) : Only E s (t.flag f b) := h.putStat hf

theorem Only.incStat {E : Nat} {s t : State} {f : Fld} (h : Only E s t)
    (hf : f.addr = R.SYS_STAT ∧ 4 ≤ f.lo ∧ E.testBit 27 = true := by decide) : Only E s (t.inc f) := h.putStat hf

theorem Only.incWrapStat {E : Nat} {s t : State} {f : Fld} (h : Only E s t)
    (hf : f.addr = R.SYS_STAT ∧ 4 ≤ f.lo ∧ E.testBit 27 = true := by decide) : Only E s (t.incWrap f) := h.putStat hf

theorem Mode.code_le (m : Mode) : m.code ≤ 5 := by cases m <;> decide

@[simp] theorem get_setMode (s : State) (m : Mode) : (s.setMode m).get F.SYS_STAT_mode = m.code := by
  rw [State.setMode, get_put_same _ _ _ (by decide)]
  cases m <;> rfl

@[simp] theorem modeOf_code (m : Mode) : modeOf m.code = m := by cases m <;> rfl

@[simp] theorem mode_setMode (s : State) (m : Mode) : (s.setMode m).mode = m := by simp [State.mode]

/-- The mode follows its field. -/
theorem mode_congr {s t : State} (h : t.get F.SYS_STAT_mode = s.get F.SYS_STAT_mode) : t.mode = s.mode := by simp [State.mode, h]

theorem Only.setMode {E : Nat} {s t : State} {m : Mode} (h : Only E s t) (hE : E.testBit 26 = true := by decide) : Only E s (t.setMode m) := by
  have hn {b : Nat} (hb : leaves E b = true) : b ≠ F.SYS_STAT_mode.addr := by
    rintro rfl; revert hb; simp [leaves, F.SYS_STAT_mode, R.SYS_STAT]
  constructor
  · exact h.pending
  · exact h.now
  · exact h.pstart
  · exact h.sram
  · exact h.ecc
  · exact h.otp
  · exact h.boot
  · exact h.isl
  · exact h.cl
  · exact h.vid
  · exact h.fades
  · exact h.chains
  · exact h.tiles
  · exact h.light
  · exact h.flt
  · exact h.adc
  · exact h.bal
  · exact h.spl
  · exact h.sio
  · exact h.skink
  · exact h.link
  · exact h.spi
  · exact h.spd
  · exact h.pair
  · exact h.out
  · exact h.draws
  · intro hb; simp [hE] at hb
  · intro hb
    rw [← h.stat hb, State.setMode, reg_put, if_pos (show R.SYS_STAT = F.SYS_STAT_mode.addr from rfl)]
    exact getBits_insBits_ne _ _ (by decide)
  · intro b hb; exact (reg_put_ne t _ _ (hn hb)).trans (h.word b hb)
  · intro hi; exact ⟨(h.inv hi).1, (h.inv hi).2.1, by rw [get_setMode]; exact m.code_le⟩

theorem State.emit_only (s : State) (o : Out) : Only P.out s (s.emit o) := .upd (.refl _ s)

theorem State.draw_only (s : State) : Only P.draws s s.draw := .upd (.refl _ s)

theorem memWf_mend {s : State} {a n : Nat} (h : s.sram.wf = true) : (s.mend a n).sram.wf = true := by
  have key (l : List Nat) (m : Memory) (hm : m.wf = true) : Memory.wf (l.foldl (fun m w => memZero m (8 * w) 8) m) = true := by
    induction l generalizing m with
    | nil => exact hm
    | cons x r ih => exact ih _ (memWf_memZero hm)
  exact key _ _ h

theorem State.mend_only (s : State) (a n : Nat) : Only (P.sram ||| P.ecc) s (s.mend a n) :=
  .updMem (.refl _ s) (hs := fun h => memWf_mend h)

theorem State.setBytes_only (s : State) (a : Nat) (bs : List Byte) : Only (P.sram ||| P.ecc) s (s.setBytes a bs) :=
  .updMem (s.mend_only a bs.length) (hs := fun h => memWf_memPutBytes h)

theorem State.setLe_only (s : State) (a n v : Nat) : Only (P.sram ||| P.ecc) s (s.setLe a n v) := s.setBytes_only a _

theorem State.zero_only (s : State) (a n : Nat) : Only (P.sram ||| P.ecc) s (s.zero a n) :=
  .updMem (s.mend_only a n) (hs := fun h => memWf_memZero h)

end Sys2Proof.Machine
end

