-- ==== Sys2Proof/Laws/Footprint/Settings.lean ====
section
/-! SUPPORT. What the operations of Settings.lean may change. -/

set_option Elab.async false

namespace Sys2Proof.Machine

theorem State.showTiming_only (s : State) (d p : Nat) : Only (P.pgPlc ||| P.pgPrf) s (State.showTiming s d p) := by
  unfold State.showTiming; exact .put (.put (.put (.put (.put (.put (.put (.put (.put (.put (.refl ..))))))))))

end Sys2Proof.Machine
end

