-- ==== Sys2Proof/Laws/Footprint/Compose.lean ====
section
/-! SUPPORT. What the operations of Compose.lean may change. -/

set_option Elab.async false

namespace Sys2Proof.Machine

theorem State.markRows_only (s : State) (rs : List Nat) : Only P.vid s (State.markRows s rs) := by
  unfold State.markRows; exact .upd (.refl ..)

theorem State.markAll_only (s : State) : Only P.vid s (State.markAll s) := by
  unfold State.markAll; exact .upd (.refl ..)

theorem State.setPix_only (s : State) (p st conf prf : Nat) : Only (P.sram ||| P.ecc) s (State.setPix s p st conf prf) := by
  unfold State.setPix; exact .comp (.refl ..) (State.setLe_only ..)

theorem State.composeRow_only (s : State) (pi : PassIn) (slot r : Nat) : Only (P.sram ||| P.ecc) s (State.composeRow s pi slot r)
    := by
  unfold State.composeRow; exact .comp (.refl ..) (State.setBytes_only ..)

theorem State.onChain_only (s : State) (c : Nat) (f : Chain → Chain) : Only P.chains s (State.onChain s c f) := by
  unfold State.onChain; refine .dite ?_ ?_; intro _; exact .upd (.refl ..); intro _; exact .refl ..

theorem State.onTile_only (s : State) (t : Nat) (f : Tile → Tile) : Only P.tiles s (State.onTile s t f) := by
  unfold State.onTile; refine .dite ?_ ?_; intro _; exact .upd (.refl ..); intro _; exact .refl ..

theorem State.queueRows_only (s : State) (rs : List Nat) (f : Chain → List Nat → Chain) : Only P.chains s (State.queueRows s rs f)
    := by
  unfold State.queueRows; refine .ite ?_ ?_; exact .refl ..; refine .foldl ?_ ?_; exact .refl ..; intro _ _; dsimp only
  refine .ite ?_ ?_; exact .refl ..; exact .comp (.refl ..) (State.onChain_only ..)

theorem State.queueReact_only (s : State) (rs : List Nat) : Only P.chains s (State.queueReact s rs) := by
  unfold State.queueReact; exact .comp (.refl ..) (State.queueRows_only ..)

theorem State.queueUrgent_only (s : State) (rs : List Nat) : Only P.chains s (State.queueUrgent s rs) := by
  unfold State.queueUrgent; exact .comp (.refl ..) (State.queueRows_only ..)

theorem State.queueFrame_only (s : State) (rs : List Nat) : Only P.chains s (State.queueFrame s rs) := by
  unfold State.queueFrame; exact .comp (.refl ..) (State.queueRows_only ..)

theorem State.resendFrame_only (s : State) (rs : List Nat) : Only P.chains s (State.resendFrame s rs) := by
  unfold State.resendFrame; exact .comp (.refl ..) (State.queueRows_only ..)

theorem State.dropFrameRows_only (s : State) : Only (P.chains ||| P.tiles) s (State.dropFrameRows s) := by
  unfold State.dropFrameRows; dsimp only; refine .foldl ?_ ?_; exact .upd (.refl ..); intro _ _
  exact .comp (.refl ..) (State.onChain_only ..)

theorem State.dropPass_only (s : State) : Only (P.vid ||| P.chains ||| P.tiles ||| P.pgCmp) s (State.dropPass s) := by
  unfold State.dropPass; dsimp only; refine .ite ?_ ?_; exact .refl ..
  exact .upd (.comp (.comp (.put (.event (.inc (.refl ..)))) (State.markRows_only ..)) (State.dropFrameRows_only ..))

theorem State.passAfresh_only (s : State) : Only (P.vid ||| P.chains ||| P.tiles ||| P.pgCmp) s (State.passAfresh s) := by
  unfold State.passAfresh; dsimp only; exact .upd (.comp (.refl ..) (State.dropPass_only ..))

theorem State.supersede_only (s : State) : Only P.pgVin s (State.supersede s) := by
  unfold State.supersede; exact .event (.inc (.refl ..))

end Sys2Proof.Machine
end

