-- ==== Sys2Proof/Laws/Footprint/Held.lean ====
section
/-! SUPPORT. What the operations of Held.lean may change. -/

set_option Elab.async false

namespace Sys2Proof.Machine

theorem State.setInst_only (s : State) (cls inst : Nat) (i : FltInst) : Only P.flt s (State.setInst s cls inst i) := by
  unfold State.setInst; exact .upd (.refl ..)

theorem State.streamOff_only (s : State) (changed now : List Nat) : Only (P.chains ||| P.light) s (State.streamOff s changed now)
    := by
  unfold State.streamOff; dsimp only; refine .comp ?_ (State.resendFrame_only ..); refine .iteOn ?_ ?_
  exact .comp (.refl ..) (State.queueReact_only ..); exact .upd (.refl ..)

theorem State.updateBack_only (s : State) : Only (P.chains ||| P.light) s (State.updateBack s) := by
  unfold State.updateBack; refine .ite ?_ ?_; dsimp only; refine .ite ?_ ?_; exact .refl ..
  exact .comp (.upd (.refl ..)) (State.resendFrame_only ..); exact .refl ..

theorem State.showOff_only (s : State) (now : List Nat) : Only P.pgAsp s (State.showOff s now) := by
  unfold State.showOff; refine .foldl ?_ ?_; exact .refl ..; intro _ _; dsimp only
  exact .eventIf (.event (.flag (.refl ..) covers_asp))

theorem State.updateOff_only (s : State) : Only (P.chains ||| P.light ||| P.pgAsp) s (State.updateOff s) := by
  unfold State.updateOff; dsimp only; refine .ite ?_ ?_; exact .comp (.refl ..) (State.updateBack_only ..); split
  exact .comp (.comp (.refl ..) (State.showOff_only ..)) (State.streamOff_only ..)
  exact .comp (.refl ..) (State.showOff_only ..)
  exact .comp (.comp (.refl ..) (State.showOff_only ..)) (State.updateBack_only ..)
  exact .upd (.comp (.refl ..) (State.showOff_only ..))

theorem State.evalPolicies_only (s : State) : Only (P.chains ||| P.light ||| P.flt ||| P.pgAsp) s (State.evalPolicies s) := by
  unfold State.evalPolicies; exact .comp (.upd (.refl ..)) (State.updateOff_only ..)

end Sys2Proof.Machine
end

