-- ==== Sys2Proof/Laws/Footprint/Control.lean ====
section
/-! SUPPORT. What the operations of Control.lean may change. -/

set_option Elab.async false

namespace Sys2Proof.Machine

theorem State.chainOff_only (s : State) (c : Nat) : Only (P.chains ||| P.pgChn ||| P.pgTil) s (State.chainOff s c) := by
  unfold State.chainOff; dsimp only
  refine .comp (.put (.put (.put (.put ?_ covers_chn) covers_chn) covers_chn) covers_chn) (State.onChain_only ..)
  refine .foldl ?_ ?_; exact .refl ..; intro _ _; refine .ite ?_ ?_
  exact .event (.put (.put (.put (.refl ..) covers_til) covers_til) covers_til); exact .refl ..

theorem State.chainsOff_only (s : State) : Only (P.chains ||| P.pgChn ||| P.pgTil) s (State.chainsOff s) := by
  unfold State.chainsOff; refine .foldl ?_ ?_; exact .refl ..; intro _ _; exact .comp (.refl ..) (State.chainOff_only ..)

theorem State.onOut_only (s : State) (k : Nat) (f : SioOut → SioOut) : Only P.sio s (State.onOut s k f) := by
  unfold State.onOut; refine .dite ?_ ?_; intro _; exact .upd (.refl ..); intro _; exact .refl ..

theorem State.dropTest_only (s : State) (k : Nat) : Only (P.sio ||| P.pgSio) s (State.dropTest s k) := by
  unfold State.dropTest; dsimp only; refine .ite ?_ ?_
  exact .comp (.put (.event (.inc (.refl ..))) covers_arr) (State.onOut_only ..); exact .refl ..

theorem State.driveOut_only (s : State) (k : Nat) (b : Bool) : Only (P.sio ||| P.pgSio) s (State.driveOut s k b) := by
  unfold State.driveOut; refine .ite ?_ ?_; exact .refl ..; dsimp only; refine .iteOn ?_ ?_
  exact .comp (.flag (.refl ..) covers_arr) (State.onOut_only ..); exact .put (.refl ..) covers_arr

theorem State.outOff_only (s : State) (k : Nat) : Only (P.sio ||| P.pgSio) s (State.outOff s k) := by
  unfold State.outOff; exact .comp (.comp (.refl ..) (State.dropTest_only ..)) (State.driveOut_only ..)

theorem State.outputsOff_only (s : State) : Only (P.sio ||| P.pgSio) s (State.outputsOff s) := by
  unfold State.outputsOff; refine .foldl ?_ ?_; exact .refl ..; intro _ _; exact .comp (.refl ..) (State.outOff_only ..)

theorem State.withdraw_only (s : State) : Only (P.chains ||| P.sio ||| P.stat ||| P.clk ||| P.pgChn ||| P.pgTil ||| P.pgSio) s
    (State.withdraw s) := by
  unfold State.withdraw; exact .comp (.comp (.putStat (.put (.refl ..))) (State.chainsOff_only ..)) (State.outputsOff_only ..)

theorem State.abortClause_only (s : State) (sys : Bool) : Only (P.cl ||| P.cls) s (State.abortClause s sys) := by
  unfold State.abortClause; refine .ite ?_ ?_; exact .refl ..; dsimp only; refine .upd ?_; refine .iteOn ?_ ?_
  exact .put (.put (.put (.put (.put (.refl ..))))); exact .event (.put (.refl ..))

theorem State.clearFbInput_only (s : State) : Only (P.sio ||| P.pgSio) s (State.clearFbInput s) := by
  unfold State.clearFbInput; dsimp only; refine .upd (.put ?_); refine .foldl ?_ ?_; exact .refl ..; intro _ _
  exact .put (.refl ..) covers_arr

theorem State.stopLight_only (s : State) : Only (P.vid ||| P.tiles ||| P.light ||| P.pgCmp) s (State.stopLight s) := by
  unfold State.stopLight; dsimp only; refine .upd (.put (.put ?_)); refine .ite ?_ ?_; exact .refl ..
  exact .comp (.refl ..) (State.markRows_only ..)

theorem State.darkOff_only (s : State) : Only (P.boot ||| P.stat) s (State.darkOff s) := by
  unfold State.darkOff; dsimp only; exact .upd (.putStat (.refl ..))

theorem State.laneEnable_only (s : State) (n : Nat) : Only P.pgLnk s (State.laneEnable s n) := by
  unfold State.laneEnable; dsimp only; refine .ite ?_ ?_; exact .put (.refl ..) covers_lnk; exact .refl ..

theorem State.leaveSelftest_only (s : State) : Only (P.pstart ||| P.sram ||| P.ecc ||| P.isl ||| P.spd ||| P.stat ||| P.pgLnk |||
    P.pgPlc ||| P.pgPrf) s (State.leaveSelftest s) := by
  unfold State.leaveSelftest; dsimp only; refine .updMem ?_ (hs := fun _ => rfl); refine .foldl ?_ ?_
  refine .comp ?_ (State.showTiming_only ..); refine .foldl ?_ ?_; exact .flagStat (.refl ..); intro _ _; refine .ite ?_ ?_
  exact .put (.refl ..) covers_lnk; exact .refl ..; intro _ _; exact .comp (.refl ..) (State.laneEnable_only ..)

theorem State.cutOtp_only (s : State) : Only P.spd s (State.cutOtp s) := by
  unfold State.cutOtp; split; exact .upd (.refl ..); exact .upd (.refl ..); exact .refl ..

theorem State.onSkink_only (s : State) (f : Skink → Skink) : Only P.skink s (State.onSkink s f) := by
  unfold State.onSkink; exact .upd (.refl ..)

theorem State.ccvOff_only (s : State) : Only (P.skink ||| P.pgCrc) s (State.ccvOff s) := by
  unfold State.ccvOff; dsimp only; refine .iteOn ?_ ?_; exact .comp (.put (.refl ..)) (State.onSkink_only ..)
  exact .put (.refl ..)

theorem State.ccvAbandon_only (s : State) : Only (P.skink ||| P.pgCrc) s (State.ccvAbandon s) := by
  unfold State.ccvAbandon; refine .ite ?_ ?_; exact .event (.inc (.comp (.refl ..) (State.ccvOff_only ..))); exact .refl ..

theorem State.pduResult_only (s : State) (seq done status : Nat) : Only P.pgSpd s (State.pduResult s seq done status) := by
  unfold State.pduResult; exact .eventIf (.put (.put (.put (.put (.refl ..)))))

theorem State.holdOtp_only (s : State) : Only (P.spd ||| P.pgSpd) s (State.holdOtp s) := by
  unfold State.holdOtp; refine .ite ?_ ?_; dsimp only; refine .upd ?_; split
  exact .comp (.event (.put (.put (.comp (.refl ..) (State.cutOtp_only ..))))) (State.pduResult_only ..)
  exact .event (.put (.put (.comp (.refl ..) (State.cutOtp_only ..)))); exact .refl ..

theorem State.ownSwap_only (s : State) : Only P.vid s (State.ownSwap s) := by
  unfold State.ownSwap; refine .ite ?_ ?_; exact .upd (.refl ..); exact .refl ..

theorem State.enterHold_only (s : State) (code detail : Nat) : Only (P.pstart ||| P.sram ||| P.ecc ||| P.boot ||| P.isl ||| P.cl
    ||| P.vid ||| P.chains ||| P.tiles ||| P.light ||| P.flt ||| P.sio ||| P.skink ||| P.spd ||| P.mode ||| P.stat ||| P.hold |||
    P.clk ||| P.cls ||| P.pgLnk ||| P.pgSpd ||| P.pgCmp ||| P.pgPlc ||| P.pgAsp ||| P.pgPrf ||| P.pgChn ||| P.pgTil ||| P.pgSio
    ||| P.pgCrc) s (State.enterHold s code detail) := by
  unfold State.enterHold; refine .ite ?_ ?_; exact .put (.refl ..); dsimp only
  refine .comp (.upd (.comp (.comp ?_ (State.clearFbInput_only ..)) (State.ccvAbandon_only ..))) (State.evalPolicies_only ..)
  refine .comp (.comp (.comp ?_ (State.stopLight_only ..)) (State.darkOff_only ..)) (State.holdOtp_only ..)
  refine .comp (.comp (.setMode (.put (.put ?_))) (State.withdraw_only ..)) (State.abortClause_only ..)
  refine .comp ?_ (State.ownSwap_only ..); refine .ite ?_ ?_; exact .comp (.refl ..) (State.leaveSelftest_only ..)
  exact .refl ..

theorem State.clearStore_only (s : State) : Only (P.sram ||| P.ecc ||| P.tiles ||| P.light ||| P.sys ||| P.pgSup ||| P.pgAsp |||
    P.pgPrf) s (State.clearStore s) := by
  unfold State.clearStore; dsimp only; refine .upd (.put (.setReg (.setReg (.setReg (.put ?_))))); refine .foldl ?_ ?_
  refine .setReg (.setReg (.setReg (.setReg (.put (.put (.comp (.comp ?_ (State.zero_only ..)) (State.zero_only ..)))))))
  exact .comp (.refl ..) (State.zero_only ..); intro _ _; exact .put (.put (.refl ..) covers_asp) covers_asp

theorem State.initOffsets_only (s : State) : Only P.light s (State.initOffsets s) := by
  unfold State.initOffsets; exact .upd (.refl ..)

theorem State.enterConfigure_only (s : State) : Only (P.boot ||| P.isl ||| P.vid ||| P.chains ||| P.tiles ||| P.light ||| P.flt
    ||| P.sio ||| P.skink ||| P.spd ||| P.mode ||| P.stat ||| P.clk ||| P.pgCmp ||| P.pgAsp ||| P.pgChn ||| P.pgTil ||| P.pgSio
    ||| P.pgCrc) s (State.enterConfigure s) := by
  unfold State.enterConfigure; dsimp only
  refine .comp (.upd (.putStat (.comp ?_ (State.ccvAbandon_only ..)))) (State.evalPolicies_only ..)
  refine .comp (.comp (.comp ?_ (State.stopLight_only ..)) (State.darkOff_only ..)) (State.clearFbInput_only ..)
  exact .comp (.setMode (.comp (.refl ..) (State.ownSwap_only ..))) (State.withdraw_only ..)

theorem State.startDark_only (s : State) (t : DarkTarget) : Only (P.boot ||| P.vid ||| P.chains ||| P.tiles ||| P.light ||| P.stat
    ||| P.pgCmp) s (State.startDark s t) := by
  unfold State.startDark; dsimp only
  exact .upd (.comp (.comp (.putStat (.refl ..)) (State.dropPass_only ..)) (State.markAll_only ..))

theorem State.enterDriving_only (s : State) (m : Mode) : Only (P.sram ||| P.ecc ||| P.vid ||| P.tiles ||| P.light ||| P.sio |||
    P.mode ||| P.sys ||| P.pgSup ||| P.pgAsp ||| P.pgPrf ||| P.pgSio) s (State.enterDriving s m) := by
  unfold State.enterDriving; dsimp only
  refine .upd (.comp (.comp (.comp ?_ (State.initOffsets_only ..)) (State.markAll_only ..)) (State.clearFbInput_only ..))
  exact .comp (.setMode (.refl ..)) (State.clearStore_only ..)

theorem State.enterFallback_only (s : State) : Only (P.pstart ||| P.sram ||| P.ecc ||| P.boot ||| P.isl ||| P.cl ||| P.vid |||
    P.chains ||| P.tiles ||| P.light ||| P.flt ||| P.sio ||| P.skink ||| P.spd ||| P.mode ||| P.stat ||| P.hold ||| P.clk |||
    P.cls ||| P.pgLnk ||| P.pgSpd ||| P.pgCmp ||| P.pgPlc ||| P.pgAsp ||| P.pgPrf ||| P.pgChn ||| P.pgTil ||| P.pgSio ||| P.pgCrc)
    s (State.enterFallback s) := by
  unfold State.enterFallback; refine .ite ?_ ?_; exact .refl ..; refine .ite ?_ ?_
  exact .comp (.refl ..) (State.enterHold_only ..)
  refine .comp (.comp (.comp ?_ (State.markAll_only ..)) (State.clearFbInput_only ..)) (State.evalPolicies_only ..)
  exact .comp (.setMode (.comp (.refl ..) (State.passAfresh_only ..))) (State.initOffsets_only ..)

theorem State.cancelBack_only (s : State) : Only (P.vid ||| P.chains ||| P.tiles ||| P.light ||| P.pgCmp) s (State.cancelBack s)
    := by
  unfold State.cancelBack; refine .ite ?_ ?_; dsimp only
  exact .comp (.comp (.comp (.upd (.refl ..)) (State.passAfresh_only ..)) (State.initOffsets_only ..)) (State.markAll_only ..)
  exact .refl ..

theorem State.loseCfg_only (s : State) : Only (P.vid ||| P.chains ||| P.tiles ||| P.light ||| P.skink ||| P.stat ||| P.pgSpd |||
    P.pgCmp ||| P.pgCrc) s (State.loseCfg s) := by
  unfold State.loseCfg; refine .ite ?_ ?_
  exact .comp (.comp (.event (.put (.putStat (.refl ..)))) (State.cancelBack_only ..)) (State.ccvAbandon_only ..)
  exact .refl ..

end Sys2Proof.Machine
end

