-- ==== Sys2Proof/Laws/Footprint/Fault.lean ====
section
/-! SUPPORT. What the operations of Fault.lean may change. -/

set_option Elab.async false

namespace Sys2Proof.Machine

theorem State.sioDrive_only (s : State) : Only (P.sio ||| P.pgSio) s (State.sioDrive s) := by
  unfold State.sioDrive; refine .foldl ?_ ?_; exact .refl ..; intro _ _; refine .ite ?_ ?_
  exact .comp (.refl ..) (State.driveOut_only ..); exact .comp (.refl ..) (State.outOff_only ..)

theorem State.cycleOn_only (s : State) : Only P.flt s (State.cycleOn s) := by
  unfold State.cycleOn; exact .upd (.refl ..)

theorem State.cycleOff_only (s : State) (was : Option Mode) : Only P.flt s (State.cycleOff s was) := by
  unfold State.cycleOff; exact .upd (.refl ..)

theorem State.logFault_only (s : State) (cls inst what act : Nat) : Only (P.flt ||| P.pgFlt) s (State.logFault s cls inst what
    act) := by
  unfold State.logFault; dsimp only
  exact .upd (.inc (.put (.setRegN (.setRegN (.eventIf (.refl ..)) covers_arr) covers_arr)))

theorem State.modeTook_only (s : State) (cls : Nat) : Only P.pgFlt s (State.modeTook s cls) := by
  unfold State.modeTook; exact .event (.put (.put (.refl ..)))

theorem State.holdAction_only (s : State) (cls : Nat) : Only P.fault s (State.holdAction s cls) := by
  unfold State.holdAction; refine .ite ?_ ?_; refine .ite ?_ ?_; exact .refl ..
  exact .comp (.put (.put (.refl ..))) (State.modeTook_only ..); refine .iteOff ?_ ?_
  exact .comp (.refl ..) (State.enterHold_only ..); exact .comp (.refl ..) (State.modeTook_only ..)

theorem State.fallbackAction_only (s : State) (cls : Nat) : Only P.fault s (State.fallbackAction s cls) := by
  unfold State.fallbackAction; refine .ite ?_ ?_; refine .ite ?_ ?_; exact .refl ..
  exact .comp (.comp (.refl ..) (State.enterFallback_only ..)) (State.modeTook_only ..); refine .ite ?_ ?_
  exact .put (.refl ..); exact .refl ..

theorem State.modeAction_only (s : State) (cls act : Nat) : Only P.fault s (State.modeAction s cls act) := by
  unfold State.modeAction; split; exact .comp (.refl ..) (State.fallbackAction_only ..)
  exact .comp (.refl ..) (State.holdAction_only ..); exact .comp (.refl ..) (State.holdAction_only ..)
  exact .comp (.refl ..) (State.holdAction_only ..); exact .comp (.refl ..) (State.holdAction_only ..); refine .ite ?_ ?_
  exact .refl ..; exact .comp (.refl ..) (State.holdAction_only ..); refine .ite ?_ ?_; exact .refl ..
  exact .comp (.refl ..) (State.holdAction_only ..); exact .refl ..

theorem State.takeAction_only (s : State) (cls inst : Nat) : Only P.fault s (State.takeAction s cls inst) := by
  unfold State.takeAction; dsimp only
  refine .comp (.comp (.comp ?_ (State.updateOff_only ..)) (State.modeAction_only ..)) (State.sioDrive_only ..)
  exact .comp (.event (.inc (.comp (.refl ..) (State.setInst_only ..)))) (State.logFault_only ..)

theorem State.setCond_only (s : State) (cls inst : Nat) (b : Bool) : Only P.fault s (State.setCond s cls inst b) := by
  unfold State.setCond; dsimp only; refine .ite ?_ ?_; exact .refl ..; refine .ite ?_ ?_; refine .iteOn ?_ ?_
  exact .event (.comp (.refl ..) (State.setInst_only ..)); exact .comp (.refl ..) (State.takeAction_only ..)
  exact .comp (.refl ..) (State.setInst_only ..)

theorem State.raise_only (s : State) (cls inst : Nat) : Only P.fault s (State.raise s cls inst) := by
  unfold State.raise; refine .ite ?_ ?_; exact .refl ..; dsimp only; refine .ite ?_ ?_
  exact .comp (.eventIf (.refl ..)) (State.setInst_only ..); refine .iteOn ?_ ?_
  exact .comp (.eventIf (.refl ..)) (State.setInst_only ..); exact .comp (.refl ..) (State.takeAction_only ..)

theorem State.clearInst_only (s : State) (cls inst : Nat) : Only (P.flt ||| P.pgFlt) s (State.clearInst s cls inst) := by
  unfold State.clearInst; dsimp only
  exact .comp (.event (.inc (.comp (.refl ..) (State.setInst_only ..)))) (State.logFault_only ..)

theorem State.clearAbsent_only (s : State) (edge : Bool) : Only (P.chains ||| P.light ||| P.flt ||| P.sio ||| P.pgAsp ||| P.pgFlt
    ||| P.pgSio) s (State.clearAbsent s edge) := by
  unfold State.clearAbsent; refine .comp (.comp ?_ (State.updateOff_only ..)) (State.sioDrive_only ..); refine .foldl ?_ ?_
  exact .refl ..; intro _ _; refine .ite ?_ ?_; exact .comp (.refl ..) (State.clearInst_only ..); exact .refl ..

theorem State.fltEvents_only (s : State) : Only P.flt s (State.fltEvents s) := by
  unfold State.fltEvents; exact .upd (.refl ..)

theorem State.fltPeriod_only (s : State) (ran : List Nat) : Only P.flt s (State.fltPeriod s ran) := by
  unfold State.fltPeriod; exact .upd (.refl ..)

theorem State.fltAck_only (s : State) : Only (P.chains ||| P.light ||| P.flt ||| P.sio ||| P.pgAsp ||| P.pgFlt ||| P.pgSio) s
    (State.fltAck s) := by
  unfold State.fltAck; dsimp only; exact .comp (.upd (.refl ..)) (State.clearAbsent_only ..)

theorem State.pixelClasses_only (s : State) (a : Nat) : Only P.fault s (State.pixelClasses s a) := by
  unfold State.pixelClasses; dsimp only; refine .comp (.comp ?_ (State.setCond_only ..)) (State.cycleOff_only ..)
  refine .foldl ?_ ?_; exact .comp (.refl ..) (State.cycleOn_only ..); intro _ _
  exact .comp (.refl ..) (State.setCond_only ..)

theorem State.clearPixelClasses_only (s : State) : Only P.fault s (State.clearPixelClasses s) := by
  unfold State.clearPixelClasses; refine .comp ?_ (State.evalPolicies_only ..); refine .foldl ?_ ?_; exact .refl ..; intro _ _
  dsimp only; refine .ite ?_ ?_; exact .comp (.refl ..) (State.setCond_only ..); exact .refl ..

theorem State.uncorrectable_only (s : State) (word req : Nat) : Only (P.fault ||| P.draws) s (State.uncorrectable s word req) :=
    by
  unfold State.uncorrectable; dsimp only; refine .comp ?_ (State.raise_only ..); refine .ite ?_ ?_; refine .event ?_
  refine .ite ?_ ?_; exact .inc (.refl ..); exact .inc (.refl ..)
  refine .comp (.put (.put (.put (.put (.event ?_))))) (State.draw_only ..); refine .ite ?_ ?_; exact .inc (.refl ..)
  exact .inc (.refl ..)

theorem State.readWords_only (s : State) (f : Nat → Bool) (req : Nat) : Only (P.fault ||| P.draws) s (State.readWords s f req) :=
    by
  unfold State.readWords; dsimp only; refine .foldl ?_ ?_; refine .foldl ?_ ?_; exact .refl ..; intro _ _
  exact .event (.inc (.refl ..) covers_arr); intro _ _; exact .comp (.refl ..) (State.uncorrectable_only ..)

theorem State.readRange_only (s : State) (a n req : Nat) : Only (P.fault ||| P.draws) s (State.readRange s a n req) := by
  unfold State.readRange; exact .comp (.refl ..) (State.readWords_only ..)

theorem State.resolveHolds_only (s : State) (slot : Nat) : Only (P.chains ||| P.light ||| P.flt ||| P.pgAsp) s (State.resolveHolds
    s slot) := by
  unfold State.resolveHolds; exact .comp (.upd (.refl ..)) (State.updateOff_only ..)

theorem State.retakeFallback_only (s : State) : Only P.fault s (State.retakeFallback s) := by
  unfold State.retakeFallback; dsimp only; refine .comp ?_ (State.cycleOff_only ..); refine .foldl ?_ ?_
  exact .comp (.refl ..) (State.cycleOn_only ..); intro _ _; exact .comp (.refl ..) (State.takeAction_only ..)

end Sys2Proof.Machine
end

