-- ==== Sys2Proof/Laws/Awake.lean ====
section
/-! SUPPORT. Sharper footprints of a fault that is raised: fault reaction starts at the end of SELFTEST (R326), so its entry into HOLD
ends no SELFTEST, and the lanes, the SRAM and the timing page stay. A fault never leaves HOLD. -/

set_option Elab.async false

namespace Sys2Proof.Machine

/-- What a fault's action may change outside SELFTEST. -/
abbrev P.act : Nat := 54994587093859264

/-- Entry into HOLD outside SELFTEST. -/
theorem enterHold_act {s : State} (h : s.mode ≠ .selftest) (code detail : Nat) : Only P.act s (s.enterHold code detail) := by
  unfold State.enterHold
  refine .ite (.put (.refl ..)) ?_
  dsimp only
  rw [if_neg h]
  refine .comp (.upd (.comp (.comp (.comp ?_ (State.holdOtp_only ..)) (State.clearFbInput_only ..)) (State.ccvAbandon_only ..)))
    (State.evalPolicies_only ..)
  refine .comp (.comp (.comp ?_ (State.abortClause_only ..)) (State.stopLight_only ..)) (State.darkOff_only ..)
  exact .comp (.setMode (.put (.put (.comp (.refl ..) (State.ownSwap_only ..))))) (State.withdraw_only ..)

theorem enterFallback_act {s : State} (h : s.mode ≠ .selftest) : Only P.act s s.enterFallback := by
  unfold State.enterFallback
  refine .ite (.refl ..) (.ite (enterHold_act h ..) ?_)
  refine .comp (.comp (.comp (.comp (.setMode ?_) (State.initOffsets_only ..)) (State.markAll_only ..)) (State.clearFbInput_only ..))
    (State.evalPolicies_only ..)
  exact .comp (.refl ..) (State.passAfresh_only ..)

theorem modeTook_act {s t : State} (h : Only P.act s t) (cls : Nat) : Only P.act s (t.modeTook cls) := .comp h (State.modeTook_only ..)

theorem holdAction_act {s : State} (h : s.mode ≠ .selftest) (cls : Nat) : Only P.act s (s.holdAction cls) := by
  unfold State.holdAction
  exact .ite (.ite (.refl ..) (modeTook_act (.put (.put (.refl ..))) cls))
    (.ite (enterHold_act h ..) (modeTook_act (enterHold_act h ..) cls))

theorem fallbackAction_act {s : State} (h : s.mode ≠ .selftest) (cls : Nat) : Only P.act s (s.fallbackAction cls) := by
  unfold State.fallbackAction
  exact .ite (.ite (.refl ..) (modeTook_act (enterFallback_act h) cls)) (.ite (.put (.refl ..)) (.refl ..))

theorem modeAction_act {s : State} (h : s.mode ≠ .selftest) (cls act : Nat) : Only P.act s (s.modeAction cls act) := by
  unfold State.modeAction
  have hk := holdAction_act h cls
  split
  · exact fallbackAction_act h cls
  · exact hk
  · exact hk
  · exact hk
  · exact hk
  · exact .ite (.refl ..) hk
  · exact .ite (.refl ..) hk
  · exact .refl ..

theorem takeAction_act {s : State} (h : s.mode ≠ .selftest) (cls inst : Nat) : Only P.act s (s.takeAction cls inst) := by
  unfold State.takeAction
  dsimp only
  have key (t : State) (ht : Only (P.flt ||| P.pgFlt ||| P.chains ||| P.light ||| P.pgAsp) s t) (act : Nat) :
      Only P.act s ((t.modeAction cls act).sioDrive) :=
    .comp (.comp ht.mono (modeAction_act (by rw [ht.modeEq]; exact h) ..)) (State.sioDrive_only ..)
  refine key _ ?_ _
  exact .comp (.comp (.event (.inc (.comp (.refl ..) (State.setInst_only ..)))) (State.logFault_only ..)) (State.updateOff_only ..)

/-- A condition class becomes present or absent (R313). -/
theorem setCond_act (s : State) (cls inst : Nat) (b : Bool) : Only P.act s (s.setCond cls inst b) := by
  unfold State.setCond
  dsimp only
  split
  · exact .refl ..
  · next h =>
    have hm : s.mode ≠ .selftest := fun hs => h (.inl hs)
    refine .ite ?_ (.comp (.refl ..) (State.setInst_only ..))
    have h1 (i : FltInst) : Only P.flt s ((s.setInst cls inst i).event 18 0) := .event (.comp (.refl ..) (State.setInst_only ..))
    exact .ite (.comp (h1 _).mono (takeAction_act (by rw [(h1 _).modeEq]; exact hm) ..)) (h1 _).mono

/-- An event of an event class (R313). -/
theorem raise_act (s : State) (cls inst : Nat) : Only P.act s (s.raise cls inst) := by
  unfold State.raise
  dsimp only
  split
  · exact .refl ..
  · next hm =>
    have h0 (b : Bool) : Only P.flt s (s.eventIf b 18 0) := .eventIf (.refl ..)
    have h1 (b : Bool) (i : FltInst) : Only P.flt s ((s.eventIf b 18 0).setInst cls inst i) := .comp (h0 b) (State.setInst_only ..)
    refine .ite (h1 _ _).mono (.ite ?_ (h1 _ _).mono)
    exact .comp (h1 _ _).mono (takeAction_act (by rw [(h1 _ _).modeEq]; exact hm) ..)

end Sys2Proof.Machine
end

