-- ==== Sys2Proof/Laws/Fields.lean ====
section
/-! SUPPORT. Fields of a register file: what a field reads after a write of another, by the register file alone, so that changes beside
the register file drop out; fields of registers with an index. -/

set_option Elab.async false

namespace Sys2Proof.Machine

/-- A field of a register file. -/
def rget (rs : List (Nat × Word)) (f : Fld) : Nat := getBits ((kvFind rs f.addr).getD (resetWord f.addr)) f.lo f.w

/-- A field of a register file takes a value. -/
def rput (rs : List (Nat × Word)) (f : Fld) (v : Nat) : List (Nat × Word) :=
  kvPut rs f.addr (insBits ((kvFind rs f.addr).getD (resetWord f.addr)) f.lo f.w v)

theorem get_regs (s : State) (f : Fld) : s.get f = rget s.regs f := rfl
theorem on_regs (s : State) (f : Fld) : s.on f = (rget s.regs f != 0) := rfl
theorem mode_regs (s : State) : s.mode = modeOf (rget s.regs F.SYS_STAT_mode) := rfl
theorem put_regs (s : State) (f : Fld) (v : Nat) : (s.put f v).regs = rput s.regs f v := rfl
theorem flag_regs (s : State) (f : Fld) (b : Bool) : (s.flag f b).regs = rput s.regs f b.toNat := rfl
theorem setReg_regs (s : State) (a : Nat) (v : Word) : (s.setReg a v).regs = kvPut s.regs a v := rfl
theorem inc_regs (s : State) (f : Fld) : (s.inc f).regs = rput s.regs f (min (rget s.regs f + 1) (2 ^ f.w - 1)) := rfl
theorem incBy_regs (s : State) (f : Fld) (n : Nat) : (s.incBy f n).regs = rput s.regs f (min (rget s.regs f + n) (2 ^ f.w - 1)) := rfl
theorem incWrap_regs (s : State) (f : Fld) : (s.incWrap f).regs = rput s.regs f (rget s.regs f + 1) := rfl
theorem peak_regs (s : State) (f : Fld) (v : Nat) : (s.peak f v).regs = rput s.regs f (max (rget s.regs f) (min v (2 ^ f.w - 1))) := rfl
theorem setBit_regs (s : State) (a n : Nat) (b : Bool) : (s.setBit a n b).regs = rput s.regs ⟨a, n, 1⟩ b.toNat := rfl
theorem event_regs (s : State) (p n : Nat) : (s.event p n).regs = rput s.regs ⟨R.PIRQ_RAW p, n, 1⟩ 1 := rfl
theorem draw_regs (s : State) : s.draw.regs = s.regs := rfl
theorem emit_regs (s : State) (o : Out) : (s.emit o).regs = s.regs := rfl

theorem rget_rput_same (rs : List (Nat × Word)) (f : Fld) (v : Nat) (h : f.lo + f.w ≤ 32) : rget (rput rs f v) f = v % 2 ^ f.w :=
  get_put_same { State.reset with regs := rs } f v h

theorem rget_rput_apart (rs : List (Nat × Word)) (f g : Fld) (v : Nat) (h : f.apart g = true) : rget (rput rs f v) g = rget rs g :=
  get_put_apart { State.reset with regs := rs } f g v h

theorem rget_kvPut_ne (rs : List (Nat × Word)) (a : Nat) (g : Fld) (v : Word) (h : g.addr ≠ a) : rget (kvPut rs a v) g = rget rs g :=
  get_setReg_ne { State.reset with regs := rs } v h

theorem rget_lt (rs : List (Nat × Word)) (f : Fld) : rget rs f < 2 ^ f.w := get_lt { State.reset with regs := rs } f

/-- A bit of a register word as a field of one bit. -/
theorem bit_get (s : State) (a n : Nat) : s.bit a n = (s.get ⟨a, n, 1⟩ == 1) := by
  have h : ((s.reg a).extractLsb' n 1).toNat = ((s.reg a).getLsbD n).toNat := by
    rw [BitVec.extractLsb'_toNat]
    simp only [Nat.shiftRight_eq_div_pow, pow_one, BitVec.getLsbD, Nat.testBit_eq_decide_div_mod_eq]
    rcases Nat.mod_two_eq_zero_or_one ((s.reg a).toNat / 2 ^ n) with h | h <;> simp [h]
  simp only [State.bit, State.get, getBits, h]
  cases (s.reg a).getLsbD n <;> rfl

theorem Fld.apart_addr {f g : Fld} (h : f.addr ≠ g.addr) : f.apart g = true := by simp [Fld.apart, h]

theorem Fld.apart_bits {f g : Fld} (h : Nat.ble (f.lo + f.w) g.lo = true ∨ Nat.ble (g.lo + g.w) f.lo = true) : f.apart g = true := by
  simp only [Nat.ble_eq] at h
  simp only [Fld.apart, Bool.or_eq_true, decide_eq_true_eq]
  omega

/-- A register of a lane's page lies outside a footprint without those pages. -/
theorem leaves_lnk {E n k : Nat} (h : (0x40 ≤ k ∧ k < 0x1000) ∧ E.testBit 36 = false := by decide) : leaves E (lnkAddr n + k) = true := by
  have hn : n % 4 < 4 := Nat.mod_lt _ (by decide)
  have ha : lnkAddr n + k = 0x4000 + n % 4 * 0x1000 + k := by unfold lnkAddr; omega
  have hp : wordPart (lnkAddr n + k) = 36 := by
    rw [ha]; unfold wordPart
    rw [if_neg (by omega)]
    have : (0x4000 + n % 4 * 0x1000 + k) / 0x1000 - 4 = n % 4 := by omega
    rw [this]
    rcases (by omega : n % 4 = 0 ∨ n % 4 = 1 ∨ n % 4 = 2 ∨ n % 4 = 3) with h | h | h | h <;> rw [h] <;> rfl
  simp only [leaves, hp, h.2, Bool.and_eq_true, Bool.not_false, and_true, decide_eq_true_eq, bne_iff_ne]
  omega

theorem leaves_two {E a b : Nat} {i : Nat} (hi : i < 2) (ha : a / 0x1000 = b / 0x1000 + i) (hb : 0x4000 ≤ b) (hk : 0x40 ≤ a % 0x1000)
    (h0 : E.testBit (wordPart b) = false) (h1 : E.testBit (wordPart (b + 0x1000)) = false) : leaves E a = true := by
  have hs {c : Nat} (hc : 0x4000 ≤ c) (h : a / 0x1000 = c / 0x1000) : wordPart a = wordPart c := by
    unfold wordPart; rw [if_neg (by omega), if_neg (by omega), h]
  have : E.testBit (wordPart a) = false := by
    rcases i with _ | _ | i
    · rw [hs (c := b) hb (by omega)]; exact h0
    · rw [hs (c := b + 0x1000) (by omega) (by omega)]; exact h1
    · omega
  simp only [leaves, this, hk, Bool.and_eq_true, Bool.not_false, and_true, decide_true, bne_iff_ne, true_and]
  omega

/-- A register of a chain, a tile or an aspect lies outside a footprint without their pages. -/
theorem leaves_chn {E c k : Nat} (h : k < 0x40 ∧ E.testBit 48 = false := by decide) : leaves E (chnAddr c + k) = true :=
  leaves_two (b := 0x14000) (i := c / 10 % 2) (by omega) (by unfold chnAddr; omega) (by decide) (by unfold chnAddr; omega) h.2 h.2

theorem leaves_til {E i k : Nat} (h : k < 0x20 ∧ E.testBit 49 = false := by decide) : leaves E (tilAddr i + k) = true :=
  leaves_two (b := 0x16000) (i := i / 40 % 2) (by omega) (by unfold tilAddr; omega) (by decide) (by unfold tilAddr; omega) h.2 h.2

theorem leaves_asp {E a k : Nat} (h : k < 0x20 ∧ E.testBit 45 = false := by decide) : leaves E (aspAddr a + k) = true :=
  leaves_two (b := 0x10000) (i := a / 80 % 2) (by omega) (by unfold aspAddr; omega) (by decide) (by unfold aspAddr; omega) h.2 h.2

end Sys2Proof.Machine
end

