-- ==== Sys2Proof/Laws/Footprint/Aspects.lean ====
section
/-! SUPPORT. What the operations of Aspects.lean may change. -/

set_option Elab.async false

namespace Sys2Proof.Machine

theorem State.onFade_only (s : State) (a : Nat) (f : Fade → Fade) : Only P.fades s (State.onFade s a f) := by
  unfold State.onFade; refine .dite ?_ ?_; intro _; exact .upd (.refl ..); intro _; exact .refl ..

theorem State.curveReads_only (s : State) (a : Nat) : Only (P.fault ||| P.draws) s (State.curveReads s a) := by
  unfold State.curveReads; dsimp only; refine .ite ?_ ?_; exact .comp (.refl ..) (State.readRange_only ..); exact .refl ..

theorem State.refade_only (s : State) (a : Nat) : Only (P.fault ||| P.draws) s (State.refade s a) := by
  unfold State.refade
  refine .ite ?_ (.refl ..)
  have h : Only (P.fault ||| P.draws) s (s.curveReads a) := .comp (.refl ..) (State.curveReads_only ..)
  generalize s.curveReads a = u at h ⊢
  dsimp only
  generalize u.fadeAt a (u.fade a) u.pnow = r
  generalize (u.on (F.ASP_FST_fading a) && !r.2) = e
  have hv : Only (P.fault ||| P.draws) s (((u.put (F.ASP_FST_f a) r.1).flag (F.ASP_FST_fading a) r.2).eventIf e
      (if a < 80 then 16 else 17) 0) := .eventIf (.flag (.put h covers_asp) covers_asp)
  exact .ite hv (.comp hv (State.markRows_only ..))

theorem State.beginFade_only (s : State) (a ps f0 tgt : Nat) (was : Nat × Nat × Nat) : Only (P.fades ||| P.pgAsp) s
    (State.beginFade s a ps f0 tgt was) := by
  unfold State.beginFade; dsimp only; exact .put (.put (.comp (.refl ..) (State.onFade_only ..)) covers_asp) covers_asp

theorem State.startFade_only (s : State) (a ps tgt : Nat) : Only (P.fades ||| P.pgAsp) s (State.startFade s a ps tgt) := by
  unfold State.startFade; dsimp only; refine .ite ?_ ?_; exact .comp (.refl ..) (State.beginFade_only ..); refine .ite ?_ ?_
  exact .refl ..; exact .flag (.put (.comp (.refl ..) (State.onFade_only ..)) covers_asp) covers_asp

theorem State.settleFade_only (s : State) (a : Nat) : Only (P.fades ||| P.pgAsp) s (State.settleFade s a) := by
  unfold State.settleFade; dsimp only; refine .comp ?_ (State.onFade_only ..); refine .foldl ?_ ?_; exact .refl ..; intro _ _
  exact .comp (.refl ..) (State.startFade_only ..)

theorem State.refadeNow_only (s : State) (a : Nat) : Only (P.fault ||| P.draws) s (State.refadeNow s a) := by
  unfold State.refadeNow; refine .ite ?_ ?_; exact .comp (.refl ..) (State.refade_only ..); exact .refl ..

theorem State.retarget_only (s : State) (a ps tgt : Nat) : Only (P.cl ||| P.fades) s (State.retarget s a ps tgt) := by
  unfold State.retarget; refine .ite ?_ ?_; dsimp only; exact .comp (.upd (.refl ..)) (State.onFade_only ..); exact .refl ..

theorem State.dropWaits_only (s : State) (a : Nat) : Only P.fades s (State.dropWaits s a) := by
  unfold State.dropWaits; exact .comp (.refl ..) (State.onFade_only ..)

theorem State.endGroup_only (s : State) (a : Nat) : Only (P.fades ||| P.pgAsp) s (State.endGroup s a) := by
  unfold State.endGroup; exact .put (.comp (.refl ..) (State.onFade_only ..)) covers_asp

theorem State.dropGroup_only (s : State) (a : Nat) : Only (P.fades ||| P.pair ||| P.pgAsp) s (State.dropGroup s a) := by
  unfold State.dropGroup; dsimp only; exact .upd (.comp (.refl ..) (State.endGroup_only ..))

theorem State.arrive_only (s : State) : Only P.cl s (State.arrive s) := by
  unfold State.arrive; exact .upd (.refl ..)

theorem State.fadeGroup_only (s : State) (on pdu : Bool) (nth pt : Nat) (mem : List (Nat × Nat)) : Only (P.fades ||| P.pgAsp) s
    (State.fadeGroup s on pdu nth pt mem) := by
  unfold State.fadeGroup; refine .foldl ?_ ?_; exact .refl ..; intro _ _
  exact .put (.comp (.refl ..) (State.onFade_only ..)) covers_asp

theorem State.groupChange_only (s : State) (a : Nat) : Only (P.fault ||| P.fades ||| P.draws) s (State.groupChange s a) := by
  unfold State.groupChange; split; refine .ite ?_ ?_; dsimp only; refine .ite ?_ ?_
  exact .eventIf (.comp (.refl ..) (State.endGroup_only ..)); refine .iteOff ?_ ?_
  exact .comp (.refl ..) (State.endGroup_only ..)
  refine .eventIf (.comp (.comp (.comp ?_ (State.dropWaits_only ..)) (State.startFade_only ..)) (State.refadeNow_only ..))
  exact .comp (.flag (.refl ..) covers_asp) (State.markRows_only ..); exact .refl ..; exact .refl ..

theorem State.groupBefore_only (s : State) (n a : Nat) : Only (P.fault ||| P.fades ||| P.draws) s (State.groupBefore s n a) := by
  unfold State.groupBefore; split; refine .ite ?_ ?_; exact .comp (.refl ..) (State.groupChange_only ..); exact .refl ..
  exact .refl ..

theorem execFadeGroupChange_only (a : Fin 160) (s : State) {t : State} (h : execFadeGroupChange a s = .next t) : Only (P.fault |||
    P.fades ||| P.draws) s t := by
  unfold execFadeGroupChange at h; replace h := Host.Outcome.next.inj h; subst h
  exact .comp (.refl ..) (State.groupChange_only ..)

theorem State.setTidx_only (s : State) (t q : Nat) : Only (P.vid ||| P.tiles ||| P.pgCal) s (State.setTidx s t q) := by
  unfold State.setTidx; dsimp only
  exact .comp (.event (.inc (.comp (.refl ..) (State.onTile_only ..)))) (State.markRows_only ..)

theorem State.feedTemp_only (s : State) (t : Nat) (temp : Int) : Only (P.vid ||| P.tiles ||| P.pgCal) s (State.feedTemp s t temp)
    := by
  unfold State.feedTemp; split; dsimp only; refine .ite ?_ ?_; exact .upd (.eventIf (.refl ..)); refine .ite ?_ ?_
  exact .upd (.comp (.eventIf (.refl ..)) (State.setTidx_only ..)); exact .upd (.eventIf (.refl ..))

end Sys2Proof.Machine
end

