-- ==== Sys2Proof/Laws/Footprint/Lanes.lean ====
section
/-! SUPPORT. What the operations of Lanes.lean may change. -/

set_option Elab.async false

namespace Sys2Proof.Machine

theorem State.onLane_only (s : State) (l : Nat) (f : Lane → Lane) : Only P.link s (State.onLane s l f) := by
  unfold State.onLane; refine .dite ?_ ?_; intro _; exact .upd (.refl ..); intro _; exact .refl ..

theorem State.showPos_only (s : State) : Only P.pgPkt s (State.showPos s) := by
  unfold State.showPos; dsimp only; exact .flag (.flag (.refl ..))

theorem State.sendWord_only (s : State) (l : Nat) (w : List (Bool × Nat)) : Only (P.link ||| P.out) s (State.sendWord s l w) := by
  unfold State.sendWord; refine .ite ?_ ?_; exact .comp (.refl ..) (State.emit_only ..); split
  exact .comp (.comp (.refl ..) (State.onLane_only ..)) (State.emit_only ..)

theorem State.sendPacket_only (s : State) (l typ hdr : Nat) (body : List Byte) : Only (P.link ||| P.out) s (State.sendPacket s l
    typ hdr body) := by
  unfold State.sendPacket; dsimp only; refine .comp ?_ (State.emit_only ..); refine .foldl ?_ ?_; exact .refl ..; intro _ _
  exact .comp (.refl ..) (State.sendWord_only ..)

theorem State.transmit_only (s : State) (l typ hdr : Nat) (body : List Byte) : Only (P.link ||| P.out) s (State.transmit s l typ
    hdr body) := by
  unfold State.transmit; refine .ite ?_ ?_; exact .comp (.refl ..) (State.sendPacket_only ..)
  exact .comp (.refl ..) (State.onLane_only ..)

theorem State.flushLink_only (s : State) (l : Nat) : Only (P.link ||| P.out) s (State.flushLink s l) := by
  unfold State.flushLink; dsimp only; refine .foldl ?_ ?_; refine .iteOn ?_ ?_; exact .comp (.refl ..) (State.onLane_only ..)
  exact .upd (.refl ..); intro _ _; exact .comp (.refl ..) (State.sendPacket_only ..)

theorem State.setLane_only (s : State) (l st : Nat) : Only (P.pgLnk ||| P.pgPkt) s (State.setLane s l st) := by
  unfold State.setLane; exact .comp (.put (.refl ..) covers_lnk) (State.showPos_only ..)

theorem State.markDown_only (s : State) (l : Nat) (b : Bool) : Only (P.fault ||| P.link) s (State.markDown s l b) := by
  unfold State.markDown; exact .comp (.comp (.refl ..) (State.onLane_only ..)) (State.setCond_only ..)

theorem State.toDetect_only (s : State) (l : Nat) : Only (P.fault ||| P.link ||| P.pgPkt) s (State.toDetect s l) := by
  unfold State.toDetect; refine .ite ?_ ?_; exact .comp (.refl ..) (State.setLane_only ..)
  exact .comp (.comp (.refl ..) (State.setLane_only ..)) (State.markDown_only ..)

theorem State.eyeAbort_only (s : State) (l : Nat) : Only (P.link ||| P.pgLnk) s (State.eyeAbort s l) := by
  unfold State.eyeAbort; dsimp only; refine .iteOn ?_ ?_; exact .put (.refl ..) covers_lnk
  exact .event (.comp (.put (.put (.put (.refl ..) covers_lnk) covers_lnk) covers_lnk) (State.onLane_only ..))

theorem State.toExit_only (s : State) (l : Nat) (failed : Bool) : Only (P.link ||| P.out ||| P.pgLnk ||| P.pgPkt) s (State.toExit
    s l failed) := by
  unfold State.toExit; dsimp only
  refine .comp (.comp (.comp ?_ (State.eyeAbort_only ..)) (State.onLane_only ..)) (State.setLane_only ..)
  exact .comp (.refl ..) (State.emit_only ..)

theorem State.dropReturns_only (s : State) : Only (P.link ||| P.pgPkt) s (State.dropReturns s) := by
  unfold State.dropReturns; refine .ite ?_ ?_; exact .refl ..; dsimp only; exact .upd (.event (.incBy (.refl ..)))

theorem State.leaveActive_only (s : State) (l cause : Nat) : Only (P.link ||| P.out ||| P.pgLnk ||| P.pgPkt) s (State.leaveActive
    s l cause) := by
  unfold State.leaveActive; refine .ite ?_ ?_; dsimp only
  refine .comp (.comp (.event (.put ?_ covers_lnk)) (State.toExit_only ..)) (State.dropReturns_only ..)
  exact .comp (.refl ..) (State.onLane_only ..); exact .refl ..

theorem State.trainFail_only (s : State) (l reason : Nat) : Only (P.link ||| P.out ||| P.pgLnk ||| P.pgPkt) s (State.trainFail s l
    reason) := by
  unfold State.trainFail; dsimp only
  exact .comp (.event (.inc (.put (.put (.refl ..) covers_lnk) covers_lnk) covers_lnk)) (State.toExit_only ..)

theorem State.leaveDown_only (s : State) (l : Nat) : Only P.link s (State.leaveDown s l) := by
  unfold State.leaveDown; refine .ite ?_ ?_; exact .comp (.refl ..) (State.onLane_only ..); exact .refl ..

theorem State.reconfigLane_only (s : State) (l : Nat) : Only (P.fault ||| P.link ||| P.out ||| P.pgPkt) s (State.reconfigLane s l)
    := by
  unfold State.reconfigLane; split; exact .comp (.refl ..) (State.toDetect_only ..)
  exact .comp (.refl ..) (State.leaveActive_only ..)
  exact .comp (.comp (.refl ..) (State.onLane_only ..)) (State.showPos_only ..)
  exact .comp (.comp (.refl ..) (State.leaveDown_only ..)) (State.toExit_only ..)

theorem State.disableLane_only (s : State) (l : Nat) : Only (P.fault ||| P.link ||| P.out ||| P.pgPkt) s (State.disableLane s l)
    := by
  unfold State.disableLane; split; exact .comp (.refl ..) (State.leaveActive_only ..); exact .refl ..
  refine .comp (.comp (.comp ?_ (State.eyeAbort_only ..)) (State.setLane_only ..)) (State.markDown_only ..)
  exact .comp (.refl ..) (State.leaveDown_only ..)

theorem State.setEq_only (s : State) (l c : Nat) (a b d : Int) : Only P.pgLnk s (State.setEq s l c a b d) := by
  unfold State.setEq; exact .put (.put (.put (.put (.refl ..) covers_lnk) covers_lnk) covers_lnk) covers_lnk

theorem State.sendTs_only (s : State) (l : Nat) (ts2 : Bool) : Only (P.link ||| P.out) s (State.sendTs s l ts2) := by
  unfold State.sendTs; exact .comp (.comp (.refl ..) (State.onLane_only ..)) (State.emit_only ..)

theorem State.toPoll_only (s : State) (l : Nat) : Only (P.link ||| P.out ||| P.pgLnk ||| P.pgPkt) s (State.toPoll s l) := by
  unfold State.toPoll; dsimp only
  refine .comp (.comp (.comp (.put ?_ covers_lnk) (State.onLane_only ..)) (State.setLane_only ..)) (State.sendTs_only ..)
  refine .put (.put (.put ?_ covers_lnk) covers_lnk) covers_lnk; refine .ite ?_ ?_
  exact .comp (.refl ..) (State.setEq_only ..); exact .comp (.refl ..) (State.setEq_only ..)

theorem State.toActive_only (s : State) (l : Nat) : Only (P.fault ||| P.link ||| P.pgPkt) s (State.toActive s l) := by
  unfold State.toActive; dsimp only; refine .iteOn ?_ ?_
  refine .comp (.comp (.comp (.event ?_) (State.onLane_only ..)) (State.markDown_only ..)) (State.setLane_only ..)
  exact .inc (.put (.refl ..) covers_lnk) covers_lnk; exact .upd (.refl ..)

theorem State.sendCap_only (s : State) (l : Nat) : Only (P.link ||| P.out) s (State.sendCap s l) := by
  unfold State.sendCap; exact .comp (.comp (.refl ..) (State.onLane_only ..)) (State.emit_only ..)

theorem State.toCaps_only (s : State) (l : Nat) : Only (P.link ||| P.out ||| P.pgLnk ||| P.pgPkt) s (State.toCaps s l) := by
  unfold State.toCaps; dsimp only
  exact .comp (.comp (.comp (.refl ..) (State.onLane_only ..)) (State.setLane_only ..)) (State.sendCap_only ..)

theorem execDetectProbe_only (l : Fin 4) (found : Bool) (s : State) {t : State} (h : execDetectProbe l found s = .next t) : Only
    (P.link ||| P.out ||| P.pgLnk ||| P.pgPkt) s t := by
  unfold execDetectProbe at h; replace h := Host.Outcome.next.inj h; subst h; refine .ite ?_ ?_; dsimp only
  refine .iteOn ?_ ?_; exact .flag (.refl ..) covers_lnk; exact .comp (.refl ..) (State.toPoll_only ..); exact .refl ..

theorem execTsSetReceive_only (l : Fin 4) (ts2 : Bool) (rate : Byte) (align : Fin 10) (inv ok : Bool) (sent : Nat) (s : State) {t
    : State} (h : execTsSetReceive l ts2 rate align inv ok sent s = .next t) : Only (P.link ||| P.out ||| P.pgLnk ||| P.pgPkt) s t
    := by
  unfold execTsSetReceive at h; replace h := Host.Outcome.next.inj h; subst h; refine .ite ?_ ?_; dsimp only
  refine .iteOn ?_ ?_; refine .iteOff ?_ ?_; refine .ite ?_ ?_; exact .comp (.refl ..) (State.onLane_only ..); exact .refl ..
  exact .flag (.comp (.refl ..) (State.onLane_only ..)) covers_lnk; refine .iteOn ?_ ?_; refine .iteOn ?_ ?_
  refine .comp ?_ (State.onLane_only ..); refine .iteOn ?_ ?_; refine .ite ?_ ?_; exact .put (.refl ..) covers_lnk
  exact .refl ..; exact .put (.refl ..) covers_lnk; exact .comp (.refl ..) (State.sendTs_only ..)
  exact .comp (.refl ..) (State.toCaps_only ..); exact .refl ..

theorem execPollTs2TimeLimit_only (l : Fin 4) (s : State) {t : State} (h : execPollTs2TimeLimit l s = .next t) : Only (P.link |||
    P.out) s t := by
  unfold execPollTs2TimeLimit at h; replace h := Host.Outcome.next.inj h; subst h; refine .ite ?_ ?_; dsimp only
  refine .iteOn ?_ ?_; exact .comp (.refl ..) (State.onLane_only ..); exact .comp (.refl ..) (State.sendTs_only ..)
  exact .refl ..

theorem execPollTimeout_only (l : Fin 4) (s : State) {t : State} (h : execPollTimeout l s = .next t) : Only (P.link ||| P.out |||
    P.pgLnk ||| P.pgPkt) s t := by
  unfold execPollTimeout at h; replace h := Host.Outcome.next.inj h; subst h; refine .ite ?_ ?_
  exact .comp (.refl ..) (State.trainFail_only ..); exact .refl ..

theorem State.comparePair_only (s : State) (b : Nat → Nat) : Only P.pgAxo s (State.comparePair s b) := by
  unfold State.comparePair; refine .ite ?_ ?_; exact .put (.refl ..); exact .refl ..

theorem execCapSetReceive_only (l : Fin 4) (set : Vector Byte 16) (s : State) {t : State} (h : execCapSetReceive l set s = .next
    t) : Only (P.fault ||| P.link ||| P.out ||| P.pgPkt ||| P.pgAxo) s t := by
  unfold execCapSetReceive at h; replace h := Host.Outcome.next.inj h; subst h; refine .ite ?_ ?_; dsimp only
  refine .ite ?_ ?_; exact .comp (.comp (.refl ..) (State.onLane_only ..)) (State.sendCap_only ..); split
  refine .comp (.comp (.comp ?_ (State.sendCap_only ..)) (State.comparePair_only ..)) (State.trainFail_only ..)
  exact .comp (.refl ..) (State.onLane_only ..); refine .iteOn ?_ ?_
  refine .comp (.comp (.comp ?_ (State.sendCap_only ..)) (State.comparePair_only ..)) (State.onLane_only ..)
  exact .comp (.refl ..) (State.onLane_only ..); refine .comp (.put ?_ covers_lnk) (State.toActive_only ..)
  refine .foldl ?_ ?_; exact .refl ..; intro _ _; exact .setRegN (.refl ..) covers_lnk2; exact .refl ..

theorem execCapsTimeout_only (l : Fin 4) (s : State) {t : State} (h : execCapsTimeout l s = .next t) : Only (P.link ||| P.out |||
    P.pgLnk ||| P.pgPkt) s t := by
  unfold execCapsTimeout at h; replace h := Host.Outcome.next.inj h; subst h; refine .ite ?_ ?_
  exact .comp (.refl ..) (State.trainFail_only ..); exact .refl ..

theorem execElectricalIdle_only (l : Fin 4) (s : State) {t : State} (h : execElectricalIdle l s = .next t) : Only (P.link |||
    P.out ||| P.pgLnk ||| P.pgPkt) s t := by
  unfold execElectricalIdle at h; replace h := Host.Outcome.next.inj h; subst h; split; refine .ite ?_ ?_
  exact .comp (.refl ..) (State.trainFail_only ..); exact .refl ..; exact .comp (.refl ..) (State.trainFail_only ..)
  exact .comp (.refl ..) (State.leaveActive_only ..); exact .refl ..

theorem execEiosReceive_only (l : Fin 4) (s : State) {t : State} (h : execEiosReceive l s = .next t) : Only (P.link ||| P.out |||
    P.pgLnk ||| P.pgPkt) s t := by
  unfold execEiosReceive at h; replace h := Host.Outcome.next.inj h; subst h
  exact .comp (.refl ..) (State.leaveActive_only ..)

theorem execErrorBucketFull_only (l : Fin 4) (s : State) {t : State} (h : execErrorBucketFull l s = .next t) : Only (P.link |||
    P.out ||| P.pgLnk ||| P.pgPkt) s t := by
  unfold execErrorBucketFull at h; replace h := Host.Outcome.next.inj h; subst h; refine .ite ?_ ?_
  exact .comp (.refl ..) (State.leaveActive_only ..); exact .refl ..

theorem execExitWaitDone_only (l : Fin 4) (s : State) {t : State} (h : execExitWaitDone l s = .next t) : Only (P.fault ||| P.link
    ||| P.pgPkt) s t := by
  unfold execExitWaitDone at h; replace h := Host.Outcome.next.inj h; subst h; refine .ite ?_ ?_; refine .ite ?_ ?_
  exact .comp (.event (.comp (.refl ..) (State.setLane_only ..))) (State.markDown_only ..)
  exact .comp (.refl ..) (State.toDetect_only ..); exact .refl ..

theorem execDownRetry_only (l : Fin 4) (s : State) {t : State} (h : execDownRetry l s = .next t) : Only (P.fault ||| P.link |||
    P.pgPkt) s t := by
  unfold execDownRetry at h; replace h := Host.Outcome.next.inj h; subst h; refine .ite ?_ ?_
  exact .comp (.comp (.refl ..) (State.onLane_only ..)) (State.toDetect_only ..); exact .refl ..

theorem State.sendSet_only (s : State) (l : Nat) (bnd : Bool) : Only (P.link ||| P.out ||| P.pgLnk) s (State.sendSet s l bnd) :=
    by
  unfold State.sendSet; dsimp only; refine .iteOn ?_ ?_; refine .foldl ?_ ?_; exact .refl ..; intro _ _
  exact .comp (.comp (.refl ..) (State.onLane_only ..)) (State.emit_only ..); refine .comp ?_ (State.flushLink_only ..)
  refine .iteOn ?_ ?_; exact .comp (.refl ..) (State.onLane_only ..); exact .event (.put (.refl ..) covers_lnk)

theorem execSkipSetSend_only (l : Fin 4) (s : State) {t : State} (h : execSkipSetSend l s = .next t) : Only (P.link ||| P.out |||
    P.pgLnk) s t := by
  unfold execSkipSetSend at h; replace h := Host.Outcome.next.inj h; subst h; split
  exact .comp (.refl ..) (State.emit_only ..); exact .comp (.refl ..) (State.emit_only ..); refine .ite ?_ ?_; dsimp only
  exact .comp (.refl ..) (State.sendSet_only ..); exact .refl ..; exact .refl ..

theorem State.fixFill_only (s : State) (l del ins : Nat) : Only (P.link ||| P.pgLnk) s (State.fixFill s l del ins) := by
  unfold State.fixFill; refine .ite ?_ ?_; exact .comp (.refl ..) (State.onLane_only ..)
  exact .comp (.incBy (.incBy (.refl ..) covers_lnk) covers_lnk) (State.onLane_only ..)

theorem execSkipSetReceive_only (x : SkipRx) (s : State) {t : State} (h : execSkipSetReceive x s = .next t) : Only (P.link |||
    P.pgLnk) s t := by
  unfold execSkipSetReceive at h; replace h := Host.Outcome.next.inj h; subst h; refine .ite ?_ ?_; dsimp only
  refine .iteOff ?_ ?_; exact .comp (.refl ..) (State.onLane_only ..); refine .iteOn ?_ ?_
  exact .comp (.refl ..) (State.fixFill_only ..); exact .comp (.refl ..) (State.fixFill_only ..); exact .refl ..

theorem execBndSetReceive_only (l : Fin 4) (mask : BitVec 2) (seq : Byte) (skew : Nat) (s : State) {t : State} (h :
    execBndSetReceive l mask seq skew s = .next t) : Only (P.link ||| P.out ||| P.pgLnk ||| P.pgPkt) s t := by
  unfold execBndSetReceive at h; replace h := Host.Outcome.next.inj h; subst h; refine .ite ?_ ?_; dsimp only
  refine .iteOn ?_ ?_; refine .iteOn ?_ ?_; exact .comp (.refl ..) (State.onLane_only ..)
  exact .event (.put (.refl ..) covers_lnk); exact .comp (.refl ..) (State.leaveActive_only ..); exact .refl ..

theorem State.badWord_only (s : State) (l : Nat) (code disp : Bool) : Only (P.link ||| P.pgLnk) s (State.badWord s l code disp) :=
    by
  unfold State.badWord; dsimp only; refine .comp (.event ?_) (State.onLane_only ..); refine .iteOn ?_ ?_; refine .ite ?_ ?_
  exact .inc (.refl ..) covers_lnk; exact .refl ..; exact .inc (.refl ..) covers_lnk

theorem execEbOverflow_only (l : Fin 4) (s : State) {t : State} (h : execEbOverflow l s = .next t) : Only (P.link ||| P.pgLnk) s t
    := by
  unfold execEbOverflow at h; replace h := Host.Outcome.next.inj h; subst h; refine .ite ?_ ?_; dsimp only
  refine .comp (.comp (.comp (.event ?_) (State.badWord_only ..)) (State.onLane_only ..)) (State.onLane_only ..)
  exact .inc (.refl ..) covers_lnk; exact .refl ..

theorem State.startRate_only (s : State) (r : Nat) : Only (P.link ||| P.out ||| P.clk ||| P.pgLnk ||| P.pgPkt) s (State.startRate
    s r) := by
  unfold State.startRate; dsimp only; refine .foldl ?_ ?_; exact .put (.upd (.refl ..)); intro _ _; split
  exact .comp (.comp (.put (.refl ..) covers_lnk) (State.onLane_only ..)) (State.eyeAbort_only ..)
  refine .comp (.comp (.comp (.put ?_ covers_lnk) (State.onLane_only ..)) (State.eyeAbort_only ..)) (State.leaveActive_only ..)
  exact .refl ..
  refine .comp (.comp (.comp (.put ?_ covers_lnk) (State.onLane_only ..)) (State.eyeAbort_only ..)) (State.toExit_only ..)
  exact .refl ..

theorem execRateChangeStart_only (s : State) {t : State} (h : execRateChangeStart s = .next t) : Only (P.link ||| P.out ||| P.clk
    ||| P.pgLnk ||| P.pgPkt) s t := by
  unfold execRateChangeStart at h; replace h := Host.Outcome.next.inj h; subst h; refine .ite ?_ ?_; dsimp only
  exact .upd (.comp (.refl ..) (State.startRate_only ..)); exact .refl ..

theorem execLanePllRelock_only (s : State) {t : State} (h : execLanePllRelock s = .next t) : Only (P.fault ||| P.link ||| P.pgPkt)
    s t := by
  unfold execLanePllRelock at h; replace h := Host.Outcome.next.inj h; subst h; refine .ite ?_ ?_; dsimp only
  refine .foldl ?_ ?_; exact .upd (.put (.flag (.refl ..))); intro _ _; refine .ite ?_ ?_
  exact .comp (.refl ..) (State.toDetect_only ..); exact .refl ..; exact .refl ..

theorem execRateRevert_only (s : State) {t : State} (h : execRateRevert s = .next t) : Only (P.link ||| P.out ||| P.clk |||
    P.pgLnk ||| P.pgPkt) s t := by
  unfold execRateRevert at h; replace h := Host.Outcome.next.inj h; subst h; refine .ite ?_ ?_; dsimp only
  exact .upd (.comp (.event (.put (.put (.put (.refl ..))))) (State.startRate_only ..)); exact .refl ..

theorem execAdaptUpdate_only (l : Fin 4) (ctle h1 h2 h3 : Move) (s : State) {t : State} (h : execAdaptUpdate l ctle h1 h2 h3 s =
    .next t) : Only (P.link ||| P.pgLnk) s t := by
  unfold execAdaptUpdate at h; replace h := Host.Outcome.next.inj h; subst h; refine .ite ?_ ?_; dsimp only
  refine .iteOn ?_ ?_; exact .comp (.comp (.refl ..) (State.setEq_only ..)) (State.onLane_only ..)
  exact .put (.refl ..) covers_lnk; exact .refl ..

theorem State.showFrozen_only (s : State) (l : Nat) : Only P.pgLnk s (State.showFrozen s l) := by
  unfold State.showFrozen; dsimp only; exact .flag (.flag (.refl ..) covers_lnk) covers_lnk

theorem execAdaptFreeze_only (l : Fin 4) (s : State) {t : State} (h : execAdaptFreeze l s = .next t) : Only (P.link ||| P.pgLnk) s
    t := by
  unfold execAdaptFreeze at h; replace h := Host.Outcome.next.inj h; subst h; refine .ite ?_ ?_
  exact .comp (.comp (.refl ..) (State.onLane_only ..)) (State.showFrozen_only ..); exact .refl ..

theorem execAdaptResume_only (l : Fin 4) (s : State) {t : State} (h : execAdaptResume l s = .next t) : Only (P.link ||| P.pgLnk) s
    t := by
  unfold execAdaptResume at h; replace h := Host.Outcome.next.inj h; subst h; refine .ite ?_ ?_
  exact .comp (.comp (.refl ..) (State.onLane_only ..)) (State.showFrozen_only ..); exact .refl ..

theorem execReadaptEnd_only (l : Fin 4) (s : State) {t : State} (h : execReadaptEnd l s = .next t) : Only P.pgLnk s t := by
  unfold execReadaptEnd at h; replace h := Host.Outcome.next.inj h; subst h; refine .ite ?_ ?_
  exact .put (.refl ..) covers_lnk; exact .refl ..

theorem State.eyeBegin_only (s : State) (l : Nat) : Only (P.link ||| P.pgLnk) s (State.eyeBegin s l) := by
  unfold State.eyeBegin; dsimp only
  exact .comp (.put (.put (.put (.put (.refl ..) covers_lnk) covers_lnk) covers_lnk) covers_lnk) (State.onLane_only ..)

theorem State.eyeStart_only (s : State) (l op : Nat) (was : Bool) : Only (P.link ||| P.pgLnk) s (State.eyeStart s l op was) := by
  unfold State.eyeStart; refine .ite ?_ ?_; exact .comp (.refl ..) (State.eyeAbort_only ..); refine .ite ?_ ?_; exact .refl ..
  refine .ite ?_ ?_; exact .comp (.put (.put (.refl ..) covers_lnk) covers_lnk) (State.onLane_only ..)
  exact .comp (.refl ..) (State.eyeBegin_only ..)

theorem execEyeOpComplete_only (l : Fin 4) (r : EyeRes) (s : State) {t : State} (h : execEyeOpComplete l r s = .next t) : Only
    P.pgLnk s t := by
  unfold execEyeOpComplete at h; replace h := Host.Outcome.next.inj h; subst h; refine .ite ?_ ?_; dsimp only
  refine .event (.put (.put (.put (.put (.put ?_ covers_lnk) covers_lnk) covers_lnk) covers_lnk) covers_lnk)
  refine .ite ?_ ?_; refine .foldl ?_ ?_; exact .refl ..; intro _ _; exact .setRegN (.refl ..) covers_lnk2; exact .refl ..
  exact .refl ..

theorem execMarginCheck_only (l : Fin 4) (s : State) {t : State} (h : execMarginCheck l s = .next t) : Only P.link s t := by
  unfold execMarginCheck at h; replace h := Host.Outcome.next.inj h; subst h; refine .ite ?_ ?_
  exact .comp (.refl ..) (State.onLane_only ..); exact .refl ..

theorem State.readapt_only (s : State) (l : Nat) : Only (P.link ||| P.pgLnk) s (State.readapt s l) := by
  unfold State.readapt; exact .put (.comp (.refl ..) (State.onLane_only ..)) covers_lnk

theorem execMarginCheckDone_only (l : Fin 4) (width height : BitVec 7) (s : State) {t : State} (h : execMarginCheckDone l width
    height s = .next t) : Only (P.link ||| P.pgLnk) s t := by
  unfold execMarginCheckDone at h; replace h := Host.Outcome.next.inj h; subst h; refine .ite ?_ ?_; dsimp only
  refine .iteOn ?_ ?_; refine .iteOn ?_ ?_
  exact .eventIf (.put (.put (.put (.comp (.refl ..) (State.onLane_only ..)) covers_lnk) covers_lnk) covers_lnk)
  exact .comp (.refl ..) (State.readapt_only ..); exact .comp (.refl ..) (State.eyeBegin_only ..); exact .refl ..

end Sys2Proof.Machine
end

