-- ==== Sys2Proof/Laws/Footprint/Otp.lean ====
section
/-! SUPPORT. What the operations of Otp.lean may change. -/

set_option Elab.async false

namespace Sys2Proof.Machine

theorem State.readOtp_only (s : State) : Only (P.draws ||| P.sys ||| P.pgSpd) s (State.readOtp s) := by
  unfold State.readOtp; dsimp only; refine .ite ?_ ?_; refine .comp (.put (.put ?_)) (State.draw_only ..); refine .iteOn ?_ ?_
  refine .put ?_; refine .ite ?_ ?_; exact .put (.put (.put (.setRegN (.refl ..)))); exact .setReg (.setReg (.refl ..))
  refine .iteOff ?_ ?_; exact .setRegN (.put (.put (.refl ..))); exact .setRegN (.refl ..); refine .put (.flag ?_)
  refine .iteOn ?_ ?_; refine .put ?_; refine .ite ?_ ?_; exact .put (.put (.put (.setRegN (.refl ..))))
  exact .setReg (.setReg (.refl ..)); refine .iteOff ?_ ?_; exact .setRegN (.put (.put (.refl ..))); exact .setRegN (.refl ..)

end Sys2Proof.Machine
end

