-- ==== Sys2Proof/Laws/Footprint/Sio.lean ====
section
/-! SUPPORT. What the operations of Sio.lean may change. -/

set_option Elab.async false

namespace Sys2Proof.Machine

theorem State.onTps_only (s : State) (n : Nat) (f : TestPulse → TestPulse) : Only P.sio s (State.onTps s n f) := by
  unfold State.onTps; refine .dite ?_ ?_; intro _; exact .upd (.refl ..); intro _; exact .refl ..

theorem State.inputVal_only (s : State) (k : Nat) (v : Bool) : Only P.pgSio s (State.inputVal s k v) := by
  unfold State.inputVal; refine .ite ?_ ?_; exact .refl ..; exact .event (.flag (.refl ..) covers_arr)

theorem State.inputClear_only (s : State) (k : Nat) (safe : Bool) : Only P.pgSio s (State.inputClear s k safe) := by
  unfold State.inputClear; dsimp only
  exact .put (.put (.put (.eventIf (.comp (.refl ..) (State.inputVal_only ..))) covers_arr) covers_arr) covers_arr

theorem State.inputCfg_only (s : State) (old : Word) (k : Nat) : Only (P.sio ||| P.pgSio) s (State.inputCfg s old k) := by
  unfold State.inputCfg; dsimp only; refine .ite ?_ ?_; refine .ite ?_ ?_; refine .upd (.comp ?_ (State.inputClear_only ..))
  refine .ite ?_ ?_; exact .refl ..; exact .put (.refl ..) covers_arr; refine .comp ?_ (State.inputVal_only ..)
  refine .ite ?_ ?_; exact .refl ..; exact .put (.refl ..) covers_arr; refine .iteOff ?_ ?_; refine .ite ?_ ?_; exact .refl ..
  exact .put (.refl ..) covers_arr; exact .comp (.refl ..) (State.inputVal_only ..)

theorem State.outputCfg_only (s : State) (old : Word) (k : Nat) : Only (P.sio ||| P.pgSio) s (State.outputCfg s old k) := by
  unfold State.outputCfg; refine .ite ?_ ?_; dsimp only
  refine .put (.put (.put (.put (.eventIf (.comp ?_ (State.outOff_only ..))) covers_arr) covers_arr) covers_arr) covers_arr
  exact .refl ..; exact .refl ..

theorem State.useSio_only (s : State) : Only (P.sio ||| P.pgSio) s (State.useSio s) := by
  unfold State.useSio; dsimp only; refine .foldl ?_ ?_; refine .foldl ?_ ?_; exact .upd (.refl ..); intro _ _
  exact .comp (.refl ..) (State.inputCfg_only ..); intro _ _; exact .comp (.refl ..) (State.outputCfg_only ..)

theorem State.takeSio_only (s : State) : Only (P.sio ||| P.pgSio) s (State.takeSio s) := by
  unfold State.takeSio; dsimp only; split; refine .iteOn ?_ ?_; exact .upd (.refl ..)
  exact .comp (.refl ..) (State.useSio_only ..); exact .comp (.upd (.refl ..)) (State.useSio_only ..)

theorem State.latchInput_only (s : State) (k cause : Nat) : Only P.pgSio s (State.latchInput s k cause) := by
  unfold State.latchInput; dsimp only; refine .iteOff ?_ ?_; exact .put (.comp (.refl ..) (State.inputVal_only ..)) covers_arr
  exact .put (.refl ..) covers_arr

theorem State.latchFb_only (s : State) (k cause : Nat) : Only (P.vid ||| P.sio ||| P.pgSio) s (State.latchFb s k cause) := by
  unfold State.latchFb; dsimp only; refine .iteOn ?_ ?_; refine .iteOff ?_ ?_; exact .put (.refl ..) covers_arr
  exact .upd (.refl ..); exact .comp (.refl ..) (State.markAll_only ..)

theorem State.evalInput_only (s : State) (k : Nat) : Only (P.sio ||| P.pgSio) s (State.evalInput s k) := by
  unfold State.evalInput; dsimp only; refine .ite ?_ ?_; exact .refl ..; refine .iteOff ?_ ?_
  exact .flag (.flag (.flag (.refl ..) covers_arr) covers_arr) covers_arr; refine .ite ?_ ?_; refine .iteOff ?_ ?_
  exact .upd (.put (.refl ..) covers_arr); exact .comp (.refl ..) (State.inputVal_only ..); refine .iteOn ?_ ?_
  exact .put (.refl ..) covers_arr; exact .upd (.refl ..)

theorem State.evalFb_only (s : State) : Only (P.vid ||| P.sio ||| P.pgSio) s (State.evalFb s) := by
  unfold State.evalFb; split; refine .ite ?_ ?_; exact .comp (.refl ..) (State.clearFbInput_only ..); exact .refl ..
  dsimp only; refine .ite ?_ ?_; exact .upd (.put (.refl ..)); refine .ite ?_ ?_; refine .iteOff ?_ ?_
  exact .upd (.put (.refl ..)); exact .comp (.flag (.refl ..) covers_arr) (State.markAll_only ..)
  exact .upd (.put (.refl ..))

theorem State.noteEcho_only (s : State) (k : Nat) : Only P.sio s (State.noteEcho s k) := by
  unfold State.noteEcho; exact .upd (.refl ..)

theorem State.echo_only (s : State) (k cause : Nat) : Only P.fault s (State.echo s k cause) := by
  unfold State.echo; dsimp only; refine .comp (.event (.inc ?_)) (State.raise_only ..); refine .iteOn ?_ ?_
  refine .iteOn ?_ ?_; exact .comp (.refl ..) (State.noteEcho_only ..); exact .comp (.refl ..) (State.latchInput_only ..)
  exact .comp (.refl ..) (State.latchFb_only ..)

theorem State.echoCheck_only (s : State) (n : Nat) (rbWrong final : Bool) : Only P.fault s (State.echoCheck s n rbWrong final) :=
    by
  unfold State.echoCheck; dsimp only; refine .foldl ?_ ?_; exact .refl ..; intro _ _; refine .ite ?_ ?_; refine .ite ?_ ?_
  exact .refl ..; exact .comp (.refl ..) (State.echo_only ..); exact .refl ..

theorem State.badSource_only (s : State) (n : Nat) : Only P.fault s (State.badSource s n) := by
  unfold State.badSource; refine .foldl ?_ ?_; exact .refl ..; intro _ _; dsimp only; refine .ite ?_ ?_
  exact .comp (.refl ..) (State.echo_only ..); exact .refl ..

theorem State.tickSource_only (s : State) (rb : BitVec 4) (n : Nat) : Only P.fault s (State.tickSource s rb n) := by
  unfold State.tickSource; dsimp only; refine .ite ?_ ?_; refine .ite ?_ ?_
  exact .comp (.comp (.setBit (.refl ..)) (State.onTps_only ..)) (State.echoCheck_only ..); refine .iteOn ?_ ?_
  exact .setBit (.refl ..); refine .comp ?_ (State.echoCheck_only ..); refine .ite ?_ ?_; exact .refl ..
  exact .comp (.refl ..) (State.badSource_only ..); refine .iteOn ?_ ?_; exact .setBit (.refl ..)
  exact .comp (.refl ..) (State.badSource_only ..)

theorem State.advanceTps_only (s : State) : Only P.sio s (State.advanceTps s) := by
  unfold State.advanceTps; dsimp only; refine .foldl ?_ ?_; exact .upd (.refl ..); intro _ _; refine .ite ?_ ?_
  exact .comp (.refl ..) (State.onTps_only ..); exact .refl ..

theorem State.endBlanking_only (s : State) : Only (P.sio ||| P.pgSio) s (State.endBlanking s) := by
  unfold State.endBlanking; refine .foldl ?_ ?_; exact .refl ..; intro _ _; dsimp only; refine .ite ?_ ?_
  exact .setBit (.comp (.refl ..) (State.onTps_only ..)); exact .refl ..

theorem State.outFault_only (s : State) (k cause : Nat) : Only P.fault s (State.outFault s k cause) := by
  unfold State.outFault; dsimp only; refine .comp (.comp ?_ (State.outOff_only ..)) (State.raise_only ..); refine .ite ?_ ?_
  exact .event (.inc (.put (.put (.refl ..) covers_arr) covers_arr))
  exact .event (.inc (.put (.put (.refl ..) covers_arr) covers_arr))

theorem State.tickTest_only (s : State) (k : Nat) (rb : Bool) : Only P.fault s (State.tickTest s k rb) := by
  unfold State.tickTest; dsimp only; refine .ite ?_ ?_; exact .refl ..; refine .ite ?_ ?_
  exact .comp (.comp (.comp (.refl ..) (State.onOut_only ..)) (State.onOut_only ..)) (State.outFault_only ..)
  refine .iteOn ?_ ?_; exact .comp (.refl ..) (State.onOut_only ..); refine .iteOff ?_ ?_
  exact .comp (.refl ..) (State.onOut_only ..); refine .ite ?_ ?_
  exact .comp (.put (.inc (.refl ..)) covers_arr) (State.onOut_only ..)
  exact .put (.comp (.refl ..) (State.outFault_only ..)) covers_arr

theorem State.tickReadback_only (s : State) (k : Nat) (rb : Bool) : Only P.fault s (State.tickReadback s k rb) := by
  unfold State.tickReadback; dsimp only; refine .ite ?_ ?_; exact .refl ..; refine .ite ?_ ?_
  exact .comp (.refl ..) (State.onOut_only ..); refine .ite ?_ ?_; exact .comp (.refl ..) (State.onOut_only ..)
  refine .iteOn ?_ ?_; exact .comp (.refl ..) (State.onOut_only ..); exact .comp (.refl ..) (State.outFault_only ..)

theorem State.tickOn_only (s : State) (k : Nat) : Only (P.sio ||| P.pgSio) s (State.tickOn s k) := by
  unfold State.tickOn; refine .ite ?_ ?_; dsimp only; refine .iteOn ?_ ?_; exact .comp (.refl ..) (State.onOut_only ..)
  refine .iteOn ?_ ?_; exact .incBy (.refl ..) covers_arr; exact .comp (.refl ..) (State.onOut_only ..)
  exact .comp (.refl ..) (State.onOut_only ..)

theorem State.tickOut_only (s : State) (rbs : BitVec 8) (k : Nat) : Only P.fault s (State.tickOut s rbs k) := by
  unfold State.tickOut; dsimp only
  refine .comp (.comp (.comp ?_ (State.tickOn_only ..)) (State.tickTest_only ..)) (State.tickReadback_only ..)
  exact .flag (.refl ..) covers_arr

theorem State.sioOff_only (s : State) : Only (P.sio ||| P.pgSio) s (State.sioOff s) := by
  unfold State.sioOff; dsimp only; refine .upd (.put (.comp ?_ (State.clearFbInput_only ..))); refine .foldl ?_ ?_
  exact .refl ..; intro _ _; exact .comp (.comp (.refl ..) (State.inputClear_only ..)) (State.outOff_only ..)

theorem State.sioTick_only (s : State) (p : TickIn) : Only P.fault s (State.sioTick s p) := by
  unfold State.sioTick; dsimp only; refine .ite ?_ ?_; refine .comp ?_ (State.sioDrive_only ..); refine .foldl ?_ ?_
  refine .comp ?_ (State.endBlanking_only ..); refine .foldl ?_ ?_; refine .comp ?_ (State.evalFb_only ..)
  refine .foldl ?_ ?_; exact .comp (.upd (.comp (.refl ..) (State.takeSio_only ..))) (State.advanceTps_only ..); intro _ _
  exact .comp (.refl ..) (State.evalInput_only ..); intro _ _; exact .comp (.refl ..) (State.tickSource_only ..); intro _ _
  exact .comp (.refl ..) (State.tickOut_only ..)
  exact .comp (.upd (.comp (.refl ..) (State.takeSio_only ..))) (State.sioOff_only ..)

theorem State.ackInput_only (s : State) (k : Nat) : Only P.fault s (State.ackInput s k) := by
  unfold State.ackInput; dsimp only; refine .iteOn ?_ ?_; refine .ite ?_ ?_; exact .refl ..; refine .ite ?_ ?_
  exact .event (.put (.put (.refl ..) covers_arr) covers_arr); exact .comp (.refl ..) (State.raise_only ..); refine .ite ?_ ?_
  exact .event (.upd (.refl ..)); exact .comp (.refl ..) (State.raise_only ..)

theorem State.ackOut_only (s : State) (k : Nat) : Only P.fault s (State.ackOut s k) := by
  unfold State.ackOut; refine .ite ?_ ?_; exact .refl ..; refine .ite ?_ ?_; dsimp only
  exact .comp (.event (.put (.put (.put (.refl ..) covers_arr) covers_arr) covers_arr)) (State.onOut_only ..)
  exact .comp (.refl ..) (State.raise_only ..)

theorem State.sioAck_only (s : State) : Only P.fault s (State.sioAck s) := by
  unfold State.sioAck; refine .comp ?_ (State.sioDrive_only ..); refine .foldl ?_ ?_; exact .refl ..; intro _ _
  exact .comp (.comp (.refl ..) (State.ackInput_only ..)) (State.ackOut_only ..)

theorem execDiscrepancy_only (k : Fin 8) (s : State) {t : State} (h : execDiscrepancy k s = .next t) : Only P.fault s t := by
  unfold execDiscrepancy at h; replace h := Host.Outcome.next.inj h; subst h; refine .ite ?_ ?_; dsimp only
  refine .comp (.comp (.event (.inc ?_)) (State.raise_only ..)) (State.sioDrive_only ..); refine .iteOn ?_ ?_
  refine .iteOn ?_ ?_; exact .upd (.refl ..); exact .comp (.refl ..) (State.latchInput_only ..)
  exact .comp (.refl ..) (State.latchFb_only ..); exact .refl ..

theorem execTestPulseStart_only (n : Fin 4) (s : State) {t : State} (h : execTestPulseStart n s = .next t) : Only (P.sio |||
    P.pgSio) s t := by
  unfold execTestPulseStart at h; replace h := Host.Outcome.next.inj h; subst h; refine .ite ?_ ?_
  exact .setBit (.comp (.refl ..) (State.onTps_only ..)); exact .refl ..

theorem execTestPulseEnd_only (n : Fin 4) (s : State) {t : State} (h : execTestPulseEnd n s = .next t) : Only P.sio s t := by
  unfold execTestPulseEnd at h; replace h := Host.Outcome.next.inj h; subst h; refine .ite ?_ ?_
  exact .comp (.refl ..) (State.onTps_only ..); exact .refl ..

theorem execOffPulseStart_only (k : Fin 8) (s : State) {t : State} (h : execOffPulseStart k s = .next t) : Only (P.sio |||
    P.pgSio) s t := by
  unfold execOffPulseStart at h; replace h := Host.Outcome.next.inj h; subst h; refine .ite ?_ ?_; dsimp only
  exact .comp (.put (.put (.comp (.refl ..) (State.driveOut_only ..)) covers_arr) covers_arr) (State.onOut_only ..)
  exact .refl ..

theorem execOffPulseEnd_only (k : Fin 8) (s : State) {t : State} (h : execOffPulseEnd k s = .next t) : Only (P.sio ||| P.pgSio) s
    t := by
  unfold execOffPulseEnd at h; replace h := Host.Outcome.next.inj h; subst h; refine .ite ?_ ?_
  exact .comp (.comp (.put (.refl ..) covers_arr) (State.onOut_only ..)) (State.sioDrive_only ..); exact .refl ..

theorem execTestMissed_only (k : Fin 8) (s : State) {t : State} (h : execTestMissed k s = .next t) : Only P.fault s t := by
  unfold execTestMissed at h; replace h := Host.Outcome.next.inj h; subst h; refine .ite ?_ ?_
  exact .comp (.comp (.refl ..) (State.onOut_only ..)) (State.outFault_only ..); exact .refl ..

end Sys2Proof.Machine
end

