-- ==== Sys2Proof/Laws/Footprint/Converter.lean ====
section
/-! SUPPORT. What the operations of Converter.lean may change. -/

set_option Elab.async false

namespace Sys2Proof.Machine

theorem State.onAdc_only (s : State) (f : Adc → Adc) : Only P.adc s (State.onAdc s f) := by
  unfold State.onAdc; exact .upd (.refl ..)

theorem State.adcShow_only (s : State) : Only P.pgAdc s (State.adcShow s) := by
  unfold State.adcShow; exact .flag (.flag (.refl ..))

theorem State.adcNext_only (s : State) : Only (P.adc ||| P.pgAdc) s (State.adcNext s) := by
  unfold State.adcNext; refine .ite ?_ ?_; exact .comp (.refl ..) (State.adcShow_only ..); refine .ite ?_ ?_
  exact .comp (.comp (.refl ..) (State.onAdc_only ..)) (State.adcShow_only ..); refine .ite ?_ ?_
  exact .comp (.comp (.refl ..) (State.onAdc_only ..)) (State.adcShow_only ..); refine .ite ?_ ?_
  exact .comp (.put (.put (.refl ..))) (State.adcShow_only ..); refine .ite ?_ ?_
  exact .comp (.refl ..) (State.adcShow_only ..); refine .ite ?_ ?_
  exact .comp (.comp (.refl ..) (State.onAdc_only ..)) (State.adcShow_only ..); exact .comp (.refl ..) (State.adcShow_only ..)

theorem State.regTrigger_only (s : State) : Only (P.adc ||| P.pgAdc) s (State.regTrigger s) := by
  unfold State.regTrigger; refine .ite ?_ ?_; exact .refl ..; refine .ite ?_ ?_; exact .event (.inc (.refl ..)); dsimp only
  exact .comp (.comp (.put (.put (.refl ..))) (State.onAdc_only ..)) (State.adcNext_only ..)

theorem State.regRun_only (s : State) : Only (P.adc ||| P.pgAdc) s (State.regRun s) := by
  unfold State.regRun; refine .ite ?_ ?_; exact .comp (.refl ..) (State.regTrigger_only ..); exact .refl ..

theorem State.regEnd_only (s : State) : Only (P.adc ||| P.pgAdc) s (State.regEnd s) := by
  unfold State.regEnd; exact .comp (.put (.put (.refl ..))) (State.onAdc_only ..)

theorem State.calFail_only (s : State) (result slice : Nat) : Only (P.fault ||| P.pgAdc) s (State.calFail s result slice) := by
  unfold State.calFail; dsimp only; exact .comp (.event (.put (.put (.put (.refl ..))))) (State.raise_only ..)

theorem State.calAbandon_only (s : State) : Only (P.fault ||| P.adc ||| P.draws ||| P.pgAdc) s (State.calAbandon s) := by
  unfold State.calAbandon; refine .ite ?_ ?_; dsimp only; refine .ite ?_ ?_
  refine .comp (.comp (.comp (.event (.put (.put ?_))) (State.onAdc_only ..)) (State.draw_only ..)) (State.calFail_only ..)
  exact .refl ..; exact .put (.comp (.comp (.event (.put (.put (.refl ..)))) (State.onAdc_only ..)) (State.draw_only ..))
  exact .refl ..

theorem State.injBegin_only (s : State) : Only (P.fault ||| P.adc ||| P.draws ||| P.pgAdc) s (State.injBegin s) := by
  unfold State.injBegin; dsimp only
  refine .comp (.comp (.put (.put (.comp ?_ (State.calAbandon_only ..)))) (State.onAdc_only ..)) (State.adcNext_only ..)
  split; exact .comp (.inc (.refl ..)) (State.onAdc_only ..); exact .refl ..

theorem State.injTrigger_only (s : State) : Only (P.fault ||| P.adc ||| P.draws ||| P.pgAdc) s (State.injTrigger s) := by
  unfold State.injTrigger; refine .ite ?_ ?_; exact .refl ..; refine .ite ?_ ?_; refine .ite ?_ ?_
  exact .event (.inc (.refl ..)); exact .put (.refl ..); exact .comp (.refl ..) (State.injBegin_only ..)

theorem State.calRequest_only (s : State) : Only (P.adc ||| P.pgAdc) s (State.calRequest s) := by
  unfold State.calRequest; refine .ite ?_ ?_; exact .refl ..; dsimp only; refine .comp (.put ?_) (State.adcNext_only ..)
  refine .ite ?_ ?_; exact .put (.refl ..); exact .refl ..

theorem State.convert_only (s : State) (slice : Nat) (x : Sample) : Only (P.adc ||| P.pgAdc) s (State.convert s slice x).1 := by
  unfold State.convert; dsimp only; refine .eventIf ?_; refine .iteOn ?_ ?_; refine .iteOn ?_ ?_; refine .dite ?_ ?_; intro _
  exact .comp (.refl ..) (State.onAdc_only ..); intro _; exact .refl ..; exact .inc (.refl ..); exact .inc (.refl ..)

theorem State.trgStep_only (s : State) (fast : Bool) (ch : Nat) (c : Conv) (k : Nat) : Only P.adc s (State.trgStep s fast ch c
    k).1 := by
  unfold State.trgStep; refine .diteFst ?_ ?_; intro _; refine .iteFst ?_ ?_; dsimp only
  exact .eventIf (.comp (.refl ..) (State.onAdc_only ..)); dsimp only; exact .refl ..; intro _; dsimp only; exact .refl ..

theorem State.trgAll_only (s : State) (fast : Bool) (ch : Nat) (c : Conv) : Only P.adc s (State.trgAll s fast ch c).1 := by
  unfold State.trgAll; refine .foldlFst ?_ ?_; dsimp only; exact .refl ..; intro _ _; dsimp only
  exact .comp (.refl ..) (State.trgStep_only ..)

theorem State.capTrigger_only (s : State) : Only (P.adc ||| P.pgAdc) s (State.capTrigger s) := by
  unfold State.capTrigger; refine .ite ?_ ?_; dsimp only; exact .comp (.put (.put (.put (.refl ..)))) (State.onAdc_only ..)
  exact .refl ..

theorem State.capWrite_only (s : State) (fast : Bool) (ch num : Nat) (c : Conv) : Only (P.sram ||| P.ecc ||| P.adc ||| P.pgAdc) s
    (State.capWrite s fast ch num c) := by
  unfold State.capWrite; dsimp only; refine .ite ?_ ?_; refine .iteOn ?_ ?_
  exact .comp (.comp (.refl ..) (State.setLe_only ..)) (State.onAdc_only ..); exact .event (.put (.refl ..)); exact .refl ..

theorem State.trgActions_only (s : State) (ks : List Nat) : Only (P.fault ||| P.adc ||| P.draws ||| P.pgAdc) s (State.trgActions s
    ks) := by
  unfold State.trgActions; dsimp only; refine .iteOn ?_ ?_; refine .iteOn ?_ ?_; refine .ite ?_ ?_
  exact .comp (.refl ..) (State.capTrigger_only ..); exact .refl ..; exact .comp (.refl ..) (State.injTrigger_only ..)
  exact .comp (.refl ..) (State.regTrigger_only ..)

theorem State.winJudge_only (s : State) (ch : Nat) (c : Conv) (k : Nat) : Only (P.fault ||| P.pgWin) s (State.winJudge s ch c k)
    := by
  unfold State.winJudge; refine .ite ?_ ?_; dsimp only; refine .ite ?_ ?_
  exact .comp (.event (.inc (.setBit (.put (.refl ..) covers_arr)) covers_arr)) (State.setCond_only ..); refine .iteOn ?_ ?_
  exact .put (.refl ..) covers_arr; exact .comp (.setBit (.refl ..)) (State.setCond_only ..); exact .refl ..

theorem State.tempResult_only (s : State) (ch code : Nat) : Only (P.fault ||| P.adc ||| P.pgSpl) s (State.tempResult s ch code) :=
    by
  unfold State.tempResult; refine .ite ?_ ?_; dsimp only; refine .ite ?_ ?_
  refine .comp (.put (.eventIf (.put ?_))) (State.setCond_only ..); refine .ite ?_ ?_
  exact .comp (.put (.refl ..)) (State.onAdc_only ..); exact .comp (.put (.refl ..)) (State.onAdc_only ..)
  refine .iteOn ?_ ?_; refine .put ?_; refine .ite ?_ ?_; exact .comp (.put (.refl ..)) (State.onAdc_only ..)
  exact .comp (.put (.refl ..)) (State.onAdc_only ..); exact .comp (.put (.refl ..)) (State.setCond_only ..); exact .refl ..

theorem State.converted_only (s : State) (ch : Nat) (c : Conv) : Only (P.fault ||| P.adc ||| P.pgAdc ||| P.pgWin ||| P.pgSpl) s
    (State.converted s ch c).1 := by
  unfold State.converted; dsimp only; refine .comp (.comp ?_ (State.tempResult_only ..)) (State.trgAll_only ..)
  refine .foldl ?_ ?_; exact .comp (.comp (.setRegN (.refl ..) covers_arr) (State.onAdc_only ..)) (State.capWrite_only ..)
  intro _ _; exact .comp (.refl ..) (State.winJudge_only ..)

theorem execConversionComplete_only (x : Sample) (s : State) {t : State} (h : execConversionComplete x s = .next t) : Only
    (P.fault ||| P.adc ||| P.draws ||| P.pgAdc ||| P.pgWin ||| P.pgSpl) s t := by
  unfold execConversionComplete at h; replace h := Host.Outcome.next.inj h; subst h; split; exact .refl ..; refine .ite ?_ ?_
  dsimp only; refine .comp (.comp ?_ (State.adcNext_only ..)) (State.trgActions_only ..); refine .ite ?_ ?_
  refine .iteOn ?_ ?_; refine .comp (.comp (.comp ?_ (State.onAdc_only ..)) (State.converted_only ..)) (State.onAdc_only ..)
  unfold State.putResult; dsimp only; refine .setRegN ?_ (covers_ite covers_arr (by decide)); refine .iteOn ?_ ?_
  exact .comp (.refl ..) (State.convert_only ..); exact .event (.inc (.refl ..)); refine .iteOn ?_ ?_
  exact .event (.put (.refl ..)); exact .comp (.refl ..) (State.injBegin_only ..); refine .ite ?_ ?_
  refine .comp (.comp (.comp ?_ (State.onAdc_only ..)) (State.converted_only ..)) (State.regEnd_only ..)
  unfold State.putResult; dsimp only; refine .setRegN ?_ (covers_ite covers_arr (by decide)); refine .iteOn ?_ ?_
  exact .comp (.refl ..) (State.convert_only ..); exact .event (.inc (.refl ..)); refine .ite ?_ ?_; refine .iteOn ?_ ?_
  refine .event (.comp (.comp (.comp ?_ (State.onAdc_only ..)) (State.converted_only ..)) (State.regEnd_only ..))
  unfold State.putResult; dsimp only; refine .setRegN ?_ (covers_ite covers_arr (by decide)); refine .iteOn ?_ ?_
  exact .comp (.refl ..) (State.convert_only ..); exact .event (.inc (.refl ..))
  exact .comp (.refl ..) (State.regTrigger_only ..)
  refine .put (.comp (.comp ?_ (State.onAdc_only ..)) (State.converted_only ..)); unfold State.putResult; dsimp only
  refine .setRegN ?_ (covers_ite covers_arr (by decide)); refine .iteOn ?_ ?_; exact .comp (.refl ..) (State.convert_only ..)
  exact .event (.inc (.refl ..)); exact .refl ..

theorem State.burstGroup_only (s : State) (rail num : Nat) (xs : List Sample) : Only (P.fault ||| P.adc ||| P.draws ||| P.pgAdc) s
    (State.burstGroup s rail num xs).1 := by
  unfold State.burstGroup; dsimp only; refine .comp ?_ (State.trgActions_only ..); refine .foldlFst ?_ ?_; dsimp only
  exact .refl ..; intro _ _; dsimp only
  exact .comp (.comp (.comp (.refl ..) (State.convert_only ..)) (State.capWrite_only ..)) (State.trgAll_only ..)

theorem State.burstWindow_only (s : State) (rail num : Nat) (win : List Sample) : Only (P.fault ||| P.adc ||| P.draws ||| P.pgAdc)
    s (State.burstWindow s rail num win).1 := by
  unfold State.burstWindow; refine .foldlFst ?_ ?_; dsimp only; exact .refl ..; intro _ _; dsimp only
  exact .comp (.refl ..) (State.burstGroup_only ..)

theorem State.bgcFeed_only (s : State) (cs : List Conv) : Only P.adc s (State.bgcFeed s cs) := by
  unfold State.bgcFeed; refine .ite ?_ ?_; exact .comp (.refl ..) (State.onAdc_only ..); exact .refl ..

theorem State.burst_only (s : State) (slot : Nat) (win : List Sample) : Only (P.fault ||| P.adc ||| P.draws ||| P.pgAdc) s
    (State.burst s slot win).1 := by
  unfold State.burst; refine .iteFst ?_ ?_; dsimp only; exact .refl ..; refine .iteFst ?_ ?_; dsimp only
  exact .inc (.refl ..); dsimp only
  refine .comp (.comp (.comp ?_ (State.bgcFeed_only ..)) (State.onAdc_only ..)) (State.adcNext_only ..)
  exact .comp (.comp (.inc (.refl ..)) (State.onAdc_only ..)) (State.burstWindow_only ..)

theorem execRegularTimer_only (s : State) {t : State} (h : execRegularTimer s = .next t) : Only (P.adc ||| P.pgAdc) s t := by
  unfold execRegularTimer at h; replace h := Host.Outcome.next.inj h; subst h; refine .ite ?_ ?_
  exact .comp (.refl ..) (State.regTrigger_only ..); exact .refl ..

theorem execInjectedSlotTrigger_only (s : State) {t : State} (h : execInjectedSlotTrigger s = .next t) : Only (P.fault ||| P.adc
    ||| P.draws ||| P.pgAdc) s t := by
  unfold execInjectedSlotTrigger at h; replace h := Host.Outcome.next.inj h; subst h; refine .ite ?_ ?_
  exact .comp (.refl ..) (State.injTrigger_only ..); exact .refl ..

theorem execCalibrationPeriod_only (s : State) {t : State} (h : execCalibrationPeriod s = .next t) : Only (P.adc ||| P.pgAdc) s t
    := by
  unfold execCalibrationPeriod at h; replace h := Host.Outcome.next.inj h; subst h; refine .ite ?_ ?_
  exact .comp (.refl ..) (State.calRequest_only ..); exact .refl ..

theorem State.setCoefs_only (s : State) (ws : List Word) : Only (P.adc ||| P.pgAdc) s (State.setCoefs s ws) := by
  unfold State.setCoefs; dsimp only; refine .comp ?_ (State.onAdc_only ..); refine .foldl ?_ ?_; exact .refl ..; intro _ _
  exact .setReg (.refl ..) covers_arr

theorem State.calDone_only (s : State) : Only P.pgAdc s (State.calDone s) := by
  unfold State.calDone; dsimp only; exact .put (.put (.inc (.put (.put (.put (.refl ..))))))

theorem execCalibrationComplete_only (r : Vector CalSlice 4) (s : State) {t : State} (h : execCalibrationComplete r s = .next t) :
    Only (P.fault ||| P.adc ||| P.pgAdc) s t := by
  unfold execCalibrationComplete at h; replace h := Host.Outcome.next.inj h; subst h; refine .ite ?_ ?_; dsimp only; split
  exact .comp (.comp (.comp (.refl ..) (State.onAdc_only ..)) (State.calFail_only ..)) (State.adcNext_only ..)
  exact .comp (.comp (.comp (.refl ..) (State.onAdc_only ..)) (State.calFail_only ..)) (State.adcNext_only ..)
  refine .comp (.event (.comp (.comp ?_ (State.setCoefs_only ..)) (State.calDone_only ..))) (State.adcNext_only ..)
  exact .comp (.refl ..) (State.onAdc_only ..); exact .refl ..

theorem execBgcUpdate_only (ofs : Vector Move 4) (gainSkew : Vector (Move × Move) 4) (s : State) {t : State} (h : execBgcUpdate
    ofs gainSkew s = .next t) : Only (P.adc ||| P.pgAdc) s t := by
  unfold execBgcUpdate at h; replace h := Host.Outcome.next.inj h; subst h; refine .ite ?_ ?_; dsimp only; refine .iteOn ?_ ?_
  exact .comp (.refl ..) (State.onAdc_only ..); refine .iteOn ?_ ?_; refine .foldl ?_ ?_; exact .refl ..; intro _ _
  refine .iteOff ?_ ?_; unfold State.moveCoef; dsimp only; exact .put (.refl ..) covers_arr; unfold State.moveCoef; dsimp only
  exact .put (.put (.refl ..) covers_arr) covers_arr; refine .iteOn ?_ ?_; exact .event (.refl ..)
  exact .comp (.refl ..) (State.calRequest_only ..); exact .refl ..

theorem execTempNodata_only (s : State) {t : State} (h : execTempNodata s = .next t) : Only P.pgSpl s t := by
  unfold execTempNodata at h; replace h := Host.Outcome.next.inj h; subst h; exact .event (.put (.refl ..))

theorem State.adcStop_only (s : State) : Only (P.adc ||| P.pgAdc) s (State.adcStop s) := by
  unfold State.adcStop; dsimp only; refine .comp ?_ (State.onAdc_only ..); refine .iteOff ?_ ?_; exact .put (.put (.refl ..))
  exact .put (.refl ..)

theorem State.adcCtrl_only (s : State) (v : Word) : Only (P.fault ||| P.adc ||| P.draws ||| P.pgAdc) s (State.adcCtrl s v) := by
  unfold State.adcCtrl; dsimp only; refine .iteOn ?_ ?_; refine .ite ?_ ?_; refine .ite ?_ ?_; split
  refine .comp ?_ (State.onAdc_only ..); refine .iteOn ?_ ?_; refine .iteOn ?_ ?_; refine .iteOn ?_ ?_; refine .iteOn ?_ ?_
  refine .ite ?_ ?_; exact .put (.setReg (.setReg (.setReg (.refl ..)))); exact .refl ..
  exact .comp (.put (.put (.put (.refl ..)))) (State.onAdc_only ..); exact .comp (.refl ..) (State.capTrigger_only ..)
  exact .comp (.refl ..) (State.injTrigger_only ..); exact .comp (.refl ..) (State.calRequest_only ..)
  refine .comp (.comp ?_ (State.regEnd_only ..)) (State.adcShow_only ..); refine .iteOn ?_ ?_; refine .iteOn ?_ ?_
  refine .iteOn ?_ ?_; refine .iteOn ?_ ?_; refine .ite ?_ ?_; exact .put (.setReg (.setReg (.setReg (.refl ..))))
  exact .refl ..; exact .comp (.put (.put (.put (.refl ..)))) (State.onAdc_only ..)
  exact .comp (.refl ..) (State.capTrigger_only ..); exact .comp (.refl ..) (State.injTrigger_only ..)
  exact .comp (.refl ..) (State.calRequest_only ..); refine .iteOn ?_ ?_; refine .iteOn ?_ ?_; refine .iteOn ?_ ?_
  refine .iteOn ?_ ?_; refine .ite ?_ ?_; exact .put (.setReg (.setReg (.setReg (.refl ..)))); exact .refl ..
  exact .comp (.put (.put (.put (.refl ..)))) (State.onAdc_only ..); exact .comp (.refl ..) (State.capTrigger_only ..)
  exact .comp (.refl ..) (State.injTrigger_only ..); exact .comp (.refl ..) (State.calRequest_only ..); refine .iteOn ?_ ?_
  refine .iteOn ?_ ?_; refine .iteOn ?_ ?_; refine .iteOn ?_ ?_; refine .ite ?_ ?_
  exact .put (.setReg (.setReg (.setReg (.refl ..)))); exact .refl ..
  exact .comp (.put (.put (.put (.refl ..)))) (State.onAdc_only ..); exact .comp (.refl ..) (State.capTrigger_only ..)
  exact .comp (.refl ..) (State.injTrigger_only ..); exact .comp (.refl ..) (State.calRequest_only ..)
  exact .comp (.refl ..) (State.regTrigger_only ..)

end Sys2Proof.Machine
end

