-- ==== Sys2Proof/Laws/Footprint/Supply.lean ====
section
/-! SUPPORT. What the operations of Supply.lean may change. -/

set_option Elab.async false

namespace Sys2Proof.Machine

theorem State.balRestart_only (s : State) (rails : List Nat) : Only P.bal s (State.balRestart s rails) := by
  unfold State.balRestart; dsimp only; exact .upd (.refl ..)

theorem State.balStart_only (s : State) : Only P.bal s (State.balStart s) := by
  unfold State.balStart; exact .comp (.refl ..) (State.balRestart_only ..)

theorem State.balBurst_only (s : State) (slot : Nat) (cs : Option (List Conv)) : Only (P.bal ||| P.pgBal) s (State.balBurst s slot
    cs) := by
  unfold State.balBurst; dsimp only; split; exact .inc (.refl ..); refine .ite ?_ ?_; exact .inc (.refl ..)
  exact .upd (.put (.put (.inc (.refl ..)) covers_arr2) covers_arr2)

theorem execFastBurst_only (slot : Nat) (win : Vector Sample 64) (s : State) {t : State} (h : execFastBurst slot win s = .next t)
    : Only (P.fault ||| P.adc ||| P.bal ||| P.draws ||| P.pgAdc ||| P.pgBal) s t := by
  unfold execFastBurst at h; replace h := Host.Outcome.next.inj h; subst h; split; refine .iteOn ?_ ?_
  exact .ofPair (by assumption) (.comp (.refl ..) (State.burst_only ..)); exact .comp (.refl ..) (State.balBurst_only ..)

theorem State.balRail_only (s : State) (g : Nat) : Only (P.fault ||| P.bal ||| P.pgBal) s (State.balRail s g) := by
  unfold State.balRail; dsimp only; refine .iteOff ?_ ?_
  exact .setReg (.setRegN (.setRegN (.upd (.refl ..)) covers_arr2) covers_arr2) covers_arr2
  exact .comp (.eventIf (.eventIf (.refl ..))) (State.setCond_only ..)

theorem execBalanceWindowEnd_only (s : State) {t : State} (h : execBalanceWindowEnd s = .next t) : Only (P.fault ||| P.bal |||
    P.pgBal) s t := by
  unfold execBalanceWindowEnd at h; replace h := Host.Outcome.next.inj h; subst h; dsimp only
  refine .comp ?_ (State.balRestart_only ..); refine .iteOn ?_ ?_; refine .foldl ?_ ?_; exact .refl ..; intro _ _
  exact .comp (.refl ..) (State.balRail_only ..); exact .event (.incWrap (.refl ..))

theorem State.splCount_only (s : State) (g n : Nat) : Only (P.fault ||| P.spl ||| P.pgSpl) s (State.splCount s g n) := by
  unfold State.splCount; dsimp only; refine .ite ?_ ?_; refine .comp (.put (.eventIf ?_) covers_arr2) (State.setCond_only ..)
  refine .dite ?_ ?_; intro _; exact .upd (.refl ..); intro _; exact .refl ..; refine .iteOn ?_ ?_; refine .eventIf ?_
  refine .dite ?_ ?_; intro _; exact .upd (.refl ..); intro _; exact .refl ..
  exact .comp (.put (.refl ..) covers_arr2) (State.setCond_only ..)

theorem State.supplyChannel_only (s : State) (g : Nat) : Only (P.fault ||| P.spl ||| P.pgSpl) s (State.supplyChannel s g) := by
  unfold State.supplyChannel; refine .ite ?_ ?_; exact .comp (.refl ..) (State.splCount_only ..); refine .ite ?_ ?_
  exact .comp (.setReg (.setReg (.refl ..) covers_arr2) covers_arr2) (State.splCount_only ..); split
  exact .comp (.event (.put (.put (.refl ..) covers_arr2) covers_arr2)) (State.splCount_only ..); split; dsimp only
  refine .comp ?_ (State.splCount_only ..); refine .iteOn ?_ ?_; refine .iteOn ?_ ?_
  refine .put (.put (.put (.put (.flag (.flag ?_ covers_arr2) covers_arr2) covers_arr2) covers_arr2) covers_arr2) covers_arr2
  exact .put (.refl ..) covers_arr2; exact .inc (.refl ..); exact .inc (.refl ..)

theorem State.supplyPeriod_only (s : State) : Only (P.fault ||| P.spl ||| P.pgSpl) s (State.supplyPeriod s) := by
  unfold State.supplyPeriod; dsimp only; refine .upd ?_; refine .ite ?_ ?_; refine .foldl ?_ ?_; exact .refl ..; intro _ _
  exact .comp (.refl ..) (State.supplyChannel_only ..); refine .foldl ?_ ?_; exact .refl ..; intro _ _
  exact .comp (.refl ..) (State.splCount_only ..)

theorem State.supplyInit_only (s : State) : Only (P.spl ||| P.pgSpl) s (State.supplyInit s) := by
  unfold State.supplyInit; dsimp only; refine .upd ?_; refine .foldl ?_ ?_; exact .refl ..; intro _ _
  exact .setRegN (.refl ..) covers_arr2

end Sys2Proof.Machine
end

