-- ==== Sys2Proof/Laws/Footprint/Modes.lean ====
section
/-! SUPPORT. What the operations of Modes.lean may change. -/

set_option Elab.async false

namespace Sys2Proof.Machine

theorem State.forceHold_only (s : State) (code detail : Nat) : Only (P.fault ||| P.bist) s (State.forceHold s code detail) := by
  unfold State.forceHold; split; exact .refl ..; dsimp only; refine .iteOn ?_ ?_
  refine .comp (.comp ?_ (State.withdraw_only ..)) (State.enterHold_only ..); refine .ite ?_ ?_; exact .put (.refl ..)
  exact .refl ..; exact .comp (.refl ..) (State.setCond_only ..); refine .ite ?_ ?_; exact .refl ..; exact .upd (.refl ..)

theorem State.porState_only (s : State) :
    Only (P.fault ||| P.fades ||| P.adc ||| P.bal ||| P.spl ||| P.link ||| P.spi ||| P.pair ||| P.ack ||| P.rst ||| P.sys ||| P.bist ||| P.pnow ||| P.pgPkt ||| P.pgVin ||| P.pgMsk ||| P.pgCal ||| P.pgSup ||| P.pgAdc ||| P.pgWin ||| P.pgBal ||| P.pgSpl ||| P.pgAxo ||| P.pgOff) s s.porState :=
  .ofReset rfl rfl rfl rfl rfl (fun _ => rfl) (show State.reset.get F.SYS_STAT_mode ≤ 5 by decide)

theorem State.doReset_only (s : State) (bit : Nat) :
    Only (P.fault ||| P.fades ||| P.adc ||| P.bal ||| P.spl ||| P.link ||| P.spi ||| P.pair ||| P.ack ||| P.rst ||| P.sys ||| P.bist ||| P.pnow ||| P.pgPkt ||| P.pgVin ||| P.pgMsk ||| P.pgCal ||| P.pgSup ||| P.pgAdc ||| P.pgWin ||| P.pgBal ||| P.pgSpl ||| P.pgAxo ||| P.pgOff) s (s.doReset bit) :=
  .inc (.put (.setBit (.setReg (.setReg (.ofReset rfl rfl rfl rfl rfl id (show State.reset.get F.SYS_STAT_mode ≤ 5 by decide))))))

theorem execPowerOnReset_only (_vsafeFell : Bool) (s : State) {t : State} (h : execPowerOnReset _vsafeFell s = .next t) : Only
    (P.fault ||| P.fades ||| P.adc ||| P.bal ||| P.spl ||| P.link ||| P.spi ||| P.pair ||| P.ack ||| P.rst ||| P.sys ||| P.bist
    ||| P.pnow ||| P.pgPkt ||| P.pgVin ||| P.pgMsk ||| P.pgCal ||| P.pgSup ||| P.pgAdc ||| P.pgWin ||| P.pgBal ||| P.pgSpl |||
    P.pgAxo ||| P.pgOff) s t := by
  unfold execPowerOnReset at h; replace h := Host.Outcome.next.inj h; subst h; exact .comp (.refl ..) (State.porState_only ..)

theorem State.resetInput_only (s : State) (ns bit which : Nat) : Only (P.fault ||| P.fades ||| P.adc ||| P.bal ||| P.spl |||
    P.link ||| P.spi ||| P.pair ||| P.draws ||| P.ack ||| P.rst ||| P.sys ||| P.bist ||| P.pnow ||| P.pgPkt ||| P.pgVin |||
    P.pgMsk ||| P.pgCal ||| P.pgSup ||| P.pgAdc ||| P.pgWin ||| P.pgBal ||| P.pgSpl ||| P.pgAxo ||| P.pgOff) s (State.resetInput s
    ns bit which) := by
  unfold State.resetInput; refine .ite ?_ ?_; exact .refl ..; dsimp only; refine .ite ?_ ?_
  exact .comp (.comp (.refl ..) (State.withdraw_only ..)) (State.doReset_only ..); refine .ite ?_ ?_
  exact .upd (.comp (.comp (.refl ..) (State.withdraw_only ..)) (State.draw_only ..))
  exact .comp (.comp (.comp (.refl ..) (State.withdraw_only ..)) (State.draw_only ..)) (State.doReset_only ..)

theorem execResetNFall_only (ns : Nat) (s : State) {t : State} (h : execResetNFall ns s = .next t) : Only (P.fault ||| P.fades |||
    P.adc ||| P.bal ||| P.spl ||| P.link ||| P.spi ||| P.pair ||| P.draws ||| P.ack ||| P.rst ||| P.sys ||| P.bist ||| P.pnow |||
    P.pgPkt ||| P.pgVin ||| P.pgMsk ||| P.pgCal ||| P.pgSup ||| P.pgAdc ||| P.pgWin ||| P.pgBal ||| P.pgSpl ||| P.pgAxo |||
    P.pgOff) s t := by
  unfold execResetNFall at h; replace h := Host.Outcome.next.inj h; subst h; exact .comp (.refl ..) (State.resetInput_only ..)

theorem execPartnerRstNFall_only (ns : Nat) (s : State) {t : State} (h : execPartnerRstNFall ns s = .next t) : Only (P.fault |||
    P.fades ||| P.adc ||| P.bal ||| P.spl ||| P.link ||| P.spi ||| P.pair ||| P.draws ||| P.ack ||| P.rst ||| P.sys ||| P.bist |||
    P.pnow ||| P.pgPkt ||| P.pgVin ||| P.pgMsk ||| P.pgCal ||| P.pgSup ||| P.pgAdc ||| P.pgWin ||| P.pgBal ||| P.pgSpl ||| P.pgAxo
    ||| P.pgOff) s t := by
  unfold execPartnerRstNFall at h; replace h := Host.Outcome.next.inj h; subst h; refine .ite ?_ ?_; exact .refl ..
  exact .comp (.refl ..) (State.resetInput_only ..)

theorem execResetGlitch_only (s : State) {t : State} (h : execResetGlitch s = .next t) : Only (P.fault ||| P.bist) s t := by
  unfold execResetGlitch at h; replace h := Host.Outcome.next.inj h; subst h; dsimp only; refine .ite ?_ ?_; exact .refl ..
  exact .comp (.upd (.refl ..)) (State.forceHold_only ..)

theorem execResetRelease_only (ackN role : Bool) (s : State) {t : State} (h : execResetRelease ackN role s = .next t) : Only
    (P.boot ||| P.isl ||| P.clk) s t := by
  unfold execResetRelease at h; replace h := Host.Outcome.next.inj h; subst h; refine .ite ?_ ?_; dsimp only
  exact .upd (.put (.refl ..)); exact .refl ..

theorem execPllLock_only (s : State) {t : State} (h : execPllLock s = .next t) : Only (P.fault ||| P.bist) s t := by
  unfold execPllLock at h; replace h := Host.Outcome.next.inj h; subst h; refine .ite ?_ ?_; dsimp only; split
  exact .comp (.upd (.put (.put (.put (.put (.refl ..)))))) (State.forceHold_only ..)
  exact .upd (.put (.put (.put (.put (.refl ..))))); exact .refl ..

theorem execPllLockTimeout_only (s : State) {t : State} (h : execPllLockTimeout s = .next t) : Only (P.boot ||| P.rst) s t := by
  unfold execPllLockTimeout at h; replace h := Host.Outcome.next.inj h; subst h; refine .ite ?_ ?_; dsimp only
  exact .upd (.put (.refl ..)); exact .refl ..

theorem execPllRestart_only (s : State) {t : State} (h : execPllRestart s = .next t) : Only P.boot s t := by
  unfold execPllRestart at h; replace h := Host.Outcome.next.inj h; subst h; refine .ite ?_ ?_; exact .upd (.refl ..)
  exact .refl ..

theorem State.passSelftest_only (s : State) : Only (P.fault ||| P.sys) s (State.passSelftest s) := by
  unfold State.passSelftest; dsimp only; refine .iteOn ?_ ?_
  exact .setMode (.comp (.put (.refl ..)) (State.leaveSelftest_only ..)); exact .comp (.refl ..) (State.setCond_only ..)

theorem State.selfCal_only (s : State) (w : Nat) (cs : List Word) : Only (P.adc ||| P.pgAdc) s (State.selfCal s w cs) := by
  unfold State.selfCal; dsimp only; split; exact .put (.put (.refl ..)); exact .put (.put (.refl ..))
  exact .comp (.comp (.refl ..) (State.setCoefs_only ..)) (State.calDone_only ..)

theorem State.showStep_only (s : State) (n : Nat) (r : StepRes) : Only (P.adc ||| P.bist ||| P.pgAdc) s (s.showStep n r) := by
  unfold State.showStep
  dsimp only
  have hb : ∀ x ∈ (bistOffsets n).zipIdx, 0x40 ≤ x.1 ∧ x.1 < 0x80 := by
    unfold bistOffsets
    split <;> decide
  have hc {b : Nat} (h : 0x2000 ≤ b ∧ b < 0x3000) : covers (P.adc ||| P.bist ||| P.pgAdc) b = true := by
    have : wordPart b = 33 := by
      unfold wordPart
      rw [if_pos (by omega), if_neg (by simp only [R.SYS_HOLDCAUSE]; omega), if_neg (by simp only [R.SYS_ACKSTAT]; omega),
        if_neg (by simp only [R.SYS_RSTCAUSE, R.SYS_RSTCNT]; omega), if_neg (by simp only [R.CLS_PNOW]; omega), if_neg (by omega),
        if_neg (by omega), if_pos h.2]
    have hE : Nat.testBit (P.adc ||| P.bist ||| P.pgAdc) 33 = true := by decide
    simp only [covers, this, hE]
    simp [show b ≠ 0x48 by omega]
  have h : Only (P.adc ||| P.bist ||| P.pgAdc) s ((bistOffsets n).zipIdx.foldl (fun t (e : Nat × Nat) =>
      t.setReg (0x2000 + e.1) (r.words.getD e.2 0 &&& bistMask e.1))
      (s.put ⟨R.BIST_TIME0 + 4 * ((n - 1) / 4 % 3), 8 * ((n - 1) % 4), 8⟩ (min r.half 255))) := by
    refine .foldlMem (.put (.refl ..) (hc ?_)) fun _ x hx => .setReg (.refl ..) (hc ?_)
    · show 0x2000 ≤ R.BIST_TIME0 + 4 * ((n - 1) / 4 % 3) ∧ R.BIST_TIME0 + 4 * ((n - 1) / 4 % 3) < 0x3000
      simp only [R.BIST_TIME0]
      omega
    · have := hb x hx
      omega
  exact .ite (.comp h (State.selfCal_only ..)) h

theorem State.failStep_only (s : State) (n inst tot10 code : Nat) : Only (P.fault ||| P.sys ||| P.bist) s (State.failStep s n inst
    tot10 code) := by
  unfold State.failStep; dsimp only; exact .put (.comp (.put (.put (.setBit (.refl ..)))) (State.forceHold_only ..))

theorem State.loopLanes_only (s : State) : Only P.pgLnk s (State.loopLanes s) := by
  unfold State.loopLanes; refine .foldl ?_ ?_; exact .refl ..; intro _ _; exact .put (.refl ..) covers_lnk

theorem execSelftestStepComplete_only (r : StepRes) (s : State) {t : State} (h : execSelftestStepComplete r s = .next t) : Only
    (P.fault ||| P.adc ||| P.draws ||| P.sys ||| P.bist ||| P.pgAdc) s t := by
  unfold execSelftestStepComplete at h; replace h := Host.Outcome.next.inj h; subst h; refine .ite ?_ ?_; dsimp only
  refine .ite ?_ ?_; refine .iteOff ?_ ?_
  exact .comp (.upd (.comp (.refl ..) (State.showStep_only ..))) (State.readOtp_only ..)
  exact .comp (.refl ..) (State.failStep_only ..); refine .ite ?_ ?_
  exact .comp (.upd (.comp (.refl ..) (State.showStep_only ..))) (State.failStep_only ..); refine .iteOn ?_ ?_
  refine .iteOn ?_ ?_; refine .ite ?_ ?_; exact .updMem (.comp (.refl ..) (State.showStep_only ..)) (hs := fun _ => rfl)
  exact .upd (.comp (.refl ..) (State.showStep_only ..)); exact .comp (.refl ..) (State.loopLanes_only ..)
  exact .comp (.put (.refl ..)) (State.passSelftest_only ..); exact .refl ..

theorem execSelftestTimerExpiry_only (s : State) {t : State} (h : execSelftestTimerExpiry s = .next t) : Only (P.fault ||| P.bist)
    s t := by
  unfold execSelftestTimerExpiry at h; replace h := Host.Outcome.next.inj h; subst h; refine .ite ?_ ?_
  exact .comp (.put (.refl ..)) (State.forceHold_only ..); exact .refl ..

theorem State.tickClocks_only (s : State) (p : TickIn) : Only (P.isl ||| P.link ||| P.clk) s (State.tickClocks s p) := by
  unfold State.tickClocks; dsimp only; exact .upd (.flag (.put (.put (.put (.put (.refl ..))))))

theorem State.tickThermal_only (s : State) (t : Int) : Only P.isl s (State.tickThermal s t) := by
  unfold State.tickThermal; dsimp only; exact .upd (.refl ..)

theorem State.tickAck_only (s : State) (a : Bool) : Only (P.isl ||| P.ack) s (State.tickAck s a) := by
  unfold State.tickAck; dsimp only; exact .flag (.upd (.refl ..))

theorem State.tickWatchdog_only (s : State) : Only P.isl s (State.tickWatchdog s) := by
  unfold State.tickWatchdog; dsimp only; exact .upd (.refl ..)

theorem State.tickTimes_only (s : State) : Only P.spd s (State.tickTimes s) := by
  unfold State.tickTimes; exact .upd (.refl ..)

theorem execSafetyTick_only (p : TickIn) (s : State) {t : State} (h : execSafetyTick p s = .next t) : Only (P.fault ||| P.link |||
    P.ack) s t := by
  unfold execSafetyTick at h; replace h := Host.Outcome.next.inj h; subst h; refine .ite ?_ ?_; exact .refl ..; dsimp only
  refine .iteOn ?_ ?_; exact .comp (.comp (.refl ..) (State.tickThermal_only ..)) (State.tickAck_only ..); refine .ite ?_ ?_
  refine .comp (.comp (.comp ?_ (State.tickWatchdog_only ..)) (State.tickTimes_only ..)) (State.sioTick_only ..)
  exact .comp (.refl ..) (State.tickClocks_only ..); exact .upd (.comp (.refl ..) (State.tickClocks_only ..))

theorem execClockFault_only (s : State) {t : State} (h : execClockFault s = .next t) : Only (P.fault ||| P.bist) s t := by
  unfold execClockFault at h; replace h := Host.Outcome.next.inj h; subst h; split; refine .ite ?_ ?_
  exact .comp (.upd (.refl ..)) (State.forceHold_only ..); exact .refl ..; exact .refl ..

theorem execWatchdogExpiry_only (s : State) {t : State} (h : execWatchdogExpiry s = .next t) : Only (P.fault ||| P.bist) s t := by
  unfold execWatchdogExpiry at h; replace h := Host.Outcome.next.inj h; subst h; refine .ite ?_ ?_
  exact .comp (.upd (.refl ..)) (State.forceHold_only ..); exact .refl ..

theorem execSupplyFault_only (rail : Fin 5) (s : State) {t : State} (h : execSupplyFault rail s = .next t) : Only (P.fault |||
    P.bist) s t := by
  unfold execSupplyFault at h; replace h := Host.Outcome.next.inj h; subst h; refine .ite ?_ ?_; exact .refl ..
  exact .comp (.upd (.refl ..)) (State.forceHold_only ..)

theorem execVddhLossBypassClose_only (s : State) {t : State} (h : execVddhLossBypassClose s = .next t) : Only (P.boot ||| P.chains
    ||| P.pgChn ||| P.pgTil) s t := by
  unfold execVddhLossBypassClose at h; replace h := Host.Outcome.next.inj h; subst h; dsimp only
  exact .upd (.comp (.refl ..) (State.chainsOff_only ..))

theorem execThermalTrip_only (s : State) {t : State} (h : execThermalTrip s = .next t) : Only (P.fault ||| P.bist) s t := by
  unfold execThermalTrip at h; replace h := Host.Outcome.next.inj h; subst h; refine .ite ?_ ?_
  exact .comp (.upd (.refl ..)) (State.forceHold_only ..); exact .refl ..

theorem execCrossingParityError_only (x : Fin 10) (s : State) {t : State} (h : execCrossingParityError x s = .next t) : Only
    P.fault s t := by
  unfold execCrossingParityError at h; replace h := Host.Outcome.next.inj h; subst h
  exact .comp (.setBit (.refl ..)) (State.raise_only ..)

theorem State.darkDone_only (s : State) : Only (P.fault ||| P.fades ||| P.adc ||| P.bal ||| P.spl ||| P.link ||| P.spi ||| P.pair
    ||| P.ack ||| P.rst ||| P.sys ||| P.bist ||| P.pnow ||| P.pgPkt ||| P.pgVin ||| P.pgMsk ||| P.pgCal ||| P.pgSup ||| P.pgAdc
    ||| P.pgWin ||| P.pgBal ||| P.pgSpl ||| P.pgAxo ||| P.pgOff) s (State.darkDone s) := by
  unfold State.darkDone; split; exact .comp (.refl ..) (State.enterConfigure_only ..)
  exact .comp (.refl ..) (State.enterHold_only ..)
  exact .comp (.comp (.refl ..) (State.withdraw_only ..)) (State.doReset_only ..); exact .refl ..

theorem execDarkReleaseEnd_only (s : State) {t : State} (h : execDarkReleaseEnd s = .next t) : Only (P.fault ||| P.fades ||| P.adc
    ||| P.bal ||| P.spl ||| P.link ||| P.spi ||| P.pair ||| P.ack ||| P.rst ||| P.sys ||| P.bist ||| P.pnow ||| P.pgPkt |||
    P.pgVin ||| P.pgMsk ||| P.pgCal ||| P.pgSup ||| P.pgAdc ||| P.pgWin ||| P.pgBal ||| P.pgSpl ||| P.pgAxo ||| P.pgOff) s t := by
  unfold execDarkReleaseEnd at h; replace h := Host.Outcome.next.inj h; subst h; split; refine .ite ?_ ?_
  exact .comp (.refl ..) (State.darkDone_only ..); exact .refl ..; exact .refl ..

theorem State.acknowledge_only (s : State) (src : Nat) : Only (P.isl ||| P.ack) s (State.acknowledge s src) := by
  unfold State.acknowledge; dsimp only; refine .iteOff ?_ ?_; exact .put (.incWrap (.refl ..)); exact .upd (.refl ..)

theorem execAckNRelease_only (s : State) {t : State} (h : execAckNRelease s = .next t) : Only (P.isl ||| P.ack) s t := by
  unfold execAckNRelease at h; replace h := Host.Outcome.next.inj h; subst h; split; dsimp only; refine .iteOn ?_ ?_
  exact .upd (.refl ..); exact .comp (.refl ..) (State.acknowledge_only ..); exact .refl ..

theorem execAckNStuck_only (s : State) {t : State} (h : execAckNStuck s = .next t) : Only (P.fault ||| P.ack) s t := by
  unfold execAckNStuck at h; replace h := Host.Outcome.next.inj h; subst h; refine .ite ?_ ?_; dsimp only; refine .ite ?_ ?_
  exact .upd (.put (.refl ..)); exact .comp (.upd (.put (.refl ..))) (State.setCond_only ..); exact .refl ..

theorem execAckNStuckClear_only (s : State) {t : State} (h : execAckNStuckClear s = .next t) : Only (P.fault ||| P.ack) s t := by
  unfold execAckNStuckClear at h; replace h := Host.Outcome.next.inj h; subst h; refine .ite ?_ ?_
  exact .comp (.put (.refl ..)) (State.setCond_only ..); exact .refl ..

theorem State.disarm_only (s : State) : Only (P.isl ||| P.ack) s (State.disarm s) := by
  unfold State.disarm; dsimp only; exact .upd (.put (.refl ..))

theorem State.ackKey_only (s : State) (src : Src) (v : Word) : Only (P.isl ||| P.ack) s (State.ackKey s src v) := by
  unfold State.ackKey; refine .ite ?_ ?_; dsimp only; exact .upd (.put (.refl ..)); dsimp only; refine .iteOn ?_ ?_
  exact .comp (.refl ..) (State.disarm_only ..); exact .comp (.refl ..) (State.acknowledge_only ..)

theorem execAckArmTimeout_only (s : State) {t : State} (h : execAckArmTimeout s = .next t) : Only (P.isl ||| P.ack) s t := by
  unfold execAckArmTimeout at h; replace h := Host.Outcome.next.inj h; subst h; exact .comp (.refl ..) (State.disarm_only ..)

theorem State.evalRole_only (s : State) : Only P.pgAxo s (State.evalRole s) := by
  unfold State.evalRole; split; dsimp only; refine .put ?_; refine .iteOn ?_ ?_; exact .eventIf (.refl ..)
  exact .put (.refl ..)

theorem State.freshOff_only (s : State) : Only (P.chains ||| P.light) s (State.freshOff s) := by
  unfold State.freshOff; dsimp only; refine .foldl ?_ ?_; exact .upd (.refl ..); intro _ _
  exact .comp (.refl ..) (State.onChain_only ..)

theorem State.drive_only (s : State) (m : Mode) : Only (P.fault ||| P.bal ||| P.spl ||| P.sys ||| P.pgSup ||| P.pgSpl) s
    (State.drive s m) := by
  unfold State.drive; dsimp only; refine .iteOn ?_ ?_
  refine .comp (.comp (.comp ?_ (State.freshOff_only ..)) (State.supplyInit_only ..)) (State.balStart_only ..)
  exact .comp (.comp (.refl ..) (State.enterDriving_only ..)) (State.clearPixelClasses_only ..)
  exact .comp (.refl ..) (State.retakeFallback_only ..)

theorem State.cfgFail_only (s : State) : Only (P.boot ||| P.spd ||| P.stat) s (State.cfgFail s) := by
  unfold State.cfgFail; dsimp only; exact .upd (.putStat (.refl ..))

theorem State.fallbackFromConfigure_only (s : State) : Only (P.fault ||| P.bal ||| P.spl ||| P.sys ||| P.pgSup ||| P.pgSpl |||
    P.pgAxo) s (State.fallbackFromConfigure s) := by
  unfold State.fallbackFromConfigure; dsimp only; refine .iteOn ?_ ?_; exact .comp (.refl ..) (State.evalRole_only ..)
  exact .comp (.refl ..) (State.drive_only ..)

theorem execHostLoss_only (s : State) {t : State} (h : execHostLoss s = .next t) : Only (P.fault ||| P.bal ||| P.spl ||| P.sys |||
    P.pgSup ||| P.pgSpl ||| P.pgAxo) s t := by
  unfold execHostLoss at h; replace h := Host.Outcome.next.inj h; subst h; dsimp only; split; refine .iteOn ?_ ?_
  refine .ite ?_ ?_; exact .put (.putStat (.refl ..)); exact .refl ..; exact .comp (.refl ..) (State.enterFallback_only ..)
  refine .iteOn ?_ ?_; refine .ite ?_ ?_; exact .put (.putStat (.refl ..)); exact .refl ..
  exact .comp (.refl ..) (State.cancelBack_only ..); refine .iteOn ?_ ?_; refine .ite ?_ ?_; exact .put (.putStat (.refl ..))
  exact .refl ..; exact .comp (.refl ..) (State.fallbackFromConfigure_only ..); refine .ite ?_ ?_
  exact .put (.putStat (.refl ..)); exact .refl ..

theorem execCfgTimeout_only (s : State) {t : State} (h : execCfgTimeout s = .next t) : Only (P.boot ||| P.spd ||| P.stat) s t :=
    by
  unfold execCfgTimeout at h; replace h := Host.Outcome.next.inj h; subst h; dsimp only; refine .ite ?_ ?_
  exact .upd (.comp (.refl ..) (State.cfgFail_only ..)); exact .refl ..

end Sys2Proof.Machine
end

