-- ==== Sys2Proof/Laws/Footprint/Ledger.lean ====
section
/-! SUPPORT. What the operations of Ledger.lean may change. -/

set_option Elab.async false

namespace Sys2Proof.Machine

theorem State.setLedger_only (s : State) (t e v : Nat) : Only (P.sram ||| P.ecc) s (State.setLedger s t e v) := by
  unfold State.setLedger; exact .comp (.refl ..) (State.setLe_only ..)

theorem State.countState_only (s : State) (st : Nat) (up : Bool) : Only (P.light ||| P.pgSup) s (s.countState st up) := by
  unfold State.countState
  split
  · rename_i f hf
    have hc : covers (P.light ||| P.pgSup) f.addr = true := by
      unfold stateCount at hf
      split at hf <;> first | (injection hf with hf; subst hf; decide) | cases hf
    exact .upd (.put (.refl ..) hc)
  · exact .refl ..

theorem State.setWhy_only (s : State) (p : Nat) (why : Option Nat) : Only (P.light ||| P.pgPrf) s (State.setWhy s p why) := by
  unfold State.setWhy; refine .ite ?_ ?_; exact .refl ..; dsimp only; exact .upd (.put (.put (.put (.refl ..))))

theorem State.restoreWord_only (s : State) (w : Nat) : Only (P.sram ||| P.ecc ||| P.light ||| P.pgSup ||| P.pgPrf) s
    (State.restoreWord s w) := by
  unfold State.restoreWord; refine .foldl ?_ ?_; exact .refl ..; intro _ _; dsimp only
  refine .comp (.comp (.comp ?_ (State.setWhy_only ..)) (State.countState_only ..)) (State.countState_only ..)
  exact .comp (.refl ..) (State.setPix_only ..)

theorem State.restore_only (s : State) (f : Nat → Bool) : Only (P.fault ||| P.draws ||| P.pgSup) s (State.restore s f) := by
  unfold State.restore; refine .foldl ?_ ?_; exact .comp (.refl ..) (State.readWords_only ..); intro _ _
  exact .comp (.refl ..) (State.restoreWord_only ..)

theorem State.setPrf_only (s : State) (p k : Nat) : Only (P.fault ||| P.draws ||| P.pgSup) s (State.setPrf s p k) := by
  unfold State.setPrf; dsimp only; exact .comp (.comp (.refl ..) (State.restore_only ..)) (State.setLe_only ..)

theorem State.loseEntry_only (s : State) (t e : Nat) : Only (P.fault ||| P.draws ||| P.pgSup) s (State.loseEntry s t e) := by
  unfold State.loseEntry; dsimp only; refine .event ?_; refine .foldl ?_ ?_; exact .comp (.refl ..) (State.setLedger_only ..)
  intro _ _; exact .comp (.refl ..) (State.setPrf_only ..)

theorem State.readEntries_only (s : State) (a n : Nat) : Only (P.fault ||| P.draws ||| P.pgSup) s (State.readEntries s a n) := by
  unfold State.readEntries; dsimp only; refine .foldl ?_ ?_; exact .comp (.refl ..) (State.readRange_only ..); intro _ _
  exact .comp (.refl ..) (State.loseEntry_only ..)

theorem State.readLedger_only (s : State) : Only (P.fault ||| P.draws ||| P.pgSup) s (State.readLedger s) := by
  unfold State.readLedger; exact .comp (.refl ..) (State.readEntries_only ..)

theorem State.noteSur_only (s : State) (v : Int) : Only P.pgPrf s (State.noteSur s v) := by
  unfold State.noteSur; exact .put (.put (.refl ..))

theorem State.addSurplus_only (s : State) (p ticks : Nat) : Only (P.fault ||| P.draws ||| P.pgSup) s (State.addSurplus s p ticks)
    := by
  unfold State.addSurplus; split; exact .refl ..; dsimp only; refine .iteOn ?_ ?_
  exact .comp (.comp (.refl ..) (State.setLedger_only ..)) (State.noteSur_only ..)
  exact .comp (.comp (.refl ..) (State.setPrf_only ..)) (State.markRows_only ..)

theorem State.ledgerPass_only (s : State) (ps : Nat) : Only (P.fault ||| P.draws ||| P.pgSup) s (State.ledgerPass s ps) := by
  unfold State.ledgerPass; refine .foldl ?_ ?_; exact .refl ..; intro _ _; refine .foldl ?_ ?_; exact .refl ..; intro _ _
  dsimp only; refine .ite ?_ ?_; exact .refl ..
  exact .comp (.comp (.refl ..) (State.setPrf_only ..)) (State.markRows_only ..)

theorem State.joinQueue_only (s : State) (p : Nat) : Only P.tiles s (State.joinQueue s p) := by
  unfold State.joinQueue; dsimp only; refine .ite ?_ ?_; exact .refl ..; refine .ite ?_ ?_
  exact .comp (.refl ..) (State.onTile_only ..); exact .event (.refl ..)

theorem State.assignEntries_only (s : State) (t : Nat) : Only (P.fault ||| P.draws ||| P.pgSup) s (State.assignEntries s t) := by
  unfold State.assignEntries; refine .foldl ?_ ?_; exact .refl ..; intro _ _; split; exact .event (.refl ..)
  exact .comp (.comp (.comp (.refl ..) (State.setLedger_only ..)) (State.setPrf_only ..)) (State.onTile_only ..)

theorem State.ledgerEntry_only (s : State) (rows : List Nat) (t e v : Nat) : Only (P.fault ||| P.draws ||| P.pgSup) s
    (State.ledgerEntry s rows t e v) := by
  unfold State.ledgerEntry; dsimp only; refine .ite ?_ ?_
  exact .comp (.comp (.refl ..) (State.setLedger_only ..)) (State.setPrf_only ..); refine .ite ?_ ?_
  exact .comp (.comp (.refl ..) (State.setLedger_only ..)) (State.noteSur_only ..); exact .refl ..

theorem State.showLow_only (s : State) : Only P.pgPrf s (State.showLow s) := by
  unfold State.showLow; exact .put (.refl ..)

theorem State.ledgerFrame_only (s : State) (rows : List Nat) : Only (P.fault ||| P.draws ||| P.pgSup) s (State.ledgerFrame s rows)
    := by
  unfold State.ledgerFrame; dsimp only; refine .incBy ?_; refine .foldl ?_ ?_
  exact .comp (.refl ..) (State.readLedger_only ..); intro _ _; refine .comp ?_ (State.assignEntries_only ..)
  refine .foldl ?_ ?_; exact .refl ..; intro _ _; exact .comp (.refl ..) (State.ledgerEntry_only ..)

end Sys2Proof.Machine
end

