-- ==== Sys2Proof/Laws/Footprint/Video.lean ====
section
/-! SUPPORT. What the operations of Video.lean may change. -/

set_option Elab.async false

namespace Sys2Proof.Machine

theorem State.onVid_only (s : State) (f : Video → Video) : Only P.vid s (State.onVid s f) := by
  unfold State.onVid; exact .upd (.refl ..)

theorem State.onLink_only (s : State) (f : Link → Link) : Only P.link s (State.onLink s f) := by
  unfold State.onLink; exact .upd (.refl ..)

theorem State.swapEvent_only (s : State) : Only (P.vid ||| P.chains ||| P.tiles ||| P.pgVin ||| P.pgCmp) s (State.swapEvent s) :=
    by
  unfold State.swapEvent; dsimp only
  refine .comp (.put (.inc (.put (.put (.put (.comp ?_ (State.dropPass_only ..))))))) (State.onVid_only ..); refine .ite ?_ ?_
  refine .comp ?_ (State.supersede_only ..); refine .ite ?_ ?_; exact .event (.inc (.refl ..)); exact .refl ..
  refine .ite ?_ ?_; exact .event (.inc (.refl ..)); exact .refl ..

theorem State.noFrame_only (s : State) : Only P.pgPkt s (State.noFrame s) := by
  unfold State.noFrame; exact .put (.put (.put (.refl ..)))

theorem State.dropFrame_only (s : State) : Only (P.pstart ||| P.sram ||| P.ecc ||| P.boot ||| P.isl ||| P.cl ||| P.vid |||
    P.chains ||| P.tiles ||| P.light ||| P.flt ||| P.sio ||| P.skink ||| P.spd ||| P.mode ||| P.stat ||| P.hold ||| P.clk |||
    P.cls ||| P.pgLnk ||| P.pgPkt ||| P.pgSpd ||| P.pgVin ||| P.pgCmp ||| P.pgPlc ||| P.pgAsp ||| P.pgPrf ||| P.pgChn ||| P.pgTil
    ||| P.pgSio ||| P.pgCrc) s (State.dropFrame s) := by
  unfold State.dropFrame; dsimp only; refine .iteOn ?_ ?_; refine .iteOn ?_ ?_
  exact .comp (.inc (.event (.inc (.refl ..)))) (State.noFrame_only ..); exact .put (.refl ..)
  exact .comp (.event (.refl ..)) (State.enterFallback_only ..)

theorem State.openFrame_only (s : State) (f : Nat) (bad : Bool) : Only (P.pstart ||| P.sram ||| P.ecc ||| P.boot ||| P.isl |||
    P.cl ||| P.vid ||| P.chains ||| P.tiles ||| P.light ||| P.flt ||| P.sio ||| P.skink ||| P.link ||| P.spd ||| P.mode ||| P.stat
    ||| P.hold ||| P.clk ||| P.cls ||| P.pgLnk ||| P.pgPkt ||| P.pgSpd ||| P.pgVin ||| P.pgCmp ||| P.pgPlc ||| P.pgAsp ||| P.pgPrf
    ||| P.pgChn ||| P.pgTil ||| P.pgSio ||| P.pgCrc) s (State.openFrame s f bad) := by
  unfold State.openFrame; dsimp only; refine .ite ?_ ?_; refine .ite ?_ ?_; refine .ite ?_ ?_; exact .put (.refl ..)
  exact .refl ..; exact .comp (.flag (.put (.put (.comp (.refl ..) (State.dropFrame_only ..))))) (State.onLink_only ..)
  exact .comp (.flag (.put (.put (.refl ..)))) (State.onLink_only ..)

theorem State.writeLine_only (s : State) (p : Pkt) : Only (P.fault ||| P.draws) s (State.writeLine s p) := by
  unfold State.writeLine; dsimp only; refine .foldl ?_ ?_; exact .refl ..; intro _ _
  exact .comp (.comp (.refl ..) (State.readRange_only ..)) (State.setLe_only ..)

theorem State.sealFrame_only (s : State) : Only (P.vid ||| P.chains ||| P.tiles ||| P.pgVin ||| P.pgCmp) s (State.sealFrame s) :=
    by
  unfold State.sealFrame; refine .ite ?_ ?_; exact .comp (.refl ..) (State.swapEvent_only ..); exact .put (.refl ..)

theorem State.judgeFrame_only (s : State) (p : Pkt) : Only (P.pstart ||| P.sram ||| P.ecc ||| P.boot ||| P.isl ||| P.cl ||| P.vid
    ||| P.chains ||| P.tiles ||| P.light ||| P.flt ||| P.sio ||| P.skink ||| P.spd ||| P.mode ||| P.stat ||| P.hold ||| P.clk |||
    P.cls ||| P.pgLnk ||| P.pgPkt ||| P.pgSpd ||| P.pgVin ||| P.pgCmp ||| P.pgPlc ||| P.pgAsp ||| P.pgPrf ||| P.pgChn ||| P.pgTil
    ||| P.pgSio ||| P.pgCrc) s (State.judgeFrame s p) := by
  unfold State.judgeFrame; dsimp only; refine .ite ?_ ?_; refine .iteOn ?_ ?_
  exact .comp (.put (.put (.inc (.setRegN (.setRegN (.refl ..)))))) (State.noFrame_only ..)
  exact .comp (.comp (.refl ..) (State.onVid_only ..)) (State.sealFrame_only ..)
  exact .comp (.setRegN (.setRegN (.refl ..))) (State.dropFrame_only ..)

theorem State.videoPacket_only (s : State) (e : Nat × Pkt) : Only (P.fault ||| P.link ||| P.draws ||| P.pgPkt ||| P.pgVin) s
    (State.videoPacket s e) := by
  unfold State.videoPacket; dsimp only; refine .comp ?_ (State.onLink_only ..); split; refine .comp ?_ (State.onLink_only ..)
  refine .iteOn ?_ ?_; exact .comp (.comp (.refl ..) (State.openFrame_only ..)) (State.writeLine_only ..)
  exact .put (.refl ..); exact .comp (.refl ..) (State.judgeFrame_only ..); refine .ite ?_ ?_; exact .put (.refl ..)
  exact .refl ..; exact .comp (.refl ..) (State.openFrame_only ..)

theorem State.takeVideo_only (s : State) (e : Nat × Pkt) : Only (P.fault ||| P.link ||| P.draws ||| P.pgPkt ||| P.pgVin) s
    (State.takeVideo s e) := by
  unfold State.takeVideo; refine .ite ?_ ?_; exact .comp (.refl ..) (State.onLink_only ..)
  exact .comp (.refl ..) (State.videoPacket_only ..)

theorem State.drainVideo_only (s : State) : Only (P.fault ||| P.link ||| P.draws ||| P.pgPkt ||| P.pgVin) s (State.drainVideo s)
    := by
  unfold State.drainVideo; refine .foldl ?_ ?_; exact .comp (.refl ..) (State.onLink_only ..); intro _ _
  exact .comp (.refl ..) (State.takeVideo_only ..)

theorem State.swapSealed_only (s : State) : Only (P.fault ||| P.link ||| P.draws ||| P.pgPkt ||| P.pgVin) s (State.swapSealed s)
    := by
  unfold State.swapSealed; refine .ite ?_ ?_
  exact .comp (.comp (.refl ..) (State.swapEvent_only ..)) (State.drainVideo_only ..); exact .refl ..

theorem execFsyncEdge_only (rising : Bool) (s : State) {t : State} (h : execFsyncEdge rising s = .next t) : Only (P.fault |||
    P.link ||| P.draws ||| P.pgPkt ||| P.pgVin) s t := by
  unfold execFsyncEdge at h; replace h := Host.Outcome.next.inj h; subst h; refine .ite ?_ ?_; dsimp only; refine .iteOn ?_ ?_
  exact .flag (.refl ..); refine .ite ?_ ?_; exact .comp (.refl ..) (State.swapSealed_only ..); exact .event (.inc (.refl ..))
  exact .refl ..

theorem State.takeSwap_only (s : State) : Only (P.vid ||| P.pgVin) s (State.takeSwap s) := by
  unfold State.takeSwap; dsimp only
  exact .comp (.comp (.put (.event (.setRegN (.refl ..)))) (State.markAll_only ..)) (State.onVid_only ..)

theorem execSwapTakeEffect_only (s : State) {t : State} (h : execSwapTakeEffect s = .next t) : Only (P.vid ||| P.pgVin) s t := by
  unfold execSwapTakeEffect at h; replace h := Host.Outcome.next.inj h; subst h; refine .ite ?_ ?_
  exact .comp (.refl ..) (State.takeSwap_only ..); exact .refl ..

theorem State.copyRow_only (s : State) (slot r : Nat) : Only (P.fault ||| P.draws) s (State.copyRow s slot r) := by
  unfold State.copyRow; dsimp only; exact .comp (.comp (.refl ..) (State.readRange_only ..)) (State.setBytes_only ..)

theorem State.startPass_only (s : State) : Only (P.fault ||| P.draws) s (State.startPass s) := by
  unfold State.startPass; dsimp only; refine .foldl ?_ ?_; refine .comp ?_ (State.readWords_only ..); refine .iteOn ?_ ?_
  refine .comp (.comp (.flag (.put (.put (.put ?_)))) (State.onVid_only ..)) (State.queueFrame_only ..); refine .foldl ?_ ?_
  refine .ite ?_ ?_; exact .comp (.refl ..) (State.dropFrameRows_only ..); exact .refl ..; intro _ _
  exact .comp (.refl ..) (State.setBytes_only ..); exact .comp (.refl ..) (State.resolveHolds_only ..); intro _ _
  exact .comp (.refl ..) (State.copyRow_only ..)

theorem execPassStart_only (s : State) {t : State} (h : execPassStart s = .next t) : Only (P.fault ||| P.draws ||| P.pgSup) s t :=
    by
  unfold execPassStart at h; replace h := Host.Outcome.next.inj h; subst h; refine .ite ?_ ?_; dsimp only; refine .iteOn ?_ ?_
  exact .comp (.comp (.refl ..) (State.readLedger_only ..)) (State.ledgerPass_only ..)
  exact .comp (.refl ..) (State.startPass_only ..); exact .refl ..

theorem execPassComplete_only (cycles : Nat) (s : State) {t : State} (h : execPassComplete cycles s = .next t) : Only P.fault s t
    := by
  unfold execPassComplete at h; replace h := Host.Outcome.next.inj h; subst h; refine .ite ?_ ?_; dsimp only
  refine .iteOn ?_ ?_; refine .comp (.comp ?_ (State.cycleOff_only ..)) (State.evalPolicies_only ..); refine .foldl ?_ ?_
  exact .comp (.comp (.event (.put (.put (.put (.inc (.refl ..)))))) (State.markRows_only ..)) (State.cycleOn_only ..)
  intro _ _; exact .comp (.refl ..) (State.setCond_only ..); refine .ite ?_ ?_; exact .put (.refl ..)
  exact .comp (.put (.refl ..)) (State.onVid_only ..); exact .refl ..

theorem State.showPeak_only (s : State) (fb : Bool) (d slot g : Nat) : Only P.pgPlc s (State.showPeak s fb d slot g) := by
  unfold State.showPeak; dsimp only; exact .put (.put (.refl ..) covers_arr) covers_arr

theorem State.runPlacement_only (s : State) (k : FrameKind) : Only (P.tiles ||| P.pgPlc) s (State.runPlacement s k) := by
  unfold State.runPlacement; dsimp only; refine .foldl ?_ ?_; refine .eventIf (.incBy ?_); refine .foldl ?_ ?_; exact .refl ..
  intro _ _; exact .comp (.refl ..) (State.onTile_only ..); intro _ _; exact .comp (.refl ..) (State.showPeak_only ..)

theorem execPlacementComplete_only (cycles : Nat) (s : State) {t : State} (h : execPlacementComplete cycles s = .next t) : Only
    (P.vid ||| P.tiles ||| P.pgPlc) s t := by
  unfold execPlacementComplete at h; replace h := Host.Outcome.next.inj h; subst h; refine .ite ?_ ?_; dsimp only
  exact .comp (.event (.inc (.peak (.put (.comp (.refl ..) (State.runPlacement_only ..)))))) (State.onVid_only ..)
  exact .refl ..

theorem State.scrubFound_only (s : State) (w : Nat) : Only P.fault s (State.scrubFound s w) := by
  unfold State.scrubFound; dsimp only; refine .iteOn ?_ ?_; exact .comp (.refl ..) (State.onVid_only ..)
  exact .comp (.event (.refl ..)) (State.raise_only ..)

theorem State.scrubWord_only (s : State) (w : Nat) : Only (P.fault ||| P.draws) s (State.scrubWord s w) := by
  unfold State.scrubWord; refine .ite ?_ ?_
  exact .comp (.comp (.refl ..) (State.uncorrectable_only ..)) (State.scrubFound_only ..); refine .ite ?_ ?_; dsimp only
  exact .comp (.comp (.upd (.comp (.refl ..) (State.readRange_only ..))) (State.onVid_only ..)) (State.scrubFound_only ..)
  exact .refl ..

theorem State.scrubDone_only (s : State) : Only P.fault s (State.scrubDone s) := by
  unfold State.scrubDone; dsimp only; refine .comp ?_ (State.onVid_only ..); refine .iteOn ?_ ?_
  exact .event (.put (.inc (.refl ..))); exact .comp (.event (.refl ..)) (State.raise_only ..)

theorem execScrubRead_only (s : State) {t : State} (h : execScrubRead s = .next t) : Only (P.fault ||| P.draws) s t := by
  unfold execScrubRead at h; replace h := Host.Outcome.next.inj h; subst h; refine .ite ?_ ?_; dsimp only; refine .ite ?_ ?_
  refine .comp ?_ (State.scrubDone_only ..); refine .foldl ?_ ?_; exact .refl ..; intro _ _
  exact .comp (.refl ..) (State.scrubWord_only ..); refine .comp ?_ (State.onVid_only ..); refine .foldl ?_ ?_; exact .refl ..
  intro _ _; exact .comp (.refl ..) (State.scrubWord_only ..); exact .refl ..

end Sys2Proof.Machine
end

