-- ==== Sys2Proof/Laws/Footprint/Chains.lean ====
section
/-! SUPPORT. What the operations of Chains.lean may change. -/

set_option Elab.async false

namespace Sys2Proof.Machine

theorem State.load_only (s : State) (c n : Nat) : Only P.chains s (State.load s c n) := by
  unfold State.load; exact .comp (.refl ..) (State.onChain_only ..)

theorem State.sendChain_only (s : State) (c : Nat) (e : Sent) : Only (P.chains ||| P.out) s (State.sendChain s c e) := by
  unfold State.sendChain; dsimp only; refine .iteOff ?_ ?_; exact .comp (.refl ..) (State.onChain_only ..)
  exact .comp (.refl ..) (State.emit_only ..)

theorem State.sendAgain_only (s : State) (c : Nat) (e : Sent) : Only (P.chains ||| P.out ||| P.pgChn) s (State.sendAgain s c e) :=
    by
  unfold State.sendAgain; exact .comp (.event (.inc (.refl ..) covers_chn)) (State.sendChain_only ..)

theorem State.chainErr_only (s : State) (c n : Nat) : Only P.fault s (State.chainErr s c n) := by
  unfold State.chainErr; dsimp only; refine .iteOn ?_ ?_; exact .comp (.refl ..) (State.onChain_only ..)
  exact .comp (.refl ..) (State.raise_only ..)

theorem State.chainLoop_only (s : State) (c : Nat) : Only P.fault s (State.chainLoop s c) := by
  unfold State.chainLoop; exact .comp (.event (.refl ..)) (State.raise_only ..)

theorem State.tileFlags_only (s : State) (t : Nat) : Only P.fault s (State.tileFlags s t) := by
  unfold State.tileFlags; dsimp only
  refine .comp (.comp (.comp ?_ (State.setCond_only ..)) (State.setCond_only ..)) (State.cycleOff_only ..)
  refine .comp (.comp ?_ (State.cycleOn_only ..)) (State.setCond_only ..); split
  exact .eventIf (.flag (.flag (.put (.refl ..) covers_til) covers_til) covers_til); exact .refl ..

theorem State.idsDone_only (s : State) (page : Nat) : Only 0 s (State.idsDone s page) := by
  unfold State.idsDone; dsimp only; exact .eventIf (.refl ..)

theorem State.raccEnd_only (s : State) (i astat : Nat) (fail : Bool) : Only P.pgTil s (State.raccEnd s i astat fail) := by
  unfold State.raccEnd; exact .event (.flag (.put (.put (.put (.refl ..) covers_til) covers_til) covers_til) covers_til)

theorem State.idEnd_only (s : State) (t : Nat) (fail : Bool) : Only P.fault s (State.idEnd s t fail) := by
  unfold State.idEnd; dsimp only; split; refine .comp ?_ (State.idsDone_only ..); refine .ite ?_ ?_
  exact .comp (.comp (.refl ..) (State.onTile_only ..)) (State.tileFlags_only ..); exact .refl ..; refine .ite ?_ ?_
  exact .comp (.comp (.refl ..) (State.onTile_only ..)) (State.tileFlags_only ..); exact .refl ..

theorem State.dropDue_only (s : State) (t p : Nat) : Only P.tiles s (State.dropDue s t p) := by
  unfold State.dropDue; exact .comp (.refl ..) (State.onTile_only ..)

theorem State.abandonProof_only (s : State) (c : Nat) : Only P.fault s (State.abandonProof s c) := by
  unfold State.abandonProof; exact .comp (.event (.inc (.refl ..))) (State.chainErr_only ..)

theorem State.failWait_only (s : State) (c : Nat) (e : Sent) : Only P.fault s (State.failWait s c e) := by
  unfold State.failWait; refine .ite ?_ ?_; exact .refl ..; refine .ite ?_ ?_; exact .comp (.refl ..) (State.onChain_only ..)
  exact .comp (.comp (.inc (.refl ..) covers_chn) (State.onChain_only ..)) (State.chainLoop_only ..)

theorem State.failItem_only (s : State) (c : Nat) (e : Sent) : Only (P.fault ||| P.out) s (State.failItem s c e) := by
  unfold State.failItem; dsimp only; split; exact .comp (.refl ..) (State.failWait_only ..)
  exact .comp (.refl ..) (State.failWait_only ..); refine .ite ?_ ?_; refine .ite ?_ ?_
  exact .comp (.refl ..) (State.sendAgain_only ..); exact .comp (.refl ..) (State.onChain_only ..)
  exact .comp (.refl ..) (State.abandonProof_only ..); exact .comp (.refl ..) (State.dropDue_only ..)
  exact .comp (.refl ..) (State.onTile_only ..); refine .ite ?_ ?_; exact .comp (.refl ..) (State.onChain_only ..)
  refine .ite ?_ ?_; exact .comp (.inc (.refl ..) covers_chn) (State.raccEnd_only ..)
  exact .comp (.inc (.refl ..) covers_chn) (State.idEnd_only ..)

theorem State.unexpect_only (s : State) (c : Nat) (e : Sent) : Only P.chains s (State.unexpect s c e) := by
  unfold State.unexpect; exact .comp (.refl ..) (State.onChain_only ..)

theorem State.corrupted_only (s : State) (c : Nat) : Only P.fault s (State.corrupted s c) := by
  unfold State.corrupted; exact .comp (.event (.inc (.refl ..) covers_chn)) (State.chainErr_only ..)

theorem State.inwardErrs_only (s : State) (c n : Nat) : Only P.pgChn s (State.inwardErrs s c n) := by
  unfold State.inwardErrs; refine .ite ?_ ?_; exact .event (.incBy (.refl ..) covers_chn); exact .refl ..

theorem State.hear_only (s : State) (c : Nat) (gap syms : List (BitVec 10 × BitVec 10)) : Only (P.chains ||| P.pgChn) s
    (State.hear s c gap syms) := by
  unfold State.hear; refine .ite ?_ ?_; exact .refl ..; split
  exact .comp (.comp (.refl ..) (State.onChain_only ..)) (State.inwardErrs_only ..)

theorem State.itemFails_only (s : State) (c : Nat) (it : ChainPkt) (e : Sent) : Only (P.fault ||| P.out) s (State.itemFails s c it
    e) := by
  unfold State.itemFails; dsimp only; refine .comp (.comp ?_ (State.unexpect_only ..)) (State.failItem_only ..)
  refine .ite ?_ ?_; exact .refl ..; exact .comp (.refl ..) (State.corrupted_only ..)

theorem State.rowVerified_only (s : State) (c : Nat) (e : Sent) : Only (P.chains ||| P.pgChn) s (State.rowVerified s c e) := by
  unfold State.rowVerified; dsimp only; refine .iteOn ?_ ?_; exact .comp (.refl ..) (State.onChain_only ..)
  exact .event (.put (.refl ..) covers_chn)

theorem State.proofVerified_only (s : State) (c : Nat) (e : Sent) : Only (P.light ||| P.pgPrf) s (State.proofVerified s c e) := by
  unfold State.proofVerified; dsimp only; exact .upd (.inc (.refl ..))

theorem State.ackAnswers_only (s : State) (c : Nat) (it : ChainPkt) (e : Sent) : Only (P.fault ||| P.out) s (State.ackAnswers s c
    it e) := by
  unfold State.ackAnswers; dsimp only; refine .ite ?_ ?_; split
  refine .comp (.comp ?_ (State.unexpect_only ..)) (State.rowVerified_only ..); refine .ite ?_ ?_
  exact .put (.refl ..) covers_til; exact .refl ..
  refine .comp (.comp ?_ (State.unexpect_only ..)) (State.proofVerified_only ..); refine .ite ?_ ?_
  exact .put (.refl ..) covers_til; exact .refl ..; refine .comp (.comp ?_ (State.unexpect_only ..)) (State.raccEnd_only ..)
  refine .ite ?_ ?_; exact .put (.refl ..) covers_til; exact .refl ..; refine .comp ?_ (State.itemFails_only ..)
  refine .ite ?_ ?_; exact .put (.refl ..) covers_til; exact .refl ..

theorem State.snoop_only (s : State) (dir : Bool) : Only (P.pair ||| P.pgAxo) s (State.snoop s dir) := by
  unfold State.snoop; refine .ite ?_ ?_; dsimp only; refine .iteOn ?_ ?_; exact .upd (.refl ..); exact .put (.refl ..)
  exact .refl ..

theorem State.ackReturn_only (s : State) (c : Nat) (it : ChainPkt) : Only (P.fault ||| P.out) s (State.ackReturn s c it) := by
  unfold State.ackReturn; refine .ite ?_ ?_; split; refine .ite ?_ ?_; exact .refl ..
  exact .comp (.refl ..) (State.corrupted_only ..); exact .comp (.refl ..) (State.itemFails_only ..)
  exact .comp (.refl ..) (State.ackAnswers_only ..); exact .refl ..

theorem State.roundTrip_only (s : State) (c rtt : Nat) : Only P.fault s (State.roundTrip s c rtt) := by
  unfold State.roundTrip; dsimp only; refine .iteOn ?_ ?_
  exact .flag (.peak (.put (.refl ..) covers_chn) covers_chn) covers_chn
  exact .comp (.event (.refl ..)) (State.raise_only ..)

theorem State.latchReturn_only (s : State) (c : Nat) (it : ChainPkt) (rtt : Nat) : Only (P.fault ||| P.out) s (State.latchReturn s
    c it rtt) := by
  unfold State.latchReturn; refine .ite ?_ ?_; split; refine .ite ?_ ?_; exact .refl ..
  exact .comp (.refl ..) (State.corrupted_only ..); exact .comp (.refl ..) (State.itemFails_only ..); dsimp only
  refine .ite ?_ ?_
  refine .comp (.put (.comp (.put ?_ covers_chn) (State.unexpect_only ..)) covers_chn) (State.onChain_only ..)
  exact .put (.comp (.refl ..) (State.roundTrip_only ..)) covers_chn
  exact .comp (.put (.put (.comp (.refl ..) (State.roundTrip_only ..)) covers_chn) covers_chn) (State.itemFails_only ..)
  exact .refl ..

theorem State.regrReply_only (s : State) (c : Nat) (it : ChainPkt) : Only (P.fault ||| P.pair ||| P.out ||| P.pgAxo) s
    (State.regrReply s c it) := by
  unfold State.regrReply; dsimp only; refine .ite ?_ ?_; split; refine .iteOff ?_ ?_
  exact .comp (.refl ..) (State.snoop_only ..); exact .comp (.refl ..) (State.corrupted_only ..)
  exact .comp (.comp (.refl ..) (State.snoop_only ..)) (State.itemFails_only ..); refine .ite ?_ ?_; refine .ite ?_ ?_
  refine .comp (.setRegN (.comp ?_ (State.unexpect_only ..)) covers_til) (State.raccEnd_only ..); refine .iteOn ?_ ?_
  exact .comp (.refl ..) (State.snoop_only ..); exact .put (.refl ..) covers_til; refine .comp ?_ (State.idEnd_only ..); split
  refine .setRegN (.comp ?_ (State.unexpect_only ..)) (covers_ite covers_til covers_til); refine .iteOn ?_ ?_
  exact .comp (.refl ..) (State.snoop_only ..); exact .put (.refl ..) covers_til; refine .comp ?_ (State.unexpect_only ..)
  refine .iteOn ?_ ?_; exact .comp (.refl ..) (State.snoop_only ..); exact .put (.refl ..) covers_til
  refine .comp ?_ (State.itemFails_only ..); refine .iteOn ?_ ?_; exact .comp (.refl ..) (State.snoop_only ..)
  exact .put (.refl ..) covers_til; exact .comp (.refl ..) (State.snoop_only ..)

theorem State.statusIn_only (s : State) (t : Nat) (body : List Byte) : Only (P.fault ||| P.pgCal) s (State.statusIn s t body) :=
    by
  unfold State.statusIn; dsimp only; refine .comp (.comp ?_ (State.tileFlags_only ..)) (State.feedTemp_only ..); split
  exact .put (.put (.put (.comp (.eventIf (.refl ..)) (State.onTile_only ..)) covers_til) covers_til) covers_til
  exact .comp (.eventIf (.refl ..)) (State.onTile_only ..)

theorem State.statusReply_only (s : State) (c : Nat) (it : ChainPkt) : Only (P.fault ||| P.pair ||| P.out ||| P.pgCal ||| P.pgAxo)
    s (State.statusReply s c it) := by
  unfold State.statusReply; dsimp only; refine .ite ?_ ?_; split; refine .iteOff ?_ ?_
  exact .comp (.refl ..) (State.snoop_only ..); exact .comp (.refl ..) (State.corrupted_only ..)
  exact .comp (.comp (.refl ..) (State.snoop_only ..)) (State.itemFails_only ..); refine .ite ?_ ?_
  exact .comp (.comp (.comp (.refl ..) (State.snoop_only ..)) (State.unexpect_only ..)) (State.statusIn_only ..)
  exact .comp (.comp (.refl ..) (State.snoop_only ..)) (State.itemFails_only ..); exact .comp (.refl ..) (State.snoop_only ..)

theorem execStatusStale_only (t : Fin 80) (s : State) {u : State} (h : execStatusStale t s = .next u) : Only P.fault s u := by
  unfold execStatusStale at h; replace h := Host.Outcome.next.inj h; subst h; refine .ite ?_ ?_
  exact .comp (.comp (.refl ..) (State.onTile_only ..)) (State.tileFlags_only ..); exact .refl ..

theorem State.onRec_only (s : State) (p : Nat) (f : PerRec → PerRec) : Only P.light s (State.onRec s p f) := by
  unfold State.onRec; exact .upd (.refl ..)

theorem State.staleBit_only (s : State) (t : Nat) (b : Bool) : Only (P.fault ||| P.pgSup) s (State.staleBit s t b) := by
  unfold State.staleBit; exact .comp (.setBit (.refl ..) covers_arr) (State.setCond_only ..)

theorem State.rowsIn_only (s : State) (t : Nat) (rs : List Nat) : Only (P.fault ||| P.pgSup) s (State.rowsIn s t rs) := by
  unfold State.rowsIn; dsimp only; refine .iteOn ?_ ?_; exact .comp (.refl ..) (State.onTile_only ..)
  exact .comp (.refl ..) (State.staleBit_only ..)

theorem State.takeBlock_only (s : State) (c t p d off : Nat) (b : SenseBlk) : Only (P.fault ||| P.pgSup) s (State.takeBlock s c t
    p d off b) := by
  unfold State.takeBlock; dsimp only
  refine .upd (.comp (.comp (.comp ?_ (State.onRec_only ..)) (State.onTile_only ..)) (State.rowsIn_only ..))
  refine .iteOff ?_ ?_; exact .incBy (.refl ..) covers_chn; exact .comp (.event (.refl ..)) (State.chainErr_only ..)

theorem State.syncFail_only (s : State) (c t p : Nat) : Only P.fault s (State.syncFail s c t p) := by
  unfold State.syncFail; dsimp only; refine .ite ?_ ?_; refine .comp ?_ (State.raise_only ..); split
  exact .eventIf (.inc (.event (.comp (.comp (.refl ..) (State.onTile_only ..)) (State.dropDue_only ..))) covers_til)
  exact .event (.comp (.comp (.refl ..) (State.onTile_only ..)) (State.dropDue_only ..)); split
  exact .eventIf (.inc (.event (.comp (.comp (.refl ..) (State.onTile_only ..)) (State.dropDue_only ..))) covers_til)
  exact .event (.comp (.comp (.refl ..) (State.onTile_only ..)) (State.dropDue_only ..))

theorem State.senseBlock_only (s : State) (c : Nat) (b : SenseBlk) : Only (P.fault ||| P.pair ||| P.pgSup ||| P.pgAxo) s
    (State.senseBlock s c b) := by
  unfold State.senseBlock; dsimp only; refine .ite ?_ ?_; split; refine .iteOff ?_ ?_
  exact .comp (.refl ..) (State.snoop_only ..); exact .comp (.refl ..) (State.corrupted_only ..); refine .ite ?_ ?_
  refine .comp (.event (.inc (.comp ?_ (State.unexpect_only ..)) covers_chn)) (State.dropDue_only ..); refine .iteOff ?_ ?_
  exact .comp (.refl ..) (State.snoop_only ..); exact .comp (.refl ..) (State.corrupted_only ..); refine .ite ?_ ?_
  refine .comp (.event (.inc (.comp ?_ (State.unexpect_only ..)) covers_chn)) (State.dropDue_only ..); refine .iteOff ?_ ?_
  exact .comp (.refl ..) (State.snoop_only ..); exact .comp (.refl ..) (State.corrupted_only ..); split
  refine .comp ?_ (State.dropDue_only ..); split
  refine .put (.put (.inc (.comp ?_ (State.unexpect_only ..)) covers_chn) covers_til) covers_til; refine .iteOff ?_ ?_
  exact .comp (.refl ..) (State.snoop_only ..); exact .comp (.refl ..) (State.corrupted_only ..)
  refine .inc (.comp ?_ (State.unexpect_only ..)) covers_chn; refine .iteOff ?_ ?_
  exact .comp (.refl ..) (State.snoop_only ..); exact .comp (.refl ..) (State.corrupted_only ..); refine .ite ?_ ?_
  refine .comp (.comp ?_ (State.onTile_only ..)) (State.takeBlock_only ..); split
  refine .put (.put (.inc (.comp ?_ (State.unexpect_only ..)) covers_chn) covers_til) covers_til; refine .iteOff ?_ ?_
  exact .comp (.refl ..) (State.snoop_only ..); exact .comp (.refl ..) (State.corrupted_only ..)
  refine .inc (.comp ?_ (State.unexpect_only ..)) covers_chn; refine .iteOff ?_ ?_
  exact .comp (.refl ..) (State.snoop_only ..); exact .comp (.refl ..) (State.corrupted_only ..)
  refine .comp ?_ (State.syncFail_only ..); split
  refine .put (.put (.inc (.comp ?_ (State.unexpect_only ..)) covers_chn) covers_til) covers_til; refine .iteOff ?_ ?_
  exact .comp (.refl ..) (State.snoop_only ..); exact .comp (.refl ..) (State.corrupted_only ..)
  refine .inc (.comp ?_ (State.unexpect_only ..)) covers_chn; refine .iteOff ?_ ?_
  exact .comp (.refl ..) (State.snoop_only ..); exact .comp (.refl ..) (State.corrupted_only ..)
  exact .comp (.refl ..) (State.snoop_only ..)

theorem execSenseBlock_only (c : Fin 20) (b : SenseBlk) (s : State) {t : State} (h : execSenseBlock c b s = .next t) : Only
    (P.fault ||| P.pair ||| P.pgSup ||| P.pgAxo) s t := by
  unfold execSenseBlock at h; replace h := Host.Outcome.next.inj h; subst h
  exact .comp (.comp (.refl ..) (State.senseBlock_only ..)) (State.hear_only ..)

theorem State.returnTimeout_only (s : State) (c : Nat) : Only (P.fault ||| P.out) s (State.returnTimeout s c) := by
  unfold State.returnTimeout; split; exact .comp (.comp (.refl ..) (State.unexpect_only ..)) (State.failItem_only ..)
  exact .refl ..

theorem execFirstCodesTimeout_only (c : Fin 20) (s : State) {t : State} (h : execFirstCodesTimeout c s = .next t) : Only P.fault s
    t := by
  unfold execFirstCodesTimeout at h; replace h := Host.Outcome.next.inj h; subst h; split; refine .ite ?_ ?_
  exact .comp (.refl ..) (State.chainLoop_only ..); exact .refl ..; exact .refl ..

theorem execChainLockLoss_only (x : LockLoss) (s : State) {t : State} (h : execChainLockLoss x s = .next t) : Only (P.chains |||
    P.pgChn) s t := by
  unfold execChainLockLoss at h; replace h := Host.Outcome.next.inj h; subst h; refine .ite ?_ ?_
  exact .comp (.event (.incBy (.put (.refl ..) covers_chn) covers_chn)) (State.onChain_only ..); exact .refl ..

theorem execChainInwardLock_only (c : Fin 20) (s : State) {t : State} (h : execChainInwardLock c s = .next t) : Only (P.chains |||
    P.pgChn) s t := by
  unfold execChainInwardLock at h; replace h := Host.Outcome.next.inj h; subst h; refine .ite ?_ ?_
  exact .comp (.put (.refl ..) covers_chn) (State.onChain_only ..); exact .refl ..

theorem execBypassLegsOpen_only (c : Fin 20) (s : State) {t : State} (h : execBypassLegsOpen c s = .next t) : Only P.pgChn s t :=
    by
  unfold execBypassLegsOpen at h; replace h := Host.Outcome.next.inj h; subst h; refine .ite ?_ ?_
  exact .put (.put (.refl ..) covers_chn) covers_chn; exact .refl ..

theorem State.chainStart_only (s : State) (c : Nat) : Only P.pgChn s (State.chainStart s c) := by
  unfold State.chainStart; refine .ite ?_ ?_; exact .put (.refl ..) covers_chn; exact .refl ..

theorem State.chainOpen_only (s : State) (c : Nat) : Only (P.chains ||| P.pgChn) s (State.chainOpen s c) := by
  unfold State.chainOpen; refine .ite ?_ ?_; refine .ite ?_ ?_
  exact .comp (.event (.put (.refl ..) covers_chn)) (State.onChain_only ..); exact .refl ..
  exact .comp (.refl ..) (State.chainStart_only ..)

theorem execPermitGrant_only (s : State) {t : State} (h : execPermitGrant s = .next t) : Only (P.isl ||| P.chains ||| P.sio |||
    P.stat ||| P.clk ||| P.pgChn ||| P.pgSio) s t := by
  unfold execPermitGrant at h; replace h := Host.Outcome.next.inj h; subst h; dsimp only; refine .ite ?_ ?_
  refine .foldl ?_ ?_; exact .comp (.putStat (.put (.upd (.refl ..)))) (State.sioDrive_only ..); intro _ _
  exact .comp (.refl ..) (State.chainOpen_only ..); exact .refl ..

theorem State.readProof_only (s : State) (t p : Nat) : Only (P.fault ||| P.draws ||| P.pgSup) s (State.readProof s t p) := by
  unfold State.readProof; exact .comp (.refl ..) (State.readEntries_only ..)

theorem State.flushReg_only (s : State) (c : Nat) : Only (P.chains ||| P.out ||| P.pgChn) s (State.flushReg s c) := by
  unfold State.flushReg; dsimp only; refine .ite ?_ ?_; exact .refl ..; refine .foldl ?_ ?_
  exact .comp (.refl ..) (State.onChain_only ..); intro _ _; refine .ite ?_ ?_
  exact .comp (.refl ..) (State.sendChain_only ..); exact .comp (.refl ..) (State.sendAgain_only ..)

theorem State.codesSend_only (s : State) (c : Nat) : Only (P.fault ||| P.out ||| P.draws) s (State.codesSend s c) := by
  unfold State.codesSend; refine .ite ?_ ?_; split; exact .refl ..; dsimp only; split
  exact .comp (.refl ..) (State.onChain_only ..); refine .ite ?_ ?_
  exact .comp (.comp (.comp (.refl ..) (State.onChain_only ..)) (State.readRange_only ..)) (State.sendAgain_only ..)
  exact .comp (.comp (.comp (.refl ..) (State.onChain_only ..)) (State.readRange_only ..)) (State.sendChain_only ..)
  exact .refl ..

theorem execCodesSend_only (c : Fin 20) (s : State) {t : State} (h : execCodesSend c s = .next t) : Only (P.fault ||| P.out |||
    P.draws) s t := by
  unfold execCodesSend at h; replace h := Host.Outcome.next.inj h; subst h
  exact .comp (.comp (.refl ..) (State.codesSend_only ..)) (State.flushReg_only ..)

theorem State.waitLatch_only (s : State) (frame : Bool) (c : Nat) (w : WaitLatch) (old : Nat) : Only (P.chains ||| P.pgChn) s
    (State.waitLatch s frame c w old) := by
  unfold State.waitLatch; exact .comp (.put (.refl ..) covers_chn) (State.onChain_only ..)

theorem State.sendLatch_only (s : State) (frame : Bool) (target ltag : Nat) (offs : List Nat) (c : Nat) : Only (P.chains ||| P.out
    ||| P.pgChn) s (State.sendLatch s frame target ltag offs c) := by
  unfold State.sendLatch; dsimp only
  exact .comp (.comp (.comp (.refl ..) (State.onChain_only ..)) (State.sendChain_only ..)) (State.waitLatch_only ..)

theorem State.showLatch_only (s : State) (tag target : Nat) : Only P.pgChn s (State.showLatch s tag target) := by
  unfold State.showLatch; exact .put (.put (.refl ..))

theorem State.latchEvent_only (s : State) (target : Nat) : Only (P.light ||| P.pgChn) s (State.latchEvent s target) := by
  unfold State.latchEvent; dsimp only; exact .upd (.comp (.refl ..) (State.showLatch_only ..))

theorem State.bringMask_only (s : State) (target : Nat) : Only P.light s (State.bringMask s target) := by
  unfold State.bringMask; split; refine .ite ?_ ?_; exact .refl ..; exact .upd (.refl ..); exact .refl ..

theorem State.bringUrgent_only (s : State) (target : Nat) : Only P.light s (State.bringUrgent s target) := by
  unfold State.bringUrgent; dsimp only; refine .iteOff ?_ ?_; exact .comp (.refl ..) (State.bringMask_only ..)
  exact .upd (.refl ..)

theorem State.proofDriven_only (s : State) (n : Nat) : Only P.pgPrf s (State.proofDriven s n) := by
  unfold State.proofDriven; exact .event (.incBy (.refl ..))

theorem State.sendReplacement_only (s : State) (c : Nat) (e : Sent) (told : List Nat) : Only (P.chains ||| P.light ||| P.out |||
    P.pgPrf) s (State.sendReplacement s c e told) := by
  unfold State.sendReplacement; dsimp only; exact .upd (.comp (.inc (.refl ..)) (State.sendChain_only ..))

theorem State.proofReplace_only (s : State) (target : Nat) (dark : Nat → Bool) (t : Nat) : Only (P.chains ||| P.light ||| P.out
    ||| P.pgPrf) s (State.proofReplace s target dark t) := by
  unfold State.proofReplace; split; dsimp only; refine .ite ?_ ?_; exact .refl ..; refine .ite ?_ ?_; refine .upd ?_
  refine .ite ?_ ?_; exact .comp (.comp (.refl ..) (State.onChain_only ..)) (State.sendReplacement_only ..)
  exact .comp (.comp (.refl ..) (State.onChain_only ..)) (State.onChain_only ..)
  exact .upd (.comp (.refl ..) (State.proofDriven_only ..)); exact .refl ..

theorem State.proofsAfterLatch_only (s : State) : Only (P.chains ||| P.light ||| P.out ||| P.pgPrf) s (State.proofsAfterLatch s)
    := by
  unfold State.proofsAfterLatch; dsimp only; refine .ite ?_ ?_; exact .refl ..; refine .foldl ?_ ?_; exact .refl ..; intro _ _
  exact .comp (.refl ..) (State.proofReplace_only ..)

theorem State.clauseLatch_only (s : State) (target : Nat) : Only P.cl s (State.clauseLatch s target) := by
  unfold State.clauseLatch; dsimp only; exact .upd (.refl ..)

theorem State.placeInitial_only (s : State) (k : FrameKind) : Only P.tiles s (State.placeInitial s k) := by
  unfold State.placeInitial; refine .ite ?_ ?_; refine .foldl ?_ ?_; exact .refl ..; intro _ _
  exact .comp (.refl ..) (State.onTile_only ..); exact .refl ..

theorem State.frameLatch_only (s : State) : Only (P.boot ||| P.cl ||| P.vid ||| P.chains ||| P.tiles ||| P.light ||| P.out |||
    P.pgCmp ||| P.pgPrf ||| P.pgChn) s (State.frameLatch s) := by
  unfold State.frameLatch; dsimp only
  refine .comp (.comp (.comp (.upd ?_) (State.onVid_only ..)) (State.clauseLatch_only ..)) (State.proofsAfterLatch_only ..)
  refine .put (.comp ?_ (State.latchEvent_only ..)); refine .foldl ?_ ?_; exact .comp (.refl ..) (State.placeInitial_only ..)
  intro _ _; exact .comp (.refl ..) (State.sendLatch_only ..)

theorem State.urgentLatch_only (s : State) : Only (P.chains ||| P.light ||| P.out ||| P.pgPrf ||| P.pgChn) s (State.urgentLatch s)
    := by
  unfold State.urgentLatch; dsimp only
  refine .comp (.comp (.comp ?_ (State.latchEvent_only ..)) (State.bringUrgent_only ..)) (State.proofsAfterLatch_only ..)
  refine .foldl ?_ ?_; exact .refl ..; intro _ _; exact .comp (.refl ..) (State.sendLatch_only ..)

theorem State.latchRepeat_only (s : State) (c : Nat) (e : Sent) : Only (P.chains ||| P.out ||| P.pgChn) s (State.latchRepeat s c
    e) := by
  unfold State.latchRepeat; dsimp only
  refine .comp (.comp (.comp ?_ (State.sendAgain_only ..)) (State.waitLatch_only ..)) (State.showLatch_only ..)
  exact .comp (.refl ..) (State.onChain_only ..)

theorem State.latchChain_only (s : State) (c : Nat) : Only (P.cl ||| P.chains ||| P.light ||| P.out ||| P.pgChn) s
    (State.latchChain s c) := by
  unfold State.latchChain; dsimp only
  refine .upd (.comp (.comp (.comp ?_ (State.sendLatch_only ..)) (State.latchEvent_only ..)) (State.clauseLatch_only ..))
  exact .refl ..

theorem State.latchSend_only (s : State) (frame : Bool) (only : Option (Fin 20)) : Only (P.boot ||| P.cl ||| P.vid ||| P.chains
    ||| P.tiles ||| P.light ||| P.out ||| P.pgCmp ||| P.pgPrf ||| P.pgChn) s (State.latchSend s frame only) := by
  unfold State.latchSend; split; refine .ite ?_ ?_; refine .ite ?_ ?_; exact .comp (.refl ..) (State.frameLatch_only ..)
  exact .refl ..; refine .ite ?_ ?_; exact .comp (.refl ..) (State.urgentLatch_only ..); exact .refl ..; refine .ite ?_ ?_
  exact .refl ..; split; exact .comp (.refl ..) (State.latchRepeat_only ..); refine .ite ?_ ?_
  exact .comp (.refl ..) (State.latchChain_only ..); exact .refl ..

theorem execLatchSend_only (frame : Bool) (only : Option (Fin 20)) (s : State) {t : State} (h : execLatchSend frame only s = .next
    t) : Only (P.boot ||| P.cl ||| P.vid ||| P.chains ||| P.tiles ||| P.light ||| P.out ||| P.pgCmp ||| P.pgPrf ||| P.pgChn) s t
    := by
  unfold execLatchSend at h; replace h := Host.Outcome.next.inj h; subst h; refine .foldl ?_ ?_
  exact .comp (.refl ..) (State.latchSend_only ..); intro _ _; exact .comp (.refl ..) (State.flushReg_only ..)

theorem State.proofSend_only (s : State) (c pos : Nat) : Only (P.fault ||| P.out ||| P.draws ||| P.pgSup) s (State.proofSend s c
    pos) := by
  unfold State.proofSend; dsimp only; split; exact .refl ..; split; refine .ite ?_ ?_
  exact .comp (.comp (.refl ..) (State.onChain_only ..)) (State.sendReplacement_only ..)
  exact .comp (.comp (.refl ..) (State.onChain_only ..)) (State.sendAgain_only ..); refine .ite ?_ ?_; exact .refl ..
  refine .iteOff ?_ ?_; exact .comp (.refl ..) (State.readProof_only ..)
  exact .upd (.comp (.refl ..) (State.sendChain_only ..))

theorem execProofSend_only (c : Fin 20) (pos : Fin 8) (s : State) {t : State} (h : execProofSend c pos s = .next t) : Only
    (P.fault ||| P.out ||| P.draws ||| P.pgSup) s t := by
  unfold execProofSend at h; replace h := Host.Outcome.next.inj h; subst h
  exact .comp (.comp (.refl ..) (State.proofSend_only ..)) (State.flushReg_only ..)

theorem execSenseTokenSend_only (c : Fin 20) (pos : Fin 8) (s : State) {t : State} (h : execSenseTokenSend c pos s = .next t) :
    Only (P.isl ||| P.chains ||| P.out ||| P.pgChn) s t := by
  unfold execSenseTokenSend at h; replace h := Host.Outcome.next.inj h; subst h; split; refine .ite ?_ ?_; dsimp only
  refine .comp ?_ (State.flushReg_only ..); refine .iteOn ?_ ?_
  exact .comp (.comp (.comp (.refl ..) (State.sendChain_only ..)) (State.sendChain_only ..)) (State.load_only ..)
  exact .upd (.refl ..); exact .refl ..; exact .refl ..

theorem State.tileGo_only (s : State) (i : Nat) : Only (P.chains ||| P.out ||| P.pgChn ||| P.pgTil) s (State.tileGo s i) := by
  unfold State.tileGo; split; exact .refl ..; refine .ite ?_ ?_; dsimp only
  refine .comp (.comp (.put (.put ?_ covers_til) covers_til) (State.onChain_only ..)) (State.flushReg_only ..)
  exact .put (.put (.refl ..) covers_til) covers_til; exact .refl ..

theorem execRegrReply_only (c : Fin 20) (it : ChainPkt) (s : State) {t : State} (h : execRegrReply c it s = .next t) : Only
    (P.fault ||| P.pair ||| P.out ||| P.pgAxo) s t := by
  unfold execRegrReply at h; replace h := Host.Outcome.next.inj h; subst h
  exact .comp (.comp (.comp (.refl ..) (State.regrReply_only ..)) (State.flushReg_only ..)) (State.hear_only ..)

theorem execStatusReply_only (c : Fin 20) (it : ChainPkt) (s : State) {t : State} (h : execStatusReply c it s = .next t) : Only
    (P.fault ||| P.pair ||| P.out ||| P.pgCal ||| P.pgAxo) s t := by
  unfold execStatusReply at h; replace h := Host.Outcome.next.inj h; subst h
  exact .comp (.comp (.comp (.refl ..) (State.statusReply_only ..)) (State.flushReg_only ..)) (State.hear_only ..)

theorem execReturnTimeout_only (c : Fin 20) (s : State) {t : State} (h : execReturnTimeout c s = .next t) : Only (P.fault |||
    P.out) s t := by
  unfold execReturnTimeout at h; replace h := Host.Outcome.next.inj h; subst h
  exact .comp (.comp (.refl ..) (State.returnTimeout_only ..)) (State.flushReg_only ..)

theorem State.readIds_only (s : State) (c : Nat) : Only (P.chains ||| P.out ||| P.pgChn) s (State.readIds s c) := by
  unfold State.readIds; dsimp only; exact .comp (.comp (.refl ..) (State.onChain_only ..)) (State.flushReg_only ..)

end Sys2Proof.Machine
end

