-- ==== Sys2Proof/Laws/Footprint/Supervision.lean ====
section
/-! SUPPORT. What the operations of Supervision.lean may change. -/

set_option Elab.async false

namespace Sys2Proof.Machine

theorem State.queueRecord_only (s : State) (p st conf q : Nat) : Only (P.pair ||| P.pgAxo) s (State.queueRecord s p st conf q) :=
    by
  unfold State.queueRecord; refine .ite ?_ ?_; refine .ite ?_ ?_; exact .upd (.refl ..); exact .put (.upd (.refl ..))
  exact .refl ..

theorem State.refill_only (s : State) (p : Nat) : Only P.vid s (State.refill s p) := by
  unfold State.refill; exact .comp (.refl ..) (State.markRows_only ..)

theorem State.movePix_only (s : State) (p st conf q : Nat) : Only (P.sram ||| P.ecc ||| P.vid ||| P.light ||| P.pair ||| P.pgSup
    ||| P.pgAxo) s (State.movePix s p st conf q) := by
  unfold State.movePix; dsimp only; refine .iteOff ?_ ?_; exact .comp (.refl ..) (State.setPix_only ..)
  refine .comp (.comp (.comp ?_ (State.countState_only ..)) (State.countState_only ..)) (State.queueRecord_only ..)
  refine .ite ?_ ?_; exact .refl ..; exact .comp (.refl ..) (State.refill_only ..)

theorem State.readHist_only (s : State) (p : Nat) : Only (P.fault ||| P.draws) s (State.readHist s p) := by
  unfold State.readHist; exact .comp (.refl ..) (State.readRange_only ..)

theorem State.showFaulty_only (s : State) (a : Nat) : Only P.pgAsp s (State.showFaulty s a) := by
  unfold State.showFaulty; exact .put (.refl ..) covers_asp

theorem State.afterCharge_only (s : State) (a : Nat) : Only P.fault s (State.afterCharge s a) := by
  unfold State.afterCharge; dsimp only; refine .comp (.comp ?_ (State.pixelClasses_only ..)) (State.evalPolicies_only ..)
  refine .ite ?_ ?_; exact .comp (.refl ..) (State.showFaulty_only ..); exact .refl ..

theorem State.markFill_only (s : State) (a p : Nat) : Only P.vid s (State.markFill s a p) := by
  unfold State.markFill; refine .ite ?_ ?_; exact .comp (.refl ..) (State.markRows_only ..); exact .refl ..

theorem State.readList_only (s : State) (k : Nat) : Only (P.fault ||| P.draws) s (State.readList s k) := by
  unfold State.readList; exact .comp (.refl ..) (State.readRange_only ..)

theorem State.listFault_only (s : State) (p st a : Nat) (glare : Bool) (q : Nat) : Only (P.fault ||| P.draws ||| P.pgSup) s
    (State.listFault s p st a glare q).1 := by
  unfold State.listFault; split; dsimp only
  refine .comp (.comp (.comp ?_ (State.afterCharge_only ..)) (State.markFill_only ..)) (State.markFill_only ..)
  exact .comp (.comp (.comp (.refl ..) (State.readList_only ..)) (State.setLe_only ..)) (State.afterCharge_only ..); split
  dsimp only
  refine .comp (.comp (.put (.comp ?_ (State.setLe_only ..))) (State.afterCharge_only ..)) (State.markFill_only ..)
  exact .comp (.refl ..) (State.readList_only ..); dsimp only
  refine .comp (.comp (.event (.put (.comp ?_ (State.readList_only ..)))) (State.setCond_only ..)) (State.pixelClasses_only ..)
  exact .refl ..

theorem State.unlistFault_only (s : State) (p : Nat) : Only (P.fault ||| P.draws ||| P.pgSup) s (State.unlistFault s p) := by
  unfold State.unlistFault; split; exact .comp (.comp (.refl ..) (State.readList_only ..)) (State.pixelClasses_only ..)
  dsimp only
  refine .comp (.comp (.put (.comp ?_ (State.setLe_only ..))) (State.afterCharge_only ..)) (State.markFill_only ..)
  exact .comp (.refl ..) (State.readList_only ..)

theorem State.countFallback_only (s : State) (p : Nat) : Only (P.pstart ||| P.sram ||| P.ecc ||| P.boot ||| P.isl ||| P.cl |||
    P.vid ||| P.chains ||| P.tiles ||| P.light ||| P.flt ||| P.sio ||| P.skink ||| P.spd ||| P.mode ||| P.stat ||| P.hold |||
    P.sys ||| P.clk ||| P.cls ||| P.pgLnk ||| P.pgSpd ||| P.pgCmp ||| P.pgPlc ||| P.pgAsp ||| P.pgPrf ||| P.pgChn ||| P.pgTil |||
    P.pgSio ||| P.pgCrc) s (State.countFallback s p) := by
  unfold State.countFallback; refine .ite ?_ ?_; dsimp only; refine .iteOn ?_ ?_; exact .upd (.put (.refl ..))
  exact .comp (.refl ..) (State.enterHold_only ..); exact .refl ..

theorem State.confirm_only (s : State) (r : PerRec) (mask : List Word) (p st q : Nat) : Only (P.fault ||| P.draws ||| P.sys |||
    P.pgSup) s (State.confirm s r mask p st q) := by
  unfold State.confirm; split; split; dsimp only; refine .comp (.put (.put (.put (.put ?_)))) (State.countFallback_only ..)
  refine .iteOn ?_ ?_; exact .event (.inc (.ofPair (by assumption) (.comp (.refl ..) (State.listFault_only ..))))
  exact .event (.inc (.refl ..))

theorem State.setForm_only (s : State) (p k : Nat) : Only P.light s (State.setForm s p k) := by
  unfold State.setForm; refine .ite ?_ ?_; exact .refl ..; dsimp only; exact .upd (.refl ..)

theorem State.noteUnverified_only (s : State) (r : PerRec) (p : Nat) : Only P.light s (State.noteUnverified s r p) := by
  unfold State.noteUnverified; split; exact .refl ..; dsimp only; refine .ite ?_ ?_; exact .upd (.refl ..); refine .ite ?_ ?_
  exact .upd (.refl ..); exact .refl ..

theorem State.healthOf_only (s : State) (r : PerRec) (mask : List Word) (p : Nat) : Only P.tiles s (State.healthOf s r mask p).1
    := by
  unfold State.healthOf; dsimp only; refine .iteFst ?_ ?_; dsimp only; exact .refl ..; split; dsimp only; exact .refl ..
  refine .iteFst ?_ ?_; dsimp only; exact .refl ..; dsimp only; exact .comp (.refl ..) (State.joinQueue_only ..)

theorem State.judged_only (s : State) (r : PerRec) (mask : List Word) (p q : Nat) (f : JForm) (res : Nat) : Only (P.fault |||
    P.pair ||| P.draws ||| P.sys ||| P.pgSup ||| P.pgAxo) s (State.judged s r mask p q f res) := by
  unfold State.judged; dsimp only; refine .ite ?_ ?_; refine .ite ?_ ?_
  refine .comp (.comp ?_ (State.healthOf_only ..)) (State.movePix_only ..); refine .ite ?_ ?_
  exact .comp (.refl ..) (State.addSurplus_only ..); exact .refl ..
  refine .comp (.comp (.comp ?_ (State.healthOf_only ..)) (State.movePix_only ..)) (State.listFault_only ..)
  refine .ite ?_ ?_; exact .comp (.refl ..) (State.addSurplus_only ..); exact .refl ..; refine .ite ?_ ?_
  refine .comp (.comp (.comp ?_ (State.setForm_only ..)) (State.setWhy_only ..)) (State.confirm_only ..)
  refine .comp (.comp ?_ (State.healthOf_only ..)) (State.movePix_only ..); refine .ite ?_ ?_
  exact .comp (.refl ..) (State.addSurplus_only ..); exact .refl ..; refine .iteOn ?_ ?_
  refine .comp (.comp (.comp ?_ (State.movePix_only ..)) (State.setForm_only ..)) (State.setWhy_only ..)
  refine .comp ?_ (State.healthOf_only ..); refine .ite ?_ ?_; exact .comp (.refl ..) (State.addSurplus_only ..)
  exact .refl ..; exact .comp (.refl ..) (State.noteUnverified_only ..)

theorem State.noteFail_only (s : State) (q p res : Nat) : Only P.light s (State.noteFail s q p res) := by
  unfold State.noteFail; refine .ite ?_ ?_; exact .refl ..; exact .comp (.refl ..) (State.onRec_only ..)

theorem State.judgeRow_only (s : State) (t tok row q : Nat) (data : List Byte) : Only (P.fault ||| P.pair ||| P.draws ||| P.sys
    ||| P.pgSup ||| P.pgAxo) s (State.judgeRow s t tok row q data) := by
  unfold State.judgeRow; split; exact .refl ..; dsimp only; refine .ite ?_ ?_; exact .inc (.refl ..); refine .foldl ?_ ?_
  exact .comp (.comp (.comp (.refl ..) (State.restore_only ..)) (State.readRange_only ..)) (State.readHist_only ..); intro _ _
  split; exact .refl ..; refine .iteOff ?_ ?_; refine .comp ?_ (State.noteFail_only ..); refine .ite ?_ ?_
  exact .event (.inc (.refl ..)); exact .refl ..; exact .comp (.refl ..) (State.judged_only ..)

theorem execJudgementRelease_only (cycles : Nat) (s : State) {t : State} (h : execJudgementRelease cycles s = .next t) : Only
    (P.fault ||| P.pair ||| P.draws ||| P.sys ||| P.pgSup ||| P.pgAxo) s t := by
  unfold execJudgementRelease at h; replace h := Host.Outcome.next.inj h; subst h; split; exact .refl ..; dsimp only
  refine .foldl ?_ ?_; exact .comp (.peak (.upd (.refl ..))) (State.dropDue_only ..); intro _ _
  exact .comp (.refl ..) (State.judgeRow_only ..)

theorem execSenseStale_only (t : Fin 80) (s : State) {u : State} (h : execSenseStale t s = .next u) : Only (P.fault ||| P.pgSup) s
    u := by
  unfold execSenseStale at h; replace h := Host.Outcome.next.inj h; subst h; refine .ite ?_ ?_
  exact .comp (.event (.comp (.refl ..) (State.onTile_only ..))) (State.staleBit_only ..); exact .refl ..

theorem State.ackPixel_only (s : State) (p : Nat) : Only (P.fault ||| P.pair ||| P.draws ||| P.pgSup ||| P.pgAxo) s
    (State.ackPixel s p) := by
  unfold State.ackPixel; dsimp only; refine .ite ?_ ?_; exact .refl ..
  exact .event (.comp (.comp (.comp (.refl ..) (State.movePix_only ..)) (State.setForm_only ..)) (State.unlistFault_only ..))

theorem State.ackPixels_only (s : State) : Only (P.fault ||| P.pair ||| P.draws ||| P.pgSup ||| P.pgAxo) s (State.ackPixels s) :=
    by
  unfold State.ackPixels; dsimp only; refine .foldl ?_ ?_; exact .comp (.refl ..) (State.restore_only ..); intro _ _
  exact .comp (.refl ..) (State.ackPixel_only ..)

theorem State.ageRows_only (s : State) : Only P.tiles s (State.ageRows s) := by
  unfold State.ageRows; refine .foldl ?_ ?_; exact .refl ..; intro _ _; exact .comp (.refl ..) (State.onTile_only ..)

theorem State.showUnv_only (s : State) (a : Nat) : Only P.fault s (State.showUnv s a) := by
  unfold State.showUnv; dsimp only; exact .comp (.put (.refl ..) covers_asp) (State.setCond_only ..)

theorem State.cycleEnd_only (s : State) : Only P.fault s (State.cycleEnd s) := by
  unfold State.cycleEnd; dsimp only; refine .comp (.upd (.comp ?_ (State.ageRows_only ..))) (State.evalPolicies_only ..)
  refine .foldl ?_ ?_; exact .refl ..; intro _ _; exact .comp (.refl ..) (State.showUnv_only ..)

end Sys2Proof.Machine
end

