-- ==== Sys2Proof/Laws/Footprint/View.lean ====
section
/-! SUPPORT. What the operations of View.lean may change. -/

set_option Elab.async false

namespace Sys2Proof.Machine

theorem State.readEffect_only (s : State) (a : Nat) : Only (P.flt ||| P.pgAdc) s (s.readEffect a) := by
  unfold State.readEffect State.readResult
  split
  · rename_i h
    refine .setReg (.refl ..) ?_
    rcases h with rfl | ⟨h, h2⟩
    · decide
    · have h' : 0x18150 ≤ a := h
      have h2' : a ≤ 0x1815C := h2
      exact covers_same (b := 0x18150) ⟨by omega, by omega⟩ (by decide)
  · split
    · exact .upd (.refl ..)
    · exact .refl ..

theorem State.perr_only (s : State) (src : Src) (a type : Nat) (wr : Bool) : Only 0 s (State.perr s src a type wr) := by
  unfold State.perr; dsimp only; refine .ite ?_ ?_; exact .put (.refl ..) covers_page
  exact .put (.flag (.put (.put (.put (.refl ..) covers_page) covers_page) covers_page) covers_page) covers_page

theorem State.winErr_only (s : State) (src : Src) (sram type : Nat) (wr : Bool) : Only P.sys s (State.winErr s src sram type wr)
    := by
  unfold State.winErr; refine .ite ?_ ?_; exact .put (.refl ..); exact .put (.flag (.put (.put (.put (.refl ..)))))

theorem State.badAccess_only (s : State) (src : Src) (a : Nat) (wr : Bool) : Only P.sys s (State.badAccess s src a wr) := by
  unfold State.badAccess; refine .ite ?_ ?_; exact .comp (.refl ..) (State.perr_only ..); refine .ite ?_ ?_
  exact .comp (.refl ..) (State.winErr_only ..); exact .refl ..

theorem State.readWord_only (s : State) (src : Src) (a n : Nat) : Only (P.fault ||| P.draws ||| P.sys ||| P.pgAdc) s
    (State.readWord s src a n).1 := by
  unfold State.readWord; refine .iteFst ?_ ?_; dsimp only; exact .comp (.refl ..) (State.badAccess_only ..)
  refine .iteFst ?_ ?_; dsimp only; exact .comp (.refl ..) (State.readEffect_only ..); dsimp only; refine .iteFst ?_ ?_
  dsimp only; exact .comp (.comp (.refl ..) (State.readRange_only ..)) (State.winErr_only ..); dsimp only
  exact .comp (.refl ..) (State.readRange_only ..)

end Sys2Proof.Machine
end

