-- ==== Sys2Proof/Laws/Footprint/CrcSkink.lean ====
section
/-! SUPPORT. What the operations of CrcSkink.lean may change. -/

set_option Elab.async false

namespace Sys2Proof.Machine

theorem State.crcClash_only (s : State) : Only P.pgCrc s (State.crcClash s) := by
  unfold State.crcClash; exact .event (.put (.refl ..))

theorem State.ctxFeed_only (s : State) (c : Nat) (bs : List Byte) : Only P.pgCrc s (State.ctxFeed s c bs) := by
  unfold State.ctxFeed; exact .setRegN (.refl ..) covers_arr2

theorem State.ctxLoad_only (s : State) (c : Nat) : Only P.pgCrc s (State.ctxLoad s c) := by
  unfold State.ctxLoad; exact .setReg (.refl ..) covers_arr2

theorem State.crcCfg_only (s : State) (c : Nat) (v : Word) : Only P.pgCrc s (s.crcCfg c v) := by
  unfold State.crcCfg
  refine .ite (.comp (.refl ..) (State.crcClash_only ..)) ?_
  dsimp only
  have h : Only P.pgCrc s ([R.CRC_POLY c, R.CRC_INIT c, R.CRC_XOUT c, R.CRC_VAL c].foldl (fun t a => t.setRegN a (t.ctxMask c (t.regN a)))
      (s.setRegN (R.CRC_CFG c) (normWord (R.CRC_CFG c) (v &&& 0x33F).toNat))) := by
    simp only [List.foldl_cons, List.foldl_nil]
    exact .setRegN (.setRegN (.setRegN (.setRegN (.setRegN (.refl ..) covers_arr2) covers_arr2) covers_arr2) covers_arr2) covers_arr2
  exact .ite (.comp h (State.ctxLoad_only ..)) h

theorem State.crcParam_only (s : State) (c a : Nat) (v : Word) (ha : a / 0x1000 = 29) : Only P.pgCrc s (s.crcParam c a v) := by
  unfold State.crcParam
  exact .ite (.comp (.refl ..) (State.crcClash_only ..)) (.setRegN (.refl ..) (covers_same (b := 0x1D000) ⟨by omega, by omega⟩ (by decide)))

theorem State.crcDin_only (s : State) (c n : Nat) (v : Word) : Only P.pgCrc s (State.crcDin s c n v) := by
  unfold State.crcDin; refine .ite ?_ ?_; exact .refl ..; refine .ite ?_ ?_; exact .comp (.refl ..) (State.crcClash_only ..)
  exact .comp (.refl ..) (State.ctxFeed_only ..)

theorem State.jobEnd_only (s : State) (err : Nat) : Only P.pgCrc s (State.jobEnd s err) := by
  unfold State.jobEnd; dsimp only; refine .ite ?_ ?_; exact .event (.inc (.put (.put (.refl ..))))
  exact .event (.inc (.put (.put (.refl ..))))

theorem State.descStart_only (s : State) (j : Nat) : Only (P.fault ||| P.draws) s (State.descStart s j) := by
  unfold State.descStart; refine .ite ?_ ?_; exact .comp (.refl ..) (State.jobEnd_only ..); dsimp only; refine .ite ?_ ?_
  refine .comp (.put (.comp (.put (.comp ?_ (State.readRange_only ..))) (State.onSkink_only ..))) (State.jobEnd_only ..)
  exact .refl ..; refine .iteOn ?_ ?_
  exact .put (.comp (.put (.comp (.refl ..) (State.readRange_only ..))) (State.onSkink_only ..))
  exact .comp (.refl ..) (State.ctxLoad_only ..)

theorem State.skinkGo_only (s : State) (first : Nat) : Only (P.fault ||| P.draws) s (State.skinkGo s first) := by
  unfold State.skinkGo; refine .ite ?_ ?_; exact .comp (.refl ..) (State.crcClash_only ..); dsimp only
  exact .comp (.comp (.put (.put (.put (.refl ..)))) (State.onSkink_only ..)) (State.descStart_only ..)

theorem State.skinkAbort_only (s : State) : Only P.pgCrc s (State.skinkAbort s) := by
  unfold State.skinkAbort; refine .ite ?_ ?_; exact .comp (.refl ..) (State.jobEnd_only ..); exact .refl ..

theorem State.skinkMove_only (s : State) (n : Nat) : Only (P.fault ||| P.draws) s (State.skinkMove s n) := by
  unfold State.skinkMove; dsimp only; refine .iteOff ?_ ?_; exact .put (.comp (.refl ..) (State.onSkink_only ..))
  refine .ite ?_ ?_; exact .comp (.refl ..) (State.jobEnd_only ..); exact .comp (.refl ..) (State.descStart_only ..)

theorem State.jobWord_only (s : State) : Only (P.fault ||| P.draws) s (State.jobWord s) := by
  unfold State.jobWord; dsimp only; refine .ite ?_ ?_
  exact .comp (.comp (.refl ..) (State.ctxFeed_only ..)) (State.skinkMove_only ..)
  refine .comp (.comp (.comp ?_ (State.readRange_only ..)) (State.ctxFeed_only ..)) (State.skinkMove_only ..)
  refine .ite ?_ ?_; exact .put (.refl ..); exact .refl ..

theorem State.ccvStart_only (s : State) (kind : Nat) : Only (P.skink ||| P.pgCrc) s (State.ccvStart s kind) := by
  unfold State.ccvStart; dsimp only; refine .comp ?_ (State.onSkink_only ..); refine .iteOn ?_ ?_
  exact .put (.setReg (.refl ..)); exact .put (.refl ..)

theorem State.ccvFeed_only (s : State) (n : Nat) : Only (P.skink ||| P.pgCrc) s (State.ccvFeed s n) := by
  unfold State.ccvFeed; dsimp only; exact .comp (.setRegN (.refl ..)) (State.onSkink_only ..)

theorem State.ccvReads_only (s : State) (a b : Nat) : Only (P.fault ||| P.draws) s (State.ccvReads s a b) := by
  unfold State.ccvReads; dsimp only; refine .iteOn ?_ ?_; refine .ite ?_ ?_; exact .comp (.refl ..) (State.readRange_only ..)
  exact .refl ..; exact .comp (.refl ..) (State.readRange_only ..)

theorem State.ccvRest_only (s : State) : Only (P.fault ||| P.draws) s (State.ccvRest s) := by
  unfold State.ccvRest; exact .comp (.refl ..) (State.ccvReads_only ..)

theorem State.ccvComplete_only (s : State) : Only (P.skink ||| P.pgCrc) s (State.ccvComplete s) := by
  unfold State.ccvComplete; dsimp only
  exact .event (.inc (.comp (.setRegN (.comp (.refl ..) (State.ccvFeed_only ..))) (State.ccvOff_only ..)))

theorem execSkinkWord_only (s : State) {t : State} (h : execSkinkWord s = .next t) : Only (P.fault ||| P.draws) s t := by
  unfold execSkinkWord at h; replace h := Host.Outcome.next.inj h; subst h; refine .ite ?_ ?_; refine .ite ?_ ?_; dsimp only
  refine .iteOff ?_ ?_; exact .comp (.refl ..) (State.ccvReads_only ..); exact .comp (.refl ..) (State.ccvFeed_only ..)
  exact .refl ..; refine .ite ?_ ?_; exact .comp (.refl ..) (State.jobWord_only ..); exact .refl ..

end Sys2Proof.Machine
end

