-- ==== Sys2Proof/Laws/Footprint/Clauses.lean ====
section
/-! SUPPORT. What the operations of Clauses.lean may change. -/

set_option Elab.async false

namespace Sys2Proof.Machine

theorem State.takeWords_only (s : State) (ws : List (Nat × Word)) : Only (P.pgLnk ||| P.pgPkt ||| P.pgSpd ||| P.pgVin ||| P.pgCmp ||| P.pgMsk ||| P.pgCal ||| P.pgPlc ||| P.pgSup ||| P.pgAsp ||| P.pgFlt ||| P.pgPrf ||| P.pgChn ||| P.pgTil ||| P.pgAdc ||| P.pgWin ||| P.pgBal ||| P.pgSpl ||| P.pgSio ||| P.pgCrc ||| P.pgAxo ||| P.pgOff) s (s.takeWords ws) := by
  unfold State.takeWords
  refine .foldl (.refl ..) fun u x => ?_
  split
  · exact .setReg (.refl ..) (covers_high ‹_›)
  · exact .refl ..

theorem State.setD_only (s : State) (d : Nat) : Only (P.light ||| P.bal ||| P.pgPlc ||| P.pgPrf) s (State.setD s d) := by
  unfold State.setD; refine .ite ?_ ?_; exact .refl ..
  refine .comp (.event (.comp (.comp ?_ (State.showTiming_only ..)) (State.initOffsets_only ..))) (State.balStart_only ..)
  exact .refl ..

theorem State.maskApply_only (s : State) (old : List Word) (start : Bool) : Only (P.vid ||| P.chains ||| P.light ||| P.pgMsk) s
    (State.maskApply s old start) := by
  unfold State.maskApply; dsimp only; refine .iteOff ?_ ?_; refine .iteOn ?_ ?_
  refine .comp (.comp ?_ (State.onVid_only ..)) (State.queueUrgent_only ..); refine .iteOn ?_ ?_; refine .ite ?_ ?_
  exact .upd (.refl ..); exact .incWrap (.refl ..); exact .event (.inc (.refl ..))
  exact .comp (.refl ..) (State.resendFrame_only ..); exact .upd (.refl ..)

theorem State.ctxFade_only (s : State) (old : State) (a : Nat) (start : Bool) : Only (P.fault ||| P.fades ||| P.pair ||| P.draws)
    s (State.ctxFade s old a start) := by
  unfold State.ctxFade; dsimp only; refine .ite ?_ ?_
  refine .put (.put (.comp (.comp ?_ (State.dropGroup_only ..)) (State.onFade_only ..)) covers_asp) covers_asp
  refine .ite ?_ ?_; exact .comp (.refl ..) (State.dropGroup_only ..); exact .refl ..; refine .iteOn ?_ ?_; refine .ite ?_ ?_
  refine .comp (.comp ?_ (State.onFade_only ..)) (State.beginFade_only ..); refine .ite ?_ ?_
  exact .comp (.refl ..) (State.dropGroup_only ..); exact .refl ..; refine .iteOff ?_ ?_; refine .ite ?_ ?_
  exact .comp (.refl ..) (State.dropGroup_only ..); exact .refl ..
  exact .comp (.comp (.refl ..) (State.dropWaits_only ..)) (State.startFade_only ..)
  exact .comp (.refl ..) (State.refadeNow_only ..)

theorem State.ctxChanged_only (s : State) (old : State) (a : Nat) (start : Bool) : Only (P.fault ||| P.fades ||| P.pair |||
    P.draws) s (State.ctxChanged s old a start) := by
  unfold State.ctxChanged; dsimp only; refine .ite ?_ ?_; refine .ite ?_ ?_; exact .refl ..
  exact .comp (.refl ..) (State.ctxFade_only ..)
  exact .comp (.comp (.comp (.refl ..) (State.ctxFade_only ..)) (State.markRows_only ..)) (State.markRows_only ..)

theorem State.symChanged_only (s : State) (old : State) (k : Nat) : Only P.vid s (State.symChanged s old k) := by
  unfold State.symChanged; refine .ite ?_ ?_; exact .refl ..; refine .foldl ?_ ?_; exact .refl ..; intro _ _
  exact .comp (.comp (.refl ..) (State.markRows_only ..)) (State.markRows_only ..)

theorem State.roleChanged_only (s : State) (old : State) (l : Nat) : Only (P.fault ||| P.link ||| P.out ||| P.pgPkt) s
    (State.roleChanged s old l) := by
  unfold State.roleChanged; refine .ite ?_ ?_; exact .refl ..; exact .comp (.refl ..) (State.reconfigLane_only ..)

theorem State.applied_only (s : State) (old : State) (ws : List (Nat × Word)) (start : Bool) : Only (P.fault ||| P.fades ||| P.bal
    ||| P.link ||| P.pair ||| P.out ||| P.draws ||| P.pgPkt ||| P.pgMsk ||| P.pgAdc) s (State.applied s old ws start) := by
  unfold State.applied; dsimp only; refine .comp (.comp ?_ (State.updateOff_only ..)) (State.sioDrive_only ..)
  refine .iteOn ?_ ?_; refine .iteOn ?_ ?_; refine .iteOn ?_ ?_; refine .foldl ?_ ?_; refine .iteOn ?_ ?_
  refine .iteOff ?_ ?_; refine .foldl ?_ ?_; refine .foldl ?_ ?_; refine .ite ?_ ?_
  exact .comp (.refl ..) (State.markAll_only ..); exact .refl ..; intro _ _; exact .comp (.refl ..) (State.ctxChanged_only ..)
  intro _ _; exact .comp (.refl ..) (State.symChanged_only ..); exact .comp (.refl ..) (State.maskApply_only ..)
  refine .comp ?_ (State.showTiming_only ..); refine .ite ?_ ?_; exact .comp (.refl ..) (State.setD_only ..); exact .refl ..
  intro _ _; exact .comp (.refl ..) (State.roleChanged_only ..); exact .upd (.put (.refl ..))
  exact .comp (.refl ..) (State.adcShow_only ..); exact .comp (.refl ..) (State.loseCfg_only ..)

theorem State.applyWords_only (s : State) (ws : List (Nat × Word)) (start : Bool) : Only (P.fault ||| P.fades ||| P.bal ||| P.link
    ||| P.pair ||| P.out ||| P.draws ||| P.pgPkt ||| P.pgVin ||| P.pgMsk ||| P.pgCal ||| P.pgSup ||| P.pgAdc ||| P.pgWin |||
    P.pgBal ||| P.pgSpl ||| P.pgAxo ||| P.pgOff) s (State.applyWords s ws start) := by
  unfold State.applyWords; exact .comp (.comp (.refl ..) (State.takeWords_only ..)) (State.applied_only ..)

theorem State.clauseFail_only (s : State) (e : Nat × Nat) (phase : Nat) : Only (P.cl ||| P.cls) s (State.clauseFail s e phase) :=
    by
  unfold State.clauseFail; dsimp only; exact .upd (.put (.put (.event (.inc (.put (.put (.put (.put (.refl ..)))))))))

theorem State.applyClause_only (s : State) (start : Bool) : Only (P.fault ||| P.fades ||| P.bal ||| P.link ||| P.pair ||| P.out
    ||| P.draws ||| P.pgPkt ||| P.pgVin ||| P.pgMsk ||| P.pgCal ||| P.pgSup ||| P.pgAdc ||| P.pgWin ||| P.pgBal ||| P.pgSpl |||
    P.pgAxo ||| P.pgOff) s (State.applyClause s start) := by
  unfold State.applyClause; split; exact .comp (.refl ..) (State.clauseFail_only ..); dsimp only
  exact .comp (.upd (.put (.put (.put (.put (.event (.inc (.setRegN (.refl ..))))))))) (State.applyWords_only ..)

theorem execClauseCheckDone_only (s : State) {t : State} (h : execClauseCheckDone s = .next t) : Only (P.fault ||| P.fades |||
    P.bal ||| P.link ||| P.pair ||| P.out ||| P.draws ||| P.pgPkt ||| P.pgVin ||| P.pgMsk ||| P.pgCal ||| P.pgSup ||| P.pgAdc |||
    P.pgWin ||| P.pgBal ||| P.pgSpl ||| P.pgAxo ||| P.pgOff) s t := by
  unfold execClauseCheckDone at h; replace h := Host.Outcome.next.inj h; subst h; refine .ite ?_ ?_; split
  exact .comp (.refl ..) (State.clauseFail_only ..); dsimp only; refine .ite ?_ ?_
  exact .comp (.upd (.put (.refl ..))) (State.applyClause_only ..); refine .iteOn ?_ ?_; exact .upd (.put (.refl ..))
  exact .event (.put (.refl ..)); exact .refl ..

theorem execClauseApply_only (s : State) {t : State} (h : execClauseApply s = .next t) : Only (P.fault ||| P.fades ||| P.bal |||
    P.link ||| P.pair ||| P.out ||| P.draws ||| P.pgPkt ||| P.pgVin ||| P.pgMsk ||| P.pgCal ||| P.pgSup ||| P.pgAdc ||| P.pgWin
    ||| P.pgBal ||| P.pgSpl ||| P.pgAxo ||| P.pgOff) s t := by
  unfold execClauseApply at h; replace h := Host.Outcome.next.inj h; subst h; split; refine .ite ?_ ?_
  exact .comp (.refl ..) (State.applyClause_only ..); exact .refl ..; exact .refl ..

theorem State.abortWrite_only (s : State) (src : Src) : Only (P.cl ||| P.cls) s (State.abortWrite s src) := by
  unfold State.abortWrite; refine .ite ?_ ?_; exact .comp (.refl ..) (State.abortClause_only ..); exact .refl ..

theorem execClauseLaneLossAbort_only (s : State) {t : State} (h : execClauseLaneLossAbort s = .next t) : Only (P.cl ||| P.cls) s t
    := by
  unfold execClauseLaneLossAbort at h; replace h := Host.Outcome.next.inj h; subst h; refine .ite ?_ ?_
  exact .comp (.refl ..) (State.abortClause_only ..); exact .refl ..

theorem State.implicitFail_only (s : State) (kind : Nat) (e : Nat × Nat) : Only P.cls s (State.implicitFail s kind e) := by
  unfold State.implicitFail; exact .event (.inc (.put (.put (.put (.refl ..)))))

theorem State.applyImplicit_only (s : State) (c : ImpClause) : Only (P.fault ||| P.fades ||| P.bal ||| P.link ||| P.pair ||| P.out
    ||| P.draws ||| P.pgPkt ||| P.pgVin ||| P.pgMsk ||| P.pgCal ||| P.pgSup ||| P.pgAdc ||| P.pgWin ||| P.pgBal ||| P.pgSpl |||
    P.pgAxo ||| P.pgOff) s (State.applyImplicit s c) := by
  unfold State.applyImplicit; split; exact .comp (.refl ..) (State.implicitFail_only ..); refine .ite ?_ ?_
  exact .comp (.comp (.refl ..) (State.draw_only ..)) (State.implicitFail_only ..)
  exact .comp (.refl ..) (State.applyWords_only ..)

theorem State.takeImplicit_only (s : State) (c : ImpClause) : Only (P.fault ||| P.fades ||| P.bal ||| P.link ||| P.pair ||| P.out
    ||| P.draws ||| P.pgPkt ||| P.pgVin ||| P.pgMsk ||| P.pgCal ||| P.pgSup ||| P.pgAdc ||| P.pgWin ||| P.pgBal ||| P.pgSpl |||
    P.pgAxo ||| P.pgOff) s (State.takeImplicit s c) := by
  unfold State.takeImplicit; dsimp only; refine .comp ?_ (State.applyImplicit_only ..); refine .foldl ?_ ?_
  exact .upd (.refl ..); intro _ _; refine .ite ?_ ?_; exact .comp (.refl ..) (State.groupBefore_only ..); exact .refl ..

theorem State.submitImplicit_only (s : State) (kind : Nat) (ws : List (Nat × Word)) (choice target tag : Nat) : Only (P.fault |||
    P.fades ||| P.bal ||| P.link ||| P.pair ||| P.out ||| P.draws ||| P.pgPkt ||| P.pgVin ||| P.pgMsk ||| P.pgCal ||| P.pgSup |||
    P.pgAdc ||| P.pgWin ||| P.pgBal ||| P.pgSpl ||| P.pgAxo ||| P.pgOff) s (State.submitImplicit s kind ws choice target tag).1 :=
    by
  unfold State.submitImplicit; refine .iteFst ?_ ?_; dsimp only; exact .refl ..; split; dsimp only
  exact .comp (.refl ..) (State.implicitFail_only ..); split; dsimp only; split; dsimp only
  exact .comp (.upd (.comp (.eventIf (.refl ..)) (State.arrive_only ..))) (State.takeImplicit_only ..); dsimp only
  exact .upd (.comp (.eventIf (.refl ..)) (State.arrive_only ..))

theorem execImplicitClauseApply_only (s : State) {t : State} (h : execImplicitClauseApply s = .next t) : Only (P.fault ||| P.fades
    ||| P.bal ||| P.link ||| P.pair ||| P.out ||| P.draws ||| P.pgPkt ||| P.pgVin ||| P.pgMsk ||| P.pgCal ||| P.pgSup ||| P.pgAdc
    ||| P.pgWin ||| P.pgBal ||| P.pgSpl ||| P.pgAxo ||| P.pgOff) s t := by
  unfold execImplicitClauseApply at h; replace h := Host.Outcome.next.inj h; subst h; split; refine .ite ?_ ?_; exact .refl ..
  exact .comp (.refl ..) (State.takeImplicit_only ..); exact .refl ..

end Sys2Proof.Machine
end

