-- ==== Sys2Proof/Laws/Footprint/Access.lean ====
section
/-! SUPPORT. What the operations of Access.lean may change. -/

set_option Elab.async false

namespace Sys2Proof.Machine

theorem State.stage_only (s : State) (src : Src) (a : Nat) (v m : Word) : Only (P.cl ||| P.cls) s (State.stage s src a v m) := by
  unfold State.stage; dsimp only; refine .put (.upd ?_); refine .ite ?_ ?_; exact .put (.put (.put (.refl ..)))
  exact .refl ..

theorem State.refuseMode_only (s : State) : Only P.stat s (State.refuseMode s) := by
  unfold State.refuseMode; exact .incStat (.refl ..)

theorem State.modeReq_only (s : State) (src : Src) (tgt : Nat) : Only (P.pstart ||| P.sram ||| P.ecc ||| P.boot ||| P.isl ||| P.cl
    ||| P.vid ||| P.chains ||| P.tiles ||| P.light ||| P.flt ||| P.sio ||| P.skink ||| P.spd ||| P.mode ||| P.stat ||| P.hold |||
    P.clk ||| P.cls ||| P.pgLnk ||| P.pgSpd ||| P.pgCmp ||| P.pgPlc ||| P.pgAsp ||| P.pgPrf ||| P.pgChn ||| P.pgTil ||| P.pgSio
    ||| P.pgCrc) s (State.modeReq s src tgt) := by
  unfold State.modeReq; dsimp only; refine .ite ?_ ?_; exact .comp (.refl ..) (State.refuseMode_only ..); split
  exact .comp (.refl ..) (State.startDark_only ..); exact .comp (.refl ..) (State.startDark_only ..)
  exact .comp (.refl ..) (State.enterHold_only ..); exact .comp (.refl ..) (State.enterHold_only ..)
  exact .comp (.refl ..) (State.startDark_only ..); exact .comp (.refl ..) (State.startDark_only ..)
  exact .comp (.refl ..) (State.enterConfigure_only ..); exact .comp (.refl ..) (State.refuseMode_only ..)

theorem State.softReset_only (s : State) (v : Word) : Only (P.fault ||| P.fades ||| P.adc ||| P.bal ||| P.spl ||| P.link ||| P.spi
    ||| P.pair ||| P.ack ||| P.rst ||| P.sys ||| P.bist ||| P.pnow ||| P.pgPkt ||| P.pgVin ||| P.pgMsk ||| P.pgCal ||| P.pgSup |||
    P.pgAdc ||| P.pgWin ||| P.pgBal ||| P.pgSpl ||| P.pgAxo ||| P.pgOff) s (State.softReset s v) := by
  unfold State.softReset; refine .ite ?_ ?_; exact .refl ..; refine .ite ?_ ?_; refine .ite ?_ ?_; exact .upd (.refl ..)
  exact .comp (.refl ..) (State.startDark_only ..)
  exact .comp (.comp (.refl ..) (State.withdraw_only ..)) (State.doReset_only ..)

theorem State.lnkRetrain_only (s : State) (l : Nat) : Only (P.link ||| P.out ||| P.pgLnk ||| P.pgPkt) s (State.lnkRetrain s l) :=
    by
  unfold State.lnkRetrain; exact .comp (.refl ..) (State.leaveActive_only ..)

theorem State.lnkRestart_only (s : State) (l : Nat) : Only (P.fault ||| P.link ||| P.pgPkt) s (State.lnkRestart s l) := by
  unfold State.lnkRestart; dsimp only; refine .ite ?_ ?_
  exact .comp (.comp (.put (.refl ..) covers_lnk) (State.onLane_only ..)) (State.toDetect_only ..); refine .iteOn ?_ ?_
  exact .put (.refl ..) covers_lnk; exact .comp (.refl ..) (State.toDetect_only ..)

theorem State.lnkCtrl_only (s : State) (l : Nat) (v : Word) : Only (P.fault ||| P.link ||| P.out ||| P.pgPkt) s (State.lnkCtrl s l
    v) := by
  unfold State.lnkCtrl; dsimp only; refine .iteOn ?_ ?_; refine .iteOn ?_ ?_; refine .iteOn ?_ ?_; refine .iteOn ?_ ?_
  refine .ite ?_ ?_
  refine .zeroRegs ?_ (by simp only [List.mem_cons, List.not_mem_nil, or_false, forall_eq_or_imp, forall_eq]; exact ⟨covers_lnk, covers_lnk, covers_lnk, covers_lnk⟩)
  exact .refl ..; exact .refl ..; exact .comp (.refl ..) (State.lnkRetrain_only ..)
  exact .comp (.refl ..) (State.lnkRestart_only ..); exact .comp (.refl ..) (State.readapt_only ..)
  exact .comp (.refl ..) (State.eyeAbort_only ..)

theorem State.chnClear_only (s : State) : Only P.pgChn s (State.chnClear s) := by
  unfold State.chnClear; refine .foldl ?_ ?_; exact .refl ..; intro _ _
  refine .zeroRegs ?_ (by simp only [List.mem_cons, List.not_mem_nil, or_false, forall_eq_or_imp, forall_eq]; exact ⟨covers_chn, covers_chn, covers_chn⟩)
  exact .refl ..

theorem State.logClear_only (s : State) : Only (P.flt ||| P.pgFlt) s (State.logClear s) := by
  unfold State.logClear; dsimp only; refine .upd (.setReg ?_); refine .foldl ?_ ?_; exact .refl ..; intro _ _
  refine .zeroRegs ?_ (by simp only [List.mem_cons, List.not_mem_nil, or_false, forall_eq_or_imp, forall_eq]; exact ⟨covers_arr, covers_arr⟩)
  exact .refl ..

theorem State.onPair_only (s : State) (f : Pair → Pair) : Only P.pair s (State.onPair s f) := by
  unfold State.onPair; exact .upd (.refl ..)

theorem State.loseAligned_only (s : State) : Only (P.pair ||| P.pgAxo) s (State.loseAligned s) := by
  unfold State.loseAligned; exact .comp (.put (.put (.eventIf (.refl ..)))) (State.onPair_only ..)

theorem State.axoCtrl_only (s : State) (v : Word) : Only (P.pair ||| P.pgAxo) s (State.axoCtrl s v) := by
  unfold State.axoCtrl; dsimp only; refine .iteOn ?_ ?_; refine .iteOn ?_ ?_; refine .ite ?_ ?_; exact .upd (.refl ..)
  exact .refl ..; exact .comp (.refl ..) (State.loseAligned_only ..); exact .put (.put (.put (.zeroRegs (.refl ..))))

theorem State.command_only (s : State) (src : Src) (a : Nat) (v : Word) : Only P.write s (State.command s src a v) := by
  unfold State.command; dsimp only; refine .ite ?_ ?_; exact .setReg (.refl ..) covers_page; refine .ite ?_ ?_
  refine .ite ?_ ?_; exact .put (.refl ..) covers_page; exact .refl ..; refine .ite ?_ ?_
  exact .comp (.refl ..) (State.modeReq_only ..); refine .ite ?_ ?_; exact .comp (.refl ..) (State.softReset_only ..)
  refine .ite ?_ ?_; exact .comp (.refl ..) (State.ackKey_only ..); refine .ite ?_ ?_
  exact .put (.put (.put (.put (.refl ..)))); refine .ite ?_ ?_; refine .ite ?_ ?_
  exact .comp (.refl ..) (State.abortWrite_only ..); exact .refl ..; refine .ite ?_ ?_
  exact .comp (.refl ..) (State.lnkCtrl_only ..); refine .ite ?_ ?_; refine .ite ?_ ?_; exact .zeroRegs (.refl ..)
  exact .refl ..; refine .ite ?_ ?_; refine .iteOn ?_ ?_; refine .ite ?_ ?_; exact .put (.put (.zeroRegs (.refl ..)))
  exact .refl ..; exact .put (.refl ..); refine .ite ?_ ?_; refine .ite ?_ ?_; exact .zeroRegs (.refl ..); exact .refl ..
  refine .ite ?_ ?_; refine .iteOn ?_ ?_; refine .ite ?_ ?_; exact .put (.zeroRegs (.refl ..)); exact .refl ..
  exact .zeroRegs (.refl ..); refine .ite ?_ ?_; refine .ite ?_ ?_; exact .zeroRegs (.refl ..); exact .refl ..
  refine .ite ?_ ?_; refine .ite ?_ ?_; exact .setReg (.refl ..); exact .refl ..; refine .ite ?_ ?_; refine .ite ?_ ?_
  exact .zeroRegs (.refl ..); exact .refl ..; refine .ite ?_ ?_; refine .ite ?_ ?_; exact .zeroRegs (.refl ..); exact .refl ..
  refine .ite ?_ ?_; exact .refl ..; refine .ite ?_ ?_; unfold State.timed; dsimp only; refine .ite ?_ ?_; split
  exact .comp (.upd (.comp (.refl ..) (State.arrive_only ..))) (State.fadeGroup_only ..)
  exact .upd (.comp (.refl ..) (State.arrive_only ..)); refine .iteOn ?_ ?_
  exact .comp (.comp (.refl ..) (State.arrive_only ..)) (State.fadeGroup_only ..); exact .upd (.refl ..); refine .ite ?_ ?_
  refine .iteOn ?_ ?_; refine .ite ?_ ?_; exact .put (.setReg (.refl ..)); exact .refl ..
  exact .comp (.refl ..) (State.logClear_only ..); refine .ite ?_ ?_; refine .ite ?_ ?_; exact .put (.zeroRegs (.refl ..))
  exact .refl ..; refine .ite ?_ ?_; refine .ite ?_ ?_; exact .comp (.refl ..) (State.chnClear_only ..); exact .refl ..
  refine .ite ?_ ?_; exact .comp (.refl ..) (State.adcCtrl_only ..); refine .ite ?_ ?_; refine .ite ?_ ?_; refine .foldl ?_ ?_
  exact .refl ..; intro _ _; exact .put (.refl ..) covers_arr; exact .refl ..; refine .ite ?_ ?_; refine .ite ?_ ?_
  exact .setReg (.refl ..); exact .refl ..; refine .ite ?_ ?_; refine .ite ?_ ?_; exact .setReg (.refl ..); exact .refl ..
  refine .ite ?_ ?_; refine .ite ?_ ?_; exact .zeroRegs (.refl ..); exact .refl ..; refine .ite ?_ ?_; refine .iteOn ?_ ?_
  refine .ite ?_ ?_; exact .comp (.refl ..) (State.skinkAbort_only ..); exact .refl ..
  exact .comp (.refl ..) (State.skinkGo_only ..); refine .ite ?_ ?_; refine .ite ?_ ?_; exact .zeroRegs (.refl ..)
  exact .refl ..; refine .ite ?_ ?_; exact .comp (.refl ..) (State.axoCtrl_only ..); split; refine .ite ?_ ?_
  exact .comp (.refl ..) (State.tileGo_only ..); exact .refl ..; exact .refl ..

theorem State.aspWrite_only (s : State) (old : State) (src : Src) (a : Nat) (ctl : Bool) : Only (P.cl ||| P.vid ||| P.fades |||
    P.pair ||| P.pgAsp) s (State.aspWrite s old src a ctl) := by
  unfold State.aspWrite; dsimp only; refine .iteOn ?_ ?_
  exact .comp (.comp (.refl ..) (State.markRows_only ..)) (State.markRows_only ..); refine .iteOff ?_ ?_; refine .ite ?_ ?_
  exact .refl ..; exact .comp (.refl ..) (State.dropGroup_only ..); unfold State.timed; dsimp only; refine .ite ?_ ?_; split
  split; exact .comp (.upd (.comp (.refl ..) (State.arrive_only ..))) (State.retarget_only ..)
  exact .upd (.comp (.refl ..) (State.arrive_only ..)); split
  exact .comp (.upd (.comp (.refl ..) (State.arrive_only ..))) (State.retarget_only ..)
  exact .upd (.comp (.refl ..) (State.arrive_only ..)); refine .iteOn ?_ ?_
  exact .comp (.comp (.refl ..) (State.arrive_only ..)) (State.retarget_only ..); exact .upd (.refl ..)

theorem State.rateWritten_only (s : State) : Only (P.link ||| P.pgLnk) s (State.rateWritten s) := by
  unfold State.rateWritten; dsimp only; split; refine .ite ?_ ?_; exact .refl ..; exact .upd (.put (.refl ..))
  refine .ite ?_ ?_; exact .upd (.put (.refl ..)); exact .refl ..; exact .upd (.refl ..)

theorem State.balWritten_only (s : State) (a : Nat) : Only P.bal s (State.balWritten s a) := by
  unfold State.balWritten; refine .ite ?_ ?_; exact .comp (.refl ..) (State.balStart_only ..)
  exact .comp (.refl ..) (State.balRestart_only ..)

theorem State.afterWrite_only (s : State) (old : State) (src : Src) (a : Nat) (v : Word) : Only (P.fault ||| P.fades ||| P.adc |||
    P.bal ||| P.link ||| P.pair ||| P.draws ||| P.pgPkt ||| P.pgVin ||| P.pgAdc ||| P.pgWin) s (State.afterWrite s old src a v) :=
    by
  unfold State.afterWrite; dsimp only; refine .ite ?_ ?_; refine .ite ?_ ?_; exact .comp (.refl ..) (State.showFrozen_only ..)
  refine .ite ?_ ?_; exact .comp (.refl ..) (State.eyeStart_only ..); refine .ite ?_ ?_
  exact .comp (.put (.refl ..)) (State.rateWritten_only ..); exact .refl ..; refine .ite ?_ ?_; refine .ite ?_ ?_
  exact .comp (.refl ..) (State.swapSealed_only ..); exact .refl ..; refine .ite ?_ ?_
  exact .comp (.refl ..) (State.aspWrite_only ..); refine .ite ?_ ?_; refine .ite ?_ ?_; exact .refl ..
  exact .comp (.refl ..) (State.onAdc_only ..); refine .ite ?_ ?_
  exact .comp (.comp (.refl ..) (State.regRun_only ..)) (State.adcShow_only ..); refine .ite ?_ ?_
  exact .comp (.refl ..) (State.adcShow_only ..); refine .ite ?_ ?_; refine .ite ?_ ?_; exact .refl ..
  exact .comp (.setBit (.refl ..)) (State.setCond_only ..); refine .ite ?_ ?_; refine .ite ?_ ?_; exact .refl ..
  exact .comp (.refl ..) (State.balWritten_only ..); refine .ite ?_ ?_; exact .comp (.refl ..) (State.sioDrive_only ..)
  refine .ite ?_ ?_; exact .comp (.refl ..) (State.sioDrive_only ..); exact .refl ..

theorem State.writeFields_only (s : State) (src : Src) (r : RegSpec) (a : Nat) (v : Word) (t : Touch) (ha : a ≠ 0x48) :
    Only P.write s (s.writeFields src r a v t) := by
  have hc : covers P.write a = true := covers_any ha (by decide)
  have hcrc : ∀ {x}, crcSlot a = some x → a / 0x1000 = 29 := by
    intro x h
    unfold crcSlot pageOf at h
    split at h
    · rename_i hp; exact hp.1
    · cases h
  unfold State.writeFields
  split
  · exact .comp (.refl ..) (State.crcCfg_only ..)
  · exact .comp (.refl ..) (State.crcDin_only ..)
  · exact .comp (.refl ..) (State.crcDin_only ..)
  · exact .comp (.refl ..) (State.crcParam_only _ _ _ _ (hcrc ‹_›))
  · dsimp only
    have h1 {x} (h : Only P.write s x) : Only P.write s (x.command src a v) := .comp h (State.command_only ..)
    have h2 {x : State} (h : Only P.write s x) : Only P.write s (x.loseCfg) := .comp h (State.loseCfg_only ..)
    have h3 {x : State} (h : Only P.write s x) : Only P.write s (x.stage src a v (BitVec.ofNat 32 r.rws)) := .comp h (State.stage_only ..)
    have h4 {x : State} {w : Word} (h : Only P.write s x) : Only P.write s ((x.setReg a w).afterWrite s src a v) :=
      .comp (.setReg h hc) (State.afterWrite_only ..)
    have h5 {w : Word} : Only P.write s { s with cl := { s.cl with winSpi := w } } := .upd (.refl ..)
    have h6 {x : State} {w : Word} (h : Only P.write s x) : Only P.write s (x.setReg a w) := .setReg h hc
    have h7 {x : State} {w : Word} (h : Only P.write s x) : Only P.write s (x.setReg (R.PIRQ_RAW (pageOf a)) w) := .setReg h (covers_raw ..)
    have hu0 : Only P.write s (if t.rw ||| t.rwl = 0 ∨ (a = R.SPD_RXID ∧ s.rxidFixed) then s
        else if a = R.SYS_WINBASE ∧ src = .spi then
          { s with cl := { s.cl with winSpi := BitVec.ofNat 32 (normWord a ((s.held src a &&& ~~~(BitVec.ofNat 32 (r.rw ||| r.rwl))) ||| (v &&& BitVec.ofNat 32 (r.rw ||| r.rwl))).toNat) } }
        else (s.setReg a (BitVec.ofNat 32 (normWord a ((s.held src a &&& ~~~(BitVec.ofNat 32 (r.rw ||| r.rwl))) ||| (v &&& BitVec.ofNat 32 (r.rw ||| r.rwl))).toNat))).afterWrite s src a v) :=
      .ite (.refl ..) (.ite h5 (h4 (.refl ..)))
    generalize (if t.rw ||| t.rwl = 0 ∨ (a = R.SPD_RXID ∧ s.rxidFixed) then s else _) = u0 at hu0 ⊢
    generalize hl : (s.changesSet a _ && _) = l
    have hu1 : Only P.write s (if l = true then u0.loseCfg else u0) := .ite (h2 hu0) hu0
    generalize (if l = true then u0.loseCfg else u0) = u1 at hu1 ⊢
    have hu2 : Only P.write s (if t.rws = 0 then u1 else u1.stage src a v (BitVec.ofNat 32 r.rws)) := .ite hu1 (h3 hu1)
    generalize (if t.rws = 0 then u1 else u1.stage src a v (BitVec.ofNat 32 r.rws)) = u2 at hu2 ⊢
    have hu3 : Only P.write s (if t.w1c = 0 then u2
        else if a % 0x1000 = 0x018 then u2.setReg (R.PIRQ_RAW (pageOf a)) (u2.reg (R.PIRQ_RAW (pageOf a)) &&& ~~~v)
        else u2.setReg a (u2.reg a &&& ~~~(v &&& t.w1c))) := .ite hu2 (.ite (h7 hu2) (h6 hu2))
    exact .ite hu3 (h1 hu3)

theorem State.dropConds_only (s : State) (cls n : Nat) : Only P.fault s (State.dropConds s cls n) := by
  unfold State.dropConds; refine .foldl ?_ ?_; exact .refl ..; intro _ _; exact .comp (.refl ..) (State.setCond_only ..)

theorem State.pageOff_only (s : State) (p : Nat) : Only (P.fault ||| P.adc ||| P.bal ||| P.link ||| P.out ||| P.pgPkt ||| P.pgAdc
    ||| P.pgWin ||| P.pgSpl) s (State.pageOff s p) := by
  unfold State.pageOff; refine .ite ?_ ?_; exact .comp (.refl ..) (State.disableLane_only ..); refine .ite ?_ ?_
  exact .comp (.comp (.refl ..) (State.adcStop_only ..)) (State.adcShow_only ..); refine .ite ?_ ?_
  exact .comp (.setReg (.refl ..)) (State.dropConds_only ..); refine .ite ?_ ?_
  exact .comp (.refl ..) (State.balStart_only ..); refine .ite ?_ ?_; refine .foldl ?_ ?_; exact .refl ..; intro _ _
  exact .setReg (.refl ..) covers_arr2; refine .ite ?_ ?_
  exact .comp (.comp (.refl ..) (State.sioOff_only ..)) (State.sioDrive_only ..); exact .refl ..

theorem State.pageOn_only (s : State) (p : Nat) : Only (P.adc ||| P.pgLnk ||| P.pgAdc) s (State.pageOn s p) := by
  unfold State.pageOn; refine .ite ?_ ?_; exact .comp (.refl ..) (State.laneEnable_only ..); refine .ite ?_ ?_
  exact .comp (.comp (.refl ..) (State.regRun_only ..)) (State.adcShow_only ..); exact .refl ..

theorem State.rateReset_only (s : State) : Only (P.link ||| P.out ||| P.clk ||| P.pgLnk ||| P.pgPkt) s (State.rateReset s) := by
  unfold State.rateReset; dsimp only; refine .ite ?_ ?_; exact .put (.comp (.upd (.refl ..)) (State.startRate_only ..))
  refine .ite ?_ ?_; exact .upd (.put (.upd (.refl ..))); exact .upd (.refl ..)

theorem State.blockReset_only (s : State) (p : Nat) : Only (P.fault ||| P.adc ||| P.bal ||| P.spl ||| P.link ||| P.pair ||| P.out
    ||| P.pgPkt ||| P.pgAdc) s (State.blockReset s p) := by
  unfold State.blockReset; refine .ite ?_ ?_; dsimp only; refine .iteOn ?_ ?_
  exact .comp (.comp (.comp (.refl ..) (State.onLane_only ..)) (State.markDown_only ..)) (State.toDetect_only ..)
  exact .comp (.refl ..) (State.rateReset_only ..); refine .ite ?_ ?_
  exact .comp (.comp (.refl ..) (State.onAdc_only ..)) (State.adcShow_only ..); refine .ite ?_ ?_
  exact .comp (.comp (.upd (.refl ..)) (State.balStart_only ..)) (State.dropConds_only ..); refine .ite ?_ ?_
  exact .comp (.comp (.upd (.refl ..)) (State.dropConds_only ..)) (State.dropConds_only ..); refine .ite ?_ ?_
  exact .comp (.upd (.refl ..)) (State.sioDrive_only ..); refine .ite ?_ ?_; exact .upd (.refl ..); exact .refl ..

theorem State.pageReset_only (s : State) (p : Nat) :
    Only (P.fault ||| P.adc ||| P.bal ||| P.spl ||| P.link ||| P.pair ||| P.out ||| P.ack ||| P.rst ||| P.sys ||| P.bist ||| P.pnow ||| P.pgPkt ||| P.pgVin ||| P.pgMsk ||| P.pgCal ||| P.pgSup ||| P.pgAdc ||| P.pgWin ||| P.pgBal ||| P.pgSpl ||| P.pgAxo ||| P.pgOff)
      s (s.pageReset p) := by
  unfold State.pageReset
  dsimp only
  have h0 := State.pageOff_only s p
  have h1 {c : Clauses} : Only (P.fault ||| P.adc ||| P.bal ||| P.spl ||| P.link ||| P.pair ||| P.out ||| P.ack ||| P.rst ||| P.sys ||| P.bist ||| P.pnow ||| P.pgPkt ||| P.pgVin ||| P.pgMsk ||| P.pgCal ||| P.pgSup ||| P.pgAdc ||| P.pgWin ||| P.pgBal ||| P.pgSpl ||| P.pgAxo ||| P.pgOff)
      s { s.pageOff p with regs := (s.pageOff p).regs.filter (fun (e : Nat × Word) => pageOf e.1 != p), cl := c } := by
    refine .upd (t := { s.pageOff p with regs := (s.pageOff p).regs.filter fun (e : Nat × Word) => pageOf e.1 != p }) ?_
    refine .regs (.mono h0) ?_ (by decide)
    intro a
    have := kvFind_filter (s.pageOff p).regs (fun a => pageOf a != p) a
    simp only [State.reg, this]
    split <;> simp
  exact .ite (.comp (.comp h1 (State.blockReset_only ..)) (State.loseCfg_only ..)) (.comp h1 (State.blockReset_only ..))

theorem State.freeze_only (s : State) (p : Nat) (b : Bool) : Only P.cl s (State.freeze s p b) := by
  unfold State.freeze; dsimp only; exact .upd (.flag (.refl ..) covers_page)

theorem State.perrClear_only (s : State) (p : Nat) : Only P.sys s (State.perrClear s p) := by
  unfold State.perrClear; dsimp only; refine .iteOn ?_ ?_; exact .setReg (.refl ..) covers_page; exact .setReg (.refl ..)

theorem State.pctrlLight_only (s : State) (p : Nat) (v : Word) : Only (P.cl ||| P.sys) s (State.pctrlLight s p v) := by
  unfold State.pctrlLight; dsimp only; refine .iteOff ?_ ?_; refine .ite ?_ ?_
  exact .comp (.refl ..) (State.perrClear_only ..); exact .refl ..; exact .comp (.refl ..) (State.freeze_only ..)

theorem State.writePctrl_only (s : State) (src : Src) (p : Nat) (v : Word) : Only (P.fault ||| P.adc ||| P.bal ||| P.spl |||
    P.link ||| P.pair ||| P.out ||| P.ack ||| P.rst ||| P.sys ||| P.bist ||| P.pnow ||| P.pgPkt ||| P.pgVin ||| P.pgMsk |||
    P.pgCal ||| P.pgSup ||| P.pgAdc ||| P.pgWin ||| P.pgBal ||| P.pgSpl ||| P.pgAxo ||| P.pgOff) s (State.writePctrl s src p v).1
    := by
  unfold State.writePctrl; dsimp only; refine .iteFst ?_ ?_; refine .iteFst ?_ ?_; dsimp only
  exact .comp (.refl ..) (State.perr_only ..); dsimp only; refine .comp ?_ (State.pctrlLight_only ..); refine .ite ?_ ?_
  exact .comp (.refl ..) (State.perr_only ..); exact .refl ..; refine .iteFst ?_ ?_; dsimp only
  exact .comp (.refl ..) (State.perr_only ..); dsimp only; refine .iteOn ?_ ?_; refine .iteOn ?_ ?_
  refine .comp ?_ (State.pctrlLight_only ..); refine .ite ?_ ?_; exact .comp (.refl ..) (State.perr_only ..); exact .refl ..
  refine .iteOn ?_ ?_; refine .ite ?_ ?_; exact .comp (.flag (.refl ..) covers_page) (State.pageOn_only ..)
  exact .comp (.flag (.refl ..) covers_page) (State.pageOff_only ..); exact .comp (.refl ..) (State.loseCfg_only ..)
  exact .comp (.refl ..) (State.pageReset_only ..)

theorem State.writeSame_only (s : State) (src : Src) (a : Nat) : Only (P.pgLnk ||| P.pgCrc) s (State.writeSame s src a) := by
  unfold State.writeSame; refine .ite ?_ ?_; exact .comp (.refl ..) (State.crcClash_only ..); refine .ite ?_ ?_
  exact .put (.refl ..); exact .refl ..

theorem State.writeReg_only (s : State) (src : Src) (a : Nat) (v : Word) : Only P.write s (s.writeReg src a v).1 := by
  unfold State.writeReg
  refine .iteFst (.comp (.refl ..) (State.writePctrl_only ..)) ?_
  split
  · exact .comp (.refl ..) (State.perr_only ..)
  · rename_i r hr
    refine .iteFst (.comp (.refl ..) (State.perr_only ..)) ?_
    by_cases hro : readOnly r a = true
    · rw [if_pos hro]; exact .comp (.refl ..) (State.perr_only ..)
    · rw [if_neg hro]
      dsimp only
      have ha : a ≠ 0x48 := by
        rintro rfl
        have : (regSpec 0x48).all (readOnly · 0x48) = true := by decide
        rw [hr] at this
        exact hro (by simpa using this)
      refine .iteFst (.comp (.refl ..) (State.writeSame_only ..)) (.iteFst (.comp (.refl ..) (State.writeFields_only _ _ _ _ _ _ ha)) ?_)
      exact .eventIf (.comp (.refl ..) (State.perr_only ..))

theorem State.writeWindow_only (s : State) (src : Src) (a n v : Nat) :
    Only (P.fault ||| P.draws ||| P.sys) s (s.writeWindow src a n v).1 := by
  have hr (c : Prop) [Decidable c] (w n req : Nat) :
      Only (P.fault ||| P.draws ||| P.sys) s (if c then s.readRange w n req else s) :=
    .ite (.comp (.refl ..) (State.readRange_only ..)) (.refl ..)
  have key (w st : Nat) (b : Bool) : Only (P.fault ||| P.draws ||| P.sys) s
      (if st = 0 then
        let s := if n = 4 then s.readRange w 4 (winReq src) else s
        let s := s.setLe w n v
        (if b then s.loseCfg else s, 0)
      else
        let s := if st = 9 then s.readRange w n (winReq src) else s
        (s.winErr src w st true, st)).1 := by
    split
    · cases b
      · exact .comp (hr ..) (State.setLe_only ..)
      · exact .comp (.comp (hr ..) (State.setLe_only ..)) (State.loseCfg_only ..)
    · exact .comp (hr ..) (State.winErr_only ..)
  exact key (s.windowAddr src a) (s.windowCheck (s.windowAddr src a) n) (inSet (s.windowAddr src a))

theorem State.writeWord_only (s : State) (src : Src) (a n v : Nat) : Only P.write s (State.writeWord s src a n v).1 := by
  unfold State.writeWord; refine .iteFst ?_ ?_; dsimp only; exact .comp (.refl ..) (State.badAccess_only ..)
  refine .iteFst ?_ ?_; exact .comp (.refl ..) (State.writeReg_only ..); exact .comp (.refl ..) (State.writeWindow_only ..)

theorem execRegisterWrite_only (src : Src) (addr : Nat) (val : Word) (s : State) {t : State} (h : execRegisterWrite src addr val s
    = .next t) : Only P.write s t := by
  unfold execRegisterWrite at h; replace h := Host.Outcome.next.inj h; subst h; refine .ite ?_ ?_
  exact .comp (.refl ..) (State.writeWord_only ..); exact .refl ..

theorem execStagedWrite_only (src : Src) (addr : Nat) (val : Word) (s : State) {t : State} (h : execStagedWrite src addr val s =
    .next t) : Only P.write s t := by
  unfold execStagedWrite at h; replace h := Host.Outcome.next.inj h; subst h; refine .ite ?_ ?_
  exact .comp (.refl ..) (State.writeWord_only ..); exact .refl ..

theorem execWindowWrite_only (src : Src) (addr : Nat) (w64 : Bool) (data : BitVec 64) (s : State) {t : State} (h : execWindowWrite
    src addr w64 data s = .next t) : Only P.write s t := by
  unfold execWindowWrite at h; replace h := Host.Outcome.next.inj h; subst h; refine .ite ?_ ?_; refine .iteFst ?_ ?_
  exact .comp (.refl ..) (State.writeWord_only ..); exact .comp (.refl ..) (State.writeWord_only ..); exact .refl ..

theorem execModereqHold_only (src : Src) (s : State) {t : State} (h : execModereqHold src s = .next t) : Only P.write s t := by
  unfold execModereqHold at h; unfold State.regRow at h; replace h := Host.Outcome.next.inj h; subst h; refine .ite ?_ ?_
  exact .comp (.refl ..) (State.writeReg_only ..); exact .refl ..

theorem execModereqConfigure_only (src : Src) (s : State) {t : State} (h : execModereqConfigure src s = .next t) : Only P.write s
    t := by
  unfold execModereqConfigure at h; unfold State.regRow at h; replace h := Host.Outcome.next.inj h; subst h; refine .ite ?_ ?_
  exact .comp (.refl ..) (State.writeReg_only ..); exact .refl ..

theorem execSoftReset_only (src : Src) (s : State) {t : State} (h : execSoftReset src s = .next t) : Only P.write s t := by
  unfold execSoftReset at h; unfold State.regRow at h; replace h := Host.Outcome.next.inj h; subst h; refine .ite ?_ ?_
  exact .comp (.refl ..) (State.writeReg_only ..); exact .refl ..

theorem execSysAckWrite_only (src : Src) (val : Word) (s : State) {t : State} (h : execSysAckWrite src val s = .next t) : Only
    P.write s t := by
  unfold execSysAckWrite at h; unfold State.regRow at h; replace h := Host.Outcome.next.inj h; subst h; refine .ite ?_ ?_
  exact .comp (.refl ..) (State.writeReg_only ..); exact .refl ..

theorem execPctrlSrst_only (src : Src) (page : Fin 31) (s : State) {t : State} (h : execPctrlSrst src page s = .next t) : Only
    P.write s t := by
  unfold execPctrlSrst at h; unfold State.regRow at h; replace h := Host.Outcome.next.inj h; subst h; refine .ite ?_ ?_
  exact .comp (.refl ..) (State.writeReg_only ..); exact .refl ..

theorem execPctrlFreeze_only (src : Src) (page : Fin 31) (on : Bool) (s : State) {t : State} (h : execPctrlFreeze src page on s =
    .next t) : Only P.write s t := by
  unfold execPctrlFreeze at h; unfold State.regRow at h; replace h := Host.Outcome.next.inj h; subst h; refine .ite ?_ ?_
  exact .comp (.refl ..) (State.writeReg_only ..); exact .refl ..

theorem execPctrlPerrClr_only (src : Src) (page : Fin 31) (s : State) {t : State} (h : execPctrlPerrClr src page s = .next t) :
    Only P.write s t := by
  unfold execPctrlPerrClr at h; unfold State.regRow at h; replace h := Host.Outcome.next.inj h; subst h; refine .ite ?_ ?_
  exact .comp (.refl ..) (State.writeReg_only ..); exact .refl ..

theorem execPirqSet_only (src : Src) (page : Fin 31) (val : Word) (s : State) {t : State} (h : execPirqSet src page val s = .next
    t) : Only P.write s t := by
  unfold execPirqSet at h; unfold State.regRow at h; replace h := Host.Outcome.next.inj h; subst h; refine .ite ?_ ?_
  exact .comp (.refl ..) (State.writeReg_only ..); exact .refl ..

theorem execPirqStatClear_only (src : Src) (page : Fin 31) (val : Word) (s : State) {t : State} (h : execPirqStatClear src page
    val s = .next t) : Only P.write s t := by
  unfold execPirqStatClear at h; unfold State.regRow at h; replace h := Host.Outcome.next.inj h; subst h; refine .ite ?_ ?_
  exact .comp (.refl ..) (State.writeReg_only ..); exact .refl ..

theorem execPageLock_only (src : Src) (page : Fin 31) (s : State) {t : State} (h : execPageLock src page s = .next t) : Only
    P.write s t := by
  unfold execPageLock at h; unfold State.regRow at h; replace h := Host.Outcome.next.inj h; subst h; refine .ite ?_ ?_
  exact .comp (.refl ..) (State.writeReg_only ..); exact .refl ..

theorem execClauseCommit_only (src : Src) (val : Word) (s : State) {t : State} (h : execClauseCommit src val s = .next t) : Only
    P.write s t := by
  unfold execClauseCommit at h; unfold State.regRow at h; replace h := Host.Outcome.next.inj h; subst h; refine .ite ?_ ?_
  exact .comp (.refl ..) (State.writeReg_only ..); exact .refl ..

theorem execClauseAbort_only (src : Src) (s : State) {t : State} (h : execClauseAbort src s = .next t) : Only P.write s t := by
  unfold execClauseAbort at h; unfold State.regRow at h; replace h := Host.Outcome.next.inj h; subst h; refine .ite ?_ ?_
  exact .comp (.refl ..) (State.writeReg_only ..); exact .refl ..

theorem execRateChange_only (src : Src) (val : Word) (s : State) {t : State} (h : execRateChange src val s = .next t) : Only
    P.write s t := by
  unfold execRateChange at h; unfold State.regRow at h; replace h := Host.Outcome.next.inj h; subst h; refine .ite ?_ ?_
  exact .comp (.refl ..) (State.writeReg_only ..); exact .refl ..

theorem execLnkRetrain_only (src : Src) (l : Fin 4) (s : State) {t : State} (h : execLnkRetrain src l s = .next t) : Only P.write
    s t := by
  unfold execLnkRetrain at h; unfold State.regRow at h; replace h := Host.Outcome.next.inj h; subst h; refine .ite ?_ ?_
  exact .comp (.refl ..) (State.writeReg_only ..); exact .refl ..

theorem execLnkRestart_only (src : Src) (l : Fin 4) (s : State) {t : State} (h : execLnkRestart src l s = .next t) : Only P.write
    s t := by
  unfold execLnkRestart at h; unfold State.regRow at h; replace h := Host.Outcome.next.inj h; subst h; refine .ite ?_ ?_
  exact .comp (.refl ..) (State.writeReg_only ..); exact .refl ..

theorem execLnkReadapt_only (src : Src) (l : Fin 4) (s : State) {t : State} (h : execLnkReadapt src l s = .next t) : Only P.write
    s t := by
  unfold execLnkReadapt at h; unfold State.regRow at h; replace h := Host.Outcome.next.inj h; subst h; refine .ite ?_ ?_
  exact .comp (.refl ..) (State.writeReg_only ..); exact .refl ..

theorem execLnkEyeAbort_only (src : Src) (l : Fin 4) (s : State) {t : State} (h : execLnkEyeAbort src l s = .next t) : Only
    P.write s t := by
  unfold execLnkEyeAbort at h; unfold State.regRow at h; replace h := Host.Outcome.next.inj h; subst h; refine .ite ?_ ?_
  exact .comp (.refl ..) (State.writeReg_only ..); exact .refl ..

theorem execLnkClrcnt_only (src : Src) (l : Fin 4) (s : State) {t : State} (h : execLnkClrcnt src l s = .next t) : Only P.write s
    t := by
  unfold execLnkClrcnt at h; unfold State.regRow at h; replace h := Host.Outcome.next.inj h; subst h; refine .ite ?_ ?_
  exact .comp (.refl ..) (State.writeReg_only ..); exact .refl ..

theorem execEyePoint_only (src : Src) (l : Fin 4) (val : Word) (s : State) {t : State} (h : execEyePoint src l val s = .next t) :
    Only P.write s t := by
  unfold execEyePoint at h; unfold State.regRow at h; replace h := Host.Outcome.next.inj h; subst h; refine .ite ?_ ?_
  exact .comp (.refl ..) (State.writeReg_only ..); exact .refl ..

theorem execEyeScan_only (src : Src) (l : Fin 4) (val : Word) (s : State) {t : State} (h : execEyeScan src l val s = .next t) :
    Only P.write s t := by
  unfold execEyeScan at h; unfold State.regRow at h; replace h := Host.Outcome.next.inj h; subst h; refine .ite ?_ ?_
  exact .comp (.refl ..) (State.writeReg_only ..); exact .refl ..

theorem execPktClrcnt_only (src : Src) (s : State) {t : State} (h : execPktClrcnt src s = .next t) : Only P.write s t := by
  unfold execPktClrcnt at h; unfold State.regRow at h; replace h := Host.Outcome.next.inj h; subst h; refine .ite ?_ ?_
  exact .comp (.refl ..) (State.writeReg_only ..); exact .refl ..

theorem execSpdResync_only (src : Src) (s : State) {t : State} (h : execSpdResync src s = .next t) : Only P.write s t := by
  unfold execSpdResync at h; unfold State.regRow at h; replace h := Host.Outcome.next.inj h; subst h; refine .ite ?_ ?_
  exact .comp (.refl ..) (State.writeReg_only ..); exact .refl ..

theorem execSpdClrcnt_only (src : Src) (s : State) {t : State} (h : execSpdClrcnt src s = .next t) : Only P.write s t := by
  unfold execSpdClrcnt at h; unfold State.regRow at h; replace h := Host.Outcome.next.inj h; subst h; refine .ite ?_ ?_
  exact .comp (.refl ..) (State.writeReg_only ..); exact .refl ..

theorem execVinClrcnt_only (src : Src) (s : State) {t : State} (h : execVinClrcnt src s = .next t) : Only P.write s t := by
  unfold execVinClrcnt at h; unfold State.regRow at h; replace h := Host.Outcome.next.inj h; subst h; refine .ite ?_ ?_
  exact .comp (.refl ..) (State.writeReg_only ..); exact .refl ..

theorem execCmpClrcnt_only (src : Src) (s : State) {t : State} (h : execCmpClrcnt src s = .next t) : Only P.write s t := by
  unfold execCmpClrcnt at h; unfold State.regRow at h; replace h := Host.Outcome.next.inj h; subst h; refine .ite ?_ ?_
  exact .comp (.refl ..) (State.writeReg_only ..); exact .refl ..

theorem execCmpCapclr_only (src : Src) (s : State) {t : State} (h : execCmpCapclr src s = .next t) : Only P.write s t := by
  unfold execCmpCapclr at h; unfold State.regRow at h; replace h := Host.Outcome.next.inj h; subst h; refine .ite ?_ ?_
  exact .comp (.refl ..) (State.writeReg_only ..); exact .refl ..

theorem execMskClrcnt_only (src : Src) (s : State) {t : State} (h : execMskClrcnt src s = .next t) : Only P.write s t := by
  unfold execMskClrcnt at h; unfold State.regRow at h; replace h := Host.Outcome.next.inj h; subst h; refine .ite ?_ ?_
  exact .comp (.refl ..) (State.writeReg_only ..); exact .refl ..

theorem execAspCtlWrite_only (src : Src) (a : Fin 160) (val : Word) (s : State) {t : State} (h : execAspCtlWrite src a val s =
    .next t) : Only P.write s t := by
  unfold execAspCtlWrite at h; unfold State.regRow at h; replace h := Host.Outcome.next.inj h; subst h; refine .ite ?_ ?_
  exact .comp (.refl ..) (State.writeReg_only ..); exact .refl ..

theorem execFadeGroupWrite_only (src : Src) (val : Word) (s : State) {t : State} (h : execFadeGroupWrite src val s = .next t) :
    Only P.write s t := by
  unfold execFadeGroupWrite at h; unfold State.regRow at h; replace h := Host.Outcome.next.inj h; subst h; refine .ite ?_ ?_
  exact .comp (.refl ..) (State.writeReg_only ..); exact .refl ..

theorem execCalClrcnt_only (src : Src) (s : State) {t : State} (h : execCalClrcnt src s = .next t) : Only P.write s t := by
  unfold execCalClrcnt at h; unfold State.regRow at h; replace h := Host.Outcome.next.inj h; subst h; refine .ite ?_ ?_
  exact .comp (.refl ..) (State.writeReg_only ..); exact .refl ..

theorem execPlcClrcnt_only (src : Src) (s : State) {t : State} (h : execPlcClrcnt src s = .next t) : Only P.write s t := by
  unfold execPlcClrcnt at h; unfold State.regRow at h; replace h := Host.Outcome.next.inj h; subst h; refine .ite ?_ ?_
  exact .comp (.refl ..) (State.writeReg_only ..); exact .refl ..

theorem execTileRegGo_only (src : Src) (i : Fin 80) (val : Word) (s : State) {t : State} (h : execTileRegGo src i val s = .next t)
    : Only P.write s t := by
  unfold execTileRegGo at h; unfold State.regRow at h; replace h := Host.Outcome.next.inj h; subst h; refine .ite ?_ ?_
  exact .comp (.refl ..) (State.writeReg_only ..); exact .refl ..

theorem execChnClrcnt_only (src : Src) (s : State) {t : State} (h : execChnClrcnt src s = .next t) : Only P.write s t := by
  unfold execChnClrcnt at h; unfold State.regRow at h; replace h := Host.Outcome.next.inj h; subst h; refine .ite ?_ ?_
  exact .comp (.refl ..) (State.writeReg_only ..); exact .refl ..

theorem execSupClrcnt_only (src : Src) (s : State) {t : State} (h : execSupClrcnt src s = .next t) : Only P.write s t := by
  unfold execSupClrcnt at h; unfold State.regRow at h; replace h := Host.Outcome.next.inj h; subst h; refine .ite ?_ ?_
  exact .comp (.refl ..) (State.writeReg_only ..); exact .refl ..

theorem execPrfClrcnt_only (src : Src) (s : State) {t : State} (h : execPrfClrcnt src s = .next t) : Only P.write s t := by
  unfold execPrfClrcnt at h; unfold State.regRow at h; replace h := Host.Outcome.next.inj h; subst h; refine .ite ?_ ?_
  exact .comp (.refl ..) (State.writeReg_only ..); exact .refl ..

theorem execFltClrcnt_only (src : Src) (s : State) {t : State} (h : execFltClrcnt src s = .next t) : Only P.write s t := by
  unfold execFltClrcnt at h; unfold State.regRow at h; replace h := Host.Outcome.next.inj h; subst h; refine .ite ?_ ?_
  exact .comp (.refl ..) (State.writeReg_only ..); exact .refl ..

theorem execFltLogclr_only (src : Src) (s : State) {t : State} (h : execFltLogclr src s = .next t) : Only P.write s t := by
  unfold execFltLogclr at h; unfold State.regRow at h; replace h := Host.Outcome.next.inj h; subst h; refine .ite ?_ ?_
  exact .comp (.refl ..) (State.writeReg_only ..); exact .refl ..

theorem execAdcRstart_only (src : Src) (s : State) {t : State} (h : execAdcRstart src s = .next t) : Only P.write s t := by
  unfold execAdcRstart at h; unfold State.regRow at h; replace h := Host.Outcome.next.inj h; subst h; refine .ite ?_ ?_
  exact .comp (.refl ..) (State.writeReg_only ..); exact .refl ..

theorem execAdcRstop_only (src : Src) (s : State) {t : State} (h : execAdcRstop src s = .next t) : Only P.write s t := by
  unfold execAdcRstop at h; unfold State.regRow at h; replace h := Host.Outcome.next.inj h; subst h; refine .ite ?_ ?_
  exact .comp (.refl ..) (State.writeReg_only ..); exact .refl ..

theorem execAdcIstart_only (src : Src) (s : State) {t : State} (h : execAdcIstart src s = .next t) : Only P.write s t := by
  unfold execAdcIstart at h; unfold State.regRow at h; replace h := Host.Outcome.next.inj h; subst h; refine .ite ?_ ?_
  exact .comp (.refl ..) (State.writeReg_only ..); exact .refl ..

theorem execAdcCalreq_only (src : Src) (s : State) {t : State} (h : execAdcCalreq src s = .next t) : Only P.write s t := by
  unfold execAdcCalreq at h; unfold State.regRow at h; replace h := Host.Outcome.next.inj h; subst h; refine .ite ?_ ?_
  exact .comp (.refl ..) (State.writeReg_only ..); exact .refl ..

theorem execAdcCaparm_only (src : Src) (s : State) {t : State} (h : execAdcCaparm src s = .next t) : Only P.write s t := by
  unfold execAdcCaparm at h; unfold State.regRow at h; replace h := Host.Outcome.next.inj h; subst h; refine .ite ?_ ?_
  exact .comp (.refl ..) (State.writeReg_only ..); exact .refl ..

theorem execAdcCapforce_only (src : Src) (s : State) {t : State} (h : execAdcCapforce src s = .next t) : Only P.write s t := by
  unfold execAdcCapforce at h; unfold State.regRow at h; replace h := Host.Outcome.next.inj h; subst h; refine .ite ?_ ?_
  exact .comp (.refl ..) (State.writeReg_only ..); exact .refl ..

theorem execAdcClrcnt_only (src : Src) (s : State) {t : State} (h : execAdcClrcnt src s = .next t) : Only P.write s t := by
  unfold execAdcClrcnt at h; unfold State.regRow at h; replace h := Host.Outcome.next.inj h; subst h; refine .ite ?_ ?_
  exact .comp (.refl ..) (State.writeReg_only ..); exact .refl ..

theorem execAdcDataRead_only (src : Src) (s : State) {t : State} (h : execAdcDataRead src s = .next t) : Only (P.fault ||| P.draws
    ||| P.sys ||| P.pgAdc) s t := by
  unfold execAdcDataRead at h; replace h := Host.Outcome.next.inj h; subst h; refine .ite ?_ ?_
  exact .comp (.refl ..) (State.readWord_only ..); exact .refl ..

theorem execAdcInjRead_only (src : Src) (k : Fin 4) (s : State) {t : State} (h : execAdcInjRead src k s = .next t) : Only (P.fault
    ||| P.draws ||| P.sys ||| P.pgAdc) s t := by
  unfold execAdcInjRead at h; replace h := Host.Outcome.next.inj h; subst h; refine .ite ?_ ?_
  exact .comp (.refl ..) (State.readWord_only ..); exact .refl ..

theorem execWinClrcnt_only (src : Src) (s : State) {t : State} (h : execWinClrcnt src s = .next t) : Only P.write s t := by
  unfold execWinClrcnt at h; unfold State.regRow at h; replace h := Host.Outcome.next.inj h; subst h; refine .ite ?_ ?_
  exact .comp (.refl ..) (State.writeReg_only ..); exact .refl ..

theorem execBalClrcnt_only (src : Src) (s : State) {t : State} (h : execBalClrcnt src s = .next t) : Only P.write s t := by
  unfold execBalClrcnt at h; unfold State.regRow at h; replace h := Host.Outcome.next.inj h; subst h; refine .ite ?_ ?_
  exact .comp (.refl ..) (State.writeReg_only ..); exact .refl ..

theorem execSplClrcnt_only (src : Src) (s : State) {t : State} (h : execSplClrcnt src s = .next t) : Only P.write s t := by
  unfold execSplClrcnt at h; unfold State.regRow at h; replace h := Host.Outcome.next.inj h; subst h; refine .ite ?_ ?_
  exact .comp (.refl ..) (State.writeReg_only ..); exact .refl ..

theorem execSioClrcnt_only (src : Src) (s : State) {t : State} (h : execSioClrcnt src s = .next t) : Only P.write s t := by
  unfold execSioClrcnt at h; unfold State.regRow at h; replace h := Host.Outcome.next.inj h; subst h; refine .ite ?_ ?_
  exact .comp (.refl ..) (State.writeReg_only ..); exact .refl ..

theorem execCrcLoad_only (src : Src) (ctx : Fin 64) (s : State) {t : State} (h : execCrcLoad src ctx s = .next t) : Only P.write s
    t := by
  unfold execCrcLoad at h; unfold State.regRow at h; replace h := Host.Outcome.next.inj h; subst h; refine .ite ?_ ?_
  exact .comp (.refl ..) (State.writeReg_only ..); exact .refl ..

theorem execCrcValWrite_only (src : Src) (ctx : Fin 64) (val : Word) (s : State) {t : State} (h : execCrcValWrite src ctx val s =
    .next t) : Only P.write s t := by
  unfold execCrcValWrite at h; unfold State.regRow at h; replace h := Host.Outcome.next.inj h; subst h; refine .ite ?_ ?_
  exact .comp (.refl ..) (State.writeReg_only ..); exact .refl ..

theorem execCrcDin8_only (src : Src) (ctx : Fin 64) (val : Word) (s : State) {t : State} (h : execCrcDin8 src ctx val s = .next t)
    : Only P.write s t := by
  unfold execCrcDin8 at h; unfold State.regRow at h; replace h := Host.Outcome.next.inj h; subst h; refine .ite ?_ ?_
  exact .comp (.refl ..) (State.writeReg_only ..); exact .refl ..

theorem execCrcDin32_only (src : Src) (ctx : Fin 64) (val : Word) (s : State) {t : State} (h : execCrcDin32 src ctx val s = .next
    t) : Only P.write s t := by
  unfold execCrcDin32 at h; unfold State.regRow at h; replace h := Host.Outcome.next.inj h; subst h; refine .ite ?_ ?_
  exact .comp (.refl ..) (State.writeReg_only ..); exact .refl ..

theorem execSkinkGo_only (src : Src) (first : BitVec 10) (s : State) {t : State} (h : execSkinkGo src first s = .next t) : Only
    P.write s t := by
  unfold execSkinkGo at h; unfold State.regRow at h; replace h := Host.Outcome.next.inj h; subst h; refine .ite ?_ ?_
  exact .comp (.refl ..) (State.writeReg_only ..); exact .refl ..

theorem execSkinkAbort_only (src : Src) (s : State) {t : State} (h : execSkinkAbort src s = .next t) : Only P.write s t := by
  unfold execSkinkAbort at h; unfold State.regRow at h; replace h := Host.Outcome.next.inj h; subst h; refine .ite ?_ ?_
  exact .comp (.refl ..) (State.writeReg_only ..); exact .refl ..

theorem execCrcClrcnt_only (src : Src) (s : State) {t : State} (h : execCrcClrcnt src s = .next t) : Only P.write s t := by
  unfold execCrcClrcnt at h; unfold State.regRow at h; replace h := Host.Outcome.next.inj h; subst h; refine .ite ?_ ?_
  exact .comp (.refl ..) (State.writeReg_only ..); exact .refl ..

theorem execAxoTakeover_only (src : Src) (s : State) {t : State} (h : execAxoTakeover src s = .next t) : Only P.write s t := by
  unfold execAxoTakeover at h; unfold State.regRow at h; replace h := Host.Outcome.next.inj h; subst h; refine .ite ?_ ?_
  exact .comp (.refl ..) (State.writeReg_only ..); exact .refl ..

theorem execAxoRealign_only (src : Src) (s : State) {t : State} (h : execAxoRealign src s = .next t) : Only P.write s t := by
  unfold execAxoRealign at h; unfold State.regRow at h; replace h := Host.Outcome.next.inj h; subst h; refine .ite ?_ ?_
  exact .comp (.refl ..) (State.writeReg_only ..); exact .refl ..

theorem execAxoClrcnt_only (src : Src) (s : State) {t : State} (h : execAxoClrcnt src s = .next t) : Only P.write s t := by
  unfold execAxoClrcnt at h; unfold State.regRow at h; replace h := Host.Outcome.next.inj h; subst h; refine .ite ?_ ?_
  exact .comp (.refl ..) (State.writeReg_only ..); exact .refl ..

end Sys2Proof.Machine
end

