-- ==== Sys2Proof/Laws/Footprint/SafePdu.lean ====
section
/-! SUPPORT. What the operations of SafePdu.lean may change. -/

set_option Elab.async false

namespace Sys2Proof.Machine

theorem State.onSpd_only (s : State) (f : Spd → Spd) : Only P.spd s (State.onSpd s f) := by
  unfold State.onSpd; exact .upd (.refl ..)

theorem State.beam_only (s : State) : Only (P.fault ||| P.bal ||| P.spl ||| P.sys ||| P.pgSup ||| P.pgSpl ||| P.pgAxo) s
    (State.beam s).1 := by
  unfold State.beam; split; refine .iteFst ?_ ?_; dsimp only; refine .iteFst ?_ ?_; dsimp only
  exact .comp (.comp (.refl ..) (State.evalRole_only ..)) (State.drive_only ..); dsimp only
  exact .comp (.refl ..) (State.evalRole_only ..); dsimp only; exact .refl ..; refine .iteFst ?_ ?_; refine .iteFst ?_ ?_
  dsimp only; exact .refl ..; dsimp only
  exact .upd (.comp (.comp (.comp (.refl ..) (State.passAfresh_only ..)) (State.initOffsets_only ..)) (State.markAll_only ..))
  dsimp only; exact .refl ..; dsimp only; exact .refl ..; dsimp only; exact .refl ..; dsimp only; exact .refl ..

theorem State.confirmItem_only (s : State) (lock : Bool) (ccv : Word) : Only (P.skink ||| P.spd ||| P.pgSpd ||| P.pgCrc) s
    (State.confirmItem s lock ccv).1 := by
  unfold State.confirmItem; refine .iteFst ?_ ?_; dsimp only; exact .refl ..; refine .iteFst ?_ ?_; dsimp only; exact .refl ..
  dsimp only; exact .comp (.comp (.inc (.flag (.put (.setReg (.refl ..))))) (State.onSpd_only ..)) (State.ccvStart_only ..)

theorem State.otpItem_only (s : State) (fb : Bool) (blk : List Byte) : Only (P.spd ||| P.pgSpd) s (State.otpItem s fb blk).1 := by
  unfold State.otpItem; dsimp only; refine .iteFst ?_ ?_; dsimp only; exact .refl ..; refine .iteFst ?_ ?_; dsimp only
  exact .refl ..; refine .iteFst ?_ ?_; dsimp only; exact .refl ..; dsimp only
  exact .comp (.put (.refl ..)) (State.onSpd_only ..)

theorem State.runItem_only (s : State) (i : Item) : Only P.write s (State.runItem s i).1 := by
  unfold State.runItem; split; dsimp only; exact .refl ..; exact .comp (.refl ..) (State.writeWord_only ..)
  exact .comp (.refl ..) (State.beam_only ..); exact .comp (.refl ..) (State.confirmItem_only ..)
  exact .comp (.refl ..) (State.otpItem_only ..); exact .comp (.refl ..) (State.otpItem_only ..)

theorem State.named_only (s : State) (n : Nat) : Only P.pair s (State.named s n) := by
  unfold State.named; exact .upd (.refl ..)

theorem State.runItems_only (s : State) (seq idx : Nat) (l : List Item) : Only P.write s (s.runItems seq idx l) := by
  induction l generalizing s idx with
  | nil => exact .comp (.refl ..) (State.pduResult_only ..)
  | cons i rest ih =>
    unfold State.runItems
    have h : Only P.write s (((s.named (2 ^ 23 + 1 + 2 * seq + 2 ^ 17 * idx)).runItem i).1.named 0) :=
      .comp (.comp (.comp (.refl ..) (State.named_only ..)) (State.runItem_only ..)) (State.named_only ..)
    dsimp only
    generalize ((s.named (2 ^ 23 + 1 + 2 * seq + 2 ^ 17 * idx)).runItem i).1.named 0 = u at h ⊢
    exact .ite h (.ite (.comp h (State.pduResult_only ..)) (.ite (.comp h (State.onSpd_only ..)) (.comp h (ih ..))))

theorem State.itemEnd_only (s : State) (st : Nat) : Only P.write s (State.itemEnd s st) := by
  unfold State.itemEnd; split; exact .refl ..; dsimp only; refine .ite ?_ ?_
  exact .comp (.comp (.refl ..) (State.onSpd_only ..)) (State.pduResult_only ..)
  exact .comp (.comp (.refl ..) (State.onSpd_only ..)) (State.runItems_only ..)

theorem State.pduAccept_only (s : State) (texp : Nat) : Only P.fault s (State.pduAccept s texp) := by
  unfold State.pduAccept; dsimp only
  exact .comp (.comp (.putStat (.put (.refl ..))) (State.setCond_only ..)) (State.onSpd_only ..)

theorem State.takePdu_only (s : State) (b : List Byte) : Only P.write s (State.takePdu s b) := by
  unfold State.takePdu; dsimp only; refine .ite ?_ ?_; unfold State.pduDiscard; exact .event (.inc (.refl ..))
  refine .ite ?_ ?_; unfold State.pduDiscard; exact .event (.inc (.refl ..)); refine .ite ?_ ?_; unfold State.pduDiscard
  exact .event (.inc (.refl ..)); refine .ite ?_ ?_; exact .comp (.event (.put (.put (.refl ..)))) (State.pduAccept_only ..)
  refine .ite ?_ ?_; unfold State.pduDiscard; exact .event (.inc (.refl ..)); refine .ite ?_ ?_
  exact .comp (.comp (.put (.eventIf (.incBy (.refl ..)))) (State.pduAccept_only ..)) (State.runItems_only ..)
  exact .put (.comp (.comp (.put (.eventIf (.incBy (.refl ..)))) (State.pduAccept_only ..)) (State.pduResult_only ..))

theorem State.commLock_only (s : State) : Only P.sys s (State.commLock s) := by
  unfold State.commLock; dsimp only; refine .put ?_; refine .foldl ?_ ?_; exact .refl ..; intro _ _; refine .ite ?_ ?_
  exact .refl ..; exact .put (.put (.refl ..) covers_page) covers_page

theorem State.confirmFail_only (s : State) (reason : Nat) : Only (P.boot ||| P.spd ||| P.stat ||| P.pgSpd) s (State.confirmFail s
    reason) := by
  unfold State.confirmFail; dsimp only
  exact .event (.comp (.put (.putStat (.put (.put (.refl ..))))) (State.cfgFail_only ..))

theorem State.confirmOutcome_only (s : State) (ccv : Nat) : Only (P.boot ||| P.spd ||| P.stat ||| P.sys ||| P.pgSpd) s
    (State.confirmOutcome s ccv) := by
  unfold State.confirmOutcome; dsimp only; refine .ite ?_ ?_; exact .comp (.refl ..) (State.confirmFail_only ..)
  refine .ite ?_ ?_; exact .comp (.refl ..) (State.confirmFail_only ..); refine .ite ?_ ?_
  exact .comp (.refl ..) (State.confirmFail_only ..); refine .ite ?_ ?_; refine .comp ?_ (State.confirmFail_only ..)
  refine .ite ?_ ?_; exact .comp (.refl ..) (State.commLock_only ..); exact .refl ..
  refine .event (.put (.putStat (.put (.put ?_)))); refine .ite ?_ ?_; exact .comp (.refl ..) (State.commLock_only ..)
  exact .refl ..

theorem State.confirmDone_only (s : State) : Only P.write s (State.confirmDone s) := by
  unfold State.confirmDone; dsimp only
  refine .comp (.comp (.comp (.setRegN ?_) (State.onSpd_only ..)) (State.confirmOutcome_only ..)) (State.itemEnd_only ..)
  exact .comp (.comp (.refl ..) (State.ccvRest_only ..)) (State.ccvComplete_only ..)

theorem State.otpDone_only (s : State) (ok : Bool) : Only (P.write ||| P.otp) s (s.otpDone ok) := by
  unfold State.otpDone
  split
  · exact .refl ..
  · dsimp only
    rename_i fb blk _
    have h0 : Only (P.write ||| P.otp) s { s with otp := memPutBytes s.otp (if fb = true then 0x40 else 0x20) blk } :=
      .updMem (.refl ..) (ho := fun h => memWf_memPutBytes h)
    generalize ({ s with otp := _ } : State) = u at h0 ⊢
    refine .ite (.comp (.event ?_) (State.itemEnd_only ..)) (.comp (.event ?_) (State.itemEnd_only ..)) <;>
    exact .comp (.setBit (.flag (.put h0)) ) (State.onSpd_only ..)

theorem execNop_only (s : State) {t : State} (h : execNop s = .next t) : Only P.write s t := by
  unfold execNop at h; replace h := Host.Outcome.next.inj h; subst h; refine .ite ?_ ?_
  exact .comp (.refl ..) (State.runItem_only ..); exact .refl ..

theorem execWrite_only (addr val : Word) (s : State) {t : State} (h : execWrite addr val s = .next t) : Only P.write s t := by
  unfold execWrite at h; replace h := Host.Outcome.next.inj h; subst h; refine .ite ?_ ?_
  exact .comp (.refl ..) (State.runItem_only ..); exact .refl ..

theorem execBeam_only (s : State) {t : State} (h : execBeam s = .next t) : Only P.write s t := by
  unfold execBeam at h; replace h := Host.Outcome.next.inj h; subst h; refine .ite ?_ ?_
  exact .comp (.refl ..) (State.runItem_only ..); exact .refl ..

theorem execConfirm_only (lock : Bool) (ccv : Word) (s : State) {t : State} (h : execConfirm lock ccv s = .next t) : Only P.write
    s t := by
  unfold execConfirm at h; replace h := Host.Outcome.next.inj h; subst h; refine .ite ?_ ?_
  exact .comp (.refl ..) (State.runItem_only ..); exact .refl ..

theorem execOtpcom_only (blk : Vector Byte 32) (s : State) {t : State} (h : execOtpcom blk s = .next t) : Only P.write s t := by
  unfold execOtpcom at h; replace h := Host.Outcome.next.inj h; subst h; refine .ite ?_ ?_
  exact .comp (.refl ..) (State.runItem_only ..); exact .refl ..

theorem execOtpfb_only (blk : Vector Byte 232) (s : State) {t : State} (h : execOtpfb blk s = .next t) : Only P.write s t := by
  unfold execOtpfb at h; replace h := Host.Outcome.next.inj h; subst h; refine .ite ?_ ?_
  exact .comp (.refl ..) (State.runItem_only ..); exact .refl ..

theorem execDeadlineMiss_only (s : State) {t : State} (h : execDeadlineMiss s = .next t) : Only P.fault s t := by
  unfold execDeadlineMiss at h; replace h := Host.Outcome.next.inj h; subst h; refine .ite ?_ ?_; dsimp only
  refine .iteOn ?_ ?_; exact .comp (.event (.inc (.inc (.refl ..)))) (State.onSpd_only ..)
  exact .comp (.refl ..) (State.setCond_only ..); exact .refl ..

theorem State.toHost_only (s : State) (typ : Nat) (body : List Byte) : Only (P.link ||| P.out) s (State.toHost s typ body) := by
  unfold State.toHost; split; exact .comp (.refl ..) (State.transmit_only ..); exact .refl ..

theorem execStatusPduSend_only (s : State) {t : State} (h : execStatusPduSend s = .next t) : Only (P.link ||| P.spd ||| P.out |||
    P.pgSpd) s t := by
  unfold execStatusPduSend at h; replace h := Host.Outcome.next.inj h; subst h; refine .ite ?_ ?_; dsimp only
  exact .comp (.put (.comp (.refl ..) (State.toHost_only ..))) (State.onSpd_only ..); exact .refl ..

theorem execCcvRecheckStart_only (s : State) {t : State} (h : execCcvRecheckStart s = .next t) : Only (P.skink ||| P.pgCrc) s t :=
    by
  unfold execCcvRecheckStart at h; replace h := Host.Outcome.next.inj h; subst h; refine .ite ?_ ?_
  exact .comp (.refl ..) (State.ccvStart_only ..); exact .refl ..

theorem execCcvRecheckDone_only (s : State) {t : State} (h : execCcvRecheckDone s = .next t) : Only (P.fault ||| P.draws) s t :=
    by
  unfold execCcvRecheckDone at h; replace h := Host.Outcome.next.inj h; subst h; refine .ite ?_ ?_; dsimp only
  refine .iteOff ?_ ?_; exact .comp (.refl ..) (State.ccvRest_only ..); refine .iteOff ?_ ?_
  exact .comp (.refl ..) (State.ccvComplete_only ..)
  exact .comp (.comp (.event (.put (.refl ..))) (State.loseCfg_only ..)) (State.raise_only ..); exact .refl ..

end Sys2Proof.Machine
end

