-- ==== Sys2Proof/Laws/Footprint/Packets.lean ====
section
/-! SUPPORT. What the operations of Packets.lean may change. -/

set_option Elab.async false

namespace Sys2Proof.Machine

theorem State.clearBad_only (s : State) (l : Nat) : Only P.link s (State.clearBad s l) := by
  unfold State.clearBad; refine .ite ?_ ?_; exact .comp (.refl ..) (State.onLane_only ..); exact .refl ..

theorem State.pktWhole_only (s : State) (l typ : Nat) (p : Pkt) : Only (P.link ||| P.pgPkt) s (State.pktWhole s l typ p).1 := by
  unfold State.pktWhole; refine .iteFst ?_ ?_; dsimp only; unfold State.pktDiscard
  exact .event (.inc (.comp (.refl ..) (State.clearBad_only ..))); refine .iteFst ?_ ?_; dsimp only; unfold State.pktDiscard
  exact .event (.inc (.comp (.refl ..) (State.clearBad_only ..))); dsimp only; exact .refl ..

theorem State.pktArrives_only (s : State) (l typ lo hi : Nat) (p : Pkt) : Only (P.link ||| P.pgPkt) s (State.pktArrives s l typ lo
    hi p).1 := by
  unfold State.pktArrives; refine .iteFst ?_ ?_; dsimp only; exact .refl ..; split; refine .iteFst ?_ ?_; dsimp only
  exact .ofPair (by assumption) (.comp (.refl ..) (State.pktWhole_only ..)); refine .iteFst ?_ ?_; dsimp only
  exact .ofPair (by assumption) (.comp (.refl ..) (State.pktWhole_only ..)); refine .iteFst ?_ ?_; dsimp only
  unfold State.pktMalf; exact .event (.inc (.ofPair (by assumption) (.comp (.refl ..) (State.pktWhole_only ..)))); dsimp only
  exact .ofPair (by assumption) (.comp (.refl ..) (State.pktWhole_only ..))

theorem State.cpl_only (s : State) (q : Req) (status done : Nat) (data : List Byte) : Only (P.link ||| P.out) s (State.cpl s q
    status done data) := by
  unfold State.cpl; exact .comp (.refl ..) (State.transmit_only ..)

theorem State.readMany_only (s : State) (a n k : Nat) : Only (P.fault ||| P.draws ||| P.sys ||| P.pgAdc) s (s.readMany a n k).1 := by
  induction k generalizing s a with
  | zero => exact .refl ..
  | succ k ih =>
    unfold State.readMany
    have h : Only (P.fault ||| P.draws ||| P.sys ||| P.pgAdc) s (s.readWord .lane a n).1 := .comp (.refl ..) (State.readWord_only ..)
    dsimp only
    exact .iteFst h (.comp h (ih ..))

theorem State.writeMany_only (s : State) (name a n : Nat) (vs : List Nat) : Only P.write s (s.writeMany name a n vs).1 := by
  induction vs generalizing s name a with
  | nil => exact .refl ..
  | cons v vs ih =>
    unfold State.writeMany
    have h : Only P.write s (((s.named name).writeWord .lane a n v).1.named 0) :=
      .comp (.comp (.comp (.refl ..) (State.named_only ..)) (State.writeWord_only ..)) (State.named_only ..)
    dsimp only
    exact .iteFst h (.comp h (ih ..))

theorem State.runRead_only (s : State) (q : Req) : Only (P.fault ||| P.link ||| P.out ||| P.draws ||| P.sys ||| P.pgAdc) s
    (State.runRead s q) := by
  unfold State.runRead; refine .ite ?_ ?_; exact .comp (.refl ..) (State.cpl_only ..); split
  exact .comp (.ofPair (by assumption) (.comp (.refl ..) (State.readMany_only ..))) (State.cpl_only ..)

theorem State.runWrite_only (s : State) (q : Req) : Only P.write s (State.runWrite s q) := by
  unfold State.runWrite; refine .ite ?_ ?_; exact .comp (.refl ..) (State.cpl_only ..); dsimp only
  exact .comp (.comp (.refl ..) (State.writeMany_only ..)) (State.cpl_only ..)

theorem State.runUpdate_only (s : State) (q : Req) (ok : Bool) (kind : Nat) (ws : List (Nat × Word)) (barred : Bool) : Only
    (P.fault ||| P.fades ||| P.bal ||| P.link ||| P.pair ||| P.out ||| P.draws ||| P.pgPkt ||| P.pgVin ||| P.pgMsk ||| P.pgCal |||
    P.pgSup ||| P.pgAdc ||| P.pgWin ||| P.pgBal ||| P.pgSpl ||| P.pgAxo ||| P.pgOff) s (State.runUpdate s q ok kind ws barred) :=
    by
  unfold State.runUpdate; dsimp only; refine .ite ?_ ?_
  exact .comp (.comp (.refl ..) (State.onLink_only ..)) (State.cpl_only ..); refine .ite ?_ ?_
  exact .comp (.comp (.refl ..) (State.onLink_only ..)) (State.cpl_only ..); refine .ite ?_ ?_
  exact .comp (.comp (.refl ..) (State.onLink_only ..)) (State.cpl_only ..)
  exact .comp (.comp (.comp (.refl ..) (State.onLink_only ..)) (State.submitImplicit_only ..)) (State.cpl_only ..)

theorem State.runSymData_only (s : State) (q : Req) : Only (P.sram ||| P.ecc ||| P.link ||| P.out) s (State.runSymData s q) := by
  unfold State.runSymData; dsimp only; refine .ite ?_ ?_
  exact .comp (.comp (.refl ..) (State.onLink_only ..)) (State.cpl_only ..); refine .ite ?_ ?_
  exact .comp (.comp (.refl ..) (State.onLink_only ..)) (State.cpl_only ..)
  exact .comp (.comp (.comp (.refl ..) (State.onLink_only ..)) (State.setBytes_only ..)) (State.cpl_only ..)

theorem State.runReq_only (s : State) (q : Req) : Only P.write s (State.runReq s q) := by
  unfold State.runReq; split; exact .comp (.refl ..) (State.runRead_only ..); exact .comp (.refl ..) (State.runWrite_only ..)
  exact .comp (.refl ..) (State.runUpdate_only ..); refine .ite ?_ ?_; exact .comp (.refl ..) (State.runSymData_only ..)
  dsimp only; exact .comp (.refl ..) (State.runUpdate_only ..); exact .comp (.refl ..) (State.runUpdate_only ..)
  exact .comp (.comp (.refl ..) (State.onLink_only ..)) (State.takePdu_only ..)

theorem State.drainReqs_only (n : Nat) (s : State) : Only P.write s (State.drainReqs n s) := by
  induction n generalizing s with
  | zero => exact .refl ..
  | succ n ih =>
    unfold State.drainReqs
    refine .ite (.refl ..) ?_
    split
    · exact .refl ..
    · exact .comp (.comp (.comp (.refl ..) (State.runReq_only ..)) (State.onLink_only ..)) (ih _)

theorem State.serve_only (s : State) : Only P.write s (State.serve s) := by
  unfold State.serve; exact .comp (.refl ..) (State.drainReqs_only ..)

theorem State.enqueue_only (s : State) (l typ : Nat) (p : Pkt) : Only P.write s (State.enqueue s l typ p) := by
  unfold State.enqueue; dsimp only; refine .comp ?_ (State.serve_only ..); refine .iteOff ?_ ?_
  exact .comp (.refl ..) (State.onLink_only ..); exact .peak (.refl ..)

theorem State.request_only (s : State) (l typ lo hi : Nat) (update : Bool) (p : Pkt) : Only P.write s (State.request s l typ lo hi
    update p) := by
  unfold State.request; split; refine .iteOff ?_ ?_
  exact .ofPair (by assumption) (.comp (.refl ..) (State.pktArrives_only ..)); refine .ite ?_ ?_; unfold State.pktMalf
  exact .event (.inc (.refl ..)); refine .ite ?_ ?_; unfold State.pktOver; exact .event (.inc (.refl ..))
  exact .comp (.refl ..) (State.enqueue_only ..)

theorem execRdreq_only (l : Fin 4) (p : Pkt) (s : State) {t : State} (h : execRdreq l p s = .next t) : Only P.write s t := by
  unfold execRdreq at h; replace h := Host.Outcome.next.inj h; subst h; exact .comp (.refl ..) (State.request_only ..)

theorem execWrreq_only (l : Fin 4) (p : Pkt) (s : State) {t : State} (h : execWrreq l p s = .next t) : Only P.write s t := by
  unfold execWrreq at h; replace h := Host.Outcome.next.inj h; subst h; exact .comp (.refl ..) (State.request_only ..)

theorem execMaskupd_only (l : Fin 4) (p : Pkt) (s : State) {t : State} (h : execMaskupd l p s = .next t) : Only P.write s t := by
  unfold execMaskupd at h; replace h := Host.Outcome.next.inj h; subst h; exact .comp (.refl ..) (State.request_only ..)

theorem execSymupdData_only (l : Fin 4) (p : Pkt) (s : State) {t : State} (h : execSymupdData l p s = .next t) : Only P.write s t
    := by
  unfold execSymupdData at h; replace h := Host.Outcome.next.inj h; subst h; exact .comp (.refl ..) (State.request_only ..)

theorem execSymupdDescriptor_only (l : Fin 4) (p : Pkt) (s : State) {t : State} (h : execSymupdDescriptor l p s = .next t) : Only
    P.write s t := by
  unfold execSymupdDescriptor at h; replace h := Host.Outcome.next.inj h; subst h
  exact .comp (.refl ..) (State.request_only ..)

theorem execAspupd_only (l : Fin 4) (p : Pkt) (s : State) {t : State} (h : execAspupd l p s = .next t) : Only P.write s t := by
  unfold execAspupd at h; replace h := Host.Outcome.next.inj h; subst h; exact .comp (.refl ..) (State.request_only ..)

theorem execSafePdu_only (l : Fin 4) (p : Pkt) (s : State) {t : State} (h : execSafePdu l p s = .next t) : Only P.write s t := by
  unfold execSafePdu at h; replace h := Host.Outcome.next.inj h; subst h; split; refine .iteOff ?_ ?_
  exact .ofPair (by assumption) (.comp (.refl ..) (State.pktArrives_only ..)); refine .ite ?_ ?_; unfold State.pktOver
  exact .event (.inc (.refl ..)); refine .ite ?_ ?_; unfold State.pktMalf
  exact .event (.inc (.comp (.refl ..) (State.onLink_only ..))); exact .comp (.refl ..) (State.enqueue_only ..)

theorem execCcvComputeDone_only (s : State) {t : State} (h : execCcvComputeDone s = .next t) : Only P.write s t := by
  unfold execCcvComputeDone at h; replace h := Host.Outcome.next.inj h; subst h; refine .ite ?_ ?_
  exact .comp (.comp (.refl ..) (State.confirmDone_only ..)) (State.serve_only ..); exact .refl ..

theorem execOtpProgramDone_only (readbackOk : Bool) (s : State) {t : State} (h : execOtpProgramDone readbackOk s = .next t) : Only
    (P.write ||| P.otp) s t := by
  unfold execOtpProgramDone at h; replace h := Host.Outcome.next.inj h; subst h; refine .ite ?_ ?_
  exact .comp (.comp (.refl ..) (State.otpDone_only ..)) (State.serve_only ..); exact .refl ..

theorem execVline_only (l : Fin 4) (p : Pkt) (s : State) {t : State} (h : execVline l p s = .next t) : Only (P.fault ||| P.link
    ||| P.draws ||| P.pgPkt ||| P.pgVin) s t := by
  unfold execVline at h; replace h := Host.Outcome.next.inj h; subst h; split; refine .iteOff ?_ ?_
  exact .ofPair (by assumption) (.comp (.refl ..) (State.pktArrives_only ..)); refine .ite ?_ ?_
  refine .comp ?_ (State.takeVideo_only ..); unfold State.pktOver; exact .event (.inc (.refl ..)); refine .ite ?_ ?_
  exact .comp (.refl ..) (State.takeVideo_only ..); refine .comp ?_ (State.takeVideo_only ..); unfold State.pktMalf
  exact .event (.inc (.refl ..))

theorem execFend_only (l : Fin 4) (p : Pkt) (s : State) {t : State} (h : execFend l p s = .next t) : Only (P.fault ||| P.link |||
    P.draws ||| P.pgPkt ||| P.pgVin) s t := by
  unfold execFend at h; replace h := Host.Outcome.next.inj h; subst h; split; refine .iteOff ?_ ?_
  exact .ofPair (by assumption) (.comp (.refl ..) (State.pktArrives_only ..)); refine .ite ?_ ?_
  refine .comp ?_ (State.takeVideo_only ..); unfold State.pktOver; exact .event (.inc (.refl ..)); refine .ite ?_ ?_
  exact .comp (.refl ..) (State.takeVideo_only ..); unfold State.pktMalf
  exact .event (.inc (.comp (.refl ..) (State.onLink_only ..)))

theorem execReturnPacketReceive_only (l : Fin 4) (typ : Byte) (p : Pkt) (s : State) {t : State} (h : execReturnPacketReceive l typ
    p s = .next t) : Only (P.link ||| P.out ||| P.pgPkt) s t := by
  unfold execReturnPacketReceive at h; replace h := Host.Outcome.next.inj h; subst h; refine .ite ?_ ?_; exact .refl ..
  dsimp only; refine .ite ?_ ?_; refine .ite ?_ ?_; exact .inc (.comp (.refl ..) (State.clearBad_only ..)); split
  refine .ite ?_ ?_; exact .comp (.refl ..) (State.sendPacket_only ..); refine .ite ?_ ?_; exact .event (.inc (.refl ..))
  exact .comp (.refl ..) (State.onLink_only ..); exact .event (.inc (.refl ..)); refine .iteOn ?_ ?_
  exact .comp (.refl ..) (State.pktWhole_only ..); unfold State.pktMalf; exact .event (.inc (.refl ..))

theorem execFcSend_only (s : State) {t : State} (h : execFcSend s = .next t) : Only (P.link ||| P.out) s t := by
  unfold execFcSend at h; replace h := Host.Outcome.next.inj h; subst h; refine .ite ?_ ?_; exact .refl ..; dsimp only
  refine .foldl ?_ ?_; exact .refl ..; intro _ _; refine .ite ?_ ?_; exact .comp (.refl ..) (State.transmit_only ..)
  refine .ite ?_ ?_; refine .comp ?_ (State.transmit_only ..); refine .foldl ?_ ?_; exact .refl ..; intro _ _
  exact .comp (.refl ..) (State.onLane_only ..); exact .refl ..

theorem State.irqmsg_only (s : State) : Only (P.link ||| P.out ||| P.pgPkt) s (State.irqmsg s) := by
  unfold State.irqmsg; dsimp only; exact .comp (.comp (.put (.refl ..)) (State.toHost_only ..)) (State.onLink_only ..)

theorem execIrqmsgSend_only (s : State) {t : State} (h : execIrqmsgSend s = .next t) : Only (P.link ||| P.out ||| P.pgPkt) s t :=
    by
  unfold execIrqmsgSend at h; replace h := Host.Outcome.next.inj h; subst h; refine .ite ?_ ?_
  exact .comp (.refl ..) (State.irqmsg_only ..); exact .refl ..

theorem execIrqmsgRepeat_only (s : State) {t : State} (h : execIrqmsgRepeat s = .next t) : Only (P.link ||| P.out ||| P.pgPkt) s t
    := by
  unfold execIrqmsgRepeat at h; replace h := Host.Outcome.next.inj h; subst h; refine .ite ?_ ?_
  exact .comp (.refl ..) (State.irqmsg_only ..); exact .refl ..

theorem State.wireEnd_only (s : State) (low : Nat) (eop : Bool) : Only (P.link ||| P.pgPkt) s (State.wireEnd s low eop) := by
  unfold State.wireEnd; dsimp only; refine .ite ?_ ?_; exact .refl ..; refine .ite ?_ ?_; unfold State.pktDiscard
  exact .event (.inc (.comp (.refl ..) (State.clearBad_only ..))); refine .ite ?_ ?_; unfold State.pktDiscard
  exact .event (.inc (.comp (.refl ..) (State.clearBad_only ..))); refine .ite ?_ ?_; unfold State.pktMalf
  exact .event (.inc (.refl ..)); exact .refl ..

theorem State.rxSym_only (s : State) (l low : Nat) (y : Sym) : Only (P.link ||| P.pgLnk ||| P.pgPkt) s (State.rxSym s l low y).1
    := by
  unfold State.rxSym; dsimp only; refine .iteFst ?_ ?_; refine .iteFst ?_ ?_; dsimp only
  refine .comp (.comp ?_ (State.onLane_only ..)) (State.onLane_only ..); refine .ite ?_ ?_
  exact .comp (.refl ..) (State.onLane_only ..); exact .refl ..; refine .iteFst ?_ ?_; dsimp only; refine .iteOn ?_ ?_
  refine .comp (.comp (.comp ?_ (State.onLane_only ..)) (State.wireEnd_only ..)) (State.onLane_only ..); refine .ite ?_ ?_
  exact .comp (.refl ..) (State.onLane_only ..); exact .refl ..; exact .inc (.refl ..); dsimp only
  refine .comp ?_ (State.onLane_only ..); refine .ite ?_ ?_; exact .comp (.refl ..) (State.onLane_only ..); exact .refl ..
  refine .iteFst ?_ ?_; dsimp only; refine .comp (.comp ?_ (State.onLane_only ..)) (State.onLane_only ..); refine .ite ?_ ?_
  exact .comp (.refl ..) (State.onLane_only ..); exact .refl ..; dsimp only; refine .comp ?_ (State.onLane_only ..)
  refine .ite ?_ ?_; exact .comp (.refl ..) (State.onLane_only ..); exact .refl ..

theorem State.forwardStart_only (s : State) (low : Nat) : Only (P.link ||| P.pgLnk) s (State.forwardStart s low) := by
  unfold State.forwardStart; dsimp only; refine .ite ?_ ?_; exact .refl ..; refine .ite ?_ ?_
  exact .comp (.refl ..) (State.onLane_only ..); exact .event (.inc (.refl ..))

theorem State.straySym_only (s : State) (l low : Nat) (y : Sym) : Only P.link s (State.straySym s l low y) := by
  unfold State.straySym; exact .comp (.refl ..) (State.onLane_only ..)

theorem State.rxWord_only (s : State) (l : Nat) (w : List Sym) : Only (P.link ||| P.out ||| P.pgLnk ||| P.pgPkt) s (State.rxWord s
    l w) := by
  unfold State.rxWord; dsimp only; refine .ite ?_ ?_; refine .comp ?_ (State.onLane_only ..); refine .foldl ?_ ?_
  exact .refl ..; intro _ _; exact .comp (.refl ..) (State.straySym_only ..); refine .iteOn ?_ ?_; refine .iteOn ?_ ?_
  refine .foldlFst ?_ ?_; dsimp only; exact .refl ..; intro _ _; dsimp only; exact .comp (.refl ..) (State.rxSym_only ..)
  exact .comp (.refl ..) (State.forwardStart_only ..); refine .iteOff ?_ ?_; exact .comp (.refl ..) (State.sendWord_only ..)
  exact .comp (.refl ..) (State.onLane_only ..)

theorem execLaneWordReceive_only (l : Fin 4) (w : Vector (BitVec 10) 4) (s : State) {t : State} (h : execLaneWordReceive l w s =
    .next t) : Only (P.link ||| P.out ||| P.pgLnk ||| P.pgPkt) s t := by
  unfold execLaneWordReceive at h; replace h := Host.Outcome.next.inj h; subst h; refine .ite ?_ ?_; split; dsimp only
  refine .ite ?_ ?_; refine .comp ?_ (State.rxWord_only ..); refine .ite ?_ ?_
  exact .comp (.comp (.refl ..) (State.onLane_only ..)) (State.badWord_only ..)
  exact .comp (.comp (.refl ..) (State.onLane_only ..)) (State.onLane_only ..); refine .comp ?_ (State.onLane_only ..)
  refine .ite ?_ ?_; exact .comp (.comp (.refl ..) (State.onLane_only ..)) (State.badWord_only ..)
  exact .comp (.comp (.refl ..) (State.onLane_only ..)) (State.onLane_only ..); exact .refl ..

end Sys2Proof.Machine
end

