-- ==== Sys2Proof/Laws/Footprint/Spi.lean ====
section
/-! SUPPORT. What the operations of Spi.lean may change. -/

set_option Elab.async false

namespace Sys2Proof.Machine

theorem State.onSpi_only (s : State) (f : Spi → Spi) : Only P.spi s (State.onSpi s f) := by
  unfold State.onSpi; exact .upd (.refl ..)

theorem execSpiFrameStart_only (s : State) {t : State} (h : execSpiFrameStart s = .next t) : Only P.spi s t := by
  unfold execSpiFrameStart at h; replace h := Host.Outcome.next.inj h; subst h; refine .ite ?_ ?_; exact .refl ..; split
  exact .comp (.refl ..) (State.onSpi_only ..); split; exact .comp (.refl ..) (State.onSpi_only ..)
  exact .comp (.refl ..) (State.onSpi_only ..)

theorem State.spiDone_only (s : State) (a : SpiAcc) : Only P.spi s (State.spiDone s a) := by
  unfold State.spiDone; exact .comp (.refl ..) (State.onSpi_only ..)

theorem execSpiFrameEnd_only (cycles : Nat) (mosi : BitVec 64) (s : State) {t : State} (h : execSpiFrameEnd cycles mosi s = .next
    t) : Only (P.spi ||| P.pgPkt) s t := by
  unfold execSpiFrameEnd at h; replace h := Host.Outcome.next.inj h; subst h; refine .ite ?_ ?_; exact .refl ..; dsimp only
  refine .ite ?_ ?_; exact .comp (.event (.inc (.comp (.refl ..) (State.onSpi_only ..)))) (State.spiDone_only ..)
  refine .iteOff ?_ ?_; exact .comp (.refl ..) (State.onSpi_only ..); refine .ite ?_ ?_
  exact .comp (.inc (.refl ..)) (State.spiDone_only ..); exact .comp (.refl ..) (State.onSpi_only ..)

theorem execSpiNop_only (s : State) {t : State} (h : execSpiNop s = .next t) : Only (P.spi ||| P.pgPkt) s t := by
  unfold execSpiNop at h; replace h := Host.Outcome.next.inj h; subst h; unfold State.spiRun; split; refine .ite ?_ ?_; split
  refine .iteOn ?_ ?_; refine .ofPair (by assumption) ?_; dsimp only; exact .comp (.inc (.refl ..)) (State.onSpi_only ..)
  exact .comp (.refl ..) (State.onSpi_only ..); exact .refl ..; exact .refl ..

theorem execSpiRead_only (s : State) {t : State} (h : execSpiRead s = .next t) : Only (P.fault ||| P.spi ||| P.draws ||| P.sys |||
    P.pgPkt ||| P.pgAdc) s t := by
  unfold execSpiRead at h; replace h := Host.Outcome.next.inj h; subst h; unfold State.spiRun; split; refine .ite ?_ ?_; split
  refine .iteOn ?_ ?_; refine .ofPair (by assumption) ?_; dsimp only
  exact .comp (.comp (.inc (.refl ..)) (State.onSpi_only ..)) (State.readWord_only ..)
  exact .comp (.refl ..) (State.onSpi_only ..); exact .refl ..; exact .refl ..

theorem execSpiWrite_only (s : State) {t : State} (h : execSpiWrite s = .next t) : Only P.write s t := by
  unfold execSpiWrite at h; replace h := Host.Outcome.next.inj h; subst h; unfold State.spiRun; split; refine .ite ?_ ?_
  split; refine .iteOn ?_ ?_; refine .ofPair (by assumption) ?_; dsimp only
  exact .comp (.comp (.inc (.refl ..)) (State.onSpi_only ..)) (State.writeWord_only ..)
  exact .comp (.refl ..) (State.onSpi_only ..); exact .refl ..; exact .refl ..

theorem execSpiAccessComplete_only (s : State) {t : State} (h : execSpiAccessComplete s = .next t) : Only P.spi s t := by
  unfold execSpiAccessComplete at h; replace h := Host.Outcome.next.inj h; subst h; split
  exact .comp (.comp (.refl ..) (State.onSpi_only ..)) (State.spiDone_only ..); exact .refl ..

end Sys2Proof.Machine
end

