-- ==== Sys2Proof/Laws/Footprint/PairSend.lean ====
section
/-! SUPPORT. What the operations of PairSend.lean may change. -/

set_option Elab.async false

namespace Sys2Proof.Machine

theorem State.diverge_only (s : State) (what chain pos row : Nat) : Only (P.fault ||| P.pgAxo) s (State.diverge s what chain pos
    row) := by
  unfold State.diverge; dsimp only; refine .comp (.event (.inc ?_)) (State.raise_only ..); refine .ite ?_ ?_; exact .refl ..
  exact .put (.put (.put (.put (.put (.refl ..)))))

theorem State.compareIf_only (s : State) (ok : Bool) (what chain pos row : Nat) : Only (P.fault ||| P.pgAxo) s (State.compareIf s
    ok what chain pos row) := by
  unfold State.compareIf; refine .ite ?_ ?_; exact .comp (.refl ..) (State.diverge_only ..); exact .refl ..

theorem State.showPartner_only (s : State) : Only (P.fault ||| P.pgAxo) s (State.showPartner s) := by
  unfold State.showPartner; dsimp only; exact .comp (.flag (.flag (.eventIf (.refl ..)))) (State.setCond_only ..)

theorem State.readChunk_only (s : State) (blk off n : Nat) : Only (P.fault ||| P.draws ||| P.pgSup) s (State.readChunk s blk off
    n) := by
  unfold State.readChunk; refine .ite ?_ ?_; exact .refl ..; dsimp only; refine .iteOff ?_ ?_; refine .ite ?_ ?_
  exact .refl ..; exact .comp (.refl ..) (State.restore_only ..); exact .comp (.refl ..) (State.readEntries_only ..)

theorem State.lists_only (s : State) : Only (P.fault ||| P.pair ||| P.draws ||| P.pgSup ||| P.pgAxo) s (State.lists s).1 := by
  unfold State.lists; dsimp only; refine .comp ?_ (State.onPair_only ..); refine .iteOn ?_ ?_
  exact .comp (.refl ..) (State.readChunk_only ..); exact .inc (.put (.refl ..))

theorem State.sendPair_only (s : State) (l : Nat) (body : List Byte) : Only (P.link ||| P.out) s (State.sendPair s l body) := by
  unfold State.sendPair; exact .comp (.refl ..) (State.transmit_only ..)

theorem State.pairSend_only (s old : State) (w : StartDone) : Only (P.fault ||| P.link ||| P.pair ||| P.out ||| P.draws |||
    P.pgSup ||| P.pgAxo) s (State.pairSend s old w) := by
  unfold State.pairSend; dsimp only; refine .comp ?_ (State.onPair_only ..); split; exact .refl ..; refine .ite ?_ ?_
  exact .refl ..; refine .ite ?_ ?_
  refine .comp (.comp (.comp ?_ (State.lists_only ..)) (State.sendPair_only ..)) (State.sendPair_only ..)
  exact .comp (.refl ..) (State.onPair_only ..)
  exact .comp (.comp (.refl ..) (State.onPair_only ..)) (State.sendPair_only ..)

end Sys2Proof.Machine
end

