-- ==== Sys2Proof/Laws/Footprint/Period.lean ====
section
/-! SUPPORT. What the operations of Period.lean may change. -/

set_option Elab.async false

namespace Sys2Proof.Machine

theorem State.nextPeriod_only (s : State) : Only (P.now ||| P.pstart ||| P.vid ||| P.pair ||| P.pnow ||| P.pgPlc ||| P.pgPrf) s
    (State.nextPeriod s) := by
  unfold State.nextPeriod; dsimp only
  exact .comp (.comp (.upd (.setRegN (.refl ..))) (State.onPair_only ..)) (State.showTiming_only ..)

theorem State.latchApplies_only (s : State) (c : Nat) (frame : Bool) : Only (P.chains ||| P.pgChn) s (State.latchApplies s c
    frame) := by
  unfold State.latchApplies; dsimp only; split; exact .refl ..
  exact .flag (.comp (.comp (.refl ..) (State.onChain_only ..)) (State.queueReact_only ..)) covers_chn

theorem State.latchesApply_only (s : State) : Only (P.chains ||| P.pgChn) s (State.latchesApply s) := by
  unfold State.latchesApply; refine .foldl ?_ ?_; exact .refl ..; intro _ _; dsimp only; refine .iteOn ?_ ?_
  refine .ite ?_ ?_; exact .comp (.refl ..) (State.latchApplies_only ..); exact .refl ..
  exact .comp (.refl ..) (State.latchApplies_only ..)

theorem State.offsetsInForce_only (s : State) : Only (P.tiles ||| P.pgPlc) s (State.offsetsInForce s) := by
  unfold State.offsetsInForce; dsimp only; refine .iteOff ?_ ?_; refine .setRegN ?_; refine .foldl ?_ ?_
  exact .upd (.refl ..); intro _ _; exact .setRegN (.refl ..) covers_arr; exact .event (.incBy (.refl ..))

theorem State.switchSettings_only (s : State) (fb : Bool) : Only (P.chains ||| P.light ||| P.pgChn) s (State.switchSettings s fb)
    := by
  unfold State.switchSettings; dsimp only; refine .comp ?_ (State.queueFrame_only ..); refine .foldl ?_ ?_
  exact .upd (.refl ..); intro _ _; refine .ite ?_ ?_; exact .comp (.refl ..) (State.onChain_only ..)
  exact .comp (.refl ..) (State.chainStart_only ..)

theorem State.maskInForce_only (s : State) (gen : Nat) (m : List Word) : Only (P.vid ||| P.pgMsk) s (State.maskInForce s gen m) :=
    by
  unfold State.maskInForce; dsimp only; refine .iteOn ?_ ?_; exact .comp (.put (.refl ..)) (State.onVid_only ..)
  exact .event (.inc (.refl ..))

theorem State.maskComes_only (s : State) (a : Option Nat) (gen : Nat) (m : List Word) : Only (P.vid ||| P.pgMsk) s
    (State.maskComes s a gen m) := by
  unfold State.maskComes; dsimp only; refine .ite ?_ ?_; refine .comp ?_ (State.onVid_only ..); refine .ite ?_ ?_
  exact .event (.inc (.comp (.refl ..) (State.maskInForce_only ..))); exact .comp (.refl ..) (State.maskInForce_only ..)
  refine .ite ?_ ?_; exact .event (.inc (.comp (.refl ..) (State.maskInForce_only ..)))
  exact .comp (.refl ..) (State.maskInForce_only ..)

theorem State.operateBegins_only (s : State) : Only (P.fault ||| P.bal ||| P.pgMsk) s (State.operateBegins s) := by
  unfold State.operateBegins; split; dsimp only
  refine .comp (.comp (.comp ?_ (State.showOff_only ..)) (State.evalPolicies_only ..)) (State.retakeFallback_only ..)
  refine .comp (.upd (.comp (.comp ?_ (State.clearFbInput_only ..)) (State.maskComes_only ..))) (State.queueUrgent_only ..)
  exact .comp (.setMode (.refl ..)) (State.balStart_only ..)

theorem State.frameSettings_only (s : State) (kind : FrameKind) : Only (P.fault ||| P.bal ||| P.pgMsk) s (State.frameSettings s
    kind) := by
  unfold State.frameSettings; split; refine .ite ?_ ?_; exact .refl ..; dsimp only
  exact .upd (.comp (.refl ..) (State.switchSettings_only ..)); dsimp only; refine .ite ?_ ?_; refine .ite ?_ ?_
  refine .comp ?_ (State.operateBegins_only ..); refine .ite ?_ ?_; exact .comp (.refl ..) (State.switchSettings_only ..)
  exact .refl ..; refine .upd ?_; refine .ite ?_ ?_; exact .comp (.refl ..) (State.switchSettings_only ..); exact .refl ..
  refine .iteOn ?_ ?_; refine .ite ?_ ?_; exact .comp (.refl ..) (State.switchSettings_only ..); exact .refl ..
  exact .comp (.refl ..) (State.maskComes_only ..); exact .refl ..

theorem State.frameInForce_only (s : State) (slot : Nat) (kind : FrameKind) : Only (P.fault ||| P.bal ||| P.pgMsk) s
    (State.frameInForce s slot kind) := by
  unfold State.frameInForce; dsimp only; refine .comp ?_ (State.offsetsInForce_only ..); refine .iteOn ?_ ?_
  refine .comp ?_ (State.frameSettings_only ..); refine .foldl ?_ ?_; exact .upd (.put (.refl ..)); intro _ _
  refine .ite ?_ ?_; exact .comp (.refl ..) (State.onChain_only ..); exact .refl ..
  exact .comp (.refl ..) (State.bringUrgent_only ..)

theorem State.clausePeriod_only (s : State) : Only (P.fault ||| P.fades ||| P.bal ||| P.link ||| P.pair ||| P.out ||| P.draws |||
    P.pgPkt ||| P.pgVin ||| P.pgMsk ||| P.pgCal ||| P.pgSup ||| P.pgAdc ||| P.pgWin ||| P.pgBal ||| P.pgSpl ||| P.pgAxo |||
    P.pgOff) s (State.clausePeriod s).1 := by
  unfold State.clausePeriod; refine .iteFst ?_ ?_; dsimp only; exact .refl ..; dsimp only; refine .foldlFst ?_ ?_; dsimp only
  refine .ite ?_ ?_; exact .comp (.refl ..) (State.applyClause_only ..); exact .refl ..; intro _ _; dsimp only
  exact .comp (.refl ..) (State.takeImplicit_only ..)

theorem State.offInForce_only (s : State) : Only P.light s (State.offInForce s) := by
  unfold State.offInForce; split; exact .upd (.refl ..); exact .refl ..

theorem State.urgentInForce_only (s : State) : Only (P.vid ||| P.light ||| P.pgMsk) s (State.urgentInForce s) := by
  unfold State.urgentInForce; dsimp only; split; exact .comp (.refl ..) (State.offInForce_only ..); refine .iteOff ?_ ?_
  exact .upd (.comp (.refl ..) (State.offInForce_only ..)); exact .comp (.refl ..) (State.maskComes_only ..)

theorem State.writeMaskHist_only (s : State) : Only (P.sram ||| P.ecc) s (State.writeMaskHist s) := by
  unfold State.writeMaskHist; dsimp only; exact .comp (.refl ..) (State.setBytes_only ..)

theorem State.closeProofs_only (s : State) : Only P.fault s (State.closeProofs s) := by
  unfold State.closeProofs; refine .foldl ?_ ?_; exact .refl ..; intro _ _; dsimp only; refine .foldl ?_ ?_
  refine .foldl ?_ ?_; exact .refl ..; intro _ _
  exact .comp (.comp (.refl ..) (State.unexpect_only ..)) (State.abandonProof_only ..); intro _ _; refine .ite ?_ ?_
  exact .comp (.comp (.refl ..) (State.onChain_only ..)) (State.proofDriven_only ..)
  exact .comp (.comp (.refl ..) (State.onChain_only ..)) (State.abandonProof_only ..)

theorem State.record_only (s : State) (own : List Nat) : Only P.light s (State.record s own) := by
  unfold State.record; dsimp only; refine .ite ?_ ?_; exact .upd (.refl ..); exact .upd (.refl ..)

theorem State.heartbeat_only (s : State) : Only P.isl s (State.heartbeat s) := by
  unfold State.heartbeat; dsimp only; exact .upd (.refl ..)

theorem State.lockPeriod_only (s : State) : Only P.fault s (State.lockPeriod s) := by
  unfold State.lockPeriod; refine .foldl ?_ ?_; exact .refl ..; intro _ _; split; refine .ite ?_ ?_
  exact .comp (.refl ..) (State.chainLoop_only ..); exact .refl ..; exact .refl ..

theorem State.ackApply_only (s : State) : Only (P.fault ||| P.pair ||| P.draws ||| P.pgSup ||| P.pgAxo) s (State.ackApply s) := by
  unfold State.ackApply; dsimp only; refine .comp ?_ (State.fltAck_only ..); refine .iteOn ?_ ?_
  exact .comp (.refl ..) (State.sioAck_only ..); exact .comp (.refl ..) (State.ackPixels_only ..)

theorem State.evalFades_only (s : State) : Only (P.fault ||| P.draws) s (State.evalFades s) := by
  unfold State.evalFades; refine .ite ?_ ?_; refine .foldl ?_ ?_; exact .comp (.refl ..) (State.onVid_only ..); intro _ _
  exact .comp (.refl ..) (State.refade_only ..); exact .refl ..

theorem State.fadePeriod_only (s : State) : Only (P.fault ||| P.fades ||| P.draws) s (State.fadePeriod s) := by
  unfold State.fadePeriod; dsimp only; refine .iteOff ?_ ?_; refine .foldl ?_ ?_; exact .refl ..; intro _ _
  exact .comp (.refl ..) (State.settleFade_only ..); refine .comp ?_ (State.evalFades_only ..); refine .foldl ?_ ?_
  exact .refl ..; intro _ _; exact .comp (.refl ..) (State.groupChange_only ..)

theorem State.sendMarker_only (s : State) (c : Nat) : Only (P.chains ||| P.out ||| P.pgChn) s (State.sendMarker s c) := by
  unfold State.sendMarker; refine .ite ?_ ?_; dsimp only; refine .iteOff ?_ ?_
  exact .comp (.comp (.refl ..) (State.load_only ..)) (State.emit_only ..)
  exact .comp (.comp (.refl ..) (State.onChain_only ..)) (State.readIds_only ..); exact .refl ..

theorem State.chainEnd_only (s : State) (c : Nat) : Only (P.chains ||| P.pgChn ||| P.pgTil) s (State.chainEnd s c) := by
  unfold State.chainEnd; dsimp only; split; refine .iteOn ?_ ?_
  exact .comp (.peak (.put (.refl ..) covers_chn) covers_chn) (State.onChain_only ..)
  exact .comp (.refl ..) (State.chainOff_only ..)
  exact .comp (.peak (.put (.refl ..) covers_chn) covers_chn) (State.onChain_only ..)

theorem State.chainPeriod_only (s : State) (c : Nat) : Only (P.chains ||| P.out ||| P.pgChn) s (State.chainPeriod s c) := by
  unfold State.chainPeriod; exact .comp (.comp (.refl ..) (State.sendMarker_only ..)) (State.flushReg_only ..)

theorem State.expectBlocks_only (s : State) : Only P.tiles s (State.expectBlocks s) := by
  unfold State.expectBlocks; dsimp only; refine .foldl ?_ ?_; exact .refl ..; intro _ _; split; refine .iteOn ?_ ?_
  exact .comp (.refl ..) (State.onTile_only ..); exact .comp (.refl ..) (State.onTile_only ..)
  exact .comp (.refl ..) (State.onTile_only ..)

theorem State.enterMirror_only (s : State) : Only (P.fault ||| P.bal ||| P.pair ||| P.sys ||| P.pgSup ||| P.pgAxo) s
    (State.enterMirror s) := by
  unfold State.enterMirror; dsimp only
  refine .comp (.upd (.put (.put (.put (.comp ?_ (State.balStart_only ..)))))) (State.onPair_only ..)
  refine .comp (.comp (.comp ?_ (State.clearStore_only ..)) (State.clearPixelClasses_only ..)) (State.markAll_only ..)
  exact .setMode (.refl ..)

theorem State.tryMirror_only (s : State) : Only (P.fault ||| P.bal ||| P.pair ||| P.sys ||| P.pgSup ||| P.pgAxo) s
    (State.tryMirror s) := by
  unfold State.tryMirror; refine .ite ?_ ?_; exact .comp (.refl ..) (State.enterMirror_only ..); exact .refl ..

theorem State.pairPeriod_only (s : State) : Only (P.fault ||| P.bal ||| P.pair ||| P.sys ||| P.pgSup ||| P.pgAxo) s
    (State.pairPeriod s) := by
  unfold State.pairPeriod; dsimp only; refine .comp (.comp ?_ (State.showPartner_only ..)) (State.tryMirror_only ..)
  refine .iteOn ?_ ?_; refine .iteOn ?_ ?_; refine .iteOff ?_ ?_; refine .iteOn ?_ ?_; refine .comp ?_ (State.onPair_only ..)
  refine .iteOn ?_ ?_; refine .ite ?_ ?_; exact .inc (.refl ..); exact .refl ..; exact .inc (.refl ..)
  exact .comp (.refl ..) (State.loseAligned_only ..); exact .put (.refl ..)
  exact .comp (.comp (.refl ..) (State.loseAligned_only ..)) (State.onPair_only ..)
  exact .comp (.refl ..) (State.evalRole_only ..)

theorem State.takeoverPeriod_only (s : State) : Only (P.fault ||| P.pair ||| P.pgAxo) s (State.takeoverPeriod s) := by
  unfold State.takeoverPeriod; split; exact .refl ..; refine .ite ?_ ?_; exact .refl ..; dsimp only; refine .iteOn ?_ ?_
  exact .comp (.event (.comp (.put (.put (.refl ..))) (State.onPair_only ..))) (State.raise_only ..)
  exact .comp (.refl ..) (State.retakeFallback_only ..)

theorem State.faultPeriod_only (s : State) (ran : List Nat) : Only (P.fault ||| P.pair ||| P.draws ||| P.pgSup ||| P.pgAxo) s
    (State.faultPeriod s ran) := by
  unfold State.faultPeriod; dsimp only; refine .comp ?_ (State.clearAbsent_only ..); refine .iteOn ?_ ?_
  exact .comp (.refl ..) (State.fltPeriod_only ..); exact .comp (.upd (.refl ..)) (State.ackApply_only ..)

theorem State.classPeriod_only (s : State) (ran : List Nat) : Only (P.fault ||| P.bal ||| P.spl ||| P.pair ||| P.draws ||| P.sys
    ||| P.pgSup ||| P.pgSpl ||| P.pgAxo) s (State.classPeriod s ran) := by
  unfold State.classPeriod; dsimp only
  refine .comp (.comp (.comp ?_ (State.pairPeriod_only ..)) (State.faultPeriod_only ..)) (State.cycleOff_only ..)
  refine .comp (.comp (.comp ?_ (State.supplyPeriod_only ..)) (State.lockPeriod_only ..)) (State.takeoverPeriod_only ..)
  refine .iteOn ?_ ?_; exact .comp (.refl ..) (State.cycleOn_only ..); exact .comp (.refl ..) (State.cycleEnd_only ..)

theorem State.forcePeriod_only (s : State) : Only (P.fault ||| P.fades ||| P.bal ||| P.link ||| P.pair ||| P.out ||| P.draws |||
    P.pgPkt ||| P.pgVin ||| P.pgMsk ||| P.pgCal ||| P.pgSup ||| P.pgAdc ||| P.pgWin ||| P.pgBal ||| P.pgSpl ||| P.pgAxo |||
    P.pgOff) s (State.forcePeriod s).1 := by
  unfold State.forcePeriod; dsimp only
  refine .comp (.comp (.comp ?_ (State.writeMaskHist_only ..)) (State.closeProofs_only ..)) (State.record_only ..)
  refine .comp ?_ (State.showLow_only ..); refine .iteOn ?_ ?_
  refine .comp (.comp (.comp ?_ (State.clausePeriod_only ..)) (State.setD_only ..)) (State.urgentInForce_only ..); split
  refine .comp (.comp ?_ (State.latchesApply_only ..)) (State.frameInForce_only ..); refine .ite ?_ ?_; refine .foldl ?_ ?_
  exact .refl ..; intro _ _; exact .comp (.refl ..) (State.readProof_only ..); exact .refl ..
  refine .comp ?_ (State.latchesApply_only ..); refine .ite ?_ ?_; refine .foldl ?_ ?_; exact .refl ..; intro _ _
  exact .comp (.refl ..) (State.readProof_only ..); exact .refl ..; exact .comp (.refl ..) (State.ledgerFrame_only ..)

theorem State.showWait_only (s : State) : Only P.pgCmp s (State.showWait s) := by
  unfold State.showWait; exact .flag (.refl ..)

theorem State.startPeriod_only (old : State) : Only (P.write ||| P.now) old (State.startPeriod old) := by
  unfold State.startPeriod; dsimp only; refine .comp (.comp ?_ (State.pairSend_only ..)) (State.serve_only ..)
  refine .iteOn ?_ ?_; refine .comp (.comp ?_ (State.onLink_only ..)) (State.showWait_only ..); refine .foldl ?_ ?_
  refine .iteOn ?_ ?_
  refine .comp (.comp (.comp ?_ (State.expectBlocks_only ..)) (State.fadePeriod_only ..)) (State.classPeriod_only ..)
  refine .comp (.comp ?_ (State.forcePeriod_only ..)) (State.heartbeat_only ..); refine .foldl ?_ ?_
  exact .comp (.comp (.refl ..) (State.nextPeriod_only ..)) (State.fltEvents_only ..); intro _ _
  exact .comp (.refl ..) (State.chainEnd_only ..); exact .comp (.refl ..) (State.regTrigger_only ..); intro _ _
  exact .comp (.refl ..) (State.chainPeriod_only ..); exact .comp (.refl ..) (State.emit_only ..)

theorem execPeriodStart_only (s : State) {t : State} (h : execPeriodStart s = .next t) : Only (P.write ||| P.now) s t := by
  unfold execPeriodStart at h; replace h := Host.Outcome.next.inj h; subst h; refine .ite ?_ ?_
  exact .comp (.refl ..) (State.startPeriod_only ..); exact .refl ..

theorem execDebounceExpiry_only (cls : Fin 64) (inst : BitVec 16) (s : State) {t : State} (h : execDebounceExpiry cls inst s =
    .next t) : Only P.fault s t := by
  unfold execDebounceExpiry at h; replace h := Host.Outcome.next.inj h; subst h; split
  exact .comp (.comp (.upd (.refl ..)) (State.takeAction_only ..)) (State.cycleOff_only ..); exact .refl ..

end Sys2Proof.Machine
end

