-- ==== Sys2Proof/Laws/Footprint/Pair.lean ====
section
/-! SUPPORT. What the operations of Pair.lean may change. -/

set_option Elab.async false

namespace Sys2Proof.Machine

theorem State.pairArrives_only (s : State) (l kind : Nat) (lenOk : Bool) (p : Pkt) : Only (P.link ||| P.pair ||| P.pgPkt |||
    P.pgAxo) s (State.pairArrives s l kind lenOk p).1 := by
  unfold State.pairArrives; refine .iteFst ?_ ?_; dsimp only; exact .refl ..; split; refine .iteFst ?_ ?_; dsimp only
  exact .ofPair (by assumption) (.comp (.refl ..) (State.pktWhole_only ..)); refine .iteFst ?_ ?_; dsimp only
  unfold State.pktMalf; exact .event (.inc (.ofPair (by assumption) (.comp (.refl ..) (State.pktWhole_only ..))))
  refine .iteFst ?_ ?_; dsimp only; exact .event (.inc (.ofPair (by assumption) (.comp (.refl ..) (State.pktWhole_only ..))))
  dsimp only; refine .iteFst ?_ ?_; dsimp only; unfold State.pktMalf
  exact .event (.inc (.comp (.ofPair (by assumption) (.comp (.refl ..) (State.pktWhole_only ..))) (State.onLink_only ..)))
  refine .iteFst ?_ ?_; dsimp only
  exact .comp (.ofPair (by assumption) (.comp (.refl ..) (State.pktWhole_only ..))) (State.onLink_only ..); dsimp only
  refine .comp (.put (.comp (.ofPair (by assumption) ?_) (State.onLink_only ..))) (State.onPair_only ..)
  exact .comp (.refl ..) (State.pktWhole_only ..)

theorem State.notePartner_only (s : State) (p : Pkt) : Only (P.pair ||| P.pgAxo) s (State.notePartner s p) := by
  unfold State.notePartner; dsimp only; exact .comp (.setRegN (.put (.put (.refl ..)))) (State.onPair_only ..)

theorem execPsyncEdge_only (offset : Int) (s : State) {t : State} (h : execPsyncEdge offset s = .next t) : Only (P.pair |||
    P.pgAxo) s t := by
  unfold execPsyncEdge at h; replace h := Host.Outcome.next.inj h; subst h; refine .ite ?_ ?_; exact .refl ..; dsimp only
  refine .ite ?_ ?_; refine .iteOff ?_ ?_; exact .comp (.put (.refl ..)) (State.onPair_only ..)
  exact .comp (.refl ..) (State.onPair_only ..); refine .iteOff ?_ ?_; exact .comp (.put (.refl ..)) (State.onPair_only ..)
  refine .ite ?_ ?_; exact .comp (.refl ..) (State.onPair_only ..); refine .ite ?_ ?_
  exact .comp (.event (.inc (.refl ..))) (State.onPair_only ..)
  exact .comp (.comp (.put (.event (.inc (.refl ..)))) (State.loseAligned_only ..)) (State.onPair_only ..)

theorem State.takePnum_only (s : State) (p : Pkt) : Only (P.pair ||| P.pnow ||| P.pgPlc ||| P.pgPrf ||| P.pgAxo) s (State.takePnum
    s p) := by
  unfold State.takePnum; refine .ite ?_ ?_; dsimp only
  exact .comp (.comp (.put (.setRegN (.refl ..))) (State.onPair_only ..)) (State.showTiming_only ..); exact .refl ..

theorem State.followOff_only (s : State) (off : List Nat) : Only (P.chains ||| P.light ||| P.pair) s (State.followOff s off) := by
  unfold State.followOff; dsimp only; refine .ite ?_ ?_; exact .refl ..
  exact .comp (.comp (.refl ..) (State.onPair_only ..)) (State.streamOff_only ..)

theorem State.followFrame_only (s : State) : Only (P.fault ||| P.bal ||| P.pgMsk) s (State.followFrame s) := by
  unfold State.followFrame; split; exact .comp (.refl ..) (State.frameInForce_only ..); refine .ite ?_ ?_; dsimp only
  exact .comp (.put (.upd (.refl ..))) (State.frameInForce_only ..); exact .comp (.refl ..) (State.offsetsInForce_only ..)

theorem State.followRecord_only (s : State) (frame : Bool) : Only (P.fault ||| P.draws ||| P.pgSup) s (State.followRecord s frame)
    := by
  unfold State.followRecord; dsimp only
  refine .comp (.comp (.comp ?_ (State.showLow_only ..)) (State.writeMaskHist_only ..)) (State.onRec_only ..)
  refine .ite ?_ ?_; exact .comp (.refl ..) (State.ledgerFrame_only ..); exact .refl ..

theorem State.followOffsets_only (s : State) (p : Pkt) : Only (P.tiles ||| P.pgPlc) s (State.followOffsets s p) := by
  unfold State.followOffsets; dsimp only; refine .iteOn ?_ ?_; exact .upd (.refl ..)
  exact .comp (.refl ..) (State.offsetsInForce_only ..)

theorem State.followMode_only (s : State) (fb : Bool) : Only (P.vid ||| P.chains ||| P.tiles ||| P.light ||| P.flt ||| P.pair |||
    P.pgCmp ||| P.pgAsp) s (State.followMode s fb) := by
  unfold State.followMode; refine .ite ?_ ?_; exact .refl ..
  refine .comp (.comp (.comp ?_ (State.initOffsets_only ..)) (State.markAll_only ..)) (State.evalPolicies_only ..)
  exact .comp (.comp (.refl ..) (State.onPair_only ..)) (State.dropPass_only ..)

theorem State.unmatched_only (s : State) (name : Nat) : Only P.pair s (State.unmatched s name) := by
  unfold State.unmatched; exact .comp (.refl ..) (State.onPair_only ..)

theorem State.takeHeld_only (s : State) (h : Held) : Only (P.cl ||| P.fades ||| P.pair ||| P.pgAsp) s (State.takeHeld s h) := by
  unfold State.takeHeld; dsimp only; refine .ite ?_ ?_
  exact .comp (.comp (.refl ..) (State.onPair_only ..)) (State.fadeGroup_only ..)
  exact .comp (.comp (.refl ..) (State.onPair_only ..)) (State.retarget_only ..)

theorem State.followName_only (s : State) (name : Nat) : Only (P.cl ||| P.fades ||| P.pair ||| P.pgAsp) s (State.followName s
    name) := by
  unfold State.followName; split; exact .refl ..; exact .comp (.refl ..) (State.takeHeld_only ..)

theorem State.followTag_only (names : List Nat) (s : State) (tag : Nat) : Only (P.fault ||| P.fades ||| P.bal ||| P.link |||
    P.pair ||| P.out ||| P.draws ||| P.pgPkt ||| P.pgVin ||| P.pgMsk ||| P.pgCal ||| P.pgSup ||| P.pgAdc ||| P.pgWin ||| P.pgBal
    ||| P.pgSpl ||| P.pgAxo ||| P.pgOff) s (State.followTag names s tag) := by
  unfold State.followTag; split; dsimp only; refine .comp (.upd ?_) (State.takeImplicit_only ..); refine .foldl ?_ ?_
  exact .refl ..; intro _ _; exact .comp (.refl ..) (State.takeHeld_only ..); exact .comp (.refl ..) (State.unmatched_only ..)

theorem State.followWrites_only (s : State) (p : Pkt) : Only (P.fault ||| P.fades ||| P.bal ||| P.link ||| P.pair ||| P.out |||
    P.draws ||| P.pgPkt ||| P.pgVin ||| P.pgMsk ||| P.pgCal ||| P.pgSup ||| P.pgAdc ||| P.pgWin ||| P.pgBal ||| P.pgSpl |||
    P.pgAxo ||| P.pgOff) s (State.followWrites s p) := by
  unfold State.followWrites; dsimp only; refine .iteOn ?_ ?_; refine .foldl ?_ ?_; refine .foldl ?_ ?_; refine .foldl ?_ ?_
  refine .foldl ?_ ?_; refine .foldl ?_ ?_; refine .ite ?_ ?_; refine .ite ?_ ?_
  exact .comp (.refl ..) (State.applyClause_only ..); exact .refl ..; exact .refl ..; intro _ _
  exact .comp (.refl ..) (State.unmatched_only ..); intro _ _; exact .comp (.refl ..) (State.followTag_only ..); intro _ _
  exact .comp (.refl ..) (State.followName_only ..); intro _ _; exact .comp (.refl ..) (State.groupChange_only ..); intro _ _
  exact .comp (.refl ..) (State.settleFade_only ..); exact .comp (.refl ..) (State.loseAligned_only ..)

theorem State.compareDigest_only (s : State) (p : Pkt) : Only (P.fault ||| P.pgAxo) s (State.compareDigest s p) := by
  unfold State.compareDigest; dsimp only
  exact .comp (.comp (.comp (.refl ..) (State.compareIf_only ..)) (State.compareIf_only ..)) (State.compareIf_only ..)

theorem State.compareCodes_only (s : State) : Only (P.fault ||| P.pair ||| P.pgAxo) s (State.compareCodes s) := by
  unfold State.compareCodes; dsimp only; refine .comp ?_ (State.onPair_only ..); refine .foldl ?_ ?_; exact .refl ..
  intro _ _; split; exact .comp (.refl ..) (State.compareIf_only ..); exact .refl ..

theorem State.followDigest_only (s : State) (p : Pkt) : Only (P.fault ||| P.fades ||| P.bal ||| P.link ||| P.pair ||| P.out |||
    P.draws ||| P.pgPkt ||| P.pgVin ||| P.pgMsk ||| P.pgCal ||| P.pgSup ||| P.pgAdc ||| P.pgWin ||| P.pgBal ||| P.pgSpl |||
    P.pgAxo ||| P.pgOff) s (State.followDigest s p) := by
  unfold State.followDigest; dsimp only; refine .comp (.comp ?_ (State.followWrites_only ..)) (State.compareCodes_only ..)
  refine .iteOff ?_ ?_; refine .iteOn ?_ ?_; refine .iteOn ?_ ?_
  refine .comp (.comp ?_ (State.followOff_only ..)) (State.followRecord_only ..); refine .iteOff ?_ ?_
  refine .comp (.comp ?_ (State.setD_only ..)) (State.followMode_only ..); refine .iteOn ?_ ?_
  exact .comp (.comp (.refl ..) (State.compareDigest_only ..)) (State.followOffsets_only ..)
  exact .comp (.refl ..) (State.followFrame_only ..); refine .foldl ?_ ?_; exact .refl ..; intro _ _
  exact .put (.refl ..) covers_arr2; exact .comp (.refl ..) (State.ackApply_only ..)
  exact .put (.comp (.refl ..) (State.takeSwap_only ..)); exact .upd (.refl ..)

theorem State.followPixel_only (s : State) (r : PerRec) (mask : List Word) (p tok : Nat) (f : JForm) (res : Nat) : Only (P.fault
    ||| P.pair ||| P.draws ||| P.pgSup ||| P.pgAxo) s (State.followPixel s r mask p tok f res) := by
  unfold State.followPixel; refine .ite ?_ ?_; exact .refl ..; dsimp only; refine .ite ?_ ?_; refine .iteOn ?_ ?_
  refine .comp ?_ (State.healthOf_only ..); refine .ite ?_ ?_; exact .comp (.refl ..) (State.addSurplus_only ..)
  exact .refl ..; exact .comp (.refl ..) (State.movePix_only ..); refine .iteOff ?_ ?_
  refine .comp ?_ (State.healthOf_only ..); refine .ite ?_ ?_; exact .comp (.refl ..) (State.addSurplus_only ..)
  exact .refl ..; refine .iteOn ?_ ?_
  exact .comp (.comp (.comp (.refl ..) (State.movePix_only ..)) (State.setForm_only ..)) (State.setWhy_only ..)
  exact .comp (.refl ..) (State.noteUnverified_only ..)

theorem State.followRow_only (s : State) (t tok row q : Nat) (kind : Nat → Nat) (judged : Nat → Bool) : Only (P.fault ||| P.pair
    ||| P.draws ||| P.pgSup ||| P.pgAxo) s (State.followRow s t tok row q kind judged) := by
  unfold State.followRow; dsimp only; split; exact .refl ..; refine .ite ?_ ?_; exact .refl ..; refine .foldl ?_ ?_
  exact .comp (.comp (.refl ..) (State.restore_only ..)) (State.readHist_only ..); intro _ _; split; exact .refl ..
  refine .ite ?_ ?_; exact .comp (.refl ..) (State.followPixel_only ..); exact .refl ..

theorem State.followSummary_only (s : State) (dig lst : Pkt) : Only (P.fault ||| P.pair ||| P.draws ||| P.pgSup ||| P.pgAxo) s
    (State.followSummary s dig lst) := by
  unfold State.followSummary; dsimp only; split; exact .comp (.refl ..) (State.onRec_only ..); refine .foldl ?_ ?_
  exact .comp (.refl ..) (State.onRec_only ..); intro _ _; refine .foldl ?_ ?_; exact .refl ..; intro _ _; refine .foldl ?_ ?_
  exact .refl ..; intro _ _; split; exact .refl ..; refine .ite ?_ ?_; exact .refl ..
  exact .comp (.comp (.refl ..) (State.onPair_only ..)) (State.followRow_only ..)

theorem State.compareFails_only (s : State) (dig lst : Pkt) : Only (P.fault ||| P.pgAxo) s (State.compareFails s dig lst) := by
  unfold State.compareFails; split; exact .refl ..; refine .ite ?_ ?_; exact .refl ..; dsimp only; refine .foldl ?_ ?_
  exact .refl ..; intro _ _; exact .comp (.refl ..) (State.compareIf_only ..)

theorem State.takeState_only (s : State) (p st conf q : Nat) : Only (P.fault ||| P.pair ||| P.draws ||| P.pgSup ||| P.pgAxo) s
    (State.takeState s p st conf q) := by
  unfold State.takeState; dsimp only; refine .ite ?_ ?_; refine .ite ?_ ?_
  refine .comp (.comp (.comp ?_ (State.movePix_only ..)) (State.setForm_only ..)) (State.setWhy_only ..)
  exact .comp (.refl ..) (State.restore_only ..)
  refine .comp (.comp (.comp ?_ (State.setForm_only ..)) (State.setWhy_only ..)) (State.listFault_only ..)
  exact .comp (.comp (.refl ..) (State.restore_only ..)) (State.movePix_only ..); refine .iteOn ?_ ?_
  refine .comp (.comp (.comp ?_ (State.movePix_only ..)) (State.setForm_only ..)) (State.setWhy_only ..)
  exact .comp (.refl ..) (State.restore_only ..); exact .comp (.refl ..) (State.unlistFault_only ..)

theorem State.takeRecord_only (s : State) (v q : Nat) : Only (P.fault ||| P.pair ||| P.draws ||| P.pgSup ||| P.pgAxo) s
    (State.takeRecord s v q) := by
  unfold State.takeRecord; dsimp only; exact .comp (.comp (.refl ..) (State.takeState_only ..)) (State.onPair_only ..)

theorem State.restatePixel_only (s : State) (p v : Nat) : Only (P.fault ||| P.pair ||| P.draws ||| P.pgSup ||| P.pgAxo) s
    (State.restatePixel s p v) := by
  unfold State.restatePixel; dsimp only; exact .comp (.comp (.refl ..) (State.takeState_only ..)) (State.setPix_only ..)

theorem State.restateTile_only (s : State) (t off : Nat) (data : List Byte) : Only (P.fault ||| P.pair ||| P.draws ||| P.pgSup |||
    P.pgAxo) s (State.restateTile s t off data) := by
  unfold State.restateTile; dsimp only; refine .iteOff ?_ ?_; refine .foldl ?_ ?_; exact .refl ..; intro _ _
  exact .comp (.refl ..) (State.restatePixel_only ..); exact .comp (.refl ..) (State.setBytes_only ..)

theorem State.restateFades_only (s : State) (b : List Byte) : Only (P.fades ||| P.pgAsp) s (State.restateFades s b) := by
  unfold State.restateFades; refine .foldl ?_ ?_; exact .refl ..; intro _ _; refine .ite ?_ ?_; dsimp only
  exact .put (.put (.comp (.refl ..) (State.onFade_only ..)) covers_asp) covers_asp; exact .refl ..

theorem State.restateContext_only (s : State) (b : List Byte) : Only (P.fades ||| P.pgAsp ||| P.pgAxo) s (State.restateContext s
    b) := by
  unfold State.restateContext; dsimp only; exact .flag (.comp (.refl ..) (State.restateFades_only ..))

theorem State.restStop_only (s : State) : Only (P.pair ||| P.pgAxo) s (State.restStop s) := by
  unfold State.restStop; exact .comp (.put (.refl ..)) (State.onPair_only ..)

theorem State.takeChunk_only (s : State) (blk off : Nat) (data : List Byte) : Only (P.fault ||| P.fades ||| P.pair ||| P.draws |||
    P.pgSup ||| P.pgAxo) s (State.takeChunk s blk off data) := by
  unfold State.takeChunk; dsimp only; refine .ite ?_ ?_; exact .comp (.refl ..) (State.restStop_only ..); refine .ite ?_ ?_
  refine .comp ?_ (State.restStop_only ..); refine .iteOn ?_ ?_; refine .comp ?_ (State.onPair_only ..); refine .ite ?_ ?_
  exact .comp (.put (.put (.put (.refl ..)))) (State.onPair_only ..)
  exact .comp (.put (.put (.put (.refl ..)))) (State.restateTile_only ..)
  exact .comp (.refl ..) (State.restateContext_only ..); refine .iteOn ?_ ?_; refine .iteOn ?_ ?_
  refine .comp ?_ (State.onPair_only ..); refine .ite ?_ ?_
  exact .comp (.put (.put (.put (.refl ..)))) (State.onPair_only ..)
  exact .comp (.put (.put (.put (.refl ..)))) (State.restateTile_only ..)
  exact .comp (.refl ..) (State.restateContext_only ..); exact .comp (.inc (.refl ..)) (State.onPair_only ..)

theorem State.followLists_only (s : State) (dig lst : Pkt) : Only (P.fault ||| P.fades ||| P.pair ||| P.draws ||| P.pgSup |||
    P.pgAxo) s (State.followLists s dig lst) := by
  unfold State.followLists; dsimp only; refine .comp (.comp ?_ (State.evalFades_only ..)) (State.showWait_only ..)
  refine .iteOn ?_ ?_; refine .foldl ?_ ?_
  exact .comp (.comp (.comp (.refl ..) (State.onPair_only ..)) (State.compareFails_only ..)) (State.followSummary_only ..)
  intro _ _; exact .comp (.refl ..) (State.takeRecord_only ..); exact .comp (.refl ..) (State.takeChunk_only ..)

theorem State.tryFollow_only (s : State) : Only (P.fault ||| P.fades ||| P.bal ||| P.link ||| P.pair ||| P.out ||| P.draws |||
    P.pgPkt ||| P.pgVin ||| P.pgMsk ||| P.pgCal ||| P.pgSup ||| P.pgAdc ||| P.pgWin ||| P.pgBal ||| P.pgSpl ||| P.pgAxo |||
    P.pgOff) s (State.tryFollow s) := by
  unfold State.tryFollow; refine .ite ?_ ?_
  exact .comp (.comp (.refl ..) (State.followDigest_only ..)) (State.followLists_only ..); exact .refl ..

theorem execDigest_only (l : Fin 4) (p : Pkt) (s : State) {t : State} (h : execDigest l p s = .next t) : Only (P.fault ||| P.fades
    ||| P.bal ||| P.link ||| P.pair ||| P.out ||| P.draws ||| P.sys ||| P.pnow ||| P.pgPkt ||| P.pgVin ||| P.pgMsk ||| P.pgCal |||
    P.pgSup ||| P.pgAdc ||| P.pgWin ||| P.pgBal ||| P.pgSpl ||| P.pgAxo ||| P.pgOff) s t := by
  unfold execDigest at h; replace h := Host.Outcome.next.inj h; subst h; split; refine .ite ?_ ?_
  exact .ofPair (by assumption) (.comp (.refl ..) (State.pairArrives_only ..)); dsimp only; refine .ite ?_ ?_
  refine .iteOn ?_ ?_
  refine .comp (.comp (.comp ?_ (State.onPair_only ..)) (State.takePnum_only ..)) (State.showPartner_only ..)
  exact .comp (.ofPair (by assumption) (.comp (.refl ..) (State.pairArrives_only ..))) (State.notePartner_only ..)
  exact .comp (.comp (.refl ..) (State.onPair_only ..)) (State.tryFollow_only ..)
  refine .comp (.comp (.comp ?_ (State.takePnum_only ..)) (State.showPartner_only ..)) (State.tryMirror_only ..)
  refine .comp (.comp (.ofPair (by assumption) ?_) (State.notePartner_only ..)) (State.onPair_only ..)
  exact .comp (.refl ..) (State.pairArrives_only ..)

theorem execLists_only (l : Fin 4) (p : Pkt) (s : State) {t : State} (h : execLists l p s = .next t) : Only (P.fault ||| P.fades
    ||| P.bal ||| P.link ||| P.pair ||| P.out ||| P.draws ||| P.pgPkt ||| P.pgVin ||| P.pgMsk ||| P.pgCal ||| P.pgSup ||| P.pgAdc
    ||| P.pgWin ||| P.pgBal ||| P.pgSpl ||| P.pgAxo ||| P.pgOff) s t := by
  unfold execLists at h; replace h := Host.Outcome.next.inj h; subst h; split; refine .iteOff ?_ ?_
  exact .ofPair (by assumption) (.comp (.refl ..) (State.pairArrives_only ..)); refine .ite ?_ ?_
  exact .comp (.comp (.refl ..) (State.onPair_only ..)) (State.tryFollow_only ..); exact .refl ..

theorem execHeartbeat_only (l : Fin 4) (p : Pkt) (s : State) {t : State} (h : execHeartbeat l p s = .next t) : Only (P.fault |||
    P.link ||| P.pair ||| P.ack ||| P.pgPkt ||| P.pgAxo) s t := by
  unfold execHeartbeat at h; replace h := Host.Outcome.next.inj h; subst h; split; refine .ite ?_ ?_
  exact .ofPair (by assumption) (.comp (.refl ..) (State.pairArrives_only ..)); dsimp only; refine .ite ?_ ?_
  refine .comp (.comp (.put (.eventIf ?_)) (State.onPair_only ..)) (State.showPartner_only ..)
  exact .comp (.ofPair (by assumption) (.comp (.refl ..) (State.pairArrives_only ..))) (State.notePartner_only ..)
  refine .ite ?_ ?_; refine .comp (.put ?_) (State.onPair_only ..); refine .ite ?_ ?_; refine .upd (.incWrap ?_)
  refine .ite ?_ ?_
  refine .comp (.event (.comp (.comp (.put ?_) (State.onPair_only ..)) (State.showPartner_only ..))) (State.raise_only ..)
  exact .eventIf (.comp (.ofPair (by assumption) (.comp (.refl ..) (State.pairArrives_only ..))) (State.notePartner_only ..))
  refine .comp (.comp (.put (.eventIf ?_)) (State.onPair_only ..)) (State.showPartner_only ..)
  exact .comp (.ofPair (by assumption) (.comp (.refl ..) (State.pairArrives_only ..))) (State.notePartner_only ..)
  refine .ite ?_ ?_
  refine .comp (.event (.comp (.comp (.put ?_) (State.onPair_only ..)) (State.showPartner_only ..))) (State.raise_only ..)
  exact .eventIf (.comp (.ofPair (by assumption) (.comp (.refl ..) (State.pairArrives_only ..))) (State.notePartner_only ..))
  refine .comp (.comp (.put (.eventIf ?_)) (State.onPair_only ..)) (State.showPartner_only ..)
  exact .comp (.ofPair (by assumption) (.comp (.refl ..) (State.pairArrives_only ..))) (State.notePartner_only ..)
  refine .ite ?_ ?_; refine .upd (.incWrap ?_); refine .ite ?_ ?_
  refine .comp (.event (.comp (.comp (.put ?_) (State.onPair_only ..)) (State.showPartner_only ..))) (State.raise_only ..)
  exact .eventIf (.comp (.ofPair (by assumption) (.comp (.refl ..) (State.pairArrives_only ..))) (State.notePartner_only ..))
  refine .comp (.comp (.put (.eventIf ?_)) (State.onPair_only ..)) (State.showPartner_only ..)
  exact .comp (.ofPair (by assumption) (.comp (.refl ..) (State.pairArrives_only ..))) (State.notePartner_only ..)
  refine .ite ?_ ?_
  refine .comp (.event (.comp (.comp (.put ?_) (State.onPair_only ..)) (State.showPartner_only ..))) (State.raise_only ..)
  exact .eventIf (.comp (.ofPair (by assumption) (.comp (.refl ..) (State.pairArrives_only ..))) (State.notePartner_only ..))
  refine .comp (.comp (.put (.eventIf ?_)) (State.onPair_only ..)) (State.showPartner_only ..)
  exact .comp (.ofPair (by assumption) (.comp (.refl ..) (State.pairArrives_only ..))) (State.notePartner_only ..)

theorem execDigestTimeout_only (s : State) {t : State} (h : execDigestTimeout s = .next t) : Only (P.pair ||| P.pgAxo) s t := by
  unfold execDigestTimeout at h; replace h := Host.Outcome.next.inj h; subst h; refine .ite ?_ ?_
  exact .comp (.comp (.refl ..) (State.loseAligned_only ..)) (State.onPair_only ..); exact .refl ..

theorem execUnnamedEffectDiscard_only (s : State) {t : State} (h : execUnnamedEffectDiscard s = .next t) : Only (P.cl ||| P.pair
    ||| P.pgAxo) s t := by
  unfold execUnnamedEffectDiscard at h; replace h := Host.Outcome.next.inj h; subst h; refine .ite ?_ ?_; dsimp only
  exact .upd (.comp (.incBy (.refl ..)) (State.onPair_only ..)); exact .refl ..

theorem execInwardPeriodMarker_only (c : Fin 20) (m : Marker) (s : State) {t : State} (h : execInwardPeriodMarker c m s = .next t)
    : Only (P.fault ||| P.pair ||| P.pgAxo) s t := by
  unfold execInwardPeriodMarker at h; replace h := Host.Outcome.next.inj h; subst h; refine .ite ?_ ?_; dsimp only
  exact .comp (.comp (.put (.refl ..)) (State.onPair_only ..)) (State.compareIf_only ..); exact .refl ..

theorem State.alignLatch_only (s : State) (body : List Byte) : Only (P.pair ||| P.pgAxo) s (State.alignLatch s body) := by
  unfold State.alignLatch; refine .ite ?_ ?_; exact .comp (.event (.put (.put (.refl ..)))) (State.onPair_only ..)
  exact .refl ..

theorem State.observeLatch_only (s : State) (c : Nat) (body : List Byte) : Only P.pair s (State.observeLatch s c body) := by
  unfold State.observeLatch; dsimp only; exact .comp (.refl ..) (State.onPair_only ..)

theorem State.adoptLatch_only (s : State) (body : List Byte) : Only (P.cl ||| P.light ||| P.pgCmp ||| P.pgChn) s (State.adoptLatch
    s body) := by
  unfold State.adoptLatch; dsimp only; refine .ite ?_ ?_; refine .iteOn ?_ ?_
  exact .comp (.upd (.put (.put (.refl ..)))) (State.clauseLatch_only ..); exact .upd (.put (.refl ..))
  exact .comp (.upd (.put (.put (.refl ..)))) (State.bringUrgent_only ..)

theorem State.snoopLatch_only (s : State) (c : Nat) (body : List Byte) : Only (P.fault ||| P.pair ||| P.pgAxo) s (State.snoopLatch
    s c body) := by
  unfold State.snoopLatch; dsimp only; refine .comp ?_ (State.observeLatch_only ..); refine .iteOff ?_ ?_
  exact .comp (.comp (.refl ..) (State.alignLatch_only ..)) (State.compareIf_only ..)
  exact .comp (.refl ..) (State.adoptLatch_only ..)

theorem State.snoopItem_only (s : State) (c : Nat) (it : ChainPkt) : Only (P.fault ||| P.pair ||| P.pgAxo) s (State.snoopItem s c
    it) := by
  unfold State.snoopItem; refine .ite ?_ ?_; exact .refl ..; dsimp only; refine .ite ?_ ?_
  exact .comp (.refl ..) (State.snoop_only ..); split
  exact .comp (.comp (.refl ..) (State.snoop_only ..)) (State.onPair_only ..)
  exact .comp (.comp (.refl ..) (State.snoop_only ..)) (State.snoopLatch_only ..)
  exact .comp (.comp (.refl ..) (State.snoop_only ..)) (State.compareIf_only ..); exact .comp (.refl ..) (State.snoop_only ..)

theorem execSnoopedChainItem_only (c : Fin 20) (it : ChainPkt) (s : State) {t : State} (h : execSnoopedChainItem c it s = .next t)
    : Only (P.fault ||| P.pair ||| P.pgAxo) s t := by
  unfold execSnoopedChainItem at h; replace h := Host.Outcome.next.inj h; subst h
  exact .comp (.comp (.refl ..) (State.snoopItem_only ..)) (State.hear_only ..)

theorem State.slip_only (s : State) (c : Nat) : Only (P.fault ||| P.pair ||| P.pgAxo) s (State.slip s c) := by
  unfold State.slip; refine .ite ?_ ?_; exact .refl ..; dsimp only
  exact .comp (.comp (.inc (.refl ..)) (State.onPair_only ..)) (State.compareIf_only ..)

theorem State.replicaAck_only (s : State) (c : Nat) (it : ChainPkt) : Only (P.fault ||| P.pair ||| P.out ||| P.pgAxo) s
    (State.replicaAck s c it) := by
  unfold State.replicaAck; refine .ite ?_ ?_; split; exact .comp (.refl ..) (State.itemFails_only ..)
  exact .comp (.refl ..) (State.corrupted_only ..); split; exact .comp (.refl ..) (State.slip_only ..); refine .ite ?_ ?_
  exact .comp (.refl ..) (State.slip_only ..); refine .ite ?_ ?_; exact .comp (.refl ..) (State.itemFails_only ..); dsimp only
  split; exact .comp (.comp (.comp (.refl ..) (State.compareIf_only ..)) (State.unexpect_only ..)) (State.rowVerified_only ..)
  exact .comp (.comp (.comp (.refl ..) (State.compareIf_only ..)) (State.unexpect_only ..)) (State.proofVerified_only ..)
  exact .comp (.comp (.refl ..) (State.compareIf_only ..)) (State.unexpect_only ..)

theorem execAckReturn_only (c : Fin 20) (it : ChainPkt) (s : State) {t : State} (h : execAckReturn c it s = .next t) : Only
    (P.fault ||| P.pair ||| P.out ||| P.pgAxo) s t := by
  unfold execAckReturn at h; replace h := Host.Outcome.next.inj h; subst h; dsimp only
  refine .comp (.comp ?_ (State.flushReg_only ..)) (State.hear_only ..); refine .ite ?_ ?_
  exact .comp (.comp (.refl ..) (State.snoop_only ..)) (State.replicaAck_only ..)
  exact .comp (.comp (.refl ..) (State.snoop_only ..)) (State.ackReturn_only ..)

theorem State.reseq_only (s : State) (c own his : Nat) : Only P.chains s (State.reseq s c own his) := by
  unfold State.reseq; dsimp only; exact .comp (.refl ..) (State.onChain_only ..)

theorem State.replicaLatch_only (s : State) (c : Nat) (it : ChainPkt) (rtt : Nat) : Only (P.fault ||| P.pair ||| P.out |||
    P.pgAxo) s (State.replicaLatch s c it rtt) := by
  unfold State.replicaLatch; refine .ite ?_ ?_; split; exact .comp (.refl ..) (State.itemFails_only ..)
  exact .comp (.refl ..) (State.corrupted_only ..); dsimp only; refine .comp ?_ (State.observeLatch_only ..); split
  refine .ite ?_ ?_; refine .comp ?_ (State.latchReturn_only ..); refine .iteOn ?_ ?_
  exact .comp (.comp (.refl ..) (State.alignLatch_only ..)) (State.compareIf_only ..)
  exact .comp (.comp (.refl ..) (State.reseq_only ..)) (State.onPair_only ..)
  exact .comp (.comp (.comp (.refl ..) (State.alignLatch_only ..)) (State.compareIf_only ..)) (State.unexpect_only ..)
  exact .comp (.comp (.refl ..) (State.alignLatch_only ..)) (State.compareIf_only ..)

theorem execLatchReturn_only (c : Fin 20) (it : ChainPkt) (rtt : Nat) (s : State) {t : State} (h : execLatchReturn c it rtt s =
    .next t) : Only (P.fault ||| P.pair ||| P.out ||| P.pgAxo) s t := by
  unfold execLatchReturn at h; replace h := Host.Outcome.next.inj h; subst h; dsimp only
  refine .comp (.comp ?_ (State.flushReg_only ..)) (State.hear_only ..); refine .ite ?_ ?_
  exact .comp (.comp (.refl ..) (State.snoop_only ..)) (State.replicaLatch_only ..)
  exact .comp (.comp (.refl ..) (State.snoop_only ..)) (State.latchReturn_only ..)

theorem State.takeChain_only (s : State) (c : Nat) : Only P.chains s (State.takeChain s c) := by
  unfold State.takeChain; dsimp only; exact .comp (.refl ..) (State.onChain_only ..)

theorem State.takeCold_only (s : State) : Only (P.vid ||| P.chains ||| P.tiles ||| P.light ||| P.pgCmp ||| P.pgAxo) s
    (State.takeCold s) := by
  unfold State.takeCold; dsimp only; refine .comp (.put (.put (.upd ?_))) (State.queueFrame_only ..); refine .foldl ?_ ?_
  exact .comp (.comp (.inc (.refl ..)) (State.dropPass_only ..)) (State.initOffsets_only ..); intro _ _
  exact .comp (.refl ..) (State.onChain_only ..)

theorem State.takeRole_only (s : State) : Only (P.isl ||| P.vid ||| P.chains ||| P.light ||| P.flt ||| P.bal ||| P.pair ||| P.mode
    ||| P.pgAsp ||| P.pgAxo) s (State.takeRole s) := by
  unfold State.takeRole; dsimp only
  refine .comp (.upd (.put (.eventIf (.inc (.put (.comp ?_ (State.evalPolicies_only ..))))))) (State.onPair_only ..)
  refine .comp ?_ (State.markAll_only ..); refine .ite ?_ ?_; exact .setMode (.comp (.refl ..) (State.ownSwap_only ..))
  exact .comp (.setMode (.comp (.refl ..) (State.ownSwap_only ..))) (State.balStart_only ..)

theorem State.takeWarm_only (s : State) : Only P.chains s (State.takeWarm s) := by
  unfold State.takeWarm; dsimp only; exact .comp (.comp (.refl ..) (State.queueReact_only ..)) (State.queueUrgent_only ..)

theorem State.takeOver_only (s : State) : Only (P.isl ||| P.vid ||| P.chains ||| P.tiles ||| P.light ||| P.flt ||| P.bal |||
    P.pair ||| P.mode ||| P.pgCmp ||| P.pgAsp ||| P.pgAxo) s (State.takeOver s) := by
  unfold State.takeOver; refine .ite ?_ ?_; refine .comp (.comp ?_ (State.takeRole_only ..)) (State.takeWarm_only ..)
  refine .foldl ?_ ?_; exact .refl ..; intro _ _; exact .comp (.refl ..) (State.takeChain_only ..)
  exact .comp (.comp (.refl ..) (State.takeRole_only ..)) (State.takeCold_only ..)

theorem execTakeoverDecision_only (s : State) {t : State} (h : execTakeoverDecision s = .next t) : Only (P.isl ||| P.vid |||
    P.chains ||| P.tiles ||| P.light ||| P.flt ||| P.bal ||| P.pair ||| P.mode ||| P.pgCmp ||| P.pgAsp ||| P.pgAxo) s t := by
  unfold execTakeoverDecision at h; replace h := Host.Outcome.next.inj h; subst h; dsimp only; refine .ite ?_ ?_
  exact .comp (.refl ..) (State.takeOver_only ..); exact .refl ..

theorem execPartnerRstRelease_only (s : State) {t : State} (h : execPartnerRstRelease s = .next t) : Only P.pair s t := by
  unfold execPartnerRstRelease at h; replace h := Host.Outcome.next.inj h; subst h; refine .ite ?_ ?_
  exact .comp (.refl ..) (State.onPair_only ..); exact .refl ..

end Sys2Proof.Machine
end

