-- ==== Sys2Proof/Laws/Hold.lean ====
section
/-! SUPPORT. What entry into HOLD and a reset leave (R25, R27, R38, R40). -/

set_option Elab.async false

namespace Sys2Proof.Machine

/-- Withdrawal of the permit: both permit bits read zero (R18). -/
theorem withdraw_permit (s : State) : s.withdraw.get F.CLK_STAT_permit = 0 ∧ s.withdraw.get F.SYS_STAT_permit = 0 := by
  have h : Only (P.chains ||| P.pgChn ||| P.pgTil ||| P.sio ||| P.pgSio) ((s.put F.CLK_STAT_permit 0).put F.SYS_STAT_permit 0) s.withdraw :=
    .comp (.comp (.refl ..) (State.chainsOff_only ..)) (State.outputsOff_only ..)
  constructor
  · refine h.get.trans ?_
    rw [get_put_apart _ _ _ _ (by decide), get_put_same _ _ _ (by decide)]
    rfl
  · refine (get_of_stat (h.stat (by decide)) (by decide)).trans ?_
    rw [get_put_same _ _ _ (by decide)]
    rfl

/-- The steps of an entry into HOLD after the permit is withdrawn. -/
theorem holdRest_only (s : State) :
    Only (P.isl ||| P.cl ||| P.cls ||| P.vid ||| P.tiles ||| P.light ||| P.pgCmp ||| P.boot ||| P.stat ||| P.spd ||| P.pgSpd ||| P.sio |||
      P.pgSio ||| P.skink ||| P.pgCrc ||| P.chains ||| P.flt ||| P.pgAsp) s
      ({ ((((((s.abortClause true).stopLight).darkOff).holdOtp).clearFbInput).ccvAbandon) with
        isl := { ((((((s.abortClause true).stopLight).darkOff).holdOtp).clearFbInput).ccvAbandon).isl with req := false, sense := none },
        light := { ((((((s.abortClause true).stopLight).darkOff).holdOtp).clearFbInput).ccvAbandon).light with fb := false } } : State).evalPolicies :=
  .comp (.upd (.comp (.comp (.comp (.comp (.comp (.comp (.refl ..) (State.abortClause_only ..)) (State.stopLight_only ..)) (State.darkOff_only ..))
    (State.holdOtp_only ..)) (State.clearFbInput_only ..)) (State.ccvAbandon_only ..))) (State.evalPolicies_only ..)

/-- An entry into HOLD (R25, R38): the mode, the cause with its detail, and the permit. -/
theorem enterHold_enters {s : State} (h : s.mode ≠ .hold) (code detail : Nat) :
    (s.enterHold code detail).mode = .hold ∧ (s.enterHold code detail).get F.SYS_HOLDCAUSE_code = code % 256 ∧
      (s.enterHold code detail).get F.SYS_HOLDCAUSE_detail = detail % 65536 ∧
      (s.enterHold code detail).get F.CLK_STAT_permit = 0 ∧ (s.enterHold code detail).get F.SYS_STAT_permit = 0 := by
  unfold State.enterHold
  rw [if_neg h]
  dsimp only
  generalize (if s.mode = .selftest then s.leaveSelftest else s).ownSwap = u
  generalize hu : (u.put F.SYS_HOLDCAUSE_code code).put F.SYS_HOLDCAUSE_detail detail = w
  have h1 := State.withdraw_only (w.setMode .hold)
  have hp := withdraw_permit (w.setMode .hold)
  have hc : w.get F.SYS_HOLDCAUSE_code = code % 256 ∧ w.get F.SYS_HOLDCAUSE_detail = detail % 65536 := by
    subst hu
    exact ⟨by rw [get_put_apart _ _ _ _ (by decide), get_put_same _ _ _ (by decide)]; rfl, get_put_same _ _ _ (by decide)⟩
  have hm {f : Fld} (hf : Fld.apart F.SYS_STAT_mode f = true) : (w.setMode .hold).get f = w.get f := get_put_apart _ _ _ _ hf
  generalize hv : (w.setMode .hold).withdraw = v at h1 hp
  have h2 := holdRest_only v
  refine ⟨?_, ?_, ?_, ?_, ?_⟩
  · exact h2.modeEq.trans (h1.modeEq.trans (mode_setMode ..))
  · exact h2.get.trans (h1.get.trans ((hm (by decide)).trans hc.1))
  · exact h2.get.trans (h1.get.trans ((hm (by decide)).trans hc.2))
  · exact h2.get.trans hp.1
  · have ha : Only (P.cl ||| P.cls ||| P.vid ||| P.tiles ||| P.light ||| P.pgCmp) v ((v.abortClause true).stopLight) :=
      .comp (.comp (.refl ..) (State.abortClause_only ..)) (State.stopLight_only ..)
    have hb (x : State) : Only (P.isl ||| P.light ||| P.spd ||| P.pgSpd ||| P.sio ||| P.pgSio ||| P.skink ||| P.pgCrc ||| P.chains |||
        P.flt ||| P.pgAsp) x
        ({ ((x.holdOtp).clearFbInput).ccvAbandon with
          isl := { (((x.holdOtp).clearFbInput).ccvAbandon).isl with req := false, sense := none },
          light := { (((x.holdOtp).clearFbInput).ccvAbandon).light with fb := false } } : State).evalPolicies :=
      .comp (.upd (.comp (.comp (.comp (.refl ..) (State.holdOtp_only ..)) (State.clearFbInput_only ..)) (State.ccvAbandon_only ..)))
        (State.evalPolicies_only ..)
    refine (get_of_stat ((hb _).stat (by decide)) (by decide)).trans ?_
    refine Eq.trans ?_ ((get_of_stat (ha.stat (by decide)) (by decide)).trans hp.2)
    exact get_put_apart _ _ _ _ (by decide)

/-- In HOLD a later cause sets SYS_HOLDCAUSE.more (R38). -/
theorem enterHold_more {s : State} (h : s.mode = .hold) (code detail : Nat) :
    s.enterHold code detail = s.put F.SYS_HOLDCAUSE_more 1 := by rw [State.enterHold, if_pos h]

/-- HOLD forced by the safety island before SELFTEST has begun is kept until it would begin (R367). -/
theorem forceHold_early {s : State} (h : s.boot.phase = .locking ∨ s.boot.phase = .noLock) (code detail : Nat) :
    (s.forceHold code detail).boot.early = s.boot.early.or (some (code, detail)) := by
  unfold State.forceHold
  rcases h with h | h <;> rw [h] <;> cases he : s.boot.early <;> simp [he]

/-- Entry into HOLD keeps what was read of ACK_N at reset release. -/
theorem enterHold_ackLow (s : State) (code detail : Nat) : (s.enterHold code detail).boot.ackLow = s.boot.ackLow := by
  unfold State.enterHold
  split
  · rfl
  · dsimp only
    have h0 : (if s.mode = .selftest then s.leaveSelftest else s).ownSwap.boot = s.boot := by
      refine ((State.ownSwap_only _).boot (by decide)).trans ?_
      split
      · exact (State.leaveSelftest_only s).boot (by decide)
      · rfl
    generalize (if s.mode = .selftest then s.leaveSelftest else s).ownSwap = u at h0
    generalize hw : ((u.put F.SYS_HOLDCAUSE_code code).put F.SYS_HOLDCAUSE_detail detail).setMode .hold = w
    have h1 : w.boot = s.boot := by subst hw; exact h0
    have h2 : Only (P.chains ||| P.sio ||| P.stat ||| P.clk ||| P.pgChn ||| P.pgTil ||| P.pgSio ||| P.cl ||| P.cls ||| P.vid ||| P.tiles |||
        P.light ||| P.pgCmp) w
        ((w.withdraw.abortClause true).stopLight) :=
      .comp (.comp (.comp (.refl ..) (State.withdraw_only ..)) (State.abortClause_only ..)) (State.stopLight_only ..)
    have h3 (x : State) : Only (P.spd ||| P.pgSpd ||| P.sio ||| P.pgSio ||| P.skink ||| P.pgCrc) x
        (((x.holdOtp).clearFbInput).ccvAbandon) :=
      .comp (.comp (.comp (.refl ..) (State.holdOtp_only ..)) (State.clearFbInput_only ..)) (State.ccvAbandon_only ..)
    generalize hx : ((w.withdraw.abortClause true).stopLight) = x at h2
    have h4 := (h3 x.darkOff).boot (by decide)
    have h6 (y : State) : (({ y with isl := { y.isl with req := false, sense := none }, light := { y.light with fb := false } } :
        State).evalPolicies).boot = y.boot := (State.evalPolicies_only _).boot (by decide)
    rw [h6, h4]
    have h5 : x.darkOff.boot.ackLow = x.boot.ackLow := rfl
    rw [h5, h2.boot (by decide), h1]

/-- The total duration of SELFTEST, which a forced HOLD shows (R55), and the outputs that it switches off. -/
theorem forceHold_steps (s : State) :
    Only (P.chains ||| P.stat ||| P.clk ||| P.pgChn ||| P.pgTil ||| P.sio ||| P.pgSio ||| P.bist) s
      (if s.mode = .selftest then s.put F.BIST_TIME2_total (min (10 * s.boot.selfT) 65535) else s).withdraw :=
  .comp (.ite (.put (.refl ..)) (.refl ..)) (State.withdraw_only ..)

/-- HOLD forced by the safety island after SELFTEST began (R27): the mode, the cause with its detail, and the permit. -/
theorem forceHold_up {s : State} (hp : s.boot.phase = .up) (hm : s.mode ≠ .hold) (ha : s.mode = .selftest → s.boot.ackLow = false)
    (code detail : Nat) :
    (s.forceHold code detail).mode = .hold ∧ (s.forceHold code detail).get F.SYS_HOLDCAUSE_code = code % 256 ∧
      (s.forceHold code detail).get F.SYS_HOLDCAUSE_detail = detail % 65536 ∧
      (s.forceHold code detail).get F.CLK_STAT_permit = 0 ∧ (s.forceHold code detail).get F.SYS_STAT_permit = 0 := by
  have h := forceHold_steps s
  unfold State.forceHold
  rw [hp]
  dsimp only
  generalize (if s.mode = .selftest then _ else s : State).withdraw = t at h ⊢
  have hm' : t.mode ≠ .hold := by rw [h.modeEq]; exact hm
  have := enterHold_enters hm' code detail
  have hb : t.boot.ackLow = s.boot.ackLow := by rw [h.boot (by decide)]
  rw [if_neg]
  · exact this
  · rintro ⟨hs, hl, -⟩
    rw [enterHold_ackLow, hb, ha hs] at hl
    cases hl

/-- In HOLD a forced cause sets SYS_HOLDCAUSE.more and keeps the first code (R38). -/
theorem forceHold_hold {s : State} (hp : s.boot.phase = .up) (hm : s.mode = .hold) (code detail : Nat) :
    (s.forceHold code detail).mode = .hold ∧ (s.forceHold code detail).get F.SYS_HOLDCAUSE_more = 1 ∧
      (s.forceHold code detail).get F.SYS_HOLDCAUSE_code = s.get F.SYS_HOLDCAUSE_code := by
  have h := forceHold_steps s
  unfold State.forceHold
  rw [hp]
  dsimp only
  generalize (if s.mode = .selftest then _ else s : State).withdraw = t at h ⊢
  have hm' : t.mode = .hold := by rw [h.modeEq]; exact hm
  rw [if_neg (by simp [hm]), enterHold_more hm']
  refine ⟨?_, get_put_same _ _ _ (by decide), ?_⟩
  · rw [← hm']; exact mode_congr (get_put_apart _ _ _ _ (by decide))
  · rw [get_put_apart _ _ _ _ (by decide)]; exact h.get

/-- A reset other than a power-on reset (R40): the cause, the count, and the words of every other register. -/
theorem doReset_words (s : State) (bit a : Nat) :
    (s.doReset bit).reg a =
      if a = R.SYS_RSTCNT then insBits (s.reg R.SYS_RSTCNT) 0 16 (min (s.get F.SYS_RSTCNT_cnt + 1) 65535)
      else if a = R.SYS_RSTCAUSE then
        insBits (insBits (s.reg R.SYS_RSTCAUSE) bit 1 1) F.SYS_RSTCAUSE_last_hold.lo F.SYS_RSTCAUSE_last_hold.w (s.get F.SYS_HOLDCAUSE_code)
      else resetWord a := by
  unfold State.doReset
  dsimp only
  have hr (x : Nat) : ({ s.porState with sram := s.sram, ecc1 := s.ecc1, ecc2 := s.ecc2 } : State).reg x = resetWord x := rfl
  generalize ({ s.porState with sram := s.sram, ecc1 := s.ecc1, ecc2 := s.ecc2 } : State) = r at hr
  by_cases h1 : a = R.SYS_RSTCNT
  · subst h1
    rw [if_pos rfl]
    simp only [State.inc, State.incBy]
    rw [reg_put, if_pos (show R.SYS_RSTCNT = F.SYS_RSTCNT_cnt.addr from rfl)]
    have hc {u : State} {v : Nat} : ((((u.setReg R.SYS_RSTCNT (s.reg R.SYS_RSTCNT)).setBit R.SYS_RSTCAUSE bit true).put
        F.SYS_RSTCAUSE_last_hold v)).reg R.SYS_RSTCNT = s.reg R.SYS_RSTCNT := by
      rw [reg_put_ne _ _ _ (by decide), State.setBit, reg_setReg_ne _ _ (by decide), reg_setReg_same]
    simp only [State.get, show F.SYS_RSTCNT_cnt.addr = R.SYS_RSTCNT from rfl, hc]
    rfl
  · rw [if_neg h1]
    simp only [State.inc, State.incBy]
    rw [reg_put_ne _ _ _ h1]
    by_cases h2 : a = R.SYS_RSTCAUSE
    · subst h2
      rw [if_pos rfl, reg_put, if_pos (show R.SYS_RSTCAUSE = F.SYS_RSTCAUSE_last_hold.addr from rfl)]
      simp only [State.setBit, show F.SYS_RSTCAUSE_last_hold.addr = R.SYS_RSTCAUSE from rfl, reg_setReg_same,
        reg_setReg_ne _ _ (show R.SYS_RSTCAUSE ≠ R.SYS_RSTCNT by decide)]
      rfl
    · rw [if_neg h2, reg_put_ne _ _ _ h2, State.setBit, reg_setReg_ne _ _ h2, reg_setReg_ne _ _ h1, reg_setReg_ne _ _ h2, hr]

end Sys2Proof.Machine
end

