-- ==== Sys2Proof/Laws/Lanes.lean ====
section
/-! SUPPORT. The lane machine: what the entry into a state leaves (R93 to R96). -/

set_option Elab.async false

namespace Sys2Proof.Machine

@[simp] theorem onLane_regs (s : State) (l : Nat) (f : Lane → Lane) : (s.onLane l f).regs = s.regs := by
  unfold State.onLane; split <;> rfl

@[simp] theorem onLane_out (s : State) (l : Nat) (f : Lane → Lane) : (s.onLane l f).out = s.out := by
  unfold State.onLane; split <;> rfl

theorem onLane_get (s : State) (l : Nat) (f : Lane → Lane) (g : Fld) : (s.onLane l f).get g = s.get g := get_congr (onLane_regs ..) g

theorem lane_congr {s t : State} (h : t.link = s.link) (l : Nat) : t.lane l = s.lane l := by simp only [State.lane, h]

@[simp] theorem put_lane (s : State) (f : Fld) (v k : Nat) : (s.put f v).lane k = s.lane k := rfl
@[simp] theorem flag_lane (s : State) (f : Fld) (b : Bool) (k : Nat) : (s.flag f b).lane k = s.lane k := rfl
@[simp] theorem inc_lane (s : State) (f : Fld) (k : Nat) : (s.inc f).lane k = s.lane k := rfl
@[simp] theorem incBy_lane (s : State) (f : Fld) (n k : Nat) : (s.incBy f n).lane k = s.lane k := rfl
@[simp] theorem event_lane (s : State) (p n k : Nat) : (s.event p n).lane k = s.lane k := rfl
@[simp] theorem emit_lane (s : State) (o : Out) (k : Nat) : (s.emit o).lane k = s.lane k := rfl
@[simp] theorem emit_laneState (s : State) (o : Out) (k : Nat) : (s.emit o).laneState k = s.laneState k := rfl
@[simp] theorem emit_out (s : State) (o : Out) : (s.emit o).out = o :: s.out := rfl
@[simp] theorem flag_out (s : State) (f : Fld) (b : Bool) : (s.flag f b).out = s.out := rfl
@[simp] theorem event_out (s : State) (p n : Nat) : (s.event p n).out = s.out := rfl
@[simp] theorem inc_out (s : State) (f : Fld) : (s.inc f).out = s.out := rfl
@[simp] theorem setEq_lane (s : State) (l c k : Nat) (a b d : Int) : (s.setEq l c a b d).lane k = s.lane k := rfl
@[simp] theorem setEq_out (s : State) (l c : Nat) (a b d : Int) : (s.setEq l c a b d).out = s.out := rfl

@[simp] theorem onLane_laneState (s : State) (l k : Nat) (f : Lane → Lane) : (s.onLane l f).laneState k = s.laneState k :=
  onLane_get s l f _

/-- A lane that was changed. -/
theorem lane_onLane (s : State) {l : Nat} (hl : l < 4) (f : Lane → Lane) : (s.onLane l f).lane l = f (s.lane l) := by
  simp [State.onLane, State.lane, hl, vecSet]

@[simp] theorem lane_onLane_fin (s : State) (l : Fin 4) (f : Lane → Lane) : (s.onLane l f).lane l = f (s.lane l) := lane_onLane s l.isLt f

/-- The other lanes keep what stands beside their pages. -/
theorem lane_onLane_ne (s : State) {l k : Nat} (h : k ≠ l) (f : Lane → Lane) : (s.onLane l f).lane k = s.lane k := by
  unfold State.onLane
  split
  · simp [State.lane, vecSet, Vector.set, Array.getD, Array.getElem_set, Ne.symm h]
  · rfl

/-- A state of the lane machine is entered: its code (R93). -/
theorem laneState_setLane (s : State) (l : Nat) {st : Nat} (hs : st < 8) : (s.setLane l st).laneState l = st := by
  unfold State.setLane State.laneState
  rw [(State.showPos_only _).get (f := F.LNK_STAT_state l) leaves_lnk, get_put_same _ _ _ (show 0 + 3 ≤ 32 by decide)]
  exact Nat.mod_eq_of_lt hs

@[simp] theorem laneState_setLane_poll (s : State) (l : Nat) : (s.setLane l 2).laneState l = 2 := laneState_setLane s l (by decide)
@[simp] theorem laneState_setLane_caps (s : State) (l : Nat) : (s.setLane l 3).laneState l = 3 := laneState_setLane s l (by decide)
@[simp] theorem laneState_setLane_active (s : State) (l : Nat) : (s.setLane l 4).laneState l = 4 := laneState_setLane s l (by decide)

/-- Entering a state changes no other field of the lane pages. -/
theorem setLane_get (s : State) (l st : Nat) {f : Fld} (hf : leaves P.pgPkt f.addr = true) (hb : (F.LNK_STAT_state l).apart f = true) :
    (s.setLane l st).get f = s.get f := by
  unfold State.setLane
  rw [(State.showPos_only _).get hf, get_put_apart _ _ _ _ hb]

@[simp] theorem setLane_lane (s : State) (l st k : Nat) : (s.setLane l st).lane k = s.lane k :=
  lane_congr ((State.setLane_only s l st).link (by decide)) k

@[simp] theorem setLane_out (s : State) (l st : Nat) : (s.setLane l st).out = s.out := (State.setLane_only s l st).out (by decide)

/-- An aborted eye operation leaves the fields of LNK_STAT. -/
theorem eyeAbort_stat (s : State) (l lo w : Nat) : (s.eyeAbort l).get ⟨R.LNK_STAT l, lo, w⟩ = s.get ⟨R.LNK_STAT l, lo, w⟩ := by
  have h1 : R.LNK_STAT l ≠ R.LNK_EYECTL l := by unfold R.LNK_STAT R.LNK_EYECTL; omega
  have h2 : R.LNK_STAT l ≠ R.LNK_EYESTAT l := by unfold R.LNK_STAT R.LNK_EYESTAT; omega
  have h3 : R.LNK_STAT l ≠ R.PIRQ_RAW (4 + l) := by
    have : leaves 0 (R.LNK_STAT l) = true := leaves_lnk (by decide)
    exact ne_of_leaves_covers this (covers_raw 0 _)
  unfold State.eyeAbort
  dsimp only
  split
  · rw [State.event, State.setBit, get_setReg_ne _ _ h3, onLane_get, get_put_apart _ _ _ _ (Fld.apart_addr (Ne.symm h2)),
      get_put_apart _ _ _ _ (Fld.apart_addr (Ne.symm h2)), get_put_apart _ _ _ _ (Fld.apart_addr (Ne.symm h2)),
      get_put_apart _ _ _ _ (Fld.apart_addr (Ne.symm h1))]
  · rw [get_put_apart _ _ _ _ (Fld.apart_addr (Ne.symm h1))]

theorem eyeAbort_out (s : State) (l : Nat) : (s.eyeAbort l).out = s.out := (State.eyeAbort_only s l).out (by decide)

/-- EXIT is entered: the state code, the other fields of LNK_STAT, the reason for the wait, and the EIOS (R93, R95). -/
theorem toExit_leaves (s : State) {l : Nat} (hl : l < 4) (failed : Bool) :
    (s.toExit l failed).laneState l = 7 ∧ ((s.toExit l failed).lane l).failed = failed ∧
      (s.toExit l failed).out = .ordered l 6 eiosSet :: s.out ∧
      ∀ lo w, 3 ≤ lo → (s.toExit l failed).get ⟨R.LNK_STAT l, lo, w⟩ = s.get ⟨R.LNK_STAT l, lo, w⟩ := by
  unfold State.toExit
  dsimp only
  refine ⟨laneState_setLane _ _ (by decide), ?_, ?_, fun lo w h => ?_⟩
  · rw [setLane_lane, lane_onLane _ hl]
  · rw [setLane_out, onLane_out, eyeAbort_out]; rfl
  · have hb : (F.LNK_STAT_state l).apart ⟨R.LNK_STAT l, lo, w⟩ = true := Fld.apart_bits (.inl (Nat.ble_eq.mpr (show 0 + 3 ≤ lo from h)))
    have ha : leaves P.pgPkt (⟨R.LNK_STAT l, lo, w⟩ : Fld).addr = true := leaves_lnk (k := 0x50) (by decide)
    rw [setLane_get _ _ _ ha hb, onLane_get, eyeAbort_stat]
    rfl

/-- DETECT is entered by a lane that may train, OFF by another (R93). -/
theorem toDetect_state (s : State) (l : Nat) (h : s.laneOn l = true) : (s.toDetect l).laneState l = 1 := by
  rw [State.toDetect, if_pos h, laneState_setLane _ _ (by decide)]

/-- Whether a lane may train follows from the roles and the enables. -/
theorem laneOn_congr {s t : State} (h : ∀ a, a % 0x1000 = 0x40 ∨ a % 0x1000 = 8 → t.reg a = s.reg a) (l : Nat) : t.laneOn l = s.laneOn l := by
  have hr (n : Nat) : t.reg (R.LNK_ROLE n) = s.reg (R.LNK_ROLE n) := h _ (.inl (by unfold R.LNK_ROLE lnkAddr; omega))
  have hp (p : Nat) : t.reg (R.PCTRL p) = s.reg (R.PCTRL p) := h _ (.inr (by unfold R.PCTRL pageAddr; omega))
  simp only [State.laneOn, State.laneRole, State.roleLane, State.bonded, State.on, State.get, F.LNK_ROLE_bond, F.LNK_ROLE_role,
    F.PCTRL_en, hr, hp]
  rfl

theorem laneOn_onLane (s : State) (l k : Nat) (f : Lane → Lane) : (s.onLane l f).laneOn k = s.laneOn k :=
  laneOn_congr (fun a _ => reg_congr (onLane_regs ..) a) k

theorem laneOn_stat (s : State) (n k lo w v : Nat) : (s.put ⟨R.LNK_STAT n, lo, w⟩ v).laneOn k = s.laneOn k :=
  laneOn_congr (fun a ha => reg_put_ne _ _ _ (by rintro rfl; dsimp only [R.LNK_STAT, lnkAddr] at ha; omega)) k

/-- A lane is marked down or not (R95): the mark, and the fields of the lane pages. -/
theorem markDown_down (s : State) {l : Nat} (hl : l < 4) (b : Bool) : ((s.markDown l b).lane l).down = b := by
  unfold State.markDown
  rw [lane_congr ((setCond_act _ _ _ _).link (by decide)), lane_onLane _ hl]

theorem markDown_state (s : State) (l k : Nat) (b : Bool) : (s.markDown l b).laneState k = s.laneState k := by
  unfold State.markDown State.laneState
  rw [(setCond_act _ _ _ _).get (f := F.LNK_STAT_state k) leaves_lnk, onLane_get]

/-- An event leaves the lane pages. -/
theorem event_laneState (s : State) (p n l : Nat) : (s.event p n).laneState l = s.laneState l := by
  unfold State.laneState State.event State.setBit
  exact get_setReg_ne _ _ (ne_of_leaves_covers (E := 0) (leaves_lnk (k := 0x50) (by decide)) (covers_raw 0 _))

end Sys2Proof.Machine
end

