-- ==== Sys2Proof/Laws/Rows.lean ====
section
/-! SUPPORT. The rows that are one register write: a write that every check of R61 admits carries out the command of its word. -/

set_option Elab.async false

namespace Sys2Proof.Machine

/-- A word of which every field is WO, with no case of its own in the write path. -/
def woWord (a : Nat) (r : RegSpec) : Bool :=
  a % 0x1000 != 8 && !reservedEntry a && !readOnly r a && (crcSlot a).isNone && (raccAt a).isNone && r.rw == 0 && r.rwl == 0 &&
    r.rws == 0 && r.w1c == 0 && r.ro == 0 && BitVec.ofNat 32 r.wo != 0 && a != R.CLS_PTGT

/-- A write that holds the value of a word loses no configuration. -/
theorem changesSet_same (s : State) (a : Nat) : s.changesSet a (s.reg a) = false := by
  unfold State.changesSet
  cases regSpec a <;> simp

/-- A write of a WO word that the mode, the source, the owner and the clause admit is its command (R59, R61). -/
theorem writeReg_wo {s : State} {src : Src} {a : Nat} {v : Word} {r : RegSpec} (hr : regSpec a = some r) (hw : woWord a r = true)
    (hm : s.modeBars a v ⟨0, 0, 0, BitVec.ofNat 32 r.wo, 0⟩ = false) (hs : s.sourceBars src a v = false)
    (ho : s.owns src (pageOf a) = true) (hc : (a == R.CLS_COMMIT && s.commitBars src v) = false) :
    s.writeReg src a v = (s.command src a v, 0) := by
  simp only [woWord, Bool.and_eq_true, bne_iff_ne, Bool.not_eq_true', beq_iff_eq, Option.isNone_iff_eq_none] at hw
  obtain ⟨⟨⟨⟨⟨⟨⟨⟨⟨⟨⟨h8, hres⟩, hro⟩, hcrc⟩, hracc⟩, hrw⟩, hrwl⟩, hrws⟩, hw1c⟩, hro0⟩, hwo⟩, hpt⟩ := hw
  have hmix : r.mixed = false := by
    simp only [RegSpec.mixed, hrw, hrwl, hrws, hw1c, hro0]
    by_cases h : r.wo = 0 <;> simp [h]
  have ht : s.touch src r a v = ⟨0, 0, 0, BitVec.ofNat 32 r.wo, 0⟩ := by
    simp [State.touch, hmix, hrw, hrwl, hrws, hw1c]
  have hcheck : s.writeCheck src a v ⟨0, 0, 0, BitVec.ofNat 32 r.wo, 0⟩ = 0 := by
    simp only [State.writeCheck, hm, hs, ho, hracc, hc]
    simp [hpt]
  have hwo' : ¬BitVec.ofNat 32 r.wo = 0#32 := hwo
  have he (x : Word) : x &&& 4294967295#32 = x := BitVec.and_allOnes
  have hnone : (⟨0, 0, 0, BitVec.ofNat 32 r.wo, 0⟩ : Touch).none = false := by simp [Touch.none, hwo']
  have hf : s.writeFields src r a v ⟨0, 0, 0, BitVec.ofNat 32 r.wo, 0⟩ = s.command src a v := by
    simp only [State.writeFields, hcrc]
    simp [he, changesSet_same, hwo']
  unfold State.writeReg
  rw [if_neg h8]
  simp only [hr, hres, hro, ht, hcheck, hnone, hf]
  simp

/-- A WO word whose command no mode, source or clause refuses by a rule of its own. -/
def openWord (a : Nat) (r : RegSpec) : Bool :=
  woWord a r && (aspCtlAt a).isNone && a != R.ASP_FGRP && a != R.CLS_COMMIT && a != R.AXO_CTRL && a != R.SYS_MODEREQ &&
    a != R.SYS_RESET && a != R.SYS_ACK

/-- A row that writes such a word is the command of the word (R61). -/
theorem regRow_open {s : State} {src : Src} {a : Nat} {v : Word} {r : RegSpec} (hr : regSpec a = some r) (hw : openWord a r = true)
    (hm : s.mayCommand src (pageOf a)) : s.regRow src a v = .next (s.command src a v) := by
  simp only [openWord, Bool.and_eq_true, bne_iff_ne, ne_eq, Option.isNone_iff_eq_none] at hw
  obtain ⟨⟨⟨⟨⟨⟨⟨hw, hasp⟩, hfg⟩, hcm⟩, hax⟩, h1⟩, h2⟩, h3⟩ := hw
  obtain ⟨hl, hh, ho⟩ := hm
  rw [State.regRow, if_pos hl, writeReg_wo hr hw _ _ ho (by simp [hcm])]
  · by_cases hhold : s.mode = .hold
    · simp [State.modeBars, hhold, hh hhold, hax]
    · simp [State.modeBars, hhold, hax]
  · simp [State.sourceBars, hasp, hfg, hax, h1, h2, h3]

/-- A register that `openWord` admits by its table row. -/
def openAt (a : Nat) : Bool := match regSpec a with | some r => openWord a r | none => false

/-- A row that writes such a register is the command of its word (R61). -/
theorem regRow_openAt {s : State} {src : Src} {a : Nat} {v : Word} (h : openAt a = true) (hm : s.mayCommand src (pageOf a)) :
    s.regRow src a v = .next (s.command src a v) := by
  unfold openAt at h
  split at h
  · next r hr => exact regRow_open hr h hm
  · cases h

/-- LNK_CTRL takes the commands of its lane (R109). -/
theorem regRow_lnkCtrl {s : State} {src : Src} {l : Fin 4} {v : Word} (hm : s.mayCommand src (4 + l)) :
    s.regRow src (R.LNK_CTRL l) v = .next (s.lnkCtrl l v) := by
  have h : ∀ k : Fin 4, openAt (R.LNK_CTRL k) = true ∧ pageOf (R.LNK_CTRL k) = 4 + k.val := by decide
  have hc : s.command src (R.LNK_CTRL l) v = s.lnkCtrl l v := by
    have : ∀ k : Fin 4, R.LNK_CTRL k % 0x1000 ≠ 0x1C ∧ R.LNK_CTRL k % 0x1000 ≠ 0x20 ∧ R.LNK_CTRL k ≠ R.SYS_MODEREQ ∧
        R.LNK_CTRL k ≠ R.SYS_RESET ∧ R.LNK_CTRL k ≠ R.SYS_ACK ∧ R.LNK_CTRL k ≠ R.CLS_COMMIT ∧ R.LNK_CTRL k ≠ R.CLS_ABORT := by decide
    obtain ⟨h1, h2, h3, h4, h5, h6, h7⟩ := this l
    unfold State.command
    dsimp only
    rw [if_neg h1, if_neg h2, if_neg h3, if_neg h4, if_neg h5, if_neg h6, if_neg h7, (h l).2, if_pos (by omega),
      Nat.add_sub_cancel_left]
  rw [regRow_openAt (h l).1 (by rw [(h l).2]; exact hm), hc]

/-- The rows of SYS_MODEREQ, SYS_RESET and SYS_ACK are commands to the SPI port and an accepted safe PDU (R29, R39, R43). -/
theorem regRow_sys {s : State} {src : Src} {a : Nat} {v : Word} (ha : a = R.SYS_MODEREQ ∨ a = R.SYS_RESET ∨ a = R.SYS_ACK)
    (hs : src ≠ .lane) (hl : s.live = true) (ho : s.owns src 0 = true) : s.regRow src a v = .next (s.command src a v) := by
  have hp : pageOf a = 0 := by rcases ha with rfl | rfl | rfl <;> rfl
  obtain ⟨r, hr, hw⟩ : ∃ r, regSpec a = some r ∧ woWord a r = true := by
    rcases ha with rfl | rfl | rfl <;> exact ⟨_, rfl, by decide⟩
  have hn : aspCtlAt a = none ∧ a ≠ R.ASP_FGRP ∧ a ≠ R.CLS_COMMIT ∧ a ≠ R.AXO_CTRL := by
    rcases ha with rfl | rfl | rfl <;> decide
  rw [State.regRow, if_pos hl, writeReg_wo hr hw _ _ (by rw [hp]; exact ho) (by simp [hn.2.2.1])]
  · have : holdWritable 0 = true := rfl
    simp [State.modeBars, hp, this, hn]
  · simp [State.sourceBars, hn, hs]

end Sys2Proof.Machine
end

