-- ==== Sys2Proof/Tests/Slice0.lean ====
section
/-! SUPPORT. Small tests: each check of well-formedness refuses an ill-formed command, worked values of the spec, and for every
statement with hypotheses a state and operands that meet them. -/

namespace Sys2Proof.Tests

open Sys2Proof Sys2Proof.Machine

set_option Elab.async false

/-! ### WellFormed -/

theorem test_wf_registerWrite_address : Instr.wf (.registerWrite .spi 0x1F000 0) = false := by decide
theorem test_wf_registerWrite_alignment : Instr.wf (.registerWrite .spi 0x102 0) = false := by decide
theorem test_wf_stagedWrite_address : Instr.wf (.stagedWrite .lane 0x20000 0) = false := by decide
theorem test_wf_stagedWrite_alignment : Instr.wf (.stagedWrite .lane 0x6041 0) = false := by decide
theorem test_wf_windowWrite_below : Instr.wf (.windowWrite .spi 0x7FFF8 true 0) = false := by decide
theorem test_wf_windowWrite_above : Instr.wf (.windowWrite .spi 0x100000 true 0) = false := by decide
theorem test_wf_windowWrite_alignment : Instr.wf (.windowWrite .spi 0x80004 true 0) = false := by decide
theorem test_wf_windowWrite_width : Instr.wf (.windowWrite .spi 0x80004 false 0x100000000) = false := by decide
theorem test_wf_selftestStepComplete : Instr.wf (.selftestStepComplete ⟨true, 0, 1, 50, [0, 0, 0, 0, 0, 0]⟩) = false := by decide
theorem test_wf_safetyTick : Instr.wf (.safetyTick ⟨0, 0, 0, 0, true, 40000, 32768, 12500, 3125, -300⟩) = false := by decide
theorem test_wf_eyePoint : Instr.wf (.eyePoint .spi 0 2) = false := by decide
theorem test_wf_eyeScan : Instr.wf (.eyeScan .spi 0 1) = false := by decide
theorem test_wf_eyeOpComplete : Instr.wf (.eyeOpComplete 0 ⟨0, [[1]], []⟩) = false := by decide
theorem test_wf_skipSetReceive : Instr.wf (.skipSetReceive ⟨0, 3, 25⟩) = false ∧ Instr.wf (.skipSetReceive ⟨0, 6, 0⟩) = false := by decide
theorem test_wf_fastBurst : Instr.wf (.fastBurst 1638 (Vector.replicate 64 ⟨0, false, false, false⟩)) = false := by decide
theorem test_wf_packet_body : Instr.wf (.vline 0 ⟨0, 0, List.replicate 65536 0, 0, true⟩) = false := by
  rw [Instr.wf, Pkt.wf, List.length_replicate]; decide
theorem test_wf_tileRegGo : Instr.wf (.tileRegGo .spi 0 0x10000) = false := by decide
theorem test_wf_chain_body : Instr.wf (.ackReturn 0 ⟨0, 0, 0, List.replicate 4097 0, 0, false, [], []⟩) = false := by
  rw [Instr.wf, ChainPkt.wf, List.length_replicate]; decide
theorem test_wf_senseBlock (d : List Byte) (h : d.length = 513) : Instr.wf (.senseBlock 0 ⟨0, 0, 0, Vector.replicate 9 0, 0, false,
    Vector.replicate 8 ⟨d, 0⟩, [], []⟩) = false := by
  simp [Instr.wf, h]
theorem test_wf_accepts : Instr.wf (.registerWrite .spi 0x104 5) = true := by decide

/-! ### Worked values of the spec -/

/-- The nine ASCII bytes "123456789" (R395). -/
def digits : List Byte := [0x31, 0x32, 0x33, 0x34, 0x35, 0x36, 0x37, 0x38, 0x39]

theorem test_crc_link : crcLink digits = 0xCBF43926 ∧ crcLink [] = 0 := by decide +kernel
theorem test_crc_chain : crcChain digits = 0x29B1 := by decide +kernel
theorem test_crc_eight : crc8 digits = 0xDF := by decide +kernel
/-- The example of R210: D = 50, T = 320, from 4,096 to 410 on curve 2, 100 periods after ps. -/
theorem test_fade_example :
    ({ State.reset.put (F.ASP_FADE_time 0) 320 |>.put (F.ASP_FADE_curve 0) 2 with
       sram := [(0x8DF000 + 512 * 2 + 158, 0xF5), (0x8DF000 + 512 * 2 + 159, 0x04), (0x8DF000 + 512 * 2 + 160, 0x05),
         (0x8DF000 + 512 * 2 + 161, 0x05)] } : State).fadeAt 0 { f0 := 4096, tgt := 410, ps := 0 } 100 = (2945, true) := by
  decide +kernel

/-- K28.5 in both disparities (the code of IEEE 802.3 clause 36, log entry 10), and a wrong disparity at the start. -/
theorem test_line_comma : (State.reset.decodeWord 0 [0x0FA, 0x305]).1 = [⟨true, 0xBC, false, false⟩, ⟨true, 0xBC, false, false⟩] ∧
    (State.reset.decodeWord 0 [0x305]).1 = [⟨true, 0xBC, false, true⟩] := by decide +kernel

/-! ### Witnesses: a state and operands that meet the hypotheses of each statement, clause by clause -/

/-- A small state: reset, in a mode, with values in some fields. -/
def w (m : Mode) (fs : List (Fld × Nat) := []) : State :=
  fs.foldl (fun s f => s.put f.1 f.2) (State.reset.put F.SYS_STAT_mode m.code)

/-- A whole link packet with its CRC. -/
def pkt (typ : Nat) (body : List Byte) : Pkt :=
  let p : Pkt := ⟨1, BitVec.ofNat 16 body.length, body, 0, true⟩
  { p with crc := BitVec.ofNat 32 (crcLink (pktHead typ p ++ body)) }

/-- A whole chain item with its CRC. -/
def item (h0 h1 : Nat) (body : List Byte) : ChainPkt :=
  ⟨BitVec.ofNat 8 h0, BitVec.ofNat 8 h1, 0, body,
    BitVec.ofNat 16 (crcChain (BitVec.ofNat 8 h0 :: BitVec.ofNat 8 h1 :: leBytes 2 0 ++ body)), false, [], []⟩

/-- A device that drives one chain of one tile, in RUN. -/
def chained (fs : List (Fld × Nat) := []) : State :=
  (w .operate ([(F.CHN_CTRL_en 0, 1), (F.CHN_CTRL_tiles 0, 1), (F.TIL_MAP_en 0, 1), (F.CHN_STAT_state 0, 2), (F.CHN_STAT_drv 0, 1),
    (F.PLC_PHASE_d, 50)] ++ fs)).onChain 0 fun ch => { ch with marked := some 0 }

theorem witness_stepRunsFront : { State.reset with pending := [.nop] }.pending = .nop :: [] := rfl
theorem witness_stepIdles : State.reset.pending = [] := rfl
theorem witness_stepKeepsInv : (w .hold).Inv ∧ step (w .hold) = .next { w .hold with now := 1 } := ⟨by unfold State.Inv; decide, rfl⟩
theorem witness_commandsLeaveQueue : exec .nop (w .configure) = .next (w .configure) ∧ Instr.nop ≠ .periodStart := ⟨rfl, by decide⟩
theorem witness_otpKept : (∀ ok, Instr.nop ≠ .otpProgramDone ok) ∧ exec .nop (w .configure) = .next (w .configure) :=
  ⟨fun _ h => Instr.noConfusion h, rfl⟩
theorem witness_resetSources :
    (200 ≤ 200 ∧ { State.reset with boot := { phase := .up } }.boot.phase ≠ .held ∧ State.reset.pair.rstLow = false) ∧
      ((w .configure).live = true ∧ (w .configure).driving = false ∧ (w .configure).owns .spi 0 = true) ∧
    (∀ m ∈ [Mode.operate, .fallback], ∀ d ∈ [none, some DarkTarget.configure],
      let s : State := { w m with boot := { dark := d } }
      Src.pdu ≠ .lane ∧ s.live = true ∧ s.owns .pdu 0 = true ∧ s.driving = true ∧ s.boot.dark = d) := by decide
theorem witness_resetPulse : { State.reset with boot := { phase := .up } }.boot.phase ≠ .held ∧ 49 < 50 ∧ State.reset.pair.rstLow = false := by
  decide
theorem witness_startUp : State.reset.boot.phase = .held ∧
    ({ State.reset with boot := { phase := .locking } }.boot.phase = .locking ∧
      { State.reset with boot := { phase := .locking } }.boot.early = none) ∧
    { State.reset with boot := { phase := .noLock } }.boot.phase = .noLock := by decide
theorem witness_islandHold :
    (let s : State := { w .operate with boot := { phase := .up }, isl := { wdogDue := true, hot := 3, clkOff := ⟨#[0, 0, 0, 2], rfl⟩ } }
     s.boot.phase = .up ∧ s.mode ≠ .selftest ∧ s.isl.clkBad = false ∧ s.isl.clkOff.toList.findIdx? (2 ≤ ·) = some 3 ∧
       s.live = true ∧ s.isl.wdogDue = true ∧ s.isl.wdogExp = false ∧ 3 ≤ s.isl.hot ∧ s.isl.hotTrip = false) ∧
    (let s : State := { State.reset with boot := { phase := .up, glitch := 2 } }
     s.boot.phase = .up ∧ s.boot.ackLow = false ∧ s.boot.glitch ≠ 0) := by decide
theorem witness_selftest :
    (let s : State := { State.reset with boot := { phase := .up } }
     s.boot.phase = .up ∧ s.mode = .selftest ∧ s.boot.ackLow = false ∧ s.boot.step = 0 ∧ s.idOk = true) ∧
    { State.reset with boot := { phase := .up }, otp := [] }.idOk = false ∧
    (∀ k ∈ [1, 8], { State.reset with boot := { phase := .up, step := k } }.boot.step = k ∧ 2 ≤ k + 1 ∧ k + 1 ≤ 9) := by decide +kernel
theorem witness_accessSizes :
    (∀ e ∈ [(0x1F000, 4), (0x7FFFC, 4), (0x100000, 4), (0x2, 4), (0x1EFF8, 8), (0x80004, 8), (0x80000, 2)],
      ¬ ((e.2 = 4 ∧ e.1 % 4 = 0 ∧ (e.1 < 0x1F000 ∨ 0x80000 ≤ e.1 ∧ e.1 < 0x100000)) ∨
        (e.2 = 8 ∧ e.1 % 8 = 0 ∧ 0x80000 ≤ e.1 ∧ e.1 < 0x100000))) ∧
    (∀ e ∈ [(0x1EFFC, 4), (0x80000, 4), (0xFFFFC, 4), (0xFFFF8, 8)],
      (e.2 = 4 ∧ e.1 % 4 = 0 ∧ (e.1 < 0x1F000 ∨ 0x80000 ≤ e.1 ∧ e.1 < 0x100000)) ∨
        (e.2 = 8 ∧ e.1 % 8 = 0 ∧ 0x80000 ≤ e.1 ∧ e.1 < 0x100000)) := by decide
theorem witness_pageInterrupts : (31 < 32) ∧ (w .hold).live = true ∧ (w .hold).owns .lane 30 = true := by decide
theorem witness_codesPacketBody : 1 ≤ 1 := by decide

theorem witness_laneEnds :
    ((w .configure [(F.LNK_STAT_state 3, 2), (F.LNK_STAT_sym_lock 3, 1)]).laneState 3 = 2 ∧
      (w .configure [(F.LNK_STAT_state 3, 2), (F.LNK_STAT_sym_lock 3, 1)]).on (F.LNK_STAT_sym_lock 3) = true) ∧
    (w .configure [(F.LNK_STAT_state 0, 3)]).laneState 0 = 3 ∧
    (let s := (w .hold [(F.LNK_STAT_state 3, 4)]).onLane 3 fun ln => { ln with bucket := 256 }
     s.laneState 3 = 4 ∧ 256 ≤ (s.lane 3).bucket ∧ s.mayCommand .spi 7) := by unfold State.mayCommand; decide
theorem witness_laneTrains :
    (w .configure [(F.LNK_STAT_state 3, 1)]).laneState 3 = 1 ∧
    (let s := (w .configure [(F.LNK_STAT_state 3, 2)]).onLane 3 fun ln => { ln with comAt := 9, comN := 2 }
     s.laneState 3 = 2 ∧ s.on (F.LNK_STAT_sym_lock 3) = false ∧ (s.lane 3).comAt = (9 : Fin 10).val ∧
       (s.lane 3).comAt ≠ (0 : Fin 10).val ∧ 2 ≤ (s.lane 3).comN) ∧
    (let s := (w .configure [(F.LNK_STAT_state 3, 2), (F.LNK_STAT_sym_lock 3, 1)]).onLane 3 fun ln =>
       { ln with ts2N := 7, validN := 7, past20 := true }
     s.laneState 3 = 2 ∧ s.on (F.LNK_STAT_sym_lock 3) = true ∧ (0 : Byte).toNat = s.link.rate ∧ 7 ≤ (s.lane 3).ts2N ∧
       7 ≤ (s.lane 3).validN ∧ (s.lane 3).past20 = true) ∧
    (let s := w .configure [(F.LNK_STAT_state 3, 7)]
     s.laneOn 3 = true ∧ s.laneState 3 = 7 ∧ s.link.change < 2 ∧ (s.lane 3).failed = false ∧ s.mayCommand .pdu 7) ∧
    (let s := (w .configure [(F.LNK_STAT_state 3, 7), (F.LNK_STAT_fails 3, 16)]).onLane 3 fun ln => { ln with failed := true }
     s.laneOn 3 = true ∧ s.laneState 3 = 7 ∧ s.link.change < 2 ∧ (s.lane 3).failed = true ∧ s.get (F.LNK_STAT_fails 3) = 16) ∧
    (w .configure [(F.LNK_STAT_state 3, 5)]).laneState 3 = 5 := by unfold State.mayCommand; decide
theorem witness_acknowledgements :
    (∀ n ∈ [200, 19999], ∀ m ∈ [Mode.selftest, .mirror, .hold],
      let s : State := { w m with isl := { ackRel := some n }, boot := { phase := .up } }
      s.boot.phase = .up ∧ s.isl.ackRel = some n ∧ s.isl.ackVoid = false ∧ 200 ≤ n ∧ n < 20000) ∧
    (∀ n ∈ [199, 20000], let s : State := { w .hold with isl := { ackRel := some n }, boot := { phase := .up } }
      s.boot.phase = .up ∧ s.isl.ackRel = some n ∧ (s.isl.ackVoid = true ∨ n < 200 ∨ 20000 ≤ n)) ∧
    (let s : State := { w .hold with isl := { ackSrc := some .spi } }
     s.live = true ∧ s.owns .spi 0 = true ∧ s.isl.ackSrc = some .spi ∧ s.mode ≠ .mirror ∧ (0 : Word) ≠ 0xA5 ∧ (0 : Word) ≠ 0x5A) ∧
    (let s : State := { w .hold [(F.SYS_ACKSTAT_stuck, 0)] with isl := { ackLen := 20000, ackLvl := false }, boot := { phase := .up } }
     s.boot.phase = .up ∧ s.isl.ackLvl = false ∧ 20000 ≤ s.isl.ackLen ∧ s.get F.SYS_ACKSTAT_stuck = 0) ∧
    (let s : State := { w .hold [(F.SYS_ACKSTAT_stuck, 1)] with isl := { ackHigh := 1000 } }
     s.get F.SYS_ACKSTAT_stuck = 1 ∧ 1000 ≤ s.isl.ackHigh) := by decide
theorem witness_periodStarts : (w .operate [(F.PLC_PHASE_d, 50)]).live = true ∧ (w .operate).link.queue = [] := by decide
theorem witness_safetyTick : { State.reset with boot := { phase := .up } }.boot.phase = .up := rfl
theorem witness_modeChanges :
    (∀ m ∈ [Mode.hold, .configure, .operate, .mirror, .fallback], (w m).mode = m ∧ (w m).live = true ∧ (w m).owns .spi 0 = true ∧
      (w m).pair.tkP = none ∧ (w m).boot.dark = none) ∧
    (∀ m ∈ [Mode.operate, .fallback], let s : State := { w m with boot := { dark := some .configure } }
      s.live = true ∧ s.owns .spi 0 = true ∧ s.boot.dark.isSome = true) ∧
    (∀ d ∈ [DarkTarget.configure, .hold 65535, .reset],
      let s : State := { (w .fallback).setRegN R.CLS_PNOW 1 with boot := { dark := some d, darkFrom := some 4294967295 } }
      s.driving = true ∧ s.boot.darkFrom = some 4294967295 ∧ perReached (perAdd 4294967295 2) s.pnow = true ∧ s.boot.dark = some d) := by
  decide
theorem witness_hostConnection :
    (∀ m ∈ [Mode.mirror, .hold, .fallback, .operate], ∀ v ∈ [0, 1],
      let s : State := { w m [(F.SYS_HOSTTO_ms, 65535), (F.SYS_FBSTAT_valid, v)] with spd := { host := 655351 } }
      s.live = true ∧ s.get F.SYS_STAT_host_lost = 0 ∧ 10 * s.get F.SYS_HOSTTO_ms < s.spd.host ∧ s.mode = m ∧
        s.light.back = false ∧ s.boot.dark = none ∧ s.get F.SYS_FBSTAT_valid = v) ∧
    (let s : State := { w .operate [(F.SYS_STAT_host_lost, 1), (F.SYS_HOSTTO_ms, 1)] with spd := { host := 11 } }
     s.live = true ∧ 10 * s.get F.SYS_HOSTTO_ms < s.spd.host ∧ s.mode = .operate ∧ s.boot.dark = none ∧ s.get F.SYS_FBSTAT_valid = 0) ∧
    (let s : State := { w .configure [(F.SYS_HOSTTO_ms, 1), (F.SYS_FBSTAT_valid, 1)] with spd := { failT := 11 }, boot := { cfgFailed := true } }
     s.mode = .configure ∧ s.boot.cfgFailed = true ∧ 10 * s.get F.SYS_HOSTTO_ms < s.spd.failT ∧ s.get F.SYS_FBSTAT_valid = 1 ∧
       s.roleRow.1 ≤ 1) ∧
    (let s : State := { w .configure [(F.SYS_CFGTO_ms, 1)] with spd := { cfgT := 11, texp := 255, dl := 2551 } }
     s.mode = .configure ∧ s.get F.SYS_CFGTO_ms ≠ 0 ∧ s.spd.cfgOver = false ∧ 10 * s.get F.SYS_CFGTO_ms < s.spd.cfgT ∧ s.live = true ∧
       s.spd.texp ≠ 0 ∧ 10 * s.spd.texp < s.spd.dl) := by decide
theorem witness_writeChecks :
    ((w .hold).live = true ∧ (w .hold).owns .lane 30 = true ∧ (30 : Fin 31).val ∉ [18, 24, 26, 28] ∧
      (w .hold).get (F.PERR_valid 10) = 0 ∧ (w .hold).mode = .hold) ∧
    (let s := (w .configure [(F.PERR_valid 30, 1)]).setReg R.SYS_OWN0 0
     s.live = true ∧ s.owns .spi 0 = false ∧ s.get (F.PERR_valid 0) = 0 ∧ s.get (F.PERR_valid 30) = 1) ∧
    0x1EFFF < 0x1F000 ∧ 0x1EFFF % 4 ≠ 0 ∧ (w .hold).get (F.PERR_valid (pageOf 0x1EFFF)) = 0 := by decide
theorem witness_stagedWrite :
    ((regSpec R.PLC_PWM).any fun r => r.rws != 0 && r.rw == 0 && r.rwl == 0 && r.wo == 0 && r.w1c == 0 && r.ro == 0) = true ∧
    (∀ st ∈ [0, 1], let s := w .configure [(F.CLS_STAT_state, st), (F.CLS_STAT_owner, ownerOfSrc .spi)]
      R.PLC_PWM % 4 = 0 ∧ s.mode = .configure ∧ s.owns .spi (pageOf R.PLC_PWM) = true ∧ s.locked (pageOf R.PLC_PWM) = false ∧
        s.spd.conf = false ∧ reservedEntry R.PLC_PWM = false ∧ s.get F.CLS_STAT_state = st ∧
        s.get F.CLS_STAT_owner = ownerOfSrc .spi) ∧
    (∀ e ∈ [(Mode.operate, R.VIN_RATE), (.fallback, R.VIN_RATE), (.mirror, R.VIN_RATE), (.hold, R.ADC_CFG)],
      ((regSpec e.2).any fun r => r.rws != 0 && r.rw == 0 && r.rwl == 0 && r.wo == 0 && r.w1c == 0 && r.ro == 0) = true ∧
      let s := w e.1
      e.2 % 4 = 0 ∧ s.live = true ∧ s.owns .pdu (pageOf e.2) = true ∧ (s.mode = .hold → holdWritable (pageOf e.2) = true) ∧
        e.2 ≠ R.PLC_PWM ∧ (∀ c : Fin 20, e.2 ≠ R.CHN_CTRL c) ∧ (∀ i : Fin 80, e.2 ≠ R.TIL_MAP i) ∧ s.locked (pageOf e.2) = false ∧
        s.spd.conf = false ∧ reservedEntry e.2 = false ∧ s.get F.CLS_STAT_state = 0) := by decide
theorem witness_windowWrite :
    (let s : State := { w .configure with cl := { winSpi := 17 } }
     s.live = true ∧ s.sram.wf = true ∧ s.ecc1 = [] ∧ s.ecc2 = [] ∧ 0xC0000 % 8 = 0 ∧ s.windowAddr .spi 0xC0000 = 0x8C0000 ∧
       s.windowCheck 0x8C0000 8 = 0 ∧ inSet 0x8C0000 = true) ∧
    (w .configure).windowAddr .spi 0xFFFFC < 0x8C0000 ∧ 0xFFFFC % 4 = 0 ∧ 0xFFFFC < 0x100000 ∧
      (w .configure).get F.SYS_WINERR_valid = 0 := by decide
theorem witness_pageHeader :
    (∀ p : Fin 31, (w .configure).owns .spi p = true ∧ (w .configure).get (F.PCTRL_en p) = 1 ∧
      (w .configure).get (F.PCTRL_freeze p) ≠ true.toNat ∧ (w .configure [(F.PCTRL_freeze p, 1)]).get (F.PCTRL_freeze p) ≠ false.toNat ∧
      (w .configure).locked p = false) ∧
    (w .configure).live = true ∧ (w .configure).spd.conf = false ∧ enWritable 25 = true ∧ enWritable 30 = true ∧
    (∀ p : Fin 31, p.val ∈ [4, 5, 6, 7, 24, 28] → enWritable p = true) ∧
    (∀ p ∈ [(7 : Fin 31), 24], enWritable p = true ∧ holdWritable p = true ∧ (w .hold).mode = .hold ∧ (w .hold).owns .spi p = true ∧
      (w .hold).locked p = false ∧ (w .hold).spd.conf = false) ∧
    lockable 1 = false ∧ lockable 30 = true := by decide
theorem witness_countersClear : ∀ p ∈ [8, 10, 11, 12, 13, 14, 15, 26, 27, 28, 29], (w .operate).mayCommand .spi p := by
  unfold State.mayCommand; decide
theorem witness_countersClearApart : ∀ p ∈ [4, 5, 6, 7, 9, 11, 18, 19, 20, 24, 25, 30], (w .operate).mayCommand .pdu p := by
  unfold State.mayCommand; decide
theorem witness_converterOperation :
    (let s := w .operate [(F.ADC_RCFG_trig, 3), (F.ADC_ICFG_trig, 2), (F.ADC_ICFG_slot, 408), (F.PLC_PHASE_d, 50),
       (F.ADC_CALCFG_period, 1), (F.ADC_CALSTAT_aband, 7)]
     s.live = true ∧ s.get (F.PCTRL_en 24) = 1 ∧ s.mayCommand .spi 24 ∧ s.get F.ADC_RCFG_trig = 3 ∧ s.get F.ADC_STAT_rbusy = 0 ∧
       s.adc.running = none ∧ s.get F.ADC_STAT_ibusy = 0 ∧ s.get F.ADC_STAT_cal_pend = 0 ∧ s.get F.ADC_STAT_cal_run = 0 ∧
       s.get F.ADC_ICFG_trig = 2 ∧ s.get F.ADC_ICFG_slot < slotsOf s.dNow ∧ s.get F.ADC_CALCFG_period ≠ 0 ∧
       s.get F.ADC_CALSTAT_aband < 8 ∧ s.adc.rback = false) ∧
    (let s : State := { w .operate [(F.ADC_STAT_rbusy, 1)] with adc := { running := some (false, 31) } }
     s.get F.ADC_STAT_rbusy = 1 ∧ s.adc.running = some (false, 31) ∧ s.get F.ADC_STAT_ibusy = 0 ∧ s.adc.running.isSome = true) ∧
    (let s : State := { w .operate [(F.ADC_STAT_rbusy, 1), (F.ADC_STAT_ibusy, 1)] with adc := { running := some (true, 3) } }
     s.get F.ADC_STAT_rbusy = 1 ∧ s.adc.running = some (true, 3) ∧ s.get F.ADC_STAT_ibusy = 1 ∧ s.get F.ADC_STAT_ipend = 0) ∧
    (let s := w .operate
     s.live = true ∧ s.get (F.PCTRL_en 24) = 1 ∧ s.mayCommand .pdu 24 ∧ s.get F.ADC_RCFG_trig = 0 ∧ s.get F.ADC_STAT_rbusy = 0 ∧
       s.adc.running = none ∧ s.adc.reserved = false ∧ s.get F.ADC_STAT_ibusy = 0 ∧ s.get F.ADC_STAT_cal_pend = 0 ∧
       s.get F.ADC_STAT_cal_run = 0) ∧
    (let s := w .operate [(F.ADC_STAT_cal_run, 1)]
     s.get F.ADC_STAT_cal_run = 1 ∧ s.get F.ADC_STAT_cal_pend = 0) := by unfold State.mayCommand; decide
/-- Calibration results at the edge of their limits: good ones, and one slice with a reference and one with a gain just outside. -/
theorem witness_converterOperation_calibration :
    let refs := fun c : CalSlice => c.gnd.2 ≤ 0x008 ∧ 0x7F8 ≤ c.mid.1 ∧ c.mid.2 ≤ 0x808 ∧ 0x9B4 ≤ c.gap.1 ∧ c.gap.2 ≤ 0x9D4
    let fits := fun c : CalSlice => -128 ≤ c.ofs ∧ c.ofs ≤ 127 ∧ -2048 ≤ c.gain ∧ c.gain ≤ 2047 ∧ -128 ≤ c.skew ∧ c.skew ≤ 127
    let good : CalSlice := ⟨(0, 8), (0x7F8, 0x808), (0x9B4, 0x9D4), -128, 2047, -128⟩
    refs good ∧ fits good ∧ ¬ refs { good with gnd := (0, 9) } ∧ ¬ fits { good with gain := 2048 } := by decide
theorem witness_converterData :
    (let s : State := { w .operate [(F.ADC_CFG_ilv, 1), (F.ADC_CFG_fmask, 1), (F.PLC_PHASE_d, 50), (F.ADC_CFG_bgc, 1),
       (F.ADC_CAPSTAT_state, 1)] with adc := { running := some (true, 3), iseq := [0, 0, 0, 5] } }
     s.live = true ∧ s.get (F.PCTRL_en 24) = 1 ∧ s.adc.running = some (true, 3) ∧ 3 < 4 ∧ s.adc.iseq.getD 3 0 = 5 ∧
       s.get F.ADC_CFG_ilv = 1 ∧ s.get F.ADC_CFG_fmask ≠ 0 ∧ 408 < slotsOf s.dNow ∧ s.get F.ADC_STAT_cal_run = 0 ∧
       s.get F.ADC_CFG_bgc = 1 ∧ s.get F.ADC_CAPSTAT_state = 1 ∧ s.mayCommand .spi 24) ∧
    (∀ hi ∈ [162, 163], let s : State := { w .operate [(F.ADC_CFG_bgc, 1)] with adc := { bgcN := 65536, bgcLo := 100, bgcHi := hi } }
     s.live = true ∧ s.get (F.PCTRL_en 24) = 1 ∧ s.get F.ADC_CFG_bgc = 1 ∧ 65536 ≤ s.adc.bgcN ∧
       (s.adc.bgcHi + 1 < s.adc.bgcLo + 64 ∨ s.adc.bgcLo + 64 ≤ s.adc.bgcHi + 1)) ∧
    (let s := (w .operate [(F.BAL_CTRL_en, 1), (F.ADC_CFG_fmask, 15), (F.SPL_CTRL_en 3, 1), (F.PLC_PHASE_d, 50),
       (F.BAL_CFG_win, 1)]).setRegN R.CLS_PNOW 2
     (List.range 4).any s.balJudges = true ∧
       perReached (perAdd s.bal.start[0] (s.get F.BAL_CFG_win * cycleOf s.dNow)) s.pnow = true) := by
  unfold State.mayCommand; decide
theorem witness_crcContexts :
    (w .operate).mayCommand .spi 29 ∧ (62 : Fin 64).val ≠ 63 ∧ (w .operate).jobNames 62 = false ∧
    (let s : State := { w .operate [(F.CRC_SKSTAT_state, 1)] with skink := { used := [62] } }
     s.mayCommand .spi 29 ∧ s.jobNames 62 = true) := by unfold State.mayCommand; decide +kernel
theorem witness_skinkJob :
    (let s : State := { w .operate with sram := [(0xD44004, 4)] }
     s.mayCommand .spi 29 ∧ s.get F.CRC_SKSTAT_state = 0 ∧ s.get F.CRC_SKSTAT_ccv = 0 ∧ s.ecc1 = [] ∧ s.ecc2 = [] ∧
       descErr (s.skDesc 0 0) (s.skDesc 0 1) (s.skDesc 0 2) = 0 ∧ descErr (s.skDesc 1023 0) (s.skDesc 1023 1) (s.skDesc 1023 2) ≠ 0) ∧
    (let s : State := { w .operate [(F.CRC_SKSTAT_state, 1)] with skink := { at' := 7, left := 2 } }
     s.mayCommand .pdu 29 ∧ s.skink.ccv = 0 ∧ s.get F.CRC_SKSTAT_state = 1 ∧ getBits s.skink.desc[0] 24 1 = 0 ∧
       8 - s.skink.at' % 8 < s.skink.left) ∧
    (let s : State := { w .operate [(F.CRC_SKSTAT_state, 1)] with skink := { at' := 0x44, left := 5, desc := ⟨#[0x1000000, 0, 5, 0], rfl⟩ } }
     s.skink.ccv = 0 ∧ s.get F.CRC_SKSTAT_state = 1 ∧ getBits s.skink.desc[0] 24 1 = 1 ∧ 5 = descCtx s.skink.desc[2].toNat ∧
       4 < s.skink.left) ∧
    (let s : State := { w .operate [(F.CRC_SKSTAT_state, 1)] with skink := { at' := 0x40, left := 8, desc := ⟨#[0, 0, 5, 0x8000], rfl⟩ } }
     s.skink.ccv = 0 ∧ s.get F.CRC_SKSTAT_state = 1 ∧ s.ecc1 = [] ∧ s.ecc2 = [] ∧ getBits s.skink.desc[0] 24 1 = 0 ∧
       s.skink.left ≤ 8 - s.skink.at' % 8 ∧ getBits s.skink.desc[3] 15 1 = 1) := by unfold State.mayCommand; decide +kernel
theorem witness_skinkJob_ccv : (w .operate).ecc1 = [] ∧ (w .operate).ecc2 = [] ∧
    { (w .operate).skink with ccv := 2, pos := 409599 }.ccv ≠ 0 ∧ { (w .operate).skink with ccv := 2, pos := 409599 }.pos < ccvTotal := by
  have h (k : Nat) : 409599 < ccvLength k := by simp only [ccvLength]; omega
  exact ⟨by decide, by decide, by decide, h ccvRegs⟩
theorem witness_confirmation :
    ((w .configure).mode = .configure ∧ (w .configure).blocked = false ∧ (w .configure).get F.CLS_STAT_state = 0 ∧
      (w .configure).cl.implicit = []) ∧
    ((w .operate).live = true ∧ (w .operate).mode ≠ .configure ∧ (w .operate).blocked = false) ∧
    ((w .operate [(F.SYS_STAT_cfg_ok, 1)]).lightMode = true ∧ (w .operate [(F.SYS_STAT_cfg_ok, 1)]).get F.SYS_STAT_cfg_ok = 1 ∧
      (w .operate).skink.ccv = 0) ∧
    (let s : State := { w .configure [(F.CRC_CFG_w 63, 32)] with spd := { conf := true }, skink := { ccv := 2 } }
     s.get (F.CRC_CFG_w 63) = 32 ∧ s.spd.conf = true ∧ s.spd.pdu = none ∧ s.link.queue = [] ∧ s.spd.lock = false ∧
       s.get F.SPD_OTPSTAT_com = 0 ∧ s.get F.SYS_LOCK_cl = 0 ∧ s.skink.ccv = 2 ∧ s.ecc1 = [] ∧
       s.ecc2 = []) := by decide +kernel

theorem witness_linkRequests :
    (let s := w .configure [(F.LNK_STAT_state 1, 4)]
     let rd (n a : Nat) := pkt 1 ([0x7F, BitVec.ofNat 8 n, 0, 0] ++ leBytes 4 a)
     let wr (n : Nat) := pkt 2 ([0x7F, BitVec.ofNat 8 n, 0, 0] ++ leBytes 4 (R.PIRQ_EN 30) ++ [1, 0, 0, 0])
     s.link.queue = [] ∧ s.blocked = false ∧ s.admits 1 1 8 8 (rd 1 0x1EFFC) ∧ regReqOk false (rd 1 0x1EFFC) = true ∧
       bodyLe (rd 1 0x1EFFC) 5 1 = 1 ∧ bodyLe (rd 1 0x1EFFC) 8 4 = 0x1EFFC ∧ s.admits 1 1 8 8 (rd 0 0) ∧
       regReqOk false (rd 0 0) = false ∧ s.admits 1 2 8 65535 (wr 1) ∧ regReqOk true (wr 1) = true ∧ bodyLe (wr 1) 5 1 = 1 ∧
       bodyLe (wr 1) 8 4 = R.PIRQ_EN 30 ∧ s.owns .lane 30 = true ∧ s.admits 1 2 8 65535 (wr 2) ∧ regReqOk true (wr 2) = false) := by unfold State.admits; decide +kernel
theorem witness_linkRequests_update :
    (let s := w .configure [(F.LNK_STAT_state 0, 4), (F.CHN_CTRL_en 0, 1), (F.CHN_CTRL_tiles 0, 1), (F.TIL_MAP_en 0, 1), (F.SPL_CTRL_en 0, 1)]
     let u := w .configure [(F.LNK_STAT_state 0, 4)]
     let m := pkt 0x20 ([0, 1, 31, 1, 0, 0, 0, 0, 0, 0, 0, 0] ++ leBytes 8 0)
     let d := pkt 0x21 [0, 5, 255, 0, 0, 0, 0, 0, 0, 0, 0, 0, 0, 0, 0, 0]
     let a := pkt 0x22 [0, 1, 159, 0, 0, 0, 0, 0, 0, 0, 0, 0]
     s.mode ≠ .hold ∧ s.admits 0 0x20 20 268 m ∧ maskupdOk m = true ∧ s.agree (maskupdWords m) = none ∧ u.admits 0 0x20 20 268 m ∧
       (u.agree (maskupdWords m)).isSome = true ∧ s.admits 0 0x21 16 1036 d ∧ symDescOk d = true ∧
       bits (bodyLe d 5 1) 2 1 = 1 ∧ s.agree [(R.MSK_SYMLo 255, 0), (R.MSK_SYMHi 255, 0)] = none ∧ s.admits 0 0x22 12 44 a ∧
       aspupdOk a = true ∧ s.aspupdBarred a = false ∧ s.agree (aspupdWords a) = none) := by unfold State.admits; decide +kernel
theorem witness_linkRequests_named :
    (let s : State := { w .mirror [(F.LNK_STAT_state 0, 4), (F.CHN_CTRL_en 0, 1), (F.CHN_CTRL_tiles 0, 1), (F.TIL_MAP_en 0, 1),
       (F.SPL_CTRL_en 0, 1)] with pair := { lost := [(0, 4)] } }
     let m := pkt 0x20 ([0, 1, 31, 1, 0, 0, 0, 0, 0, 0, 0, 0] ++ leBytes 8 0)
     s.link.queue = [] ∧ s.blocked = false ∧ s.mode ≠ .hold ∧ s.mode = .mirror ∧ s.admits 0 0x20 20 268 m ∧ maskupdOk m = true ∧
       s.agree (maskupdWords m) = none ∧
       (s.pair.lost.find? (fun e => e.1 == pktTag m) = some (0, 4) ∨ ∀ e ∈ s.pair.lost, e.1 ≠ pktTag m)) := by
  unfold State.admits; decide +kernel
theorem witness_linkRequests_symbol :
    (let s := w .configure [(F.LNK_STAT_state 0, 4)]
     let u := (w .configure [(F.LNK_STAT_state 0, 4), (F.ASP_CFG_def 0, 1), (F.ASP_MEMB_kind 0, 1)]).setReg (R.MSK_SYMLo 0) 0x80000000
     let p (off : Nat) := pkt 0x21 ([0, 0, 0, 0, 0, 0, 0, 0] ++ leBytes 4 off ++ [1, 2, 3, 4, 5, 6, 7, 8])
     s.admits 0 0x21 16 1036 (p 0x1FFFF8) ∧ symDataOk (p 0x1FFFF8) = true ∧ bits (bodyLe (p 0x1FFFF8) 5 1) 2 1 = 0 ∧
       bodyLe (p 0x1FFFF8) 12 4 = 0x1FFFF8 ∧ s.sram.wf = true ∧ s.ecc1 = [] ∧ s.ecc2 = [] ∧
       s.storeUsed 0x1FFFF8 ((p 0x1FFFF8).body.length - 12) = false ∧ u.admits 0 0x21 16 1036 (p 0) ∧ symDataOk (p 0) = true ∧
       u.storeUsed 0 ((p 0).body.length - 12) = true) := by unfold State.admits; decide +kernel
theorem witness_safeTransactions :
    (let s (n : Nat) := (w .configure [(F.LNK_STAT_state 0, 4), (F.SPD_RXSTAT_synced, n), (F.SPD_RXSTAT_last, 65535),
       (F.SPD_RXCFG_window, 1)]).setReg R.SPD_RXID 5
     let h : List Byte := [5, 0, 0, 0, 0, 0, 1, 1, 0, 0, 0, 0]
     let p := pkt 0x40 (h ++ leBytes 4 (crcSafe 5 h))
     (∀ n ∈ [0, 1], (s n).link.queue = [] ∧ (s n).blocked = false ∧ (s n).admits 0 0x40 16 268 p ∧ hostHdrOk p = true ∧
       (s n).regN R.SPD_RXID = 5 ∧ (s n).get F.SPD_RXSTAT_synced = n) ∧ p.body.length = 12 + 4 * 1 ∧
       crcSafe 5 (p.body.take (8 + 4 * 1)) = blkLe p.body (8 + 4 * 1) 4 ∧ (0 + 65536 - (s 1).get F.SPD_RXSTAT_last) % 65536 = 1 ∧
       1 ≤ (s 1).get F.SPD_RXCFG_window ∧ (w .configure [(F.LNK_STAT_state 0, 4)]).admits 0 0x40 16 268 p ∧
       blkLe p.body 0 4 ≠ (w .configure).regN R.SPD_RXID) ∧
    ((w .hold).live = true ∧ (w .configure).owns .pdu 30 = true ∧ (w .hold).mode = .hold ∧ (w .operate).mode = .operate) ∧
    (let s := w .configure [(F.SYS_STAT_cfg_ok, 1)]
     s.mode = .configure ∧ s.get F.SYS_STAT_cfg_ok = 1 ∧ s.roleRow.1 ≤ 1 ∧ s.flt.insts = []) ∧
    (let s := w .configure [(F.SYS_STAT_cfg_ok, 1), (F.AXO_CFG_pair, 1)]
     s.mode = .configure ∧ s.get F.SYS_STAT_cfg_ok = 1 ∧ 1 < s.roleRow.1) ∧
    ((w .fallback).mode = .fallback ∧ (w .fallback).get F.SYS_STAT_cfg_ok = 0 ∧ (w .configure).get F.SYS_STAT_cfg_ok = 0) ∧
    (let s := w .fallback [(F.SYS_STAT_cfg_ok, 1)]
     s.mode = .fallback ∧ s.get F.SYS_STAT_cfg_ok = 1 ∧ s.get F.SYS_STAT_host_lost = 0 ∧ s.boot.dark = none ∧ s.light.back = false) := by
  unfold State.admits; decide +kernel
theorem witness_otpProgramming :
    (let s := w .configure [(F.SYS_STAT_cfg_ok, 1)]
     let c : List Byte := 1 :: List.replicate 27 0
     s.mode = .configure ∧ s.get F.SYS_STAT_cfg_ok = 1 ∧ s.get F.SYS_LOCK_cl = 0 ∧ s.blocked = false ∧ blank s.comBlock = true ∧
       s.spd.cutCom = false ∧ comValid s.serialLo (c ++ leBytes 4 (crcSafe 0 c)) = true ∧
       blkLe (c ++ leBytes 4 (crcSafe 0 c)) 4 4 = s.regN R.SPD_CCVCALC ∧ blank s.fbBlock = true ∧ s.spd.cutFb = false) ∧
    (let s : State := { w .configure [(F.SYS_STAT_cfg_ok, 1)] with otp := [(0x20, 1), (0x40, 1)] }
     blank s.comBlock = false ∧ blank s.fbBlock = false) ∧
    (let s : State := { w .configure with spd := { otp := some (true, [1, 2]) } }
     s.spd.otp = some (true, [1, 2]) ∧ s.spd.pdu = none ∧ s.link.queue = [] ∧ s.otp.wf = true) := by decide +kernel
/-- Check values of long byte lists are computed piece by piece. -/
theorem crcFeed_append (w p : Nat) (r : Bool) (reg : Nat) (a b : List Byte) :
    crcFeed w p r reg (a ++ b) = crcFeed w p r (crcFeed w p r reg a) b := by simp [crcFeed]

/-- A fallback descriptor of one rectangle without tiles, but for its check value. -/
def descriptor : List Byte := [1, 0, 1, 50, 0, 0, 8, 0] ++ List.replicate 10 0 ++ List.replicate 80 255 ++ List.replicate 130 0

theorem test_descriptor_crc : crcSafe 0 descriptor = 1790449003 := by
  let p (i n : Nat) : List Byte := (descriptor.drop i).take n
  have h : descriptor = p 0 32 ++ (p 32 24 ++ (p 56 24 ++ (p 80 24 ++ (p 104 32 ++ (p 136 32 ++ (p 168 32 ++ p 200 28)))))) := by
    decide +kernel
  have h1 : crcFeed 32 0xF4ACFB13 false 0 (p 0 32) = 3598876557 := by decide +kernel
  have h2 : crcFeed 32 0xF4ACFB13 false 3598876557 (p 32 24) = 3383613951 := by decide +kernel
  have h3 : crcFeed 32 0xF4ACFB13 false 3383613951 (p 56 24) = 1629774041 := by decide +kernel
  have h4 : crcFeed 32 0xF4ACFB13 false 1629774041 (p 80 24) = 3930801989 := by decide +kernel
  have h5 : crcFeed 32 0xF4ACFB13 false 3930801989 (p 104 32) = 1951289829 := by decide +kernel
  have h6 : crcFeed 32 0xF4ACFB13 false 1951289829 (p 136 32) = 3973606958 := by decide +kernel
  have h7 : crcFeed 32 0xF4ACFB13 false 3973606958 (p 168 32) = 356200981 := by decide +kernel
  have h8 : crcFeed 32 0xF4ACFB13 false 356200981 (p 200 28) = 2504518292 := by decide +kernel
  rw [crcSafe, h]
  simp only [crcFeed_append, h1, h2, h3, h4, h5, h6, h7, h8]
  decide
theorem witness_otpProgramming_descriptor : (descriptor ++ leBytes 4 1790449003).length = 232 ∧ (w .configure).serialLo = 0 ∧
    fbCheck 0 (descriptor ++ leBytes 4 1790449003) = 0 := by
  refine ⟨by decide +kernel, by decide, ?_⟩
  have ht : (descriptor ++ leBytes 4 1790449003).take 0xE4 = descriptor := by decide +kernel
  rw [fbCheck, fbChecks, ht, test_descriptor_crc]
  decide +kernel
theorem witness_hostPath :
    (let s := ((w .operate [(F.LNK_STAT_state 1, 4), (F.PKT_CFG_irq_en, 1), (F.PKT_CFG_repeat, 1)]).setReg R.SPD_TXID 1).setReg
       (R.PIRQ_EN 30) 1 |>.setReg (R.PIRQ_RAW 30) 1
     let u := s.onLane 1 fun ln => { ln with fcSent := true, bndSent := true }
     s.linkOpen 1 = false ∧ u.linkOpen 1 = true ∧ (s.lane 1).fcSent = false ∧ (u.lane 1).fcSent = true ∧ u.hostLanes = [1] ∧
       (s.onLink fun k => { k with vwait := [(0, pkt 0x10 [])] }).poolsEmpty = false ∧
       s.live = true ∧ s.hostOut = some 1 ∧ s.regN R.SPD_TXID ≠ 0 ∧ s.get F.PKT_CFG_irq_en = 1 ∧
       BitVec.ofNat 32 s.irqSum ≠ s.link.irqLast ∧ s.get F.PKT_CFG_repeat ≠ 0 ∧ s.irqSum ≠ 0 ∧ s.hostLanes = [1] ∧ s.active 1 = true ∧
       s.bonded 1 = false ∧ s.poolsEmpty = true) ∧
    (let s := w .operate [(F.LNK_STAT_state 0, 4), (F.LNK_STAT_state 2, 4), (F.LNK_STAT_end 2, 1)]
     let p := pkt 0x50 [1, 2, 3, 4]
     s.live = true ∧ s.active 2 = true ∧ s.laneRole 2 = 2 ∧ s.get (F.LNK_STAT_end 2) = 1 ∧ p.eop = true ∧
       p.body.length = p.len.toNat ∧ p.crc.toNat = crcLink (pktHead 0x50 p ++ p.body) ∧ (s.lane (s.linkLow 2)).rxBad = false ∧
       s.hostOut = some 0 ∧ s.linkOpen 0 = false ∧ (s.onLane 0 fun ln => { ln with bndSent := true }).linkOpen 0 = true ∧
       (∀ n ∈ [4076, 4077], (s.onLink fun k => { k with ret := [(0x50, 1, List.replicate n 0)] }).link.ret.length = 1)) := by
  decide +kernel
/-- Four symbols of a lane in which nothing is in error. -/
theorem witness_hostPath_word :
    let w4 : Vector (BitVec 10) 4 := ⟨#[0x155, 0x2AA, 0x155, 0x2AA], rfl⟩
    let s := w .operate [(F.LNK_STAT_state 3, 4), (F.LNK_STAT_state 2, 2)]
    (∀ l ∈ [2, 3], (s.decodeWord l w4.toList).1.all (fun y => !y.codeErr && !y.dispErr) = true ∧
      (s.decodeWord l w4.toList).1.all (fun y => !(y.k && y.val == 0xFB)) = true) ∧ s.laneState 3 = 4 ∧ s.laneState 2 = 2 ∧
      (s.lane (s.linkLow 3)).rxOpen = false ∧ (s.lane (s.linkLow 3)).rxFwd = false := by decide +kernel
theorem witness_spiPort :
    (let s : State := w .configure
     s.live = true ∧ s.spi.low = false ∧ s.spi.running = none ∧ s.spi.waiting = none ∧ s.spi.done = []) ∧
    (let s : State := { w .configure with spi := { low := true } }
     let m : BitVec 64 := BitVec.ofNat 64 (crc8 (List.replicate 7 0))
     s.spi.low = true ∧ s.spi.discard = false ∧ crc8 ((frameBytes m.toNat).take 7) = m.toNat % 256 ∧ bits m.toNat 62 2 ≠ 3 ∧ 63 ≠ 64 ∧
       crc8 ((frameBytes 0).take 7) ≠ 0 % 256) ∧
    (let a : SpiAcc := { op := 1, seq := 3, addr := 0, data := 0 }
     let s : State := { w .configure with spi := { running := some a } }
     let t : State := { w .configure with spi := { low := true, discard := true, waiting := some a } }
     let m : BitVec 64 := BitVec.ofNat 64 (3 * 2 ^ 62 + crc8 (0xC0 :: List.replicate 6 0))
     s.live = true ∧ s.spi.low = false ∧ s.spi.running.or s.spi.waiting = some a ∧ t.spi.low = true ∧ t.spi.discard = true ∧
       crc8 ((frameBytes m.toNat).take 7) = m.toNat % 256 ∧ bits m.toNat 62 2 = 3) ∧
    (∀ op ∈ [0, 1, 2], let a : SpiAcc := { op := op, seq := 0, addr := if op = 2 then R.PIRQ_EN 30 else 0x1EFFC, data := 0 }
     let s : State := { w .configure with spi := { waiting := some a } }
     s.live = true ∧ s.spi.waiting = some a ∧ a.op = op ∧ a.addr < 0x1F000 ∧ a.addr % 4 = 0 ∧
       s.owns .spi 30 = true) ∧
    (let a : SpiAcc := { op := 0, seq := 0, addr := 0, data := 0 }
     ({ w .configure with spi := { running := some a, done := [a] } } : State).spi.running = some a) := by decide +kernel
theorem witness_videoPackets :
    (let s := w .configure [(F.LNK_STAT_state 0, 4)]
     let v := pkt 0x10 ([9, 0] ++ leBytes 2 639 ++ leBytes 2 2046 ++ leBytes 2 2 ++ [1, 2, 3])
     s.link.vwait = [] ∧ s.admits 0 0x10 11 3080 v ∧ vlineOk v = true ∧ s.get F.VIN_STAT_back ≤ 1 ∧ s.get F.PKT_VSTAT_open = 0 ∧
       s.ecc1 = [] ∧ s.ecc2 = [] ∧ s.sram.wf = true) ∧
    (let s := w .configure [(F.LNK_STAT_state 0, 4), (F.PKT_VSTAT_open, 1), (F.PKT_VSTAT_cur, 9), (F.VIN_CFG_swap, 1)]
     let e := pkt 0x11 [9, 0, 0, 0, 0, 0, 0, 0]
     let b := pkt 0x11 [9, 0, 0, 0, 1, 0, 0, 0]
     s.admits 0 0x11 8 8 e ∧ hostHdrOk e = true ∧ bodyLe e 5 3 = 0 ∧ s.get F.PKT_VSTAT_open = 1 ∧ s.get F.PKT_VSTAT_bad = 0 ∧
       s.get F.PKT_VSTAT_cur = bodyLe e 4 1 ∧ bodyLe e 8 4 = s.link.vcrc ∧ s.get F.VIN_CFG_swap ≠ 0 ∧ s.admits 0 0x11 8 8 b ∧
       hostHdrOk b = true ∧ bodyLe b 5 3 = 0 ∧ bodyLe b 8 4 ≠ s.link.vcrc ∧ s.mode ≠ .operate ∧
       (w .configure [(F.LNK_STAT_state 0, 4)]).admits 0 0x11 8 8 e) := by unfold State.admits; decide +kernel
/-- The other ways in which a frame end drops the frame: a bad frame, another frame number, a repeat frame with a check value. -/
theorem witness_videoPackets_bad :
    (∀ f ∈ [[(F.PKT_VSTAT_open, 1), (F.PKT_VSTAT_bad, 1), (F.PKT_VSTAT_cur, 9)], [(F.PKT_VSTAT_open, 1), (F.PKT_VSTAT_cur, 8)]],
      let s := w .configure ((F.LNK_STAT_state 0, 4) :: f)
      let e := pkt 0x11 [9, 0, 0, 0, 0, 0, 0, 0]
      s.link.vwait = [] ∧ s.admits 0 0x11 8 8 e ∧ hostHdrOk e = true ∧ bodyLe e 5 3 = 0 ∧ s.get F.PKT_VSTAT_open = 1 ∧
        (s.get F.PKT_VSTAT_bad = 1 ∨ s.get F.PKT_VSTAT_cur ≠ bodyLe e 4 1) ∧ s.mode ≠ .operate) ∧
    (let s := w .configure [(F.LNK_STAT_state 0, 4)]
     let b := pkt 0x11 [9, 0, 0, 0, 1, 0, 0, 0]
     s.link.vwait = [] ∧ s.admits 0 0x11 8 8 b ∧ s.get F.PKT_VSTAT_open = 0 ∧ bodyLe b 8 4 ≠ 0) := by
  unfold State.admits; decide +kernel
theorem witness_videoPackets_drop :
    let s := w .operate [(F.LNK_STAT_state 0, 4), (F.PKT_VSTAT_open, 1), (F.PKT_VSTAT_cur, 9), (F.PKT_VSTAT_held, 1),
      (F.VIN_CFG_hold_lim, 2), (F.SYS_FBSTAT_valid, 1)]
    let e := pkt 0x11 [9, 0, 0, 0, 0, 0, 0, 0]
    let b := pkt 0x11 [9, 0, 0, 0, 1, 0, 0, 0]
    s.link.vwait = [] ∧ s.admits 0 0x11 8 8 e ∧ s.get F.PKT_VSTAT_bad = 0 ∧ s.get F.PKT_VSTAT_cur = bodyLe e 4 1 ∧
      bodyLe e 8 4 = s.link.vcrc ∧ s.get F.VIN_CFG_swap = 0 ∧ s.admits 0 0x11 8 8 b ∧ hostHdrOk b = true ∧ bodyLe b 5 3 = 0 ∧
      s.get F.PKT_VSTAT_open = 1 ∧ bodyLe b 8 4 ≠ s.link.vcrc ∧ s.mode = .operate ∧
      s.get F.VIN_CFG_hold_lim ≤ s.plusOne F.PKT_VSTAT_held ∧ s.boot.dark = none ∧ s.get F.SYS_FBSTAT_valid = 1 := by
  unfold State.admits; decide +kernel
theorem witness_swaps :
    (let s := w .operate [(F.VIN_CFG_swap, 1), (F.VIN_STAT_back, 2)]
     s.live = true ∧ s.get F.VIN_CFG_swap = 1 ∧ s.get F.VIN_CFG_swap ≠ 2 ∧ s.get F.VIN_STAT_back = 2 ∧ s.link.vwait = [] ∧ s.mode ≠ .mirror) ∧
    (let s := w .mirror [(F.VIN_CFG_swap, 2), (F.VIN_STAT_back, 2)]
     s.live = true ∧ s.get F.VIN_CFG_swap = 2 ∧ s.get F.VIN_STAT_back = 2 ∧ s.link.vwait = [] ∧ s.mode = .mirror) ∧
    (w .operate [(F.VIN_CFG_swap, 2)]).get F.VIN_CFG_swap = 2 ∧ (w .operate [(F.VIN_CFG_swap, 2)]).get F.VIN_STAT_back ≠ 2 ∧
    (let s : State := { (w .operate).setRegN R.CLS_PNOW 0 with vid := { swapDue := some 4294967295 } }
     s.vid.swapDue = some 4294967295 ∧ perReached 4294967295 s.pnow = true) := by decide +kernel
theorem witness_compositionPasses :
    (let s : State := { w .operate [(F.TIL_MAP_en 0, 1)] with vid := { dirty := [0], swapAt := some 0 } }
     s.passDue (s.vid.swapAt == some s.pnow) = true ∧ s.slotFree = true ∧ s.ecc1 = [] ∧ s.ecc2 = []) ∧
    (let s : State := { w .operate [(F.CMP_STAT_state, 1)] with vid := { rows := [10239] } }
     s.get F.CMP_STAT_state = 1 ∧ s.vid.rows ≠ [] ∧ s.vid.lossy = []) ∧
    (let s : State := { w .operate [(F.CMP_STAT_state, 1), (F.FLT_RCT_action 6, 2)] with vid := { lossy := [3] } }
     s.get F.CMP_STAT_state = 1 ∧ s.vid.rows = [] ∧ s.get (F.FLT_RCT_action 6) ≤ 2) ∧
    (let s : State := { chained with vid := { placing := true, flat := false, snap := Vector.replicate 2 { kind := .layers } },
                                     light := { initial := false } }
     s.vid.placing = true ∧ s.ecc1 = [] ∧ s.ecc2 = [] ∧ (s.snapOf (s.get F.CMP_STAT_target)).kind = .layers ∧ s.light.initial = false ∧
       s.vid.flat = false ∧ 0 ∈ s.tilesIn false) ∧
    (let s : State := { w .hold with vid := { scrubAt := 131070 } }
     s.live = true ∧ s.vid.scrubAt + 1 < 131072 ∧ s.ecc2 = [] ∧ s.ecc1 = []) ∧
    (let s : State := { w .hold with ecc1 := [131072 * 15] }
     s.ecc1 = [131072 * (15 : Fin 16) + s.vid.scrubAt] ∧ s.vid.scrubOld = []) := by decide +kernel
theorem witness_laneAgrees :
    (let s := w .configure [(F.LNK_STAT_state 0, 3)]
     let z : List Byte := List.replicate 16 0
     let b8 : List Byte := [1, 0, 0, 0, 0, 0, 0, 0, 0, 0, 0, 0]
     let bad := b8 ++ leBytes 4 (crcLink b8)
     s.laneState 0 = 3 ∧ crcLink (z.take 12) ≠ leNat (z.drop 12) ∧ crcLink (bad.take 12) = leNat (bad.drop 12) ∧
       (bad.getD 0 0).toNat = 1 ∧ (s.capCheck 0 fun i => (bad.getD i 0).toNat) = .inl 8) ∧
    (let g0 : List Byte := [1, 2, 4, 3, 0, 0, 0, 0, 4, 0, 0, 0]
     let g := g0 ++ leBytes 4 (crcLink g0)
     let s := (w .configure [(F.LNK_STAT_state 0, 3)]).onLane 0 fun ln => { ln with capLast := g, capN := 3, capSent := 7 }
     s.laneState 0 = 3 ∧ crcLink (g.take 12) = leNat (g.drop 12) ∧ (g.getD 0 0).toNat = 1 ∧ g.length = 16 ∧
       ((s.capCheck 0 fun i => (g.getD i 0).toNat) matches .inr _) ∧ ((g.getD 8 0).toNat / 4) % 2 = 1 ∧ (s.lane 0).capLast = g ∧
       3 ≤ (s.lane 0).capN ∧ 7 ≤ (s.lane 0).capSent) := by decide +kernel
theorem witness_rateMatching_sets :
    (let s := ((w .operate [(F.LNK_STAT_state 0, 4), (F.LNK_STAT_state 1, 4), (F.LNK_ROLE_bond 0, 1), (F.LNK_STAT_txw 0, 3)]).onLane 0 fun a =>
       { a with sets := 14, bndSent := true, fill := 19 }).onLane 1 fun a => { a with bndSent := true }
     s.bonded 1 = true ∧ (s.linkLanes 0).filter s.active = [0, 1] ∧ ((s.lane 0).sets + 1) % 16 ≠ 0 ∧ s.get (F.LNK_STAT_txw 0) = s.txMask 0 ∧
       (∀ k ∈ [0, 1], (s.lane k).bndSent = true) ∧ s.active (lowerLane 1) = true ∧ s.active (lowerLane 1 + 1) = true ∧
       max 0 (min 24 (((s.lane 0).fill : Int) - 24)) = 0 ∧ max 0 (min 24 (((s.lane 0).fill : Int) + 24)) = 24) ∧
    (∀ n ∈ [3, 15], let s := (w .operate [(F.LNK_STAT_state 0, 4)]).onLane 0 fun a => { a with sets := n }
     (s.linkLanes 0).filter s.active = [0] ∧ s.bonded 0 = false ∧ (s.lane 0).bndSent = false) := by decide +kernel
theorem witness_rateMatching :
    ∀ l : Fin 4, (w .operate [(F.LNK_STAT_state l, 2)]).laneState l = 2 ∧ (w .operate [(F.LNK_STAT_state l, 4)]).laneState l = 4 ∧
      (w .operate [(F.LNK_STAT_state l, 4)]).active l = true := by decide +kernel
theorem witness_rateChanges :
    (let s := w .hold
     s.mayCommand .spi 4 ∧ s.mode = .hold ∧ (2 : Word).toNat % 8 ≠ s.get (F.LNK_RATE_rate 0) ∧ 2 ≠ s.link.rate ∧
       s.get (F.LNK_RATE_busy 0) = 0 ∧ ¬ 5 ≤ (2 : Word).toNat % 8) ∧
    (∀ c ∈ [1, 2, 3, 0], let s : State := { w .configure with link := { change := c, watch := true } }
     s.link.change = c ∧ s.link.watch = true) := by unfold State.mayCommand; decide +kernel
theorem witness_equaliserAndEye :
    (let s := (w .operate [(F.LNK_STAT_state 3, 4), (F.LNK_CFG_mon 3, 1), (F.LNK_EYESTAT_busy 3, 1)]).onLane 3 fun a =>
       { a with margin := true, fed := 256, plainN := 256, dataN := 64, readN := 65536 }
     256 ≤ (s.lane 3).fed ∧ 256 ≤ (s.lane 3).plainN ∧ 64 ≤ (s.lane 3).dataN ∧ 65536 ≤ (s.lane 3).readN ∧ s.get (F.LNK_ADAPT_readapt 3) = 0 ∧
     2 ≤ s.laneState 3 ∧ s.laneState 3 ≤ 4 ∧ s.get (F.LNK_ADAPT_frozen 3) = 0 ∧ s.get (F.LNK_CFG_adapt_hold 3) = 0 ∧ s.active 3 = true ∧
       s.get (F.LNK_CFG_mon 3) = 1 ∧ (s.lane 3).margin = true ∧ s.get (F.LNK_EYESTAT_busy 3) = 1 ∧ s.mayCommand .spi 7) ∧
    (w .operate [(F.LNK_CFG_adapt_hold 3, 1)]).get (F.LNK_CFG_adapt_hold 3) = 1 ∧
    (w .operate).get (F.LNK_EYESTAT_busy 3) = 0 ∧ ((w .operate).lane 3).eyeWait = false := by unfold State.mayCommand; decide +kernel
theorem witness_aspectChanges :
    (let s := w .configure
     s.mayCommand .spi (16 + 159 / 80) ∧ s.regulatory 159 = false ∧ s.pair.name = 0 ∧ s.mayCommand .pdu 16) ∧
    (let s := w .configure [(F.ASP_CFG_def 159, 1), (F.ASP_FADE_fgrp 159, 15), (F.ASP_CFG_class 159, 1)]
     s.pair.name = 0 ∧ getBits 15 0 4 = 15 ∧ s.members 15 = [159] ∧ s.get (F.ASP_FADE_fgrp 159) = 15) ∧
    (let s := (w .operate [(F.ASP_CFG_def 159, 1)]).onFade 159 fun f => { f with group := some ⟨4294967295, true, false, 0⟩ }
     (s.fade 159).group = some ⟨4294967295, true, false, 0⟩ ∧ perReached 4294967295 s.pnow = true ∧ s.regulatory 159 = false ∧
       s.get (F.ASP_CTL_en 159) ≠ true.toNat ∧ s.get (F.ASP_CFG_def 159) = 1) ∧
    (let s := (w .operate).onFade 0 fun f => { f with group := some ⟨1, false, true, 0⟩ }
     (s.fade 0).group = some ⟨1, false, true, 0⟩ ∧ perReached 1 s.pnow = false ∧ s.get (F.ASP_CTL_en 0) = false.toNat) := by
  unfold State.mayCommand; decide +kernel
theorem witness_debouncedAction :
    (let s : State := { w .operate [(F.FLT_RCT_action 63, 2)] with flt := { insts := [(63 * 65536 + 65535, { due := some .mirror })] } }
     (s.fltInst 63 65535).due = some .mirror ∧ s.get (F.FLT_RCT_action 63) ≤ 2) ∧
    (let s : State := { w .operate [(F.FLT_RCT_action 0, 3), (F.SYS_FBSTAT_valid, 1)] with
                        flt := { insts := [(0, { due := some .operate })] } }
     (s.fltInst 0 0).due = some .operate ∧ s.get (F.FLT_RCT_action 0) = 3 ∧ s.mode = .operate ∧ s.boot.dark = none ∧ s.pair.tkP = none ∧
       s.get F.SYS_FBSTAT_valid = 1) ∧
    (let s : State := { w .fallback with flt := { insts := [(10 * 65536, { due := some .fallback })] } }
     (s.fltInst 10 0).due = some .fallback ∧ (clsInfo 10).floor = 4 ∧ s.mode ≠ .hold) ∧
    (let s : State := { w .operate [(F.FLT_RCT_action 0, 4)] with flt := { insts := [(0, { due := some .operate })] } }
     (s.fltInst 0 0).due = some .operate ∧ s.get (F.FLT_RCT_action 0) = 4 ∧ s.mode = .operate) := by decide +kernel
theorem witness_chainStart :
    (let s : State := { w .operate with boot := { phase := .up } }
     s.driving = true ∧ s.get F.CLK_STAT_permit = 0 ∧ { s with isl := { s.isl with req := true } }.permitOk = true ∧
       s.boot.glitch = 0 ∧ s.pair.tkP = none) ∧
    (let s := w .operate [(F.CLK_STAT_permit, 1), (F.CHN_STAT_state 19, 1), (F.CHN_STAT_lock 19, 1)]
     s.driving = true ∧ s.get F.CLK_STAT_permit = 1 ∧ s.get (F.CHN_STAT_state 19) ≠ 0 ∧ s.live = true ∧
       s.get (F.CHN_STAT_lock 19) = 1) ∧
    (let s := ((w .operate [(F.CHN_STAT_state 19, 1)]).setRegN R.CLS_PNOW 4).onChain 19 fun ch => { ch with marked := some 0 }
     (s.chain 19).marked = some 0 ∧ s.get (F.CHN_STAT_state 19) = 1 ∧ perReached (perAdd 0 4) s.pnow = true ∧ s.live = true) := by
  decide +kernel
theorem witness_chainStart_vddh :
    (let s : State := { w .operate with boot := { vddhLow := true } }
     s.boot.vddhLow = true) ∧
    (let s := w .fallback [(F.CLK_STAT_permit, 1), (F.CHN_STAT_state 0, 1)]
     s.driving = true ∧ s.get F.CLK_STAT_permit = 1 ∧ s.boot.vddhLow = false ∧ s.get (F.CHN_STAT_state 0) ≠ 0) := by decide +kernel
theorem witness_chainSends :
    (let s := chained.onChain 0 fun ch => { ch with react := [127] }
     s.mode ≠ .mirror ∧ (s.chain 0).regq = [] ∧ s.chainLive 0 = true ∧ s.nextRow 0 = some (127, 0, none) ∧
       s.place (127 / 128) = some (0, 0) ∧ s.ecc1 = [] ∧ s.ecc2 = []) ∧
    (let s := (chained [(F.TIL_MAP_index 79, 0), (F.TIL_MAP_en 79, 1)]).onChain 0 fun ch => { ch with react := [5] }
     s.mayCommand .spi (22 + 0 / 40) ∧ s.place (s.get (F.TIL_MAP_index 0)) = some (0, 0) ∧ s.chainRuns 0 = true ∧ (s.rowDue 0 0).isSome = true) ∧
    (let s := chained.onChain 0 fun ch => { ch with lit := some 0 }
     s.tileAt 0 0 = some 0 ∧ (s.chain 0).lit = some 0 ∧ s.chainRuns 0 = true ∧ perReached 0 s.pnow = true) ∧
    (let s := chained
     s.mayCommand .spi (22 + 0 / 40) ∧ s.get (F.TIL_MAP_en 0) = 1 ∧ s.place (s.get (F.TIL_MAP_index 0)) = some (0, 0) ∧
       s.chainRuns 0 = true ∧ s.get (F.TIL_RACC_busy 0) = 0 ∧ s.locked 22 = false ∧ (s.chain 0).regq = [] ∧
       ¬ (s.proofWaits 0 = true ∨ (s.rowDue 0 0).isSome = true ∨ s.latchWaits 0 = true ∨ (s.rowDue 0 1).isSome = true ∨
         s.fits 0 14 = false)) := by unfold State.mayCommand; decide +kernel
theorem witness_chainSends_proof :
    let s : State := { chained.setRegN R.CLS_PNOW 127 with sram := [(0x500000, 1), (0xD48001, 0x40)] }
    s.tileAt 0 0 = some 0 ∧ s.chainRuns 0 = true ∧ darkPeriod (perAdd s.pnow 1) = false ∧ kvFind s.light.proofSent 0 = none ∧
      s.proofList 0 (perAdd s.pnow 1) ≠ [] ∧ s.proofAgain 0 0 = none ∧ s.ecc1 = [] ∧ s.ecc2 = [] ∧
      s.fits 0 (12 + 2 * (s.proofList 0 (perAdd s.pnow 1)).length) = true ∧
      symCycles (12 + 2 * (s.proofList 0 (perAdd s.pnow 1)).length) + 800 ≤ s.until (perAdd s.pnow 1) := by decide +kernel
theorem witness_latchEvents :
    (∀ i ∈ [true, false], let s : State := { chained [(F.CMP_STAT_state, 2)] with light := { initial := i } }
     s.frameVerified = true ∧ s.driving = true ∧ s.liveChains = [0] ∧ s.liveChains.all s.latchNew = true ∧ s.light.initial = i ∧
       s.placeIn (s.passFb (s.snapOf (s.get F.CMP_STAT_target)).kind) 0 = some (0, 0)) ∧
    (let s := chained.onChain 0 fun ch => { ch with bankU := [5] }
     s.urgentReady = true ∧ (s.chain 0).bankU ≠ [] ∧ s.liveChains = [0] ∧ s.urgentChains.all s.latchNew = true) ∧
    (let s : State := { chained with vid := { maskGen := some 3 } }
     let s := s.onChain 0 fun ch => { ch with bankU := [5] }
     s.urgentReady = true ∧ s.vid.maskGen = some 3 ∧ s.fbMode = false ∧ s.light.maskDue = [] ∧ s.mode ≠ .fallback) := by decide +kernel
theorem witness_chainAnswers :
    (let e : Sent := { typ := 1, pos := 0, seq := 0, ccrc := 0x1234, key := 127 }
     let it := item 25 0 [1, 0x34, 0x12]
     let s := chained.onChain 0 fun ch => { ch with expect := [e] }
     s.chainLive 0 = true ∧ s.mode ≠ .mirror ∧ (s.chain 0).regq = [] ∧ e.cls ≠ 3 ∧ (s.meet 0 [1, 3, 4] it matches .answers _) ∧ (s.chain 0).expect.head? = some e ∧
       it.h0.toNat = 25 ∧ it.h1.toNat = s.pop 0 - 1 - e.pos ∧ it.body.length = 3 ∧ leNat (it.body.take 1) = 1 ∧
       leNat ((it.body.drop 1).take 2) = e.ccrc) ∧
    (let e : Sent := { typ := 1, pos := 0, seq := 1, ccrc := 0, key := 127 }
     let it := item 25 0 [1, 0x34, 0x12]
     let s := (chained [(F.CHN_CFG_retry 0, 1)]).onChain 0 fun ch => { ch with expect := [e] }
     (s.meet 0 [1, 3, 4] it matches .fails _) ∧ (s.itemWhole 0 it) = true ∧ e.tries < s.get (F.CHN_CFG_retry 0)) ∧
    (let e : Sent := { typ := 2, pos := 0, seq := 0, ccrc := 0, key := 3, bank := 1, body := [1, 2] }
     let it := item 2 17 [1, 2]
     let s := chained.onChain 0 fun ch => { ch with expect := [e], latchF := some { ltag := 3, target := 9 } }
     (s.meet 0 [2] it matches .answers _) ∧ it.h0.toNat = 2 ∧ it.h1.toNat = 17 * s.pop 0 ∧ it.body = e.body ∧
       (s.chain 0).latchF = some { ltag := e.key, target := 9 }) ∧
    (let e : Sent := { typ := 5, pos := 0, seq := 0, ccrc := 0, key := 0, body := [8, 0, 0, 0, 0, 0] }
     let it := item 21 0 [8, 0, 1, 2, 3, 4]
     let s := chained.onChain 0 fun ch => { ch with expect := [e] }
     (s.meet 0 [5] it matches .answers _) ∧ e.bank = 0 ∧ e.key < 80 ∧ it.h0.toNat = 21 ∧ it.h1.toNat = s.pop 0 - 1 - e.pos ∧
       it.body.length = 6 ∧ it.body.take 2 = e.body.take 2) ∧
    (let e : Sent := { typ := 8, pos := 0, seq := 0, ccrc := 0, key := 79 }
     let it := item 24 0 [0, 0, 0, 0, 0, 0, 0, 0]
     let s := chained.onChain 0 fun ch => { ch with expect := [e] }
     (s.meet 0 [8] it matches .answers _) ∧ e.key < 80 ∧ it.h0.toNat = 24 ∧ it.h1.toNat = s.pop 0 - 1 - e.pos ∧
       it.body.length = 8) := by decide +kernel
theorem test_segment_crc : crcChain (List.replicate 512 0) = 5684 := by
  have h (z : List Byte) (e : z = List.replicate 32 0) : (List.replicate 512 0 : List Byte) =
      z ++ (z ++ (z ++ (z ++ (z ++ (z ++ (z ++ (z ++ (z ++ (z ++ (z ++ (z ++ (z ++ (z ++ (z ++ (z))))))))))))))) := by
    rw [e]; decide +kernel
  rw [crcChain, h _ rfl]
  have h0 : crcFeed 16 0x1021 false 65535 (List.replicate 32 0) = 61772 := by decide +kernel
  have h1 : crcFeed 16 0x1021 false 61772 (List.replicate 32 0) = 55002 := by decide +kernel
  have h2 : crcFeed 16 0x1021 false 55002 (List.replicate 32 0) = 35372 := by decide +kernel
  have h3 : crcFeed 16 0x1021 false 35372 (List.replicate 32 0) = 61450 := by decide +kernel
  have h4 : crcFeed 16 0x1021 false 61450 (List.replicate 32 0) = 1352 := by decide +kernel
  have h5 : crcFeed 16 0x1021 false 1352 (List.replicate 32 0) = 33778 := by decide +kernel
  have h6 : crcFeed 16 0x1021 false 33778 (List.replicate 32 0) = 46877 := by decide +kernel
  have h7 : crcFeed 16 0x1021 false 46877 (List.replicate 32 0) = 16872 := by decide +kernel
  have h8 : crcFeed 16 0x1021 false 16872 (List.replicate 32 0) = 15919 := by decide +kernel
  have h9 : crcFeed 16 0x1021 false 15919 (List.replicate 32 0) = 7401 := by decide +kernel
  have h10 : crcFeed 16 0x1021 false 7401 (List.replicate 32 0) = 37305 := by decide +kernel
  have h11 : crcFeed 16 0x1021 false 37305 (List.replicate 32 0) = 60547 := by decide +kernel
  have h12 : crcFeed 16 0x1021 false 60547 (List.replicate 32 0) = 52608 := by decide +kernel
  have h13 : crcFeed 16 0x1021 false 52608 (List.replicate 32 0) = 36663 := by decide +kernel
  have h14 : crcFeed 16 0x1021 false 36663 (List.replicate 32 0) = 3195 := by decide +kernel
  have h15 : crcFeed 16 0x1021 false 3195 (List.replicate 32 0) = 5684 := by decide +kernel
  simp only [crcFeed_append, h0, h1, h2, h3, h4, h5, h6, h7, h8, h9, h10, h11, h12, h13, h14, h15]
theorem witness_senseAnswers :
    (let e : Sent := { typ := 6, pos := 0, seq := 0, ccrc := 0, key := 0, per := 7 }
     let r : PerRec := { per := 7, d := 50, tags := [3], offs := [4] }
     let hd : Vector Byte 9 := ⟨#[7, 0, 3, 4, 0, 50, 0, 0, 0], rfl⟩
     let hc : BitVec 16 := BitVec.ofNat 16 (crcChain (23 :: 0 :: leBytes 2 0 ++ hd.toList))
     let b : SenseBlk := ⟨23, 0, 0, hd, hc, false, Vector.replicate 8 ⟨List.replicate 512 0, 5684⟩, [], []⟩
     let s : State := { chained with light := { hist := [r] } }
     let s := s.onChain 0 fun ch => { ch with expect := [e] }
     s.chainLive 0 = true ∧ s.mode ≠ .mirror ∧ b.ebp = false ∧ s.itemErrs 0 b.gap b.syms = 0 ∧ e.key < 80 ∧
       b.hcrc.toNat = crcChain (b.h0 :: b.h1 :: leBytes 2 b.seq.toNat ++ b.hdr.toList) ∧
       (s.chain 0).expect.find? (fun e => e.typ == 6 && e.seq == b.seq.toNat) = some e ∧ b.h0.toNat = 23 ∧
       b.h1.toNat = s.pop 0 - 1 - e.pos ∧ s.recOf e.per = some r ∧ leNat (b.hdr.toList.take 2) = e.per % 65536 ∧
       leNat ((b.hdr.toList.drop 2).take 1) = r.tags.getD 0 0 ∧ leNat ((b.hdr.toList.drop 3).take 2) = r.offs.getD e.key 0 ∧
       leNat ((b.hdr.toList.drop 5).take 1) = r.d ∧ (b.segs[7].data = List.replicate 512 0 ∧ b.segs[7].crc.toNat = 5684)) ∧
    (let r : PerRec := { per := 7, unsure := [128 * 79 + 127] }
     let b : Block := { tile := 79, per := 7, rows := [(127, 7, [])] }
     let u : State := { w .operate with light := { blocks := [{ tile := 79, per := 7, rows := [] }] } }
     let s : State := { w .operate with light := { hist := [r], blocks := [b, { tile := 0, per := 7, rows := [] }] } }
     u.light.blocks = [{ tile := 79, per := 7, rows := [] }] ∧ s.light.blocks.head? = some b ∧ s.recOf 7 = some r ∧ r.judges (128 * b.tile + 127) = false) ∧
    (∀ t ∈ [1, 6, 8], let e : Sent := { typ := t, pos := 0, seq := 0, ccrc := 0, key := 79 }
     let s := (chained [(F.CHN_CFG_retry 0, 1)]).onChain 0 fun ch => { ch with expect := [e] }
     (s.chain 0).expect = [e] ∧ (s.chain 0).regq = [] ∧ e.cls ≠ 3 ∧ e.typ = t ∧ e.tries < s.get (F.CHN_CFG_retry 0) ∧ e.key < 80) ∧
    (let s := ((w .operate [(F.SUP_CFG_stale, 16)]).onTile 79 fun t => { t with statMiss := 16, rowAge := [(0, 17)] })
     16 ≤ (s.tile 79).statMiss ∧ (s.tile 79).stale = false ∧ (s.tile 79).staleRows = [] ∧
       ∃ e ∈ (s.tile 79).rowAge, s.get F.SUP_CFG_stale < e.2) := by decide +kernel
theorem witness_safetyInputsOutputs :
    (let s : State := { w .operate with sio := { due := [7] } }
     (7 : Fin 8).val ∈ s.sio.due ∧ s.sio.fbDue = false ∧ (7 : Fin 8).val ∉ s.sio.echoed ∧ s.sio.fbCause = 0) ∧
    (let s : State := { w .fallback with sio := { fbDue := true, fbCause := 2, echoed := [7] }, otp := [(0x44, 0x87)] }
     s.sio.fbDue = true ∧ s.fbInput = some (7 : Fin 8).val ∧ ¬ ((7 : Fin 8).val ∉ s.sio.echoed ∨ s.sio.fbCause = 0)) ∧
    (let s : State := { w .operate with sio := { due := [7], echoed := [7] } }
     (7 : Fin 8).val ∈ s.sio.due ∧ s.sio.fbDue = false ∧ (7 : Fin 8).val ∈ s.sio.echoed) ∧
    (let s : State := { w .fallback with sio := { fbDue := true }, otp := [(0x44, 0x87)] }
     s.sio.fbDue = true ∧ s.fbInput = some (7 : Fin 8).val) ∧
    (∀ m ∈ [0, 9], let s : State := { w .operate [(F.SIO_OST_drv 7, 1), (F.SIO_OST_tclk 7, m), (F.SIO_OST_retry 7, if m = 0 then 1 else 0)] with
                      sio := { cfg := List.replicate 17 0x50080, outs := Vector.replicate 8 { onFor := 10 } } }
     getBits (s.sioWord (9 + 7)) 7 1 = 1 ∧ s.get (F.SIO_OST_drv 7) = 1 ∧ (s.sioOut 7).test = false ∧ 10 ≤ (s.sioOut 7).onFor ∧
       (s.get (F.SIO_OST_retry 7) = 1 ∨ getBits (s.sioWord (9 + 7)) 16 16 ≤ s.get (F.SIO_OST_tclk 7))) ∧
    (let s : State := { w .operate with sio := { cfg := [0x000F0004], fpos := 3 } }
     s.live = true ∧ s.tpsOn 3 = true ∧ (s.tps 3).runs = false ∧ s.sio.fpos = 3 * (s.sioFrame / 4)) ∧
    (let s := (w .operate).onTps 3 fun p => { p with low := true, w := 2, tick := 2 }
     (s.tps 3).low = true ∧ (s.tps 3).w ≤ (s.tps 3).tick) ∧
    (let s : State := { w .operate [(F.SIO_OST_drv 7, 1), (F.SIO_OST_tclk 7, 5)] with sio := { cfg := List.replicate 17 0x50080 } }
     getBits (s.sioWord (9 + 7)) 7 1 = 1 ∧ s.get (F.SIO_OST_drv 7) = 1 ∧ (s.sioOut 7).test = false ∧
       s.get (F.SIO_OST_tclk 7) = getBits (s.sioWord (9 + 7)) 16 16 ∧ s.get (F.SIO_OST_retry 7) = 0) ∧
    (let s := (w .operate [(F.SIO_OST_pulse 7, 1)]).onOut 7 fun o => { o with missDue := true }
     s.get (F.SIO_OST_pulse 7) = 1 ∧ (s.sioOut 7).w ≤ (s.sioOut 7).tick ∧ (s.sioOut 7).missDue = true) := by decide +kernel
theorem witness_clauses :
    (let s := w .configure [(F.CLS_STAT_state, 1), (F.CLS_STAT_owner, ownerOfSrc .spi)]
     s.mayCommand .spi 3 ∧ getBits 0xC1A50003 16 16 = 0xC1A5 ∧ s.get F.CLS_STAT_state = 1 ∧ s.get F.CLS_STAT_owner = ownerOfSrc .spi ∧
       s.mayCommand .lane 3 ∧ s.get F.CLS_STAT_owner ≠ 1) ∧
    (let s := w .configure [(F.CLS_STAT_state, 2)]
     s.get F.CLS_STAT_state = 2 ∧ (s.agree s.clauseWords).isSome = true) ∧
    (let s := w .configure [(F.CLS_STAT_state, 2), (F.CLS_STAT_when, 3), (F.CHN_CTRL_en 0, 1), (F.CHN_CTRL_tiles 0, 1),
       (F.TIL_MAP_en 0, 1), (F.SPL_CTRL_en 0, 1)]
     s.get F.CLS_STAT_state = 2 ∧ s.agree s.clauseWords = none ∧ (s.pointOf (s.get F.CLS_STAT_when) (s.regN R.CLS_PTGT)).1 ≠ .now) ∧
    (let s : State := { w .configure [(F.CLS_STAT_state, 3), (F.CHN_CTRL_en 0, 1), (F.CHN_CTRL_tiles 0, 1), (F.TIL_MAP_en 0, 1),
       (F.SPL_CTRL_en 0, 1)] with cl := { due := some .frameLatch, implicit := [⟨1, [], .now, 0, 0⟩] } }
     s.cl.due = some .frameLatch ∧ s.get F.CLS_STAT_state = 3 ∧ s.dueNow .frameLatch = true ∧ s.mode ≠ .mirror ∧
       s.agree s.clauseWords = none ∧ (s.cl.implicit.find? (fun d => s.dueNow d.due)).isSome = true ∧ s.agree [] = none) ∧
    (let s : State := { w .configure [(F.CHN_CTRL_en 0, 1), (F.CHN_CTRL_tiles 0, 1), (F.TIL_MAP_en 0, 1), (F.SPL_CTRL_en 0, 1)] with
                        cl := { implicit := [⟨1, [(R.MSK_RECTLo 0, 5)], .now, 0, 0⟩] } }
     s.cl.implicit.find? (fun d => s.dueNow d.due) = some ⟨1, [(R.MSK_RECTLo 0, 5)], .now, 0, 0⟩ ∧ s.mode ≠ .mirror ∧ s.cl.due = none ∧
       s.agree [(R.MSK_RECTLo 0, 5)] = none ∧ ∀ a : Fin 160, (R.ASP_CTL a, (5 : Word)) ∉ [(R.MSK_RECTLo 0, 5)]) ∧
    (let s : State := { w .configure [(F.CLS_STAT_state, 3)] with cl := { due := some .frameLatch, shadow := [(R.PRF_CFG, 16)] } }
     s.cl.due = some .frameLatch ∧ s.get F.CLS_STAT_state = 3 ∧ s.dueNow .frameLatch = true ∧ s.mode ≠ .mirror ∧
       (s.agree s.clauseWords).isSome = true) ∧
    (let s : State := { w .configure with cl := { implicit := [⟨1, [(R.MSK_RECTLo 0, 5)], .now, 0, 0⟩] } }
     (s.cl.implicit.find? (fun d => s.dueNow d.due)).isSome = true ∧ (s.agree [(R.MSK_RECTLo 0, 5)]).isSome = true) ∧
    (let s : State := { w .configure [(F.CLS_STAT_state, 2), (F.CHN_CTRL_en 0, 1), (F.CHN_CTRL_tiles 0, 1), (F.TIL_MAP_en 0, 1), (F.SPL_CTRL_en 0, 1)] with
                        cl := { shadow := [(R.PRF_CFG, 16)] } }
     s.get F.CLS_STAT_state = 2 ∧ s.clauseWords = [(R.PRF_CFG, 16)] ∧ s.agree s.clauseWords = none ∧ s.get F.CLS_STAT_when = 0 ∧ s.mode ≠ .mirror) ∧
    (let s := w .configure [(F.CLS_STAT_state, 3), (F.CLS_STAT_owner, 1)]
     s.get F.CLS_STAT_owner = 1 ∧ s.get F.CLS_STAT_state ≠ 0 ∧ ∀ l : Fin 4, s.active l = false) := by
  unfold State.mayCommand; decide +kernel
theorem witness_pairAlignment :
    (let s := w .configure [(F.AXO_STAT_role, 2)]
     s.live = true ∧ s.master = false ∧ s.get F.AXO_STAT_role = 2 ∧ s.get F.AXO_STAT_sync = 0 ∧ (w .configure).master = false ∧
       (w .configure).get F.AXO_STAT_role ≠ 2) ∧
    (let s := w .mirror [(F.AXO_STAT_aligned, 1), (F.CHN_CTRL_en 19, 1), (F.CHN_CTRL_tiles 19, 1), (F.PLC_PHASE_d, 50)]
     let m : Marker := ⟨1, 50, 0, BitVec.ofNat 8 (crc8 (leBytes 2 1 ++ [50, 0]))⟩
     s.live = true ∧ s.master = false ∧ s.chainUsed 19 = true ∧ m.crc8.toNat = crc8 (leBytes 2 m.pnum.toNat ++ [m.d, m.ph]) ∧
       m.pnum.toNat ≠ s.pnow % 65536 ∧ s.compares = true ∧ s.get F.AXO_DIVCAP_valid = 0) ∧
    (∀ n ∈ [2, 3], let s : State := { w .mirror [(F.AXO_STAT_role, 2), (F.AXO_STAT_sync, 1)] with pair := { badEdge := n } }
     s.live = true ∧ s.master = false ∧ s.get F.AXO_STAT_role = 2 ∧ s.get F.AXO_STAT_sync = 1 ∧ s.mode = .mirror ∧
       s.pair.badEdge = n ∧ (-4 - s.get F.AXO_PSDLY_dly : Int).natAbs ≤ 4 ∧ 4 < (5 - s.get F.AXO_PSDLY_dly : Int).natAbs) ∧
    (∀ n ∈ [0, 7], let s : State := { w .configure [(F.AXO_STAT_role, 2)] with pair := { setNow := true, shift := n } }
     s.live = true ∧ s.master = false ∧ s.get F.AXO_STAT_sync = 0 ∧ s.pair.setNow = true ∧
       (s.pair.shift = 0 ∧ 4 < (5 - s.get F.AXO_PSDLY_dly : Int).natAbs ∨
         (s.pair.shift ≠ 0 ∨ (4 - s.get F.AXO_PSDLY_dly : Int).natAbs ≤ 4))) ∧
    (let s := w .mirror [(F.CHN_CTRL_en 19, 1), (F.CHN_CTRL_tiles 19, 1), (F.PLC_PHASE_d, 50)]
     let m : Marker := ⟨0, 50, 0, BitVec.ofNat 8 (crc8 (leBytes 2 0 ++ [50, 0]))⟩
     s.chainUsed 19 = true ∧ m.crc8.toNat = crc8 (leBytes 2 m.pnum.toNat ++ [m.d, m.ph]) ∧ m.pnum.toNat = s.pnow % 65536 ∧
       m.d.toNat = s.dNow) := by decide +kernel
theorem witness_pairPackets :
    (let s := w .configure [(F.LNK_STAT_state 2, 4), (F.AXO_CFG_pair, 1)]
     let hb := pkt 0x60 (3 :: 0x23 :: List.replicate 30 0)
     s.mode ≠ .mirror ∧ s.master = false ∧ (s.pairArrives 2 3 (hb.len.toNat == 32) hb).2 = true) ∧
    (let s := w .operate [(F.LNK_STAT_state 2, 4), (F.AXO_CFG_pair, 1), (F.CLK_STAT_permit, 1)]
     let hb := pkt 0x60 (3 :: 0x23 :: List.replicate 30 0)
     (s.pairArrives 2 3 (hb.len.toNat == 32) hb).2 = true ∧ s.master = true ∧ bits (bodyLe hb 35 1) 2 2 = 0) ∧
    (let s := w .mirror [(F.LNK_STAT_state 2, 4), (F.AXO_CFG_pair, 1)]
     let ls := pkt 0x60 [2, 0, 0, 0, 0, 0, 0, 0]
     (s.pairArrives 2 2 (listsLenOk ls) ls).2 = true ∧ s.mode = .mirror ∧ s.pair.lst = [] ∧ s.pair.dig = [] ∧
       s.pair.followed = false ∧ s.cl.implicit = []) ∧
    (let s := w .mirror [(F.AXO_STAT_pos, 1), (F.TIL_MAP_en 0, 1)]
     let it := item 1 0 [0xFF, 0, 0, 0]
     s.mode = .mirror ∧ s.get F.AXO_STAT_pos = 1 ∧ (s.itemWhole 0 it) = true ∧ it.h0.toNat % 16 = 1 ∧
       s.tileAt 0 (it.h1.toNat % 16) = some 0) := by decide +kernel
/-- A DIGEST packet, all zero but for its kind, with its check value. -/
def digestPkt : Pkt := ⟨1, 368, 1 :: List.replicate 367 0, 3358509766, true⟩

theorem test_digest_crc : crcLink (pktHead 0x60 digestPkt ++ digestPkt.body) = 3358509766 := by
  have h (z : List Byte) (e : z = List.replicate 32 0) : pktHead 0x60 digestPkt ++ digestPkt.body =
      (pktHead 0x60 digestPkt ++ 1 :: List.replicate 15 0) ++ (z ++ (z ++ (z ++ (z ++ (z ++ (z ++ (z ++ (z ++ (z ++ (z ++ (z))))))))))) := by
    rw [e]; decide +kernel
  rw [crcLink, h _ rfl]
  have h0 : crcFeed 32 0x04C11DB7 true 0xFFFFFFFF (pktHead 0x60 digestPkt ++ 1 :: List.replicate 15 0) = 3042661911 := by decide +kernel
  have h1 : crcFeed 32 0x04C11DB7 true 3042661911 (List.replicate 32 0) = 2138594110 := by decide +kernel
  have h2 : crcFeed 32 0x04C11DB7 true 2138594110 (List.replicate 32 0) = 130596054 := by decide +kernel
  have h3 : crcFeed 32 0x04C11DB7 true 130596054 (List.replicate 32 0) = 70809321 := by decide +kernel
  have h4 : crcFeed 32 0x04C11DB7 true 70809321 (List.replicate 32 0) = 644460946 := by decide +kernel
  have h5 : crcFeed 32 0x04C11DB7 true 644460946 (List.replicate 32 0) = 598932713 := by decide +kernel
  have h6 : crcFeed 32 0x04C11DB7 true 598932713 (List.replicate 32 0) = 211282788 := by decide +kernel
  have h7 : crcFeed 32 0x04C11DB7 true 211282788 (List.replicate 32 0) = 1859148231 := by decide +kernel
  have h8 : crcFeed 32 0x04C11DB7 true 1859148231 (List.replicate 32 0) = 557493353 := by decide +kernel
  have h9 : crcFeed 32 0x04C11DB7 true 557493353 (List.replicate 32 0) = 107796745 := by decide +kernel
  have h10 : crcFeed 32 0x04C11DB7 true 107796745 (List.replicate 32 0) = 3279545963 := by decide +kernel
  have h11 : crcFeed 32 0x04C11DB7 true 3279545963 (List.replicate 32 0) = 2628553708 := by decide +kernel
  rw [crcFeed_append, h0]
  simp only [crcFeed_append, h1, h2, h3, h4, h5, h6, h7, h8, h9, h10, h11]
  decide
theorem witness_pairPackets_digest :
    let s : State := { w .configure [(F.LNK_STAT_state 2, 4), (F.AXO_CFG_pair, 1)] with pair := { setNow := true } }
    (s.pairArrives 2 1 (digestPkt.len.toNat == 368) digestPkt).2 = true ∧ s.mode ≠ .mirror ∧ s.pair.setNow = true ∧ s.pair.shift = 0 ∧
      s.master = false := by
  dsimp only
  rw [State.pairArrives, State.pktWhole, State.crcOk, test_digest_crc]
  decide +kernel
theorem witness_takeover :
    (let s := w .mirror [(F.AXO_STAT_aligned, 1), (F.AXO_STAT_sync, 1), (F.SYS_STAT_cfg_ok, 1)]
     s.mayCommand .spi 30 ∧ s.axoReady = true ∧ s.mode = .mirror ∧ s.get F.SYS_STAT_cfg_ok = 1 ∧ s.pair.tkP = none ∧
       s.pair.edge = false ∧ s.pair.mark = false ∧ s.live = true) ∧
    (let s : State := { w .mirror [(F.SYS_STAT_cfg_ok, 1)] with pair := { digMode := 5 } }
     s.mode = .mirror ∧ s.get F.SYS_STAT_cfg_ok = 1 ∧ s.pair.tkP = none ∧ s.pair.edge = false ∧ s.pair.mark = false ∧
       s.pair.digMode = 5 ∧ s.live = true) ∧
    (let s : State := { w .mirror with pair := { tkReq := some 200, edge := true }, pstart := 1000 }
     s.pair.tkReq = some 200 ∧ 200 + 800 ≤ s.pstart) ∧
    (w .operate).mode ≠ .mirror ∧ (w .operate).mayCommand .pdu 30 := by unfold State.mayCommand; decide +kernel

end Sys2Proof.Tests
end

section
/-! What a fault's actions leave beside the safety island, as a relation of states with a rule per operation. -/

set_option Elab.async false

namespace Sys2Proof.Machine

/-- The register words beside the safety island that no fault's action writes: the clock counts, the crossing errors, and the longest
judgement time. -/
def calmWords : List Nat := [R.CLK_FCORE, R.CLK_FCHAIN, R.CLK_FCONV, R.CLK_FLTX, R.CLK_XERR, R.SUP_JRUN]

/-- The safety island apart from what an entry into HOLD, the end of SELFTEST and a period start reset (R18, R19, R44). -/
def Island.calm (i : Island) : Island :=
  { i with req := false, sense := none, hbGap := 0, hbClear := 0, wdogDue := false, ackEvent := false }

/-- A step that leaves the island's samples and heartbeat count, the queue of requests, and the words of `calmWords`. Every fault's
action is such a step (`raise_calm`, `setCond_calm`), whatever its footprint. -/
structure Calm (s t : State) : Prop where
  isl : t.isl.calm = s.isl.calm
  queue : t.link.queue = s.link.queue
  word : ∀ a ∈ calmWords, t.reg a = s.reg a

theorem Calm.refl (s : State) : Calm s s := ⟨rfl, rfl, fun _ _ => rfl⟩

theorem Calm.comp {s t u : State} (h : Calm s t) (k : Calm t u) : Calm s u :=
  ⟨k.isl.trans h.isl, k.queue.trans h.queue, fun a ha => (k.word a ha).trans (h.word a ha)⟩

/-- A step whose footprint holds none of these parts. -/
theorem Calm.of {E : Nat} {s t : State} (h : Only E s t)
    (hE : (!E.testBit 7 && !E.testBit 20 && calmWords.all (leaves E)) = true := by decide) : Calm s t := by
  simp only [Bool.and_eq_true, Bool.not_eq_true', List.all_eq_true] at hE
  obtain ⟨⟨hi, hl⟩, hw⟩ := hE
  exact ⟨by rw [h.isl hi], by rw [h.link hl], fun a ha => h.word a (hw a ha)⟩

theorem Calm.ite {s a b : State} {c : Prop} [Decidable c] (ha : Calm s a) (hb : Calm s b) : Calm s (if c then a else b) := by
  split <;> assumption

theorem Calm.iteOn {s a b : State} {c : Prop} [Decidable c] (hb : Calm s b) (ha : Calm b a) : Calm s (if c then a else b) :=
  .ite (hb.comp ha) hb

theorem Calm.iteOff {s a b : State} {c : Prop} [Decidable c] (ha : Calm s a) (hb : Calm a b) : Calm s (if c then a else b) :=
  .ite ha (ha.comp hb)

theorem Calm.dite {s : State} {c : Prop} [Decidable c] {a : c → State} {b : ¬c → State} (ha : ∀ h, Calm s (a h))
    (hb : ∀ h, Calm s (b h)) : Calm s (if h : c then a h else b h) := by split <;> simp_all

theorem Calm.ofPair {s u : State} {α : Type} {p : State × α} {v : α} (h : p = (u, v)) (k : Calm s p.1) : Calm s u := by
  subst h; exact k

theorem Calm.foldl {s t : State} {α : Type} {f : State → α → State} {l : List α} (h : Calm s t) (hf : ∀ u x, Calm u (f u x)) :
    Calm s (l.foldl f t) := by
  induction l generalizing t with
  | nil => exact h
  | cons x r ih => exact ih (h.comp (hf t x))

/-- A record update beside the register file. -/
theorem Calm.upd {s t : State} (h : Calm s t) {pending' now' pstart' sram' ecc1' ecc2' otp' boot' isl' cl' vid' fades' chains' tiles'
    light' flt' adc' bal' spl' sio' skink' link' spi' spd' pair' out' draws'}
    (hi : Island.calm isl' = t.isl.calm := by dsimp only [Island.calm])
    (hq : Link.queue link' = t.link.queue := by exact rfl) :
    Calm s ⟨pending', now', pstart', t.regs, sram', ecc1', ecc2', otp', boot', isl', cl', vid', fades', chains', tiles', light', flt',
      adc', bal', spl', sio', skink', link', spi', spd', pair', out', draws'⟩ :=
  ⟨hi.trans h.isl, hq.trans h.queue, h.word⟩

theorem Calm.setReg {s t : State} {a : Nat} {v : Word} (h : Calm s t) (ha : a ∉ calmWords := by decide) : Calm s (t.setReg a v) :=
  h.comp ⟨rfl, rfl, fun _ hb => reg_setReg_ne t v (by rintro rfl; exact ha hb)⟩

theorem Calm.put {s t : State} {f : Fld} {v : Nat} (h : Calm s t) (ha : f.addr ∉ calmWords := by decide) : Calm s (t.put f v) :=
  h.setReg ha

theorem Calm.flag {s t : State} {f : Fld} {b : Bool} (h : Calm s t) (ha : f.addr ∉ calmWords := by decide) : Calm s (t.flag f b) :=
  h.put ha

theorem Calm.incBy {s t : State} {f : Fld} {n : Nat} (h : Calm s t) (ha : f.addr ∉ calmWords := by decide) : Calm s (t.incBy f n) :=
  h.put ha

theorem Calm.inc {s t : State} {f : Fld} (h : Calm s t) (ha : f.addr ∉ calmWords := by decide) : Calm s (t.inc f) := h.put ha

theorem Calm.setBit {s t : State} {a n : Nat} {b : Bool} (h : Calm s t) (ha : a ∉ calmWords := by decide) : Calm s (t.setBit a n b) :=
  h.setReg ha

theorem Calm.setMode {s t : State} {m : Mode} (h : Calm s t) : Calm s (t.setMode m) := h.put

/-- The parts of the words that are not of the clock and supervision pages. -/
abbrev P.calm : Nat := 288230376151711743 - P.clk - P.pgSup

/-- A register outside those two pages is none of `calmWords`. -/
theorem notCalm {a : Nat} (hc : covers P.calm a = true) : a ∉ calmWords :=
  fun ha => ne_of_leaves_covers (List.all_eq_true.mp (by decide : calmWords.all (leaves P.calm) = true) a ha) hc rfl

theorem Calm.event {s t : State} {p n : Nat} (h : Calm s t) : Calm s (t.event p n) := h.setBit (notCalm (covers_raw _ p))

theorem Calm.eventIf {s t : State} {c : Bool} {p n : Nat} (h : Calm s t) : Calm s (t.eventIf c p n) := by
  unfold State.eventIf; exact .ite h.event h

end Sys2Proof.Machine

end

section
/-! The fault actions, the readings under an ECC error, the safety inputs and the judgements are calm. -/

set_option Elab.async false

namespace Sys2Proof.Machine

theorem State.leaveSelftest_calm (s : State) : Calm s (State.leaveSelftest s) := by
  unfold State.leaveSelftest; dsimp only; refine .upd ?_; refine .foldl ?_ ?_
  refine .comp ?_ (.of (State.showTiming_only ..)); refine .foldl ?_ ?_; exact .flag (.refl ..); intro _ _; refine .ite ?_ ?_
  exact .put (.refl ..) (notCalm covers_lnk); exact .refl ..; intro _ _; exact .of (State.laneEnable_only ..)

theorem State.withdraw_calm (s : State) : Calm s (State.withdraw s) := by
  unfold State.withdraw; exact .comp (.comp (.put (.put (.refl ..))) (.of (State.chainsOff_only ..))) (.of (State.outputsOff_only ..))

theorem State.enterHold_calm (s : State) (code detail : Nat) : Calm s (State.enterHold s code detail) := by
  unfold State.enterHold; refine .ite ?_ ?_; exact .put (.refl ..); dsimp only
  refine .comp (.upd (.comp (.comp ?_ (.of (State.clearFbInput_only ..))) (.of (State.ccvAbandon_only ..))))
    (.of (State.evalPolicies_only ..))
  refine .comp (.comp (.comp ?_ (.of (State.stopLight_only ..))) (.of (State.darkOff_only ..))) (.of (State.holdOtp_only ..))
  refine .comp (.comp (.setMode (.put (.put ?_))) (State.withdraw_calm ..)) (.of (State.abortClause_only ..))
  refine .comp ?_ (.of (State.ownSwap_only ..)); refine .ite ?_ ?_; exact State.leaveSelftest_calm ..
  exact .refl ..

theorem State.enterFallback_calm (s : State) : Calm s (State.enterFallback s) := by
  unfold State.enterFallback; refine .ite ?_ ?_; exact .refl ..; refine .ite ?_ ?_
  exact State.enterHold_calm ..
  refine .comp (.comp (.comp ?_ (.of (State.markAll_only ..))) (.of (State.clearFbInput_only ..))) (.of (State.evalPolicies_only ..))
  exact .comp (.setMode (.of (State.passAfresh_only ..))) (.of (State.initOffsets_only ..))

theorem State.fallbackAction_calm (s : State) (cls : Nat) : Calm s (State.fallbackAction s cls) := by
  unfold State.fallbackAction; refine .ite ?_ ?_; refine .ite ?_ ?_; exact .refl ..
  exact .comp (State.enterFallback_calm ..) (.of (State.modeTook_only ..)); refine .ite ?_ ?_
  exact .put (.refl ..); exact .refl ..

theorem State.holdAction_calm (s : State) (cls : Nat) : Calm s (State.holdAction s cls) := by
  unfold State.holdAction; refine .ite ?_ ?_; refine .ite ?_ ?_; exact .refl ..
  exact .comp (.put (.put (.refl ..))) (.of (State.modeTook_only ..)); refine .iteOff ?_ ?_
  exact State.enterHold_calm ..; exact .of (State.modeTook_only ..)

theorem State.modeAction_calm (s : State) (cls act : Nat) : Calm s (State.modeAction s cls act) := by
  unfold State.modeAction; split; exact State.fallbackAction_calm ..
  exact State.holdAction_calm ..; exact State.holdAction_calm ..
  exact State.holdAction_calm ..; exact State.holdAction_calm ..; refine .ite ?_ ?_
  exact .refl ..; exact State.holdAction_calm ..; refine .ite ?_ ?_; exact .refl ..
  exact State.holdAction_calm ..; exact .refl ..

theorem State.takeAction_calm (s : State) (cls inst : Nat) : Calm s (State.takeAction s cls inst) := by
  unfold State.takeAction; dsimp only
  refine .comp (.comp (.comp ?_ (.of (State.updateOff_only ..))) (State.modeAction_calm ..)) (.of (State.sioDrive_only ..))
  exact .comp (.event (.inc (.of (State.setInst_only ..)))) (.of (State.logFault_only ..))

theorem State.raise_calm (s : State) (cls inst : Nat) : Calm s (State.raise s cls inst) := by
  unfold State.raise; refine .ite ?_ ?_; exact .refl ..; dsimp only; refine .ite ?_ ?_
  exact .comp (.eventIf (.refl ..)) (.of (State.setInst_only ..)); refine .iteOn ?_ ?_
  exact .comp (.eventIf (.refl ..)) (.of (State.setInst_only ..)); exact State.takeAction_calm ..

theorem State.setCond_calm (s : State) (cls inst : Nat) (b : Bool) : Calm s (State.setCond s cls inst b) := by
  unfold State.setCond; dsimp only; refine .ite ?_ ?_; exact .refl ..; refine .ite ?_ ?_; refine .iteOn ?_ ?_
  exact .event (.of (State.setInst_only ..)); exact State.takeAction_calm ..
  exact .of (State.setInst_only ..)

theorem State.uncorrectable_calm (s : State) (word req : Nat) : Calm s (State.uncorrectable s word req) := by
  unfold State.uncorrectable; dsimp only; refine .comp ?_ (State.raise_calm ..); refine .ite ?_ ?_; refine .event ?_
  refine .ite ?_ ?_; exact .inc (.refl ..); exact .inc (.refl ..)
  refine .comp (.put (.put (.put (.put (.event ?_))))) (.of (State.draw_only ..)); refine .ite ?_ ?_; exact .inc (.refl ..)
  exact .inc (.refl ..)

theorem State.readWords_calm (s : State) (f : Nat → Bool) (req : Nat) : Calm s (State.readWords s f req) := by
  unfold State.readWords; dsimp only; refine .foldl ?_ ?_; refine .foldl ?_ ?_; exact .refl ..; intro _ _
  exact .event (.inc (.refl ..) (notCalm covers_arr)); intro _ _; exact State.uncorrectable_calm ..

theorem State.countState_calm (s : State) (st : Nat) (up : Bool) : Calm s (s.countState st up) := by
  unfold State.countState
  split
  · rename_i f hf
    have hc : f.addr ∉ calmWords := by
      unfold stateCount at hf
      split at hf <;> first | (injection hf with hf; subst hf; decide) | cases hf
    exact .upd (.put (.refl ..) hc)
  · exact .refl ..

theorem State.restoreWord_calm (s : State) (w : Nat) : Calm s (State.restoreWord s w) := by
  unfold State.restoreWord; refine .foldl ?_ ?_; exact .refl ..; intro _ _; dsimp only
  refine .comp (.comp (.comp ?_ (.of (State.setWhy_only ..))) (State.countState_calm ..)) (State.countState_calm ..)
  exact .of (State.setPix_only ..)

theorem State.restore_calm (s : State) (f : Nat → Bool) : Calm s (State.restore s f) := by
  unfold State.restore; refine .foldl ?_ ?_; exact State.readWords_calm ..; intro _ _
  exact State.restoreWord_calm ..

theorem State.setPrf_calm (s : State) (p k : Nat) : Calm s (State.setPrf s p k) := by
  unfold State.setPrf; dsimp only; exact .comp (State.restore_calm ..) (.of (State.setLe_only ..))

theorem State.addSurplus_calm (s : State) (p ticks : Nat) : Calm s (State.addSurplus s p ticks) := by
  unfold State.addSurplus; split; exact .refl ..; dsimp only; refine .iteOn ?_ ?_
  exact .comp (.of (State.setLedger_only ..)) (.of (State.noteSur_only ..))
  exact .comp (State.setPrf_calm ..) (.of (State.markRows_only ..))

theorem State.countFallback_calm (s : State) (p : Nat) : Calm s (State.countFallback s p) := by
  unfold State.countFallback; refine .ite ?_ ?_; dsimp only; refine .iteOn ?_ ?_; exact .upd (.put (.refl ..))
  exact State.enterHold_calm ..; exact .refl ..

theorem State.pixelClasses_calm (s : State) (a : Nat) : Calm s (State.pixelClasses s a) := by
  unfold State.pixelClasses; dsimp only; refine .comp (.comp ?_ (State.setCond_calm ..)) (.of (State.cycleOff_only ..))
  refine .foldl ?_ ?_; exact .of (State.cycleOn_only ..); intro _ _
  exact State.setCond_calm ..

theorem State.afterCharge_calm (s : State) (a : Nat) : Calm s (State.afterCharge s a) := by
  unfold State.afterCharge; dsimp only; refine .comp (.comp ?_ (State.pixelClasses_calm ..)) (.of (State.evalPolicies_only ..))
  refine .ite ?_ ?_; exact .of (State.showFaulty_only ..); exact .refl ..

theorem State.readRange_calm (s : State) (a n req : Nat) : Calm s (State.readRange s a n req) := by
  unfold State.readRange; exact State.readWords_calm ..

theorem State.readList_calm (s : State) (k : Nat) : Calm s (State.readList s k) := by
  unfold State.readList; exact State.readRange_calm ..

theorem State.listFault_calm (s : State) (p st a : Nat) (glare : Bool) (q : Nat) : Calm s (State.listFault s p st a glare q).1 := by
  unfold State.listFault; split; dsimp only
  refine .comp (.comp (.comp ?_ (State.afterCharge_calm ..)) (.of (State.markFill_only ..))) (.of (State.markFill_only ..))
  exact .comp (.comp (State.readList_calm ..) (.of (State.setLe_only ..))) (State.afterCharge_calm ..); split
  dsimp only
  refine .comp (.comp (.put (.comp ?_ (.of (State.setLe_only ..)))) (State.afterCharge_calm ..)) (.of (State.markFill_only ..))
  exact State.readList_calm ..; dsimp only
  refine .comp (.comp (.event (.put (.comp ?_ (State.readList_calm ..)))) (State.setCond_calm ..)) (State.pixelClasses_calm ..)
  exact .refl ..

theorem State.confirm_calm (s : State) (r : PerRec) (mask : List Word) (p st q : Nat) : Calm s (State.confirm s r mask p st q) := by
  unfold State.confirm; split; split; dsimp only; refine .comp (.put (.put (.put (.put ?_)))) (State.countFallback_calm ..)
  refine .iteOn ?_ ?_; exact .event (.inc (.ofPair (by assumption) (State.listFault_calm ..)))
  exact .event (.inc (.refl ..))

theorem State.movePix_calm (s : State) (p st conf q : Nat) : Calm s (State.movePix s p st conf q) := by
  unfold State.movePix; dsimp only; refine .iteOff ?_ ?_; exact .of (State.setPix_only ..)
  refine .comp (.comp (.comp ?_ (State.countState_calm ..)) (State.countState_calm ..)) (.of (State.queueRecord_only ..))
  refine .ite ?_ ?_; exact .refl ..; exact .of (State.refill_only ..)

theorem State.judged_calm (s : State) (r : PerRec) (mask : List Word) (p q : Nat) (f : JForm) (res : Nat) :
    Calm s (State.judged s r mask p q f res) := by
  unfold State.judged; dsimp only; refine .ite ?_ ?_; refine .ite ?_ ?_
  refine .comp (.comp ?_ (.of (State.healthOf_only ..))) (State.movePix_calm ..); refine .ite ?_ ?_
  exact State.addSurplus_calm ..; exact .refl ..
  refine .comp (.comp (.comp ?_ (.of (State.healthOf_only ..))) (State.movePix_calm ..)) (State.listFault_calm ..)
  refine .ite ?_ ?_; exact State.addSurplus_calm ..; exact .refl ..; refine .ite ?_ ?_
  refine .comp (.comp (.comp ?_ (.of (State.setForm_only ..))) (.of (State.setWhy_only ..))) (State.confirm_calm ..)
  refine .comp (.comp ?_ (.of (State.healthOf_only ..))) (State.movePix_calm ..); refine .ite ?_ ?_
  exact State.addSurplus_calm ..; exact .refl ..; refine .iteOn ?_ ?_
  refine .comp (.comp (.comp ?_ (State.movePix_calm ..)) (.of (State.setForm_only ..))) (.of (State.setWhy_only ..))
  refine .comp ?_ (.of (State.healthOf_only ..)); refine .ite ?_ ?_; exact State.addSurplus_calm ..
  exact .refl ..; exact .of (State.noteUnverified_only ..)

theorem State.outFault_calm (s : State) (k cause : Nat) : Calm s (State.outFault s k cause) := by
  unfold State.outFault; dsimp only; refine .comp (.comp ?_ (.of (State.outOff_only ..))) (State.raise_calm ..); refine .ite ?_ ?_
  exact .event (.inc (.put (.put (.refl ..) (notCalm covers_arr)) (notCalm covers_arr)))
  exact .event (.inc (.put (.put (.refl ..) (notCalm covers_arr)) (notCalm covers_arr)))

theorem State.tickReadback_calm (s : State) (k : Nat) (rb : Bool) : Calm s (State.tickReadback s k rb) := by
  unfold State.tickReadback; dsimp only; refine .ite ?_ ?_; exact .refl ..; refine .ite ?_ ?_
  exact .of (State.onOut_only ..); refine .ite ?_ ?_; exact .of (State.onOut_only ..)
  refine .iteOn ?_ ?_; exact .of (State.onOut_only ..); exact State.outFault_calm ..

theorem State.tickTest_calm (s : State) (k : Nat) (rb : Bool) : Calm s (State.tickTest s k rb) := by
  unfold State.tickTest; dsimp only; refine .ite ?_ ?_; exact .refl ..; refine .ite ?_ ?_
  exact .comp (.comp (.of (State.onOut_only ..)) (.of (State.onOut_only ..))) (State.outFault_calm ..)
  refine .iteOn ?_ ?_; exact .of (State.onOut_only ..); refine .iteOff ?_ ?_
  exact .of (State.onOut_only ..); refine .ite ?_ ?_
  exact .comp (.put (.inc (.refl ..)) (notCalm covers_arr)) (.of (State.onOut_only ..))
  exact .put (State.outFault_calm ..) (notCalm covers_arr)

theorem State.tickOut_calm (s : State) (rbs : BitVec 8) (k : Nat) : Calm s (State.tickOut s rbs k) := by
  unfold State.tickOut; dsimp only
  refine .comp (.comp (.comp ?_ (.of (State.tickOn_only ..))) (State.tickTest_calm ..)) (State.tickReadback_calm ..)
  exact .flag (.refl ..) (notCalm covers_arr)

theorem State.echo_calm (s : State) (k cause : Nat) : Calm s (State.echo s k cause) := by
  unfold State.echo; dsimp only; refine .comp (.event (.inc ?_)) (State.raise_calm ..); refine .iteOn ?_ ?_
  refine .iteOn ?_ ?_; exact .of (State.noteEcho_only ..); exact .of (State.latchInput_only ..)
  exact .of (State.latchFb_only ..)

theorem State.badSource_calm (s : State) (n : Nat) : Calm s (State.badSource s n) := by
  unfold State.badSource; refine .foldl ?_ ?_; exact .refl ..; intro _ _; dsimp only; refine .ite ?_ ?_
  exact State.echo_calm ..; exact .refl ..

theorem State.echoCheck_calm (s : State) (n : Nat) (rbWrong final : Bool) : Calm s (State.echoCheck s n rbWrong final) := by
  unfold State.echoCheck; dsimp only; refine .foldl ?_ ?_; exact .refl ..; intro _ _; refine .ite ?_ ?_; refine .ite ?_ ?_
  exact .refl ..; exact State.echo_calm ..; exact .refl ..

theorem State.tickSource_calm (s : State) (rb : BitVec 4) (n : Nat) : Calm s (State.tickSource s rb n) := by
  unfold State.tickSource; dsimp only; refine .ite ?_ ?_; refine .ite ?_ ?_
  exact .comp (.comp (.setBit (.refl ..)) (.of (State.onTps_only ..))) (State.echoCheck_calm ..); refine .iteOn ?_ ?_
  exact .setBit (.refl ..); refine .comp ?_ (State.echoCheck_calm ..); refine .ite ?_ ?_; exact .refl ..
  exact State.badSource_calm ..; refine .iteOn ?_ ?_; exact .setBit (.refl ..)
  exact State.badSource_calm ..

theorem State.sioTick_calm (s : State) (p : TickIn) : Calm s (State.sioTick s p) := by
  unfold State.sioTick; dsimp only; refine .ite ?_ ?_; refine .comp ?_ (.of (State.sioDrive_only ..)); refine .foldl ?_ ?_
  refine .comp ?_ (.of (State.endBlanking_only ..)); refine .foldl ?_ ?_; refine .comp ?_ (.of (State.evalFb_only ..))
  refine .foldl ?_ ?_; exact .comp (.upd (.of (State.takeSio_only ..))) (.of (State.advanceTps_only ..)); intro _ _
  exact .of (State.evalInput_only ..); intro _ _; exact State.tickSource_calm ..; intro _ _
  exact State.tickOut_calm ..
  exact .comp (.upd (.of (State.takeSio_only ..))) (.of (State.sioOff_only ..))

theorem State.readHist_calm (s : State) (p : Nat) : Calm s (State.readHist s p) := by
  unfold State.readHist; exact State.readRange_calm ..

theorem State.judgeRow_calm (s : State) (t tok row q : Nat) (data : List Byte) : Calm s (State.judgeRow s t tok row q data) := by
  unfold State.judgeRow; split; exact .refl ..; dsimp only; refine .ite ?_ ?_; exact .inc (.refl ..); refine .foldl ?_ ?_
  exact .comp (.comp (State.restore_calm ..) (State.readRange_calm ..)) (State.readHist_calm ..); intro _ _
  split; exact .refl ..; refine .iteOff ?_ ?_; refine .comp ?_ (.of (State.noteFail_only ..)); refine .ite ?_ ?_
  exact .event (.inc (.refl ..)); exact .refl ..; exact State.judged_calm ..

end Sys2Proof.Machine

end

section
/-! The parts of a period start are calm. -/

set_option Elab.async false

namespace Sys2Proof.Machine

theorem State.curveReads_calm (s : State) (a : Nat) : Calm s (State.curveReads s a) := by
  unfold State.curveReads; dsimp only; refine .ite ?_ ?_; exact State.readRange_calm ..; exact .refl ..

theorem State.refade_calm (s : State) (a : Nat) : Calm s (State.refade s a) := by
  unfold State.refade
  refine .ite ?_ (.refl ..)
  have h : Calm s (s.curveReads a) := State.curveReads_calm ..
  generalize s.curveReads a = u at h ⊢
  dsimp only
  generalize u.fadeAt a (u.fade a) u.pnow = r
  generalize (u.on (F.ASP_FST_fading a) && !r.2) = e
  have hv : Calm s (((u.put (F.ASP_FST_f a) r.1).flag (F.ASP_FST_fading a) r.2).eventIf e
      (if a < 80 then 16 else 17) 0) := .eventIf (.flag (.put h (notCalm covers_asp)) (notCalm covers_asp))
  exact .ite hv (.comp hv (.of (State.markRows_only ..)))

theorem State.refadeNow_calm (s : State) (a : Nat) : Calm s (State.refadeNow s a) := by
  unfold State.refadeNow; refine .ite ?_ ?_; exact State.refade_calm ..; exact .refl ..

theorem State.ctxFade_calm (s : State) (old : State) (a : Nat) (start : Bool) : Calm s (State.ctxFade s old a start) := by
  unfold State.ctxFade; dsimp only; refine .ite ?_ ?_
  refine .put (.put (.comp (.comp ?_ (.of (State.dropGroup_only ..))) (.of (State.onFade_only ..))) (notCalm covers_asp))
    (notCalm covers_asp)
  refine .ite ?_ ?_; exact .of (State.dropGroup_only ..); exact .refl ..; refine .iteOn ?_ ?_; refine .ite ?_ ?_
  refine .comp (.comp ?_ (.of (State.onFade_only ..))) (.of (State.beginFade_only ..)); refine .ite ?_ ?_
  exact .of (State.dropGroup_only ..); exact .refl ..; refine .iteOff ?_ ?_; refine .ite ?_ ?_
  exact .of (State.dropGroup_only ..); exact .refl ..
  exact .comp (.of (State.dropWaits_only ..)) (.of (State.startFade_only ..))
  exact State.refadeNow_calm ..

theorem State.ctxChanged_calm (s : State) (old : State) (a : Nat) (start : Bool) : Calm s (State.ctxChanged s old a start) := by
  unfold State.ctxChanged; dsimp only; refine .ite ?_ ?_; refine .ite ?_ ?_; exact .refl ..
  exact State.ctxFade_calm ..
  exact .comp (.comp (State.ctxFade_calm ..) (.of (State.markRows_only ..))) (.of (State.markRows_only ..))

theorem State.dropReturns_calm (s : State) : Calm s (State.dropReturns s) := by
  unfold State.dropReturns; refine .ite ?_ ?_; exact .refl ..; dsimp only; exact .upd (.event (.incBy (.refl ..)))

theorem State.onLane_calm (s : State) (l : Nat) (f : Lane → Lane) : Calm s (State.onLane s l f) := by
  unfold State.onLane; refine .dite ?_ ?_; intro _; exact .upd (.refl ..); intro _; exact .refl ..

theorem State.eyeAbort_calm (s : State) (l : Nat) : Calm s (State.eyeAbort s l) := by
  unfold State.eyeAbort; dsimp only; refine .iteOn ?_ ?_; exact .put (.refl ..) (notCalm covers_lnk)
  exact .event (.comp (.put (.put (.put (.refl ..) (notCalm covers_lnk)) (notCalm covers_lnk)) (notCalm covers_lnk)) (State.onLane_calm ..))

theorem State.toExit_calm (s : State) (l : Nat) (failed : Bool) : Calm s (State.toExit
    s l failed) := by
  unfold State.toExit; dsimp only
  refine .comp (.comp (.comp ?_ (State.eyeAbort_calm ..)) (State.onLane_calm ..)) (.of (State.setLane_only ..))
  exact .of (State.emit_only ..)

theorem State.leaveActive_calm (s : State) (l cause : Nat) : Calm s (State.leaveActive
    s l cause) := by
  unfold State.leaveActive; refine .ite ?_ ?_; dsimp only
  refine .comp (.comp (.event (.put ?_ (notCalm covers_lnk))) (State.toExit_calm ..)) (State.dropReturns_calm ..)
  exact State.onLane_calm ..; exact .refl ..

theorem State.leaveDown_calm (s : State) (l : Nat) : Calm s (State.leaveDown s l) := by
  unfold State.leaveDown; refine .ite ?_ ?_; exact State.onLane_calm ..; exact .refl ..

theorem State.markDown_calm (s : State) (l : Nat) (b : Bool) : Calm s (State.markDown s l b) := by
  unfold State.markDown; exact .comp (State.onLane_calm ..) (State.setCond_calm ..)

theorem State.toDetect_calm (s : State) (l : Nat) : Calm s (State.toDetect s l) := by
  unfold State.toDetect; refine .ite ?_ ?_; exact .of (State.setLane_only ..)
  exact .comp (.of (State.setLane_only ..)) (State.markDown_calm ..)

theorem State.reconfigLane_calm (s : State) (l : Nat) : Calm s (State.reconfigLane s l) := by
  unfold State.reconfigLane; split; exact State.toDetect_calm ..
  exact State.leaveActive_calm ..
  exact .comp (State.onLane_calm ..) (.of (State.showPos_only ..))
  exact .comp (State.leaveDown_calm ..) (State.toExit_calm ..)

theorem State.roleChanged_calm (s : State) (old : State) (l : Nat) : Calm s (State.roleChanged s old l) := by
  unfold State.roleChanged; refine .ite ?_ ?_; exact .refl ..; exact State.reconfigLane_calm ..

theorem State.applied_calm (s : State) (old : State) (ws : List (Nat × Word)) (start : Bool) : Calm s (State.applied s old ws start) := by
  unfold State.applied; dsimp only; refine .comp (.comp ?_ (.of (State.updateOff_only ..))) (.of (State.sioDrive_only ..))
  refine .iteOn ?_ ?_; refine .iteOn ?_ ?_; refine .iteOn ?_ ?_; refine .foldl ?_ ?_; refine .iteOn ?_ ?_
  refine .iteOff ?_ ?_; refine .foldl ?_ ?_; refine .foldl ?_ ?_; refine .ite ?_ ?_
  exact .of (State.markAll_only ..); exact .refl ..; intro _ _; exact State.ctxChanged_calm ..
  intro _ _; exact .of (State.symChanged_only ..); exact .of (State.maskApply_only ..)
  refine .comp ?_ (.of (State.showTiming_only ..)); refine .ite ?_ ?_; exact .of (State.setD_only ..); exact .refl ..
  intro _ _; exact State.roleChanged_calm ..; exact .upd (.put (.refl ..))
  exact .of (State.adcShow_only ..); exact .of (State.loseCfg_only ..)

theorem State.groupChange_calm (s : State) (a : Nat) : Calm s (State.groupChange s a) := by
  unfold State.groupChange; split; refine .ite ?_ ?_; dsimp only; refine .ite ?_ ?_
  exact .eventIf (.of (State.endGroup_only ..)); refine .iteOff ?_ ?_
  exact .of (State.endGroup_only ..)
  refine .eventIf (.comp (.comp (.comp ?_ (.of (State.dropWaits_only ..))) (.of (State.startFade_only ..))) (State.refadeNow_calm ..))
  exact .comp (.flag (.refl ..) (notCalm covers_asp)) (.of (State.markRows_only ..)); exact .refl ..; exact .refl ..

theorem State.groupBefore_calm (s : State) (n a : Nat) : Calm s (State.groupBefore s n a) := by
  unfold State.groupBefore; split; refine .ite ?_ ?_; exact State.groupChange_calm ..; exact .refl ..
  exact .refl ..

theorem State.showUnv_calm (s : State) (a : Nat) : Calm s (State.showUnv s a) := by
  unfold State.showUnv; dsimp only; exact .comp (.put (.refl ..) (notCalm covers_asp)) (State.setCond_calm ..)

theorem State.cycleEnd_calm (s : State) : Calm s (State.cycleEnd s) := by
  unfold State.cycleEnd; dsimp only; refine .comp (.upd (.comp ?_ (.of (State.ageRows_only ..)))) (.of (State.evalPolicies_only ..))
  refine .foldl ?_ ?_; exact .refl ..; intro _ _; exact State.showUnv_calm ..

theorem State.unlistFault_calm (s : State) (p : Nat) : Calm s (State.unlistFault s p) := by
  unfold State.unlistFault; split; exact .comp (State.readList_calm ..) (State.pixelClasses_calm ..)
  dsimp only
  refine .comp (.comp (.put (.comp ?_ (.of (State.setLe_only ..)))) (State.afterCharge_calm ..)) (.of (State.markFill_only ..))
  exact State.readList_calm ..

theorem State.ackPixel_calm (s : State) (p : Nat) : Calm s (State.ackPixel s p) := by
  unfold State.ackPixel; dsimp only; refine .ite ?_ ?_; exact .refl ..
  exact .event (.comp (.comp (State.movePix_calm ..) (.of (State.setForm_only ..))) (State.unlistFault_calm ..))

theorem State.ackPixels_calm (s : State) : Calm s (State.ackPixels s) := by
  unfold State.ackPixels; dsimp only; refine .foldl ?_ ?_; exact State.restore_calm ..; intro _ _
  exact State.ackPixel_calm ..

theorem State.ackInput_calm (s : State) (k : Nat) : Calm s (State.ackInput s k) := by
  unfold State.ackInput; dsimp only; refine .iteOn ?_ ?_; refine .ite ?_ ?_; exact .refl ..; refine .ite ?_ ?_
  exact .event (.put (.put (.refl ..) (notCalm covers_arr)) (notCalm covers_arr)); exact State.raise_calm ..; refine .ite ?_ ?_
  exact .event (.upd (.refl ..)); exact State.raise_calm ..

theorem State.ackOut_calm (s : State) (k : Nat) : Calm s (State.ackOut s k) := by
  unfold State.ackOut; refine .ite ?_ ?_; exact .refl ..; refine .ite ?_ ?_; dsimp only
  exact .comp (.event (.put (.put (.put (.refl ..) (notCalm covers_arr)) (notCalm covers_arr)) (notCalm covers_arr)))
    (.of (State.onOut_only ..))
  exact State.raise_calm ..

theorem State.sioAck_calm (s : State) : Calm s (State.sioAck s) := by
  unfold State.sioAck; refine .comp ?_ (.of (State.sioDrive_only ..)); refine .foldl ?_ ?_; exact .refl ..; intro _ _
  exact .comp (State.ackInput_calm ..) (State.ackOut_calm ..)

theorem State.ackApply_calm (s : State) : Calm s (State.ackApply s) := by
  unfold State.ackApply; dsimp only; refine .comp ?_ (.of (State.fltAck_only ..)); refine .iteOn ?_ ?_
  exact State.sioAck_calm ..; exact State.ackPixels_calm ..

theorem State.faultPeriod_calm (s : State) (ran : List Nat) : Calm s (State.faultPeriod s ran) := by
  unfold State.faultPeriod; dsimp only; refine .comp ?_ (.of (State.clearAbsent_only ..)); refine .iteOn ?_ ?_
  exact .of (State.fltPeriod_only ..); exact .comp (.upd (.refl ..)) (State.ackApply_calm ..)

theorem State.loseEntry_calm (s : State) (t e : Nat) : Calm s (State.loseEntry s t e) := by
  unfold State.loseEntry; dsimp only; refine .event ?_; refine .foldl ?_ ?_; exact .of (State.setLedger_only ..)
  intro _ _; exact State.setPrf_calm ..

theorem State.readEntries_calm (s : State) (a n : Nat) : Calm s (State.readEntries s a n) := by
  unfold State.readEntries; dsimp only; refine .foldl ?_ ?_; exact State.readRange_calm ..; intro _ _
  exact State.loseEntry_calm ..

theorem State.readChunk_calm (s : State) (blk off n : Nat) : Calm s (State.readChunk s blk off
    n) := by
  unfold State.readChunk; refine .ite ?_ ?_; exact .refl ..; dsimp only; refine .iteOff ?_ ?_; refine .ite ?_ ?_
  exact .refl ..; exact State.restore_calm ..; exact State.readEntries_calm ..

theorem State.lists_calm (s : State) : Calm s (State.lists s).1 := by
  unfold State.lists; dsimp only; refine .comp ?_ (.of (State.onPair_only ..)); refine .iteOn ?_ ?_
  exact State.readChunk_calm ..; exact .inc (.put (.refl ..))

theorem State.chainLoop_calm (s : State) (c : Nat) : Calm s (State.chainLoop s c) := by
  unfold State.chainLoop; exact .comp (.event (.refl ..)) (State.raise_calm ..)

theorem State.lockPeriod_calm (s : State) : Calm s (State.lockPeriod s) := by
  unfold State.lockPeriod; refine .foldl ?_ ?_; exact .refl ..; intro _ _; split; refine .ite ?_ ?_
  exact State.chainLoop_calm ..; exact .refl ..; exact .refl ..

theorem State.showPartner_calm (s : State) : Calm s (State.showPartner s) := by
  unfold State.showPartner; dsimp only; exact .comp (.flag (.flag (.eventIf (.refl ..)))) (State.setCond_calm ..)

theorem State.clearPixelClasses_calm (s : State) : Calm s (State.clearPixelClasses s) := by
  unfold State.clearPixelClasses; refine .comp ?_ (.of (State.evalPolicies_only ..)); refine .foldl ?_ ?_; exact .refl ..; intro _ _
  dsimp only; refine .ite ?_ ?_; exact State.setCond_calm ..; exact .refl ..

theorem State.clearStore_calm (s : State) : Calm s (State.clearStore s) := by
  unfold State.clearStore; dsimp only; refine .upd (.put (.setReg (.setReg (.setReg (.put ?_))))); refine .foldl ?_ ?_
  refine .setReg (.setReg (.setReg (.setReg (.put (.put (.comp (.comp ?_ (.of (State.zero_only ..))) (.of (State.zero_only ..))))))))
  exact .of (State.zero_only ..); intro _ _; exact .put (.put (.refl ..) (notCalm covers_asp)) (notCalm covers_asp)

theorem State.enterMirror_calm (s : State) : Calm s (State.enterMirror s) := by
  unfold State.enterMirror; dsimp only
  refine .comp (.upd (.put (.put (.put (.comp ?_ (.of (State.balStart_only ..))))))) (.of (State.onPair_only ..))
  refine .comp (.comp (.comp ?_ (State.clearStore_calm ..)) (State.clearPixelClasses_calm ..)) (.of (State.markAll_only ..))
  exact .setMode (.refl ..)

theorem State.tryMirror_calm (s : State) : Calm s (State.tryMirror s) := by
  unfold State.tryMirror; refine .ite ?_ ?_; exact State.enterMirror_calm ..; exact .refl ..

theorem State.pairPeriod_calm (s : State) : Calm s (State.pairPeriod s) := by
  unfold State.pairPeriod; dsimp only; refine .comp (.comp ?_ (State.showPartner_calm ..)) (State.tryMirror_calm ..)
  refine .iteOn ?_ ?_; refine .iteOn ?_ ?_; refine .iteOff ?_ ?_; refine .iteOn ?_ ?_; refine .comp ?_ (.of (State.onPair_only ..))
  refine .iteOn ?_ ?_; refine .ite ?_ ?_; exact .inc (.refl ..); exact .refl ..; exact .inc (.refl ..)
  exact .of (State.loseAligned_only ..); exact .put (.refl ..)
  exact .comp (.of (State.loseAligned_only ..)) (.of (State.onPair_only ..))
  exact .of (State.evalRole_only ..)

theorem State.splCount_calm (s : State) (g n : Nat) : Calm s (State.splCount s g n) := by
  unfold State.splCount; dsimp only; refine .ite ?_ ?_; refine .comp (.put (.eventIf ?_) (notCalm covers_arr2)) (State.setCond_calm ..)
  refine .dite ?_ ?_; intro _; exact .upd (.refl ..); intro _; exact .refl ..; refine .iteOn ?_ ?_; refine .eventIf ?_
  refine .dite ?_ ?_; intro _; exact .upd (.refl ..); intro _; exact .refl ..
  exact .comp (.put (.refl ..) (notCalm covers_arr2)) (State.setCond_calm ..)

theorem State.supplyChannel_calm (s : State) (g : Nat) : Calm s (State.supplyChannel s g) := by
  unfold State.supplyChannel; refine .ite ?_ ?_; exact State.splCount_calm ..; refine .ite ?_ ?_
  exact .comp (.setReg (.setReg (.refl ..) (notCalm covers_arr2)) (notCalm covers_arr2)) (State.splCount_calm ..); split
  exact .comp (.event (.put (.put (.refl ..) (notCalm covers_arr2)) (notCalm covers_arr2))) (State.splCount_calm ..); split; dsimp only
  refine .comp ?_ (State.splCount_calm ..); refine .iteOn ?_ ?_; refine .iteOn ?_ ?_
  refine .put (.put (.put (.put (.flag (.flag ?_ (notCalm covers_arr2)) (notCalm covers_arr2)) (notCalm covers_arr2))
    (notCalm covers_arr2)) (notCalm covers_arr2)) (notCalm covers_arr2)
  exact .put (.refl ..) (notCalm covers_arr2); exact .inc (.refl ..); exact .inc (.refl ..)

theorem State.supplyPeriod_calm (s : State) : Calm s (State.supplyPeriod s) := by
  unfold State.supplyPeriod; dsimp only; refine .upd ?_; refine .ite ?_ ?_; refine .foldl ?_ ?_; exact .refl ..; intro _ _
  exact State.supplyChannel_calm ..; refine .foldl ?_ ?_; exact .refl ..; intro _ _
  exact State.splCount_calm ..

theorem State.retakeFallback_calm (s : State) : Calm s (State.retakeFallback s) := by
  unfold State.retakeFallback; dsimp only; refine .comp ?_ (.of (State.cycleOff_only ..)); refine .foldl ?_ ?_
  exact .of (State.cycleOn_only ..); intro _ _; exact State.takeAction_calm ..

theorem State.takeoverPeriod_calm (s : State) : Calm s (State.takeoverPeriod s) := by
  unfold State.takeoverPeriod; split; exact .refl ..; refine .ite ?_ ?_; exact .refl ..; dsimp only; refine .iteOn ?_ ?_
  exact .comp (.event (.comp (.put (.put (.refl ..))) (.of (State.onPair_only ..)))) (State.raise_calm ..)
  exact State.retakeFallback_calm ..

theorem State.classPeriod_calm (s : State) (ran : List Nat) : Calm s (State.classPeriod s ran) := by
  unfold State.classPeriod; dsimp only
  refine .comp (.comp (.comp ?_ (State.pairPeriod_calm ..)) (State.faultPeriod_calm ..)) (.of (State.cycleOff_only ..))
  refine .comp (.comp (.comp ?_ (State.supplyPeriod_calm ..)) (State.lockPeriod_calm ..)) (State.takeoverPeriod_calm ..)
  refine .iteOn ?_ ?_; exact .of (State.cycleOn_only ..); exact State.cycleEnd_calm ..

theorem State.evalFades_calm (s : State) : Calm s (State.evalFades s) := by
  unfold State.evalFades; refine .ite ?_ ?_; refine .foldl ?_ ?_; exact .of (State.onVid_only ..); intro _ _
  exact State.refade_calm ..; exact .refl ..

theorem State.fadePeriod_calm (s : State) : Calm s (State.fadePeriod s) := by
  unfold State.fadePeriod; dsimp only; refine .iteOff ?_ ?_; refine .foldl ?_ ?_; exact .refl ..; intro _ _
  exact .of (State.settleFade_only ..); refine .comp ?_ (State.evalFades_calm ..); refine .foldl ?_ ?_
  exact .refl ..; intro _ _; exact State.groupChange_calm ..

theorem State.chainErr_calm (s : State) (c n : Nat) : Calm s (State.chainErr s c n) := by
  unfold State.chainErr; dsimp only; refine .iteOn ?_ ?_; exact .of (State.onChain_only ..)
  exact State.raise_calm ..

theorem State.abandonProof_calm (s : State) (c : Nat) : Calm s (State.abandonProof s c) := by
  unfold State.abandonProof; exact .comp (.event (.inc (.refl ..))) (State.chainErr_calm ..)

theorem State.closeProofs_calm (s : State) : Calm s (State.closeProofs s) := by
  unfold State.closeProofs; refine .foldl ?_ ?_; exact .refl ..; intro _ _; dsimp only; refine .foldl ?_ ?_
  refine .foldl ?_ ?_; exact .refl ..; intro _ _
  exact .comp (.of (State.unexpect_only ..)) (State.abandonProof_calm ..); intro _ _; refine .ite ?_ ?_
  exact .comp (.of (State.onChain_only ..)) (.of (State.proofDriven_only ..))
  exact .comp (.of (State.onChain_only ..)) (State.abandonProof_calm ..)

theorem State.operateBegins_calm (s : State) : Calm s (State.operateBegins s) := by
  unfold State.operateBegins; split; dsimp only
  refine .comp (.comp (.comp ?_ (.of (State.showOff_only ..))) (.of (State.evalPolicies_only ..))) (State.retakeFallback_calm ..)
  refine .comp (.upd (.comp (.comp ?_ (.of (State.clearFbInput_only ..))) (.of (State.maskComes_only ..))))
    (.of (State.queueUrgent_only ..))
  exact .comp (.setMode (.refl ..)) (.of (State.balStart_only ..))

theorem State.frameSettings_calm (s : State) (kind : FrameKind) : Calm s (State.frameSettings s
    kind) := by
  unfold State.frameSettings; split; refine .ite ?_ ?_; exact .refl ..; dsimp only
  exact .upd (.of (State.switchSettings_only ..)); dsimp only; refine .ite ?_ ?_; refine .ite ?_ ?_
  refine .comp ?_ (State.operateBegins_calm ..); refine .ite ?_ ?_; exact .of (State.switchSettings_only ..)
  exact .refl ..; refine .upd ?_; refine .ite ?_ ?_; exact .of (State.switchSettings_only ..); exact .refl ..
  refine .iteOn ?_ ?_; refine .ite ?_ ?_; exact .of (State.switchSettings_only ..); exact .refl ..
  exact .of (State.maskComes_only ..); exact .refl ..

theorem State.frameInForce_calm (s : State) (slot : Nat) (kind : FrameKind) : Calm s (State.frameInForce s slot kind) := by
  unfold State.frameInForce; dsimp only; refine .comp ?_ (.of (State.offsetsInForce_only ..)); refine .iteOn ?_ ?_
  refine .comp ?_ (State.frameSettings_calm ..); refine .foldl ?_ ?_; exact .upd (.put (.refl ..)); intro _ _
  refine .ite ?_ ?_; exact .of (State.onChain_only ..); exact .refl ..
  exact .of (State.bringUrgent_only ..)

theorem State.assignEntries_calm (s : State) (t : Nat) : Calm s (State.assignEntries s t) := by
  unfold State.assignEntries; refine .foldl ?_ ?_; exact .refl ..; intro _ _; split; exact .event (.refl ..)
  exact .comp (.comp (.of (State.setLedger_only ..)) (State.setPrf_calm ..)) (.of (State.onTile_only ..))

theorem State.ledgerEntry_calm (s : State) (rows : List Nat) (t e v : Nat) : Calm s (State.ledgerEntry s rows t e v) := by
  unfold State.ledgerEntry; dsimp only; refine .ite ?_ ?_
  exact .comp (.of (State.setLedger_only ..)) (State.setPrf_calm ..); refine .ite ?_ ?_
  exact .comp (.of (State.setLedger_only ..)) (.of (State.noteSur_only ..)); exact .refl ..

theorem State.readLedger_calm (s : State) : Calm s (State.readLedger s) := by
  unfold State.readLedger; exact State.readEntries_calm ..

theorem State.ledgerFrame_calm (s : State) (rows : List Nat) : Calm s (State.ledgerFrame s rows) := by
  unfold State.ledgerFrame; dsimp only; refine .incBy ?_; refine .foldl ?_ ?_
  exact State.readLedger_calm ..; intro _ _; refine .comp ?_ (State.assignEntries_calm ..)
  refine .foldl ?_ ?_; exact .refl ..; intro _ _; exact State.ledgerEntry_calm ..

theorem State.readProof_calm (s : State) (t p : Nat) : Calm s (State.readProof s t p) := by
  unfold State.readProof; exact State.readEntries_calm ..

theorem State.sendWord_calm (s : State) (l : Nat) (w : List (Bool × Nat)) : Calm s (State.sendWord s l w) := by
  unfold State.sendWord; refine .ite ?_ ?_; exact .of (State.emit_only ..); split
  exact .comp (State.onLane_calm ..) (.of (State.emit_only ..))

theorem State.sendPacket_calm (s : State) (l typ hdr : Nat) (body : List Byte) : Calm s (State.sendPacket s l
    typ hdr body) := by
  unfold State.sendPacket; dsimp only; refine .comp ?_ (.of (State.emit_only ..)); refine .foldl ?_ ?_; exact .refl ..; intro _ _
  exact State.sendWord_calm ..

theorem State.transmit_calm (s : State) (l typ hdr : Nat) (body : List Byte) : Calm s (State.transmit s l typ
    hdr body) := by
  unfold State.transmit; refine .ite ?_ ?_; exact State.sendPacket_calm ..
  exact State.onLane_calm ..

theorem State.sendPair_calm (s : State) (l : Nat) (body : List Byte) : Calm s (State.sendPair s l body) := by
  unfold State.sendPair; exact State.transmit_calm ..

theorem State.pairSend_calm (s old : State) (w : StartDone) : Calm s (State.pairSend s old w) := by
  unfold State.pairSend; dsimp only; refine .comp ?_ (.of (State.onPair_only ..)); split; exact .refl ..; refine .ite ?_ ?_
  exact .refl ..; refine .ite ?_ ?_
  refine .comp (.comp (.comp ?_ (State.lists_calm ..)) (State.sendPair_calm ..)) (State.sendPair_calm ..)
  exact .of (State.onPair_only ..)
  exact .comp (.of (State.onPair_only ..)) (State.sendPair_calm ..)

end Sys2Proof.Machine

end

section
/-! The start of a PWM period (O22). -/

set_option Elab.async false

namespace Sys2Proof.Machine

/-- A step that leaves the clock, the period number, the heartbeat's sequence count, and the queue of requests. -/
structure Beats (s t : State) : Prop where
  now : t.now = s.now
  pnow : t.pnow = s.pnow
  hbSeq : t.isl.hbSeq = s.isl.hbSeq
  queue : t.link.queue = s.link.queue

theorem Beats.trans {s t u : State} (h : Beats s t) (k : Beats t u) : Beats s u :=
  ⟨k.now.trans h.now, k.pnow.trans h.pnow, k.hbSeq.trans h.hbSeq, k.queue.trans h.queue⟩

/-- The period number follows its word. -/
theorem Only.pnow {E : Nat} {s t : State} (h : Only E s t) (hE : leaves E R.CLS_PNOW = true := by decide) : t.pnow = s.pnow :=
  congrArg BitVec.toNat (h.word _ hE)

theorem Calm.hbSeq {s t : State} (h : Calm s t) : t.isl.hbSeq = s.isl.hbSeq :=
  (congrArg Island.hbSeq h.isl : t.isl.calm.hbSeq = s.isl.calm.hbSeq)

theorem Calm.beats {E : Nat} {s t : State} (k : Calm s t) (h : Only E s t)
    (hE : (!E.testBit 1 && leaves E R.CLS_PNOW) = true := by decide) : Beats s t := by
  simp only [Bool.and_eq_true, Bool.not_eq_true'] at hE
  exact ⟨h.now hE.1, h.pnow hE.2, k.hbSeq, k.queue⟩

theorem Only.beats {E : Nat} {s t : State} (h : Only E s t)
    (hE : (!E.testBit 1 && leaves E R.CLS_PNOW && !E.testBit 7 && !E.testBit 20) = true := by decide) : Beats s t := by
  simp only [Bool.and_eq_true, Bool.not_eq_true'] at hE
  obtain ⟨⟨⟨hn, hp⟩, hi⟩, hl⟩ := hE
  exact ⟨h.now hn, h.pnow hp, by rw [h.isl hi], by rw [h.link hl]⟩

theorem Beats.refl (s : State) : Beats s s := ⟨rfl, rfl, rfl, rfl⟩

theorem Beats.ite {s a b : State} {c : Prop} [Decidable c] (ha : Beats s a) (hb : Beats s b) : Beats s (if c then a else b) := by
  split <;> assumption

theorem Beats.iteOn {s a b : State} {c : Prop} [Decidable c] (hb : Beats s b) (ha : Beats b a) : Beats s (if c then a else b) :=
  .ite (hb.trans ha) hb

theorem Beats.foldl {s t : State} {α : Type} {f : State → α → State} {l : List α} (h : Beats s t) (hf : ∀ u x, Beats u (f u x)) :
    Beats s (l.foldl f t) := by
  induction l generalizing t with
  | nil => exact h
  | cons x r ih => exact ih (h.trans (hf t x))

theorem Beats.foldlFst {s : State} {α β : Type} {p : State × β} {f : State × β → α → State × β} {l : List α} (h : Beats s p.1)
    (hf : ∀ u x, Beats u.1 (f u x).1) : Beats s (l.foldl f p).1 := by
  induction l generalizing p with
  | nil => exact h
  | cons x r ih => exact ih (h.trans (hf p x))

theorem applyWords_beats (s : State) (ws : List (Nat × Word)) (start : Bool) : Beats s (s.applyWords ws start) :=
  (State.takeWords_only s ws).beats.trans ((State.applied_calm _ s ws start).beats (State.applied_only ..))

theorem applyClause_beats (s : State) (start : Bool) : Beats s (s.applyClause start) := by
  unfold State.applyClause
  split
  · exact (State.clauseFail_only ..).beats
  · refine .trans (Only.beats (E := P.cl ||| P.cls) ?_) (applyWords_beats ..)
    exact .upd (.put (.put (.put (.put (.event (.inc (.setRegN (.refl ..))))))))

theorem takeImplicit_beats (s : State) (c : ImpClause) : Beats s (s.takeImplicit c) := by
  unfold State.takeImplicit State.applyImplicit
  dsimp only
  generalize hv : (List.range 160).foldl _ _ = v
  have hu : Beats s v := by
    subst hv
    refine .foldl (Only.beats (E := P.cl) (.upd (.refl ..))) fun u a => .ite ?_ (.refl u)
    exact (State.groupBefore_calm ..).beats (State.groupBefore_only ..)
  refine hu.trans ?_
  split
  · exact (State.implicitFail_only ..).beats
  · refine .ite ?_ (applyWords_beats ..)
    exact (State.draw_only v).beats.trans (State.implicitFail_only ..).beats

theorem clausePeriod_beats (s : State) : Beats s s.clausePeriod.1 := by
  unfold State.clausePeriod
  split
  · exact .refl s
  · dsimp only
    exact .foldlFst (.ite (applyClause_beats s true) (.refl s)) fun u c => takeImplicit_beats u.1 c

/-- What comes into force at a period start leaves them. -/
theorem forcePeriod_beats (s : State) : Beats s s.forcePeriod.1 := by
  unfold State.forcePeriod
  dsimp only
  refine .trans (.trans (.trans (.trans ?_ (State.showLow_only ..).beats) (State.writeMaskHist_only ..).beats)
    ((State.closeProofs_calm _).beats (State.closeProofs_only _))) (State.record_only ..).beats
  refine .iteOn (.trans (.trans (.trans ?_ (clausePeriod_beats _)) (State.setD_only ..).beats) (State.urgentInForce_only ..).beats)
    ((State.ledgerFrame_calm ..).beats (State.ledgerFrame_only ..))
  have h0 : Beats s (if (s.mode == .mirror && !darkPeriod s.pnow) = true then s.tileList.foldl (fun u t => u.readProof t s.pnow) s
      else s).latchesApply := by
    refine .trans (.ite (.foldl (.refl s) fun u t => ?_) (.refl s)) (State.latchesApply_only _).beats
    exact (State.readProof_calm ..).beats (State.readProof_only ..)
  split
  · exact h0.trans ((State.frameInForce_calm ..).beats (State.frameInForce_only ..))
  · exact h0

/-- No request waits: the queue is served at once (R122). -/
theorem serve_empty {s : State} (h : s.link.queue = []) : s.serve = s := by simp [State.serve, h, State.drainReqs]

/-- The next period (R83, R225): its number, and the clock at its start. -/
theorem nextPeriod_starts (s : State) :
    s.nextPeriod.pnow = perAdd s.pnow 1 ∧ s.nextPeriod.now = max s.now (s.pstart + s.periodCycles + s.pair.shift * 5000 / 4096) ∧
      s.nextPeriod.isl = s.isl ∧ s.nextPeriod.link = s.link := by
  unfold State.nextPeriod
  dsimp only
  generalize max s.now _ = n
  refine ⟨?_, ?_, ?_, ?_⟩
  · refine ((State.showTiming_only ..).pnow).trans (((State.onPair_only ..).pnow).trans ?_)
    show ((s.setReg R.CLS_PNOW (BitVec.ofNat 32 (perAdd s.pnow 1))).reg R.CLS_PNOW).toNat = _
    rw [reg_setReg_same, BitVec.toNat_ofNat, perAdd, Nat.mod_mod]
  · exact (State.showTiming_only ..).now (by decide)
  · exact (State.showTiming_only ..).isl (by decide)
  · exact (State.showTiming_only ..).link (by decide)

/-- The heartbeat takes its next sequence number (R19). -/
theorem heartbeat_seq (s : State) : s.heartbeat.isl.hbSeq = (s.isl.hbSeq + 1) % 16 := rfl

/-- PAIR packets are counted afresh (R133). -/
theorem newPairN_beats (s : State) : Beats s (s.onLink fun l => { l with pairN := 0 }) := ⟨rfl, rfl, rfl, rfl⟩

/-- A period starts while no request waits (R19, R83, R225). -/
theorem startPeriod_starts {s : State} (hq : s.link.queue = []) :
    s.startPeriod.pnow = perAdd s.pnow 1 ∧ s.startPeriod.now = max s.now (s.pstart + s.periodCycles + s.pair.shift * 5000 / 4096) ∧
      s.startPeriod.isl.hbSeq = (s.isl.hbSeq + 1) % 16 := by
  obtain ⟨hp, hn, hi, hl⟩ := nextPeriod_starts s
  unfold State.startPeriod
  dsimp only
  generalize hb : (List.range 20).foldl State.chainEnd s.nextPeriod.fltEvents = b
  have before : Beats s.nextPeriod b.forcePeriod.1 := by
    subst hb
    exact .trans (.foldl (State.fltEvents_only _).beats fun u c => (State.chainEnd_only u c).beats) (forcePeriod_beats _)
  generalize b.forcePeriod.1 = f at before ⊢
  generalize ht : State.pairSend _ s _ = t
  have after : Beats f.heartbeat t := by
    subst ht
    refine .trans (.iteOn ?_ (State.emit_only ..).beats) ((State.pairSend_calm ..).beats (State.pairSend_only ..))
    refine .trans (.trans ?_ (newPairN_beats _)) (State.showWait_only _).beats
    refine .foldl (.iteOn ?_ (State.regTrigger_only _).beats) fun u c => (State.chainPeriod_only u c).beats
    refine .trans (.trans (State.expectBlocks_only _).beats ((State.fadePeriod_calm _).beats (State.fadePeriod_only _))) ?_
    exact (State.classPeriod_calm ..).beats (State.classPeriod_only ..)
  have hs : t.serve = t := serve_empty (by rw [after.queue, ← hq, ← hl]; exact before.queue)
  rw [hs]
  refine ⟨?_, ?_, ?_⟩
  · rw [after.pnow, ← hp]; exact before.pnow
  · rw [after.now, ← hn]; exact before.now
  · rw [after.hbSeq, heartbeat_seq, before.hbSeq, hi]

/-- Settles O22: every stage of the period start but `nextPeriod` and `heartbeat` leaves the clock, the period number and the
heartbeat's count, and the queue stays empty, so that nothing is served. -/
theorem periodStarts : Obligations.PeriodStarts := by
  intro s hl hq
  have he : exec .periodStart s = .next s.startPeriod := by
    show execPeriodStart s = _
    rw [execPeriodStart, if_pos hl]
  exact ⟨_, he, State.startPeriod_only s, startPeriod_starts hq⟩

end Sys2Proof.Machine

end

section
/-! The records of chains and tiles, the fields of one word, and the stop of a chain (O20). -/

set_option Elab.async false

namespace Sys2Proof.Machine

@[simp] theorem onChain_regs (s : State) (c : Nat) (f : Chain → Chain) : (s.onChain c f).regs = s.regs := by
  unfold State.onChain; split <;> rfl

@[simp] theorem onTile_regs (s : State) (t : Nat) (f : Tile → Tile) : (s.onTile t f).regs = s.regs := by
  unfold State.onTile; split <;> rfl

theorem onChain_get (s : State) (c : Nat) (f : Chain → Chain) (g : Fld) : (s.onChain c f).get g = s.get g := get_congr (onChain_regs ..) g

theorem onTile_get (s : State) (t : Nat) (f : Tile → Tile) (g : Fld) : (s.onTile t f).get g = s.get g := get_congr (onTile_regs ..) g

theorem chain_congr {s t : State} (h : t.chains = s.chains) (c : Nat) : t.chain c = s.chain c := by simp only [State.chain, h]

theorem tile_congr {s t : State} (h : t.tiles = s.tiles) (x : Nat) : t.tile x = s.tile x := by simp only [State.tile, h]

theorem chain_onChain (s : State) {c : Nat} (hc : c < 20) (f : Chain → Chain) : (s.onChain c f).chain c = f (s.chain c) := by
  simp [State.onChain, State.chain, hc, vecSet]

theorem chain_onChain_ne (s : State) {c d : Nat} (h : d ≠ c) (f : Chain → Chain) : (s.onChain c f).chain d = s.chain d := by
  unfold State.onChain
  split
  · simp [State.chain, vecSet, Vector.set, Array.getD, Array.getElem_set, Ne.symm h]
  · rfl

theorem tile_onTile (s : State) {x : Nat} (hx : x < 80) (f : Tile → Tile) : (s.onTile x f).tile x = f (s.tile x) := by
  simp [State.onTile, State.tile, hx, vecSet]

theorem tile_onTile_ne (s : State) {x y : Nat} (h : y ≠ x) (f : Tile → Tile) : (s.onTile x f).tile y = s.tile y := by
  unfold State.onTile
  split
  · simp [State.tile, vecSet, Vector.set, Array.getD, Array.getElem_set, Ne.symm h]
  · rfl

/-- A change of a chain that leaves a part of it leaves that part of every chain. -/
theorem chain_onChain_part {α : Type} (g : Chain → α) (s : State) (c d : Nat) (f : Chain → Chain) (hf : ∀ ch, g (f ch) = g ch) :
    g ((s.onChain c f).chain d) = g (s.chain d) := by
  by_cases h : d = c
  · subst h
    by_cases hc : d < 20
    · rw [chain_onChain s hc, hf]
    · simp [State.onChain, hc]
  · rw [chain_onChain_ne s h]

/-- A change of a tile that leaves a part of it leaves that part of every tile. -/
theorem tile_onTile_part {α : Type} (g : Tile → α) (s : State) (x y : Nat) (f : Tile → Tile) (hf : ∀ t, g (f t) = g t) :
    g ((s.onTile x f).tile y) = g (s.tile y) := by
  by_cases h : y = x
  · subst h
    by_cases hx : y < 80
    · rw [tile_onTile s hx, hf]
    · simp [State.onTile, hx]
  · rw [tile_onTile_ne s h]

@[simp] theorem put_chain (s : State) (f : Fld) (v c : Nat) : (s.put f v).chain c = s.chain c := rfl
@[simp] theorem put_tile (s : State) (f : Fld) (v x : Nat) : (s.put f v).tile x = s.tile x := rfl
@[simp] theorem setReg_tile (s : State) (a : Nat) (v : Word) (x : Nat) : (s.setReg a v).tile x = s.tile x := rfl
@[simp] theorem onChain_tile (s : State) (c : Nat) (f : Chain → Chain) (x : Nat) : (s.onChain c f).tile x = s.tile x :=
  tile_congr ((State.onChain_only s c f).tiles (by decide)) x
@[simp] theorem onTile_chain (s : State) (x : Nat) (f : Tile → Tile) (c : Nat) : (s.onTile x f).chain c = s.chain c :=
  chain_congr ((State.onTile_only s x f).chains (by decide)) c

/-- Another field of the same word keeps its value. -/
theorem get_put_beside (s : State) (a lo w lo' w' v : Nat) (h : lo' + w' ≤ lo ∨ lo + w ≤ lo') :
    (s.put ⟨a, lo, w⟩ v).get ⟨a, lo', w'⟩ = s.get ⟨a, lo', w'⟩ :=
  get_put_apart _ _ _ _ (Fld.apart_bits (by simp only [Nat.ble_eq]; exact h.symm))

/-- A field of another word keeps its value. -/
theorem get_put_ne (s : State) {f g : Fld} (v : Nat) (h : f.addr ≠ g.addr) : (s.put f v).get g = s.get g :=
  get_put_apart _ _ _ _ (Fld.apart_addr h)

/-- What one step of a fold brings about, and every step keeps, holds at its end. -/
theorem foldl_brings {α : Type} {Q : State → Prop} {f : State → α → State} {l : List α} {x : α} (s : State) (hx : x ∈ l)
    (hb : ∀ u, Q (f u x)) (hk : ∀ u y, Q u → Q (f u y)) : Q (l.foldl f s) := by
  have keep (r : List α) : ∀ u, Q u → Q (r.foldl f u) := by
    induction r with
    | nil => exact fun u h => h
    | cons y r ih => exact fun u h => ih _ (hk u y h)
  induction l generalizing s with
  | nil => cases hx
  | cons y r ih =>
    rcases List.mem_cons.mp hx with rfl | hx
    · exact keep r _ (hb s)
    · exact ih _ hx

/-- A chain that stops clears its state, its drivers and its bypass legs in CHN_STAT (R246, R250). -/
theorem chainOff_stat (s : State) (c : Nat) :
    (s.chainOff c).get (F.CHN_STAT_state c) = 0 ∧ (s.chainOff c).get (F.CHN_STAT_drv c) = 0 ∧
      (s.chainOff c).get (F.CHN_STAT_byp c) = 0 := by
  unfold State.chainOff
  simp (disch := simp) only [onChain_get, F.CHN_STAT_state, F.CHN_STAT_drv, F.CHN_STAT_byp, F.CHN_STAT_lpend, get_put_beside,
    get_put_same]
  exact ⟨rfl, rfl, rfl⟩

/-- It leaves the status of the other chains. -/
theorem chainOff_stat_ne (s : State) {c d : Nat} (h : R.CHN_STAT d ≠ R.CHN_STAT c) (lo w : Nat) :
    (s.chainOff c).get ⟨R.CHN_STAT d, lo, w⟩ = s.get ⟨R.CHN_STAT d, lo, w⟩ := by
  unfold State.chainOff
  dsimp only
  generalize ht : ((s.chain c).expect ++ (s.chain c).again ++ (s.chain c).regq).foldl _ s = t
  have hs : Only P.pgTil s t := by
    subst ht
    refine .foldl (.refl ..) fun u e => .ite ?_ (.refl ..)
    exact .event (.put (.put (.put (.refl ..) covers_til) covers_til) covers_til)
  have hg : t.get ⟨R.CHN_STAT d, lo, w⟩ = s.get ⟨R.CHN_STAT d, lo, w⟩ := hs.get (leaves_chn (k := 8))
  rw [onChain_get, get_put_ne _ _ (Ne.symm h), get_put_ne _ _ (Ne.symm h), get_put_ne _ _ (Ne.symm h), get_put_ne _ _ (Ne.symm h), hg]

/-- Every chain is off once every chain has stopped (R246, R250). -/
theorem chainsOff_stat (s : State) (c : Fin 20) :
    s.chainsOff.get (F.CHN_STAT_state c) = 0 ∧ s.chainsOff.get (F.CHN_STAT_drv c) = 0 ∧ s.chainsOff.get (F.CHN_STAT_byp c) = 0 := by
  refine foldl_brings (Q := fun u => u.get (F.CHN_STAT_state c) = 0 ∧ u.get (F.CHN_STAT_drv c) = 0 ∧ u.get (F.CHN_STAT_byp c) = 0) s
    (List.mem_range.mpr c.isLt) (fun u => chainOff_stat u c) fun u d hu => ?_
  by_cases h : R.CHN_STAT c = R.CHN_STAT d
  · have := chainOff_stat u d
    simpa only [F.CHN_STAT_state, F.CHN_STAT_drv, F.CHN_STAT_byp, h] using this
  · simpa only [F.CHN_STAT_state, F.CHN_STAT_drv, F.CHN_STAT_byp, chainOff_stat_ne u h] using hu

/-- A crossing that fails parity sets its bit of CLK_XERR, which the reaction to it leaves (R17). -/
theorem crossingParityError_bit (x : Fin 10) (s : State) : ((s.setBit R.CLK_XERR x true).raise 20 0).bit R.CLK_XERR x = true := by
  have hk := (State.raise_calm (s.setBit R.CLK_XERR x true) 20 0).word R.CLK_XERR (by decide)
  rw [bit_get, beq_iff_eq]
  calc ((s.setBit R.CLK_XERR x true).raise 20 0).get ⟨R.CLK_XERR, x, 1⟩
      = (s.put ⟨R.CLK_XERR, x, 1⟩ 1).get ⟨R.CLK_XERR, x, 1⟩ := by simp only [State.get, hk]; rfl
    _ = 1 := get_put_same _ _ _ (by simp only; omega)

/-- Settles O20: a fault's action leaves CLK_XERR, and the loss of VDDH stops each of the twenty chains in turn. -/
theorem crossingAndVddh : Obligations.CrossingAndVddh := by
  intro s
  have hv (u : State) (b : Boot) (f : Fld) : ({ u with boot := b } : State).get f = u.get f := rfl
  refine ⟨fun x => ⟨_, rfl, execCrossingParityError_only x s rfl, crossingParityError_bit x s⟩, _, rfl,
    execVddhLossBypassClose_only s rfl, rfl, fun c => ?_⟩
  simp only [hv]
  exact chainsOff_stat s c

end Sys2Proof.Machine

end

section
/-! One safety tick (O23). -/

set_option Elab.async false

namespace Sys2Proof.Machine

theorem Calm.tempC {s t : State} (h : Calm s t) : t.isl.tempC = s.isl.tempC :=
  (congrArg Island.tempC h.isl : t.isl.calm.tempC = s.isl.calm.tempC)

theorem Calm.hot {s t : State} (h : Calm s t) : t.isl.hot = s.isl.hot := (congrArg Island.hot h.isl : t.isl.calm.hot = s.isl.calm.hot)

theorem Calm.ackLvl {s t : State} (h : Calm s t) : t.isl.ackLvl = s.isl.ackLvl :=
  (congrArg Island.ackLvl h.isl : t.isl.calm.ackLvl = s.isl.calm.ackLvl)

theorem Calm.clkOff {s t : State} (h : Calm s t) : t.isl.clkOff = s.isl.clkOff :=
  (congrArg Island.clkOff h.isl : t.isl.calm.clkOff = s.isl.calm.clkOff)

theorem Calm.get {s t : State} {f : Fld} (h : Calm s t) (hf : f.addr ∈ calmWords := by decide) : t.get f = s.get f := by
  simp only [State.get, h.word _ hf]

theorem get_flag_same (s : State) (f : Fld) (b : Bool) (h : f.w = 1 ∧ f.lo + f.w ≤ 32) : (s.flag f b).get f = b.toNat := by
  rw [State.flag, get_put_same _ _ _ h.2, h.1]
  cases b <;> rfl

/-- What a safety tick does after its samples: the watchdog, the times and the safety inputs and outputs, or the duration of SELFTEST
(R19, R49, R148, R373). -/
def State.tickRest (s : State) (p : TickIn) : State :=
  if s.live then (s.tickWatchdog.tickTimes).sioTick p else { s with boot := { s.boot with selfT := s.boot.selfT + 1 } }

theorem execSafetyTick_up {s : State} (p : TickIn) (h : s.boot.phase = .up) :
    execSafetyTick p s = .next ((((s.tickThermal p.temp).tickAck p.ackN).tickClocks p).tickRest p) := by
  have h2 : ((s.tickThermal p.temp).tickAck p.ackN).boot.phase = .up := h
  rw [execSafetyTick, if_neg (by simp [h])]
  dsimp only
  rw [if_pos h2]
  rfl

/-- The rest of a tick leaves the samples. -/
theorem tickRest_calm (s : State) (p : TickIn) : Calm s (s.tickRest p) := by
  unfold State.tickRest State.tickTimes State.tickWatchdog
  exact .ite (.comp (.upd (.upd (.refl s))) (State.sioTick_calm ..)) (.upd (.refl s))

theorem tickRest_ackstat (s : State) (p : TickIn) : (s.tickRest p).reg R.SYS_ACKSTAT = s.reg R.SYS_ACKSTAT := by
  unfold State.tickRest
  split
  · exact (State.sioTick_only ..).word _ (by decide)
  · rfl

/-- The ACK_N sample (R41). -/
theorem tickAck_shown (s : State) (a : Bool) : (s.tickAck a).get F.SYS_ACKSTAT_ack_level = (s.tickAck a).isl.ackLvl.toNat :=
  get_flag_same _ _ _ (by decide)

/-- The words that the clock counts of a tick write. -/
theorem tickClocks_regs (s : State) (p : TickIn) : ∃ b, (s.tickClocks p).regs =
    (((((s.put F.CLK_FCORE_n p.fcore.toNat).put F.CLK_FCHAIN_n p.fchain.toNat).put F.CLK_FCONV_n p.fconv.toNat).put
      F.CLK_FLTX_n p.fltx.toNat).flag F.CLK_STAT_fmon_ok b).regs := ⟨_, rfl⟩

/-- The clock counts are shown (R20). -/
theorem tickClocks_shown (s : State) (p : TickIn) :
    (s.tickClocks p).get F.CLK_FCORE_n = p.fcore.toNat ∧ (s.tickClocks p).get F.CLK_FCHAIN_n = p.fchain.toNat ∧
      (s.tickClocks p).get F.CLK_FCONV_n = p.fconv.toNat ∧ (s.tickClocks p).get F.CLK_FLTX_n = p.fltx.toNat := by
  have shown (u : State) (f : Fld) (v : BitVec 16) (h : f.w = 16 ∧ f.lo + f.w ≤ 32) : (u.put f v.toNat).get f = v.toNat := by
    rw [get_put_same _ _ _ h.2, h.1]
    exact Nat.mod_eq_of_lt v.isLt
  obtain ⟨b, hb⟩ := tickClocks_regs s p
  simp (disch := decide) only [get_congr hb, State.flag, get_put_ne, shown, and_self]

theorem tickClocks_ackLevel (s : State) (p : TickIn) : (s.tickClocks p).get F.SYS_ACKSTAT_ack_level = s.get F.SYS_ACKSTAT_ack_level := by
  obtain ⟨b, hb⟩ := tickClocks_regs s p
  simp (disch := decide) only [get_congr hb, State.flag, get_put_ne]

/-- Each count is judged against a drift of 6 % from its expected value (R20, R89). -/
theorem tickClocks_off (s : State) (p : TickIn) (k : Fin 4) :
    (s.tickClocks p).isl.clkOff[k] =
      if clockOff ([p.fcore.toNat, p.fchain.toNat, p.fconv.toNat, p.fltx.toNat].getD k 0) (s.expectedClocks.getD k 0) = true ∧
        (k.val = 3 → s.link.change = 0 ∧ s.link.unjudged = 0) then s.isl.clkOff[k] + 1 else 0 := by
  have he : (s.tickClocks p).isl.clkOff[k] = if (clockOff ([p.fcore.toNat, p.fchain.toNat, p.fconv.toNat, p.fltx.toNat].getD k 0)
      (s.expectedClocks.getD k 0) && !(k.val == 3 && (s.link.change != 0 || s.link.unjudged != 0))) = true then
        s.isl.clkOff[k] + 1 else 0 := Vector.getElem_ofFn ..
  rw [he]
  exact if_congr (by simp; tauto) rfl rfl

/-- Settles O23: the samples are taken first, and neither the clock counts nor the rest of the tick writes them again. -/
theorem safetyTick : Obligations.SafetyTick := by
  intro p s hup
  refine ⟨_, execSafetyTick_up p hup, execSafetyTick_only p s (execSafetyTick_up p hup), ?_⟩
  generalize hu : (s.tickThermal p.temp).tickAck p.ackN = u
  have hack : u.get F.SYS_ACKSTAT_ack_level = u.isl.ackLvl.toNat := hu ▸ tickAck_shown ..
  have hr : Calm (u.tickClocks p) ((u.tickClocks p).tickRest p) := tickRest_calm ..
  obtain ⟨h0, h1, h2, h3⟩ := tickClocks_shown u p
  refine ⟨hr.get.trans h0, hr.get.trans h1, hr.get.trans h2, hr.get.trans h3, ?_, ?_, ?_, ?_, ?_⟩
  · exact hr.tempC.trans (by subst hu; rfl)
  · exact hr.hot.trans (by subst hu; simp [State.tickClocks, State.tickAck, State.tickThermal, State.flag])
  · exact hr.ackLvl.trans (by subst hu; rfl)
  · rw [hr.ackLvl, State.get, show F.SYS_ACKSTAT_ack_level.addr = R.SYS_ACKSTAT from rfl, tickRest_ackstat]
    exact (tickClocks_ackLevel u p).trans hack
  · rintro k n two rfl rfl
    rw [hr.clkOff, tickClocks_off]
    subst hu
    simp only [clockOff, decide_eq_true_eq]
    rfl

end Sys2Proof.Machine

end

section
/-! What a fault's actions keep: the interrupt events that are set, the events of the fault classes, and the stale rows of the tiles. -/

set_option Elab.async false

namespace Sys2Proof.Machine

/-- A step that clears no interrupt event and no event of a fault class, and leaves the staleness of every tile. -/
structure Stands (s t : State) : Prop where
  raw : ∀ p n, s.bit (R.PIRQ_RAW p) n = true → t.bit (R.PIRQ_RAW p) n = true
  mark : ∀ cls inst, (s.fltInst cls inst).event = true → (t.fltInst cls inst).event = true
  stale : ∀ x, (t.tile x).stale = (s.tile x).stale
  staleRows : ∀ x, (t.tile x).staleRows = (s.tile x).staleRows

theorem Stands.refl (s : State) : Stands s s := ⟨fun _ _ h => h, fun _ _ h => h, fun _ => rfl, fun _ => rfl⟩

theorem Stands.comp {s t u : State} (h : Stands s t) (k : Stands t u) : Stands s u :=
  ⟨fun p n hb => k.raw p n (h.raw p n hb), fun c i he => k.mark c i (h.mark c i he), fun x => (k.stale x).trans (h.stale x),
    fun x => (k.staleRows x).trans (h.staleRows x)⟩

theorem Stands.ite {s a b : State} {c : Prop} [Decidable c] (ha : Stands s a) (hb : Stands s b) : Stands s (if c then a else b) := by
  split <;> assumption

theorem Stands.iteOn {s a b : State} {c : Prop} [Decidable c] (hb : Stands s b) (ha : Stands b a) : Stands s (if c then a else b) :=
  .ite (hb.comp ha) hb

theorem Stands.iteOff {s a b : State} {c : Prop} [Decidable c] (ha : Stands s a) (hb : Stands a b) : Stands s (if c then a else b) :=
  .ite ha (ha.comp hb)

theorem Stands.dite {s : State} {c : Prop} [Decidable c] {a : c → State} {b : ¬c → State} (ha : ∀ h, Stands s (a h))
    (hb : ∀ h, Stands s (b h)) : Stands s (if h : c then a h else b h) := by split <;> simp_all

theorem Stands.foldl {s t : State} {α : Type} {f : State → α → State} {l : List α} (h : Stands s t)
    (hf : ∀ u x, Stands u (f u x)) : Stands s (l.foldl f t) := by
  induction l generalizing t with
  | nil => exact h
  | cons x r ih => exact ih (h.comp (hf t x))

/-- A step that leaves the register words, the records of the faults and the tiles. -/
theorem Stands.same {s t u : State} (h : Stands s t) (hr : u.regs = t.regs) (hf : u.flt.insts = t.flt.insts) (ht : u.tiles = t.tiles) :
    Stands s u :=
  h.comp ⟨fun p n hb => by simpa only [State.bit, reg_congr hr] using hb, fun c i he => by simpa only [State.fltInst, hf] using he,
    fun x => by rw [tile_congr ht], fun x => by rw [tile_congr ht]⟩

/-- A record update beside the register file. -/
theorem Stands.upd {s t : State} (h : Stands s t) {pending' now' pstart' sram' ecc1' ecc2' otp' boot' isl' cl' vid' fades' chains'
    light' flt' adc' bal' spl' sio' skink' link' spi' spd' pair' out' draws'} (hf : Flt.insts flt' = t.flt.insts := by exact rfl) :
    Stands s ⟨pending', now', pstart', t.regs, sram', ecc1', ecc2', otp', boot', isl', cl', vid', fades', chains', t.tiles, light',
      flt', adc', bal', spl', sio', skink', link', spi', spd', pair', out', draws'⟩ :=
  h.same rfl hf rfl

/-- A change of every tile that leaves a part of it leaves that part. -/
theorem tile_map_part {α : Type} (g : Tile → α) (f : Tile → Tile) (hf : ∀ x, g (f x) = g x) (s t : State)
    (ht : t.tiles = s.tiles.map f) (x : Nat) : g (t.tile x) = g (s.tile x) := by
  by_cases hx : x < 80
  · simp [State.tile, ht, hx, hf]
  · simp [State.tile, ht, hx]

/-- A step that leaves the register words and the records of the faults, and changes every tile beside its staleness. -/
theorem Stands.tiles {s t u : State} (h : Stands s t) (f : Tile → Tile) (hr : u.regs = t.regs) (hi : u.flt = t.flt)
    (ht : u.tiles = t.tiles.map f) (hs : ∀ x, (f x).stale = x.stale ∧ (f x).staleRows = x.staleRows) : Stands s u :=
  h.comp ⟨fun p n hb => by simpa only [State.bit, reg_congr hr] using hb, fun c i he => by simpa only [State.fltInst, hi] using he,
    tile_map_part _ f (fun x => (hs x).1) t u ht, tile_map_part _ f (fun x => (hs x).2) t u ht⟩

/-- A word other than PIRQ_RAW is written. -/
theorem Stands.setReg {s t : State} {a : Nat} {v : Word} (h : Stands s t) (ha : a % 0x1000 ≠ 0x10 := by decide) :
    Stands s (t.setReg a v) := by
  refine h.comp ⟨fun p n hb => ?_, fun _ _ he => he, fun _ => rfl, fun _ => rfl⟩
  have hp : R.PIRQ_RAW p % 0x1000 = 0x10 := by unfold R.PIRQ_RAW pageAddr; omega
  rwa [State.bit, reg_setReg_ne t v (by rintro rfl; exact ha hp)]

theorem Stands.setRegN {s t : State} {a v : Nat} (h : Stands s t) (ha : a % 0x1000 ≠ 0x10 := by decide) : Stands s (t.setRegN a v) :=
  h.setReg ha

theorem Stands.put {s t : State} {f : Fld} {v : Nat} (h : Stands s t) (ha : f.addr % 0x1000 ≠ 0x10 := by decide) :
    Stands s (t.put f v) := h.setReg ha

theorem Stands.flag {s t : State} {f : Fld} {b : Bool} (h : Stands s t) (ha : f.addr % 0x1000 ≠ 0x10 := by decide) :
    Stands s (t.flag f b) := h.put ha

theorem Stands.inc {s t : State} {f : Fld} (h : Stands s t) (ha : f.addr % 0x1000 ≠ 0x10 := by decide) : Stands s (t.inc f) := h.put ha

theorem Stands.setMode {s t : State} {m : Mode} (h : Stands s t) : Stands s (t.setMode m) := h.put

/-- An event sets its bit and keeps the others (R65). -/
theorem event_raw (s : State) (p n : Nat) {q m : Nat} (h : s.bit (R.PIRQ_RAW q) m = true) :
    (s.event p n).bit (R.PIRQ_RAW q) m = true := by
  have hm : m < 32 := by
    by_contra hm
    rw [State.bit, BitVec.getLsbD_of_ge _ _ (by omega)] at h
    cases h
  rw [bit_get, beq_iff_eq] at h ⊢
  have he : (s.event p n).get ⟨R.PIRQ_RAW q, m, 1⟩ = (s.put ⟨R.PIRQ_RAW p, n, 1⟩ 1).get ⟨R.PIRQ_RAW q, m, 1⟩ := rfl
  by_cases hq : R.PIRQ_RAW q = R.PIRQ_RAW p
  · by_cases hn : m = n
    · subst hn
      rw [he, ← hq]
      exact get_put_same s ⟨R.PIRQ_RAW q, m, 1⟩ 1 (by simp only; omega)
    · rw [he, ← hq, get_put_beside _ _ _ _ _ _ _ (by omega), h]
  · rw [he, get_put_ne _ _ (Ne.symm hq), h]

theorem event_same (s : State) {p n : Nat} (h : n < 32) : (s.event p n).bit (R.PIRQ_RAW p) n = true := by
  rw [bit_get, beq_iff_eq]
  exact get_put_same s ⟨R.PIRQ_RAW p, n, 1⟩ 1 (by simp only; omega)

theorem Stands.event {s t : State} {p n : Nat} (h : Stands s t) : Stands s (t.event p n) :=
  h.comp ⟨fun _ _ => event_raw t p n, fun _ _ he => he, fun _ => rfl, fun _ => rfl⟩

theorem Stands.eventIf {s t : State} {c : Bool} {p n : Nat} (h : Stands s t) : Stands s (t.eventIf c p n) := by
  unfold State.eventIf; exact .ite h.event h

/-- The fields of the arrays of registers are in none of the page headers. -/
theorem notRaw_chn {c k : Nat} (h : k < 0x40 := by decide) : (chnAddr c + k) % 0x1000 ≠ 0x10 := by unfold chnAddr; omega

theorem notRaw_til {i k : Nat} (h : k < 0x20 := by decide) : (tilAddr i + k) % 0x1000 ≠ 0x10 := by unfold tilAddr; omega

theorem notRaw_asp {a k : Nat} (h : k < 0x20 := by decide) : (aspAddr a + k) % 0x1000 ≠ 0x10 := by unfold aspAddr; omega

theorem notRaw_lnk {n k : Nat} (h : k % 0x1000 ≠ 0x10 := by decide) : (lnkAddr n + k) % 0x1000 ≠ 0x10 := by unfold lnkAddr; omega

theorem notRaw_arr {b m n k : Nat} (h : 0 < n ∧ 0x40 ≤ b % 0x1000 ∧ b % 0x1000 + m * (n - 1) < 0x1000 := by decide) :
    (b + m * (k % n)) % 0x1000 ≠ 0x10 := by
  have hk : k % n ≤ n - 1 := Nat.le_sub_one_of_lt (Nat.mod_lt k h.1)
  have := Nat.mul_le_mul_left m hk
  omega

/-- The record of a fault changes and keeps its event. -/
theorem State.setInst_stands (s : State) (cls inst : Nat) {i : FltInst} (h : (s.fltInst cls inst).event = true → i.event = true) :
    Stands s (s.setInst cls inst i) := by
  refine ⟨fun _ _ hb => hb, fun c k he => ?_, fun _ => rfl, fun _ => rfl⟩
  unfold State.setInst State.fltInst at *
  by_cases hk : fltKey c k = fltKey cls inst
  · rw [hk] at he ⊢
    simpa using h he
  · simpa only [kvFind_kvPut_ne _ _ hk] using he

theorem State.logFault_stands (s : State) (cls inst what act : Nat) : Stands s (State.logFault s cls inst what
    act) := by
  unfold State.logFault; dsimp only
  exact .upd (.inc (.put (.setRegN (.setRegN (.eventIf (.refl ..)) notRaw_arr) notRaw_arr)))

theorem State.clearFbInput_stands (s : State) : Stands s (State.clearFbInput s) := by
  unfold State.clearFbInput; dsimp only; refine .upd (.put ?_); refine .foldl ?_ ?_; exact .refl ..; intro _ _
  exact .put (.refl ..) notRaw_arr

theorem State.abortClause_stands (s : State) (sys : Bool) : Stands s (State.abortClause s sys) := by
  unfold State.abortClause; refine .ite ?_ ?_; exact .refl ..; dsimp only; refine .upd ?_; refine .iteOn ?_ ?_
  exact .put (.put (.put (.put (.put (.refl ..))))); exact .event (.put (.refl ..))

theorem State.onSkink_stands (s : State) (f : Skink → Skink) : Stands s (State.onSkink s f) := by
  unfold State.onSkink; exact .upd (.refl ..)

theorem State.ccvOff_stands (s : State) : Stands s (State.ccvOff s) := by
  unfold State.ccvOff; dsimp only; refine .iteOn ?_ ?_; exact .comp (.put (.refl ..)) (State.onSkink_stands ..)
  exact .put (.refl ..)

theorem State.ccvAbandon_stands (s : State) : Stands s (State.ccvAbandon s) := by
  unfold State.ccvAbandon; refine .ite ?_ ?_; exact .event (.inc (State.ccvOff_stands ..)); exact .refl ..

theorem State.darkOff_stands (s : State) : Stands s (State.darkOff s) := by
  unfold State.darkOff; dsimp only; exact .upd (.put (.refl ..))

theorem State.showOff_stands (s : State) (now : List Nat) : Stands s (State.showOff s now) := by
  unfold State.showOff; refine .foldl ?_ ?_; exact .refl ..; intro _ _; dsimp only
  exact .eventIf (.event (.flag (.refl ..) notRaw_asp))

theorem State.onChain_stands (s : State) (c : Nat) (f : Chain → Chain) : Stands s (State.onChain s c f) := by
  unfold State.onChain; refine .dite ?_ ?_; intro _; exact .upd (.refl ..); intro _; exact .refl ..

theorem State.queueRows_stands (s : State) (rs : List Nat) (f : Chain → List Nat → Chain) : Stands s (State.queueRows s rs f) := by
  unfold State.queueRows; refine .ite ?_ ?_; exact .refl ..; refine .foldl ?_ ?_; exact .refl ..; intro _ _; dsimp only
  refine .ite ?_ ?_; exact .refl ..; exact State.onChain_stands ..

theorem State.queueReact_stands (s : State) (rs : List Nat) : Stands s (State.queueReact s rs) := by
  unfold State.queueReact; exact State.queueRows_stands ..

theorem State.resendFrame_stands (s : State) (rs : List Nat) : Stands s (State.resendFrame s rs) := by
  unfold State.resendFrame; exact State.queueRows_stands ..

theorem State.streamOff_stands (s : State) (changed now : List Nat) : Stands s (State.streamOff s changed now) := by
  unfold State.streamOff; dsimp only; refine .comp ?_ (State.resendFrame_stands ..); refine .iteOn ?_ ?_
  exact State.queueReact_stands ..; exact .upd (.refl ..)

theorem State.updateBack_stands (s : State) : Stands s (State.updateBack s) := by
  unfold State.updateBack; refine .ite ?_ ?_; dsimp only; refine .ite ?_ ?_; exact .refl ..
  exact .comp (.upd (.refl ..)) (State.resendFrame_stands ..); exact .refl ..

theorem State.updateOff_stands (s : State) : Stands s (State.updateOff s) := by
  unfold State.updateOff; dsimp only; refine .ite ?_ ?_; exact State.updateBack_stands ..; split
  exact .comp (State.showOff_stands ..) (State.streamOff_stands ..)
  exact State.showOff_stands ..
  exact .comp (State.showOff_stands ..) (State.updateBack_stands ..)
  exact .upd (State.showOff_stands ..)

theorem State.evalPolicies_stands (s : State) : Stands s (State.evalPolicies s) := by
  unfold State.evalPolicies; exact .comp (.upd (.refl ..)) (State.updateOff_stands ..)

theorem State.cutOtp_stands (s : State) : Stands s (State.cutOtp s) := by
  unfold State.cutOtp; split; exact .upd (.refl ..); exact .upd (.refl ..); exact .refl ..

theorem State.pduResult_stands (s : State) (seq done status : Nat) : Stands s (State.pduResult s seq done status) := by
  unfold State.pduResult; exact .eventIf (.put (.put (.put (.put (.refl ..)))))

theorem State.holdOtp_stands (s : State) : Stands s (State.holdOtp s) := by
  unfold State.holdOtp; refine .ite ?_ ?_; dsimp only; refine .upd ?_; split
  exact .comp (.event (.put (.put (State.cutOtp_stands ..)))) (State.pduResult_stands ..)
  exact .event (.put (.put (State.cutOtp_stands ..))); exact .refl ..

theorem State.laneEnable_stands (s : State) (n : Nat) : Stands s (State.laneEnable s n) := by
  unfold State.laneEnable; dsimp only; refine .ite ?_ ?_; exact .put (.refl ..) notRaw_lnk; exact .refl ..

theorem State.showTiming_stands (s : State) (d p : Nat) : Stands s (State.showTiming s d p) := by
  unfold State.showTiming; exact .put (.put (.put (.put (.put (.put (.put (.put (.put (.put (.refl ..))))))))))

theorem State.leaveSelftest_stands (s : State) : Stands s (State.leaveSelftest s) := by
  unfold State.leaveSelftest; dsimp only; refine .upd ?_; refine .foldl ?_ ?_
  refine .comp ?_ (State.showTiming_stands ..); refine .foldl ?_ ?_; exact .flag (.refl ..); intro _ _; refine .ite ?_ ?_
  exact .put (.refl ..) notRaw_lnk; exact .refl ..; intro _ _; exact State.laneEnable_stands ..

theorem State.ownSwap_stands (s : State) : Stands s (State.ownSwap s) := by
  unfold State.ownSwap; refine .ite ?_ ?_; exact .upd (.refl ..); exact .refl ..

theorem State.markRows_stands (s : State) (rs : List Nat) : Stands s (State.markRows s rs) := by
  unfold State.markRows; exact .upd (.refl ..)

theorem State.stopLight_stands (s : State) : Stands s (State.stopLight s) := by
  unfold State.stopLight; dsimp only
  refine .tiles (.put (f := F.CMP_STAT_wait_rel) (v := 0) (.put (f := F.CMP_STAT_state) (v := 0) ?_)) (fun t => { t with due := [] })
    rfl rfl rfl fun _ => ⟨rfl, rfl⟩
  exact .ite (.refl ..) (State.markRows_stands ..)

theorem State.chainOff_stands (s : State) (c : Nat) : Stands s (State.chainOff s c) := by
  unfold State.chainOff; dsimp only
  refine .comp (.put (.put (.put (.put ?_ notRaw_chn) notRaw_chn) notRaw_chn) notRaw_chn) (State.onChain_stands ..)
  refine .foldl ?_ ?_; exact .refl ..; intro _ _; refine .ite ?_ ?_
  exact .event (.put (.put (.put (.refl ..) notRaw_til) notRaw_til) notRaw_til); exact .refl ..

theorem State.chainsOff_stands (s : State) : Stands s (State.chainsOff s) := by
  unfold State.chainsOff; refine .foldl ?_ ?_; exact .refl ..; intro _ _; exact State.chainOff_stands ..

theorem State.onOut_stands (s : State) (k : Nat) (f : SioOut → SioOut) : Stands s (State.onOut s k f) := by
  unfold State.onOut; refine .dite ?_ ?_; intro _; exact .upd (.refl ..); intro _; exact .refl ..

theorem State.driveOut_stands (s : State) (k : Nat) (b : Bool) : Stands s (State.driveOut s k b) := by
  unfold State.driveOut; refine .ite ?_ ?_; exact .refl ..; dsimp only; refine .iteOn ?_ ?_
  exact .comp (.flag (.refl ..) notRaw_arr) (State.onOut_stands ..); exact .put (.refl ..) notRaw_arr

theorem State.dropTest_stands (s : State) (k : Nat) : Stands s (State.dropTest s k) := by
  unfold State.dropTest; dsimp only; refine .ite ?_ ?_
  exact .comp (.put (.event (.inc (.refl ..))) notRaw_arr) (State.onOut_stands ..); exact .refl ..

theorem State.outOff_stands (s : State) (k : Nat) : Stands s (State.outOff s k) := by
  unfold State.outOff; exact .comp (State.dropTest_stands ..) (State.driveOut_stands ..)

theorem State.outputsOff_stands (s : State) : Stands s (State.outputsOff s) := by
  unfold State.outputsOff; refine .foldl ?_ ?_; exact .refl ..; intro _ _; exact State.outOff_stands ..

theorem State.withdraw_stands (s : State) : Stands s (State.withdraw s) := by
  unfold State.withdraw; exact .comp (.comp (.put (.put (.refl ..))) (State.chainsOff_stands ..)) (State.outputsOff_stands ..)

theorem State.enterHold_stands (s : State) (code detail : Nat) : Stands s (State.enterHold s code detail) := by
  unfold State.enterHold; refine .ite ?_ ?_; exact .put (.refl ..); dsimp only
  refine .comp (.upd (.comp (.comp ?_ (State.clearFbInput_stands ..)) (State.ccvAbandon_stands ..))) (State.evalPolicies_stands ..)
  refine .comp (.comp (.comp ?_ (State.stopLight_stands ..)) (State.darkOff_stands ..)) (State.holdOtp_stands ..)
  refine .comp (.comp (.setMode (.put (.put ?_))) (State.withdraw_stands ..)) (State.abortClause_stands ..)
  refine .comp ?_ (State.ownSwap_stands ..); refine .ite ?_ ?_; exact State.leaveSelftest_stands ..
  exact .refl ..

theorem State.markAll_stands (s : State) : Stands s (State.markAll s) := by
  unfold State.markAll; exact .upd (.refl ..)

theorem State.dropFrameRows_stands (s : State) : Stands s (State.dropFrameRows s) := by
  unfold State.dropFrameRows; dsimp only; refine .foldl ?_ ?_
  exact .tiles (.refl s) (fun t => { t with next := t.prev }) rfl rfl rfl fun _ => ⟨rfl, rfl⟩
  intro _ _; exact State.onChain_stands ..

theorem State.dropPass_stands (s : State) : Stands s (State.dropPass s) := by
  unfold State.dropPass; dsimp only; refine .ite ?_ ?_; exact .refl ..
  exact .upd (.comp (.comp (.put (.event (.inc (.refl ..)))) (State.markRows_stands ..)) (State.dropFrameRows_stands ..))

theorem State.passAfresh_stands (s : State) : Stands s (State.passAfresh s) := by
  unfold State.passAfresh; dsimp only; exact .upd (State.dropPass_stands ..)

theorem State.initOffsets_stands (s : State) : Stands s (State.initOffsets s) := by
  unfold State.initOffsets; exact .upd (.refl ..)

theorem State.enterFallback_stands (s : State) : Stands s (State.enterFallback s) := by
  unfold State.enterFallback; refine .ite ?_ ?_; exact .refl ..; refine .ite ?_ ?_
  exact State.enterHold_stands ..
  refine .comp (.comp (.comp ?_ (State.markAll_stands ..)) (State.clearFbInput_stands ..)) (State.evalPolicies_stands ..)
  exact .comp (.setMode (State.passAfresh_stands ..)) (State.initOffsets_stands ..)

theorem State.modeTook_stands (s : State) (cls : Nat) : Stands s (State.modeTook s cls) := by
  unfold State.modeTook; exact .event (.put (.put (.refl ..)))

theorem State.fallbackAction_stands (s : State) (cls : Nat) : Stands s (State.fallbackAction s cls) := by
  unfold State.fallbackAction; refine .ite ?_ ?_; refine .ite ?_ ?_; exact .refl ..
  exact .comp (State.enterFallback_stands ..) (State.modeTook_stands ..); refine .ite ?_ ?_
  exact .put (.refl ..); exact .refl ..

theorem State.holdAction_stands (s : State) (cls : Nat) : Stands s (State.holdAction s cls) := by
  unfold State.holdAction; refine .ite ?_ ?_; refine .ite ?_ ?_; exact .refl ..
  exact .comp (.put (.put (.refl ..))) (State.modeTook_stands ..); refine .iteOff ?_ ?_
  exact State.enterHold_stands ..; exact State.modeTook_stands ..

theorem State.modeAction_stands (s : State) (cls act : Nat) : Stands s (State.modeAction s cls act) := by
  unfold State.modeAction; split; exact State.fallbackAction_stands ..
  exact State.holdAction_stands ..; exact State.holdAction_stands ..
  exact State.holdAction_stands ..; exact State.holdAction_stands ..; refine .ite ?_ ?_
  exact .refl ..; exact State.holdAction_stands ..; refine .ite ?_ ?_; exact .refl ..
  exact State.holdAction_stands ..; exact .refl ..

theorem State.sioDrive_stands (s : State) : Stands s (State.sioDrive s) := by
  unfold State.sioDrive; refine .foldl ?_ ?_; exact .refl ..; intro _ _; refine .ite ?_ ?_
  exact State.driveOut_stands ..; exact State.outOff_stands ..

theorem State.takeAction_stands (s : State) (cls inst : Nat) : Stands s (State.takeAction s cls inst) := by
  unfold State.takeAction; dsimp only
  refine .comp (.comp (.comp ?_ (State.updateOff_stands ..)) (State.modeAction_stands ..)) (State.sioDrive_stands ..)
  refine .comp (.event (.inc ?_)) (State.logFault_stands ..)
  exact State.setInst_stands _ _ _ fun he => he

theorem State.raise_stands (s : State) (cls inst : Nat) : Stands s (State.raise s cls inst) := by
  unfold State.raise; refine .ite ?_ ?_; exact .refl ..; dsimp only; refine .ite ?_ ?_
  exact .comp (.eventIf (.refl ..)) (State.setInst_stands _ _ _ fun _ => rfl); refine .iteOn ?_ ?_
  exact .comp (.eventIf (.refl ..)) (State.setInst_stands _ _ _ fun _ => rfl); exact State.takeAction_stands ..

theorem State.setCond_stands (s : State) (cls inst : Nat) (b : Bool) : Stands s (State.setCond s cls inst b) := by
  unfold State.setCond; dsimp only; refine .ite ?_ ?_; exact .refl ..; refine .ite ?_ ?_; refine .iteOn ?_ ?_
  exact .event (State.setInst_stands _ _ _ id); exact State.takeAction_stands ..
  exact State.setInst_stands _ _ _ id

end Sys2Proof.Machine

end

section
/-! How a chain comes up (O51). -/

set_option Elab.async false

namespace Sys2Proof.Machine

/-- An event changes no register past the header of a page (R65). -/
theorem event_get (s : State) {p n : Nat} {f : Fld} (h : f.addr % 0x1000 ≠ 0x10) : (s.event p n).get f = s.get f :=
  get_put_ne s (f := ⟨R.PIRQ_RAW p, n, 1⟩) 1 fun he => h (by rw [← he]; unfold R.PIRQ_RAW pageAddr; simp only; omega)

/-- The tiles of a chain follow the descriptor's and the chain's settings (R47, R276). -/
theorem pop_congr {s t : State} {c : Nat} (hl : t.light.fb = s.light.fb) (ho : t.otp = s.otp)
    (hr : t.reg (R.CHN_CTRL c) = s.reg (R.CHN_CTRL c)) : t.pop c = s.pop c := by
  have hg (lo w : Nat) : t.get ⟨R.CHN_CTRL c, lo, w⟩ = s.get ⟨R.CHN_CTRL c, lo, w⟩ := by simp only [State.get, hr]
  simp only [State.pop, State.popIn, State.fbPop, State.fbByte, State.on, hl, ho, F.CHN_CTRL_en, F.CHN_CTRL_tiles, hg]
  rfl

theorem chnStat_inj {c d : Nat} (hc : c < 20) (hd : d < 20) (h : R.CHN_STAT c = R.CHN_STAT d) : c = d := by
  unfold R.CHN_STAT chnAddr at h
  omega

theorem chnCtrl_ne_stat (c d : Nat) : R.CHN_CTRL c ≠ R.CHN_STAT d := by
  unfold R.CHN_CTRL R.CHN_STAT chnAddr
  omega

/-- A fold of which one step changes a part of the state changes that part once. -/
theorem foldl_once {β : Type} (g : State → β) (F : β → β) {f : State → Nat → State} {l : List Nat} {c : Nat} (s : State)
    (hc : c ∈ l) (hn : l.Nodup) (hF : ∀ u, g (f u c) = F (g u)) (hk : ∀ u, ∀ d ∈ l, d ≠ c → g (f u d) = g u) :
    g (l.foldl f s) = F (g s) := by
  have keep (r : List Nat) (hr : ∀ d ∈ r, d ∈ l ∧ d ≠ c) : ∀ u, g (r.foldl f u) = g u := by
    induction r with
    | nil => exact fun u => rfl
    | cons d r ih =>
      intro u
      rw [List.foldl_cons, ih (fun e he => hr e (List.mem_cons_of_mem _ he))]
      exact hk u d (hr d List.mem_cons_self).1 (hr d List.mem_cons_self).2
  obtain ⟨l₁, l₂, rfl⟩ := List.append_of_mem hc
  have hn' := List.nodup_append.mp hn
  have h₁ : ∀ d ∈ l₁, d ∈ l₁ ++ c :: l₂ ∧ d ≠ c := fun d hd =>
    ⟨List.mem_append_left _ hd, hn'.2.2 d hd c List.mem_cons_self⟩
  have h₂ : ∀ d ∈ l₂, d ∈ l₁ ++ c :: l₂ ∧ d ≠ c := fun d hd =>
    ⟨List.mem_append_right _ (List.mem_cons_of_mem _ hd), fun e => (List.nodup_cons.mp hn'.2.1).1 (e ▸ hd)⟩
  rw [List.foldl_append, List.foldl_cons, keep l₂ h₂, hF, keep l₁ h₁]

/-- A chain's state and whether it has tiles, which decide how it starts. -/
def State.startOf (s : State) (c : Nat) : Nat × Nat := (s.get (F.CHN_STAT_state c), s.pop c)

theorem chainStart_pop (s : State) (c d : Nat) : (s.chainStart c).pop d = s.pop d := by
  unfold State.chainStart
  split
  · exact pop_congr rfl rfl (reg_put_ne _ _ _ (chnCtrl_ne_stat d c))
  · rfl

/-- The state of a chain after the permit, from its state before and its tiles (R250). -/
def started (st pop : Nat) : Nat := if st = 0 ∧ 0 < pop then 1 else st

/-- A chain that is off and has tiles starts (R250). -/
theorem chainStart_startOf (s : State) (c : Nat) :
    (s.chainStart c).startOf c = (started (s.get (F.CHN_STAT_state c)) (s.pop c), s.pop c) := by
  refine Prod.ext ?_ (chainStart_pop s c c)
  simp only [State.startOf, State.chainStart, started]
  split
  · exact get_put_same _ _ _ (by simp [F.CHN_STAT_state])
  · rfl

theorem chainStart_startOf_ne (s : State) {c d : Nat} (h : R.CHN_STAT c ≠ R.CHN_STAT d) : (s.chainStart d).startOf c = s.startOf c := by
  refine Prod.ext ?_ (chainStart_pop s d c)
  simp only [State.startOf, State.chainStart]
  split
  · exact get_put_ne _ _ (Ne.symm h)
  · rfl

/-- Every chain that is off and has tiles goes to START as the permit is given (R18, R250). -/
theorem chainStarts_state (s : State) (c : Fin 20) : ((List.range 20).foldl State.chainStart s).get (F.CHN_STAT_state c) =
    started (s.get (F.CHN_STAT_state c)) (s.pop c) := by
  have h := foldl_once (fun u => u.startOf c) (fun p => (started p.1 p.2, p.2)) (f := State.chainStart) s
    (List.mem_range.mpr c.isLt) List.nodup_range (fun u => chainStart_startOf u c) fun u d hd hne =>
      chainStart_startOf_ne u fun he => hne (chnStat_inj (List.mem_range.mp hd) c.isLt he.symm)
  simp only [State.startOf, Prod.mk.injEq] at h
  exact h.1

theorem chainOpen_pair (s : State) (c : Nat) : (s.chainOpen c).pair = s.pair := (State.chainOpen_only s c).pair (by decide)

/-- No takeover goes on: the chains that open are those that start. -/
theorem foldl_chainOpen (l : List Nat) {s : State} (h : s.pair.tkP = none) : l.foldl State.chainOpen s = l.foldl State.chainStart s := by
  induction l generalizing s with
  | nil => rfl
  | cons c l ih =>
    have hc : s.chainOpen c = s.chainStart c := by simp [State.chainOpen, h]
    rw [List.foldl_cons, List.foldl_cons, ih (by rw [chainOpen_pair, h]), hc]

/-- The state in which the chains open: the permit is given and the outputs follow (R18, R383). -/
def State.permitted (s : State) : State :=
  ((({ s with isl := { s.isl with req := true } }).put F.CLK_STAT_permit 1).put F.SYS_STAT_permit 1).sioDrive

theorem execPermitGrant_given {s : State} (hd : s.driving = true) (hp : s.get F.CLK_STAT_permit = 0)
    (ho : { s with isl := { s.isl with req := true } }.permitOk = true) (hg : s.boot.glitch = 0) (ht : s.pair.tkP = none) :
    execPermitGrant s = .next ((List.range 20).foldl State.chainStart s.permitted) := by
  have htk : s.permitted.pair.tkP = none := by rw [State.permitted, (State.sioDrive_only _).pair (by decide)]; exact ht
  rw [execPermitGrant, if_pos ⟨hd, by simp [State.on, hp], ho, hg⟩]
  dsimp only
  rw [← State.permitted, foldl_chainOpen _ htk]

theorem permitted_shown (s : State) :
    s.permitted.get F.CLK_STAT_permit = 1 ∧ s.permitted.get F.SYS_STAT_permit = 1 ∧ s.permitted.isl.req = true := by
  have hs := State.sioDrive_only ((({ s with isl := { s.isl with req := true } }).put F.CLK_STAT_permit 1).put F.SYS_STAT_permit 1)
  refine ⟨?_, ?_, ?_⟩
  · rw [State.permitted, hs.get, get_put_ne _ _ (by decide), get_put_same _ _ _ (by decide)]; rfl
  · rw [State.permitted, get_of_stat (hs.stat (by decide)) (by decide), get_put_same _ _ _ (by decide)]; rfl
  · rw [State.permitted, hs.isl (by decide)]; rfl

/-- The permit and the safety outputs leave the settings and the states of the chains. -/
theorem permitted_startOf (s : State) (c : Nat) : s.permitted.startOf c = s.startOf c := by
  have hs := State.sioDrive_only ((({ s with isl := { s.isl with req := true } }).put F.CLK_STAT_permit 1).put F.SYS_STAT_permit 1)
  have hr (k : Nat) (hk : k < 0x40) : s.permitted.reg (chnAddr c + k) = s.reg (chnAddr c + k) := by
    have hne (f : Fld) (h : f.addr < 0x4000) : chnAddr c + k ≠ f.addr := by unfold chnAddr; omega
    rw [State.permitted, hs.word _ (leaves_chn ⟨hk, by decide⟩), reg_put_ne _ _ _ (hne _ (by decide)),
      reg_put_ne _ _ _ (hne _ (by decide))]
    rfl
  have hp : s.permitted.pop c = s.pop c := by
    refine pop_congr ?_ ?_ (hr 0 (by decide))
    · rw [State.permitted, hs.light (by decide)]; rfl
    · rw [State.permitted, hs.otp (by decide)]; rfl
  simp only [State.startOf, hp, State.get, F.CHN_STAT_state, R.CHN_STAT, hr 8 (by decide)]

/-- Permit given (R18, R26, R250). -/
theorem permitGrant_starts {s : State} (hd : s.driving = true) (hp : s.get F.CLK_STAT_permit = 0)
    (ho : { s with isl := { s.isl with req := true } }.permitOk = true) (hg : s.boot.glitch = 0) (ht : s.pair.tkP = none) :
    Does .permitGrant s (P.isl ||| P.chains ||| P.sio ||| P.stat ||| P.clk ||| P.pgChn ||| P.pgSio) fun t =>
      t.get F.CLK_STAT_permit = 1 ∧ t.get F.SYS_STAT_permit = 1 ∧ t.isl.req = true ∧ ∀ c : Fin 20,
        t.get (F.CHN_STAT_state c) =
          if s.get (F.CHN_STAT_state c) = 0 ∧ 0 < s.pop c then 1 else s.get (F.CHN_STAT_state c) := by
  have he := execPermitGrant_given hd hp ho hg ht
  have hf : Only P.pgChn s.permitted ((List.range 20).foldl State.chainStart s.permitted) :=
    .foldl (.refl ..) fun u c => State.chainStart_only u c
  obtain ⟨h1, h2, h3⟩ := permitted_shown s
  refine ⟨_, he, execPermitGrant_only s he, hf.get.trans h1, (get_of_stat (hf.stat (by decide)) (by decide)).trans h2,
    (congrArg Island.req (hf.isl (by decide))).trans h3, fun c => ?_⟩
  have hs := permitted_startOf s c
  simp only [State.startOf, Prod.mk.injEq] at hs
  obtain ⟨hst, hpop⟩ := hs
  rw [chainStarts_state, hst, hpop]
  rfl

/-- The legs open and the drivers are enabled (R246). -/
theorem bypassLegsOpen_puts {s : State} (c : Fin 20) (hd : s.driving = true) (hp : s.get F.CLK_STAT_permit = 1)
    (hv : s.boot.vddhLow = false) (hs : s.get (F.CHN_STAT_state c) ≠ 0) :
    Puts (.bypassLegsOpen c) s [R.CHN_STAT c] fun t => t.get (F.CHN_STAT_byp c) = 1 ∧ t.get (F.CHN_STAT_drv c) = 1 ∧
      t.get (F.CHN_STAT_state c) = s.get (F.CHN_STAT_state c) := by
  refine ⟨(s.put (F.CHN_STAT_byp c) 1).put (F.CHN_STAT_drv c) 1, ?_, rfl, fun a ha => ?_, ?_⟩
  · exact congrArg _ (if_pos ⟨hd, by simp [State.on, hp], hv, hs⟩)
  · have ha' : a ≠ R.CHN_STAT c := by simpa using ha
    rw [reg_put_ne _ _ _ ha', reg_put_ne _ _ _ ha']
  · simp (disch := simp) only [F.CHN_STAT_state, F.CHN_STAT_drv, F.CHN_STAT_byp, get_put_beside, get_put_same, and_true]
    exact ⟨rfl, rfl⟩

theorem execChainLockLoss_locked {s : State} (c : Fin 20) (errs : Nat) (hl : s.live = true) (hk : s.get (F.CHN_STAT_lock c) = 1) :
    execChainLockLoss ⟨c, errs⟩ s =
      .next ((((s.put (F.CHN_STAT_lock c) 0).incBy (F.CHN_ERR_pairs c) errs).event (chnPage c) 3).onChain c
        fun ch => { ch with unlockAt := some s.pnow }) :=
  congrArg _ (if_pos ⟨hl, by simp [State.on, hk]⟩)

/-- Inward lock is lost (R249, R275). -/
theorem chainLockLoss_shows {s : State} (c : Fin 20) (errs : Nat) (hl : s.live = true) (hk : s.get (F.CHN_STAT_lock c) = 1) :
    Does (.chainLockLoss ⟨c, errs⟩) s (P.chains ||| P.pgChn) fun t =>
      t.get (F.CHN_STAT_lock c) = 0 ∧ t.get (F.CHN_ERR_pairs c) = min (s.get (F.CHN_ERR_pairs c) + errs) 65535 ∧
        (t.chain c).unlockAt = some s.pnow ∧ t.bit (R.PIRQ_RAW (20 + c / 10)) 3 = true := by
  have he := execChainLockLoss_locked c errs hl hk
  refine ⟨_, he, execChainLockLoss_only _ s he, ?_, ?_, ?_, ?_⟩
  · rw [onChain_get, event_get _ notRaw_chn, State.incBy,
      get_put_ne _ _ (by simp [F.CHN_STAT_lock, F.CHN_ERR_pairs, R.CHN_STAT, R.CHN_ERR]), get_put_same _ _ _ (by simp [F.CHN_STAT_lock])]
    rfl
  · rw [onChain_get, event_get _ notRaw_chn, State.incBy, get_put_same _ _ _ (by simp [F.CHN_ERR_pairs]),
      get_put_ne _ _ (by simp [F.CHN_STAT_lock, F.CHN_ERR_pairs, R.CHN_STAT, R.CHN_ERR])]
    simp only [F.CHN_ERR_pairs]
    omega
  · rw [chain_onChain _ c.isLt]
  · rw [State.bit, reg_congr (onChain_regs ..)]
    exact event_same _ (by decide)

/-- Inward lock comes (R249). -/
theorem chainInwardLock_shows {s : State} (c : Fin 20) (hl : s.live = true) :
    Does (.chainInwardLock c) s (P.chains ||| P.pgChn) fun t => t.get (F.CHN_STAT_lock c) = 1 ∧ (t.chain c).unlockAt = none := by
  have he : execChainInwardLock c s = .next ((s.put (F.CHN_STAT_lock c) 1).onChain c fun ch => { ch with unlockAt := none }) :=
    congrArg _ (if_pos hl)
  refine ⟨_, he, execChainInwardLock_only c s he, ?_, ?_⟩
  · rw [onChain_get, get_put_same _ _ _ (by simp [F.CHN_STAT_lock])]; rfl
  · rw [chain_onChain _ c.isLt]

/-- An event of an event class shows in its record, whatever action is taken (R313, R317). -/
theorem raise_event {s : State} (cls inst : Nat) (hl : s.live = true) : ((s.raise cls inst).fltInst cls inst).event = true := by
  have hset (u : State) (i : FltInst) (h : i.event = true) : ((u.setInst cls inst i).fltInst cls inst).event = true := by
    simpa [State.setInst, State.fltInst] using h
  have hm : s.mode ≠ .selftest := by simpa [State.live] using hl
  unfold State.raise
  rw [if_neg hm]
  dsimp only
  split
  · exact hset _ _ rfl
  · split
    · exact (State.takeAction_stands ..).mark _ _ (hset _ _ rfl)
    · exact hset _ _ rfl

theorem execFirstCodesTimeout_late {s : State} (c : Fin 20) {m : Nat} (hm : (s.chain c).marked = some m)
    (hs : s.get (F.CHN_STAT_state c) = 1 ∨ (s.chain c).silent = true) (hp : perReached (perAdd m 4) s.pnow = true) :
    execFirstCodesTimeout c s = .next (s.chainLoop c) := by
  simp only [execFirstCodesTimeout, hm, hs, hp, and_self, if_true]

/-- A chain that sees no verified CODES raises CHAIN_LOOP (R36, R274). -/
theorem firstCodesTimeout_loops {s : State} (c : Fin 20) {m : Nat} (hm : (s.chain c).marked = some m)
    (hs : s.get (F.CHN_STAT_state c) = 1 ∨ (s.chain c).silent = true) (hp : perReached (perAdd m 4) s.pnow = true) (hl : s.live = true) :
    Does (.firstCodesTimeout c) s P.fault fun t => t.bit (R.PIRQ_RAW (20 + c / 10)) 1 = true ∧ (t.fltInst 10 c).event = true := by
  have he := execFirstCodesTimeout_late c hm hs hp
  refine ⟨_, he, execFirstCodesTimeout_only c s he, ?_, ?_⟩
  · exact (State.raise_stands (s.event (chnPage c) 1) 10 c).raw _ _ (event_same _ (by decide))
  · exact raise_event 10 c (by rwa [State.live, State.mode, event_get _ (by decide)])

/-- Settles O51: each chain's start is decided by its own state and tiles alone, and the event of CHAIN_LOOP outlives the action that is
taken on it. -/
theorem chainStart : Obligations.ChainStart := by
  intro s
  refine ⟨permitGrant_starts, fun c => ⟨fun hv => ?_, bypassLegsOpen_puts c, chainLockLoss_shows c,
    chainInwardLock_shows c, fun m => firstCodesTimeout_loops c⟩⟩
  exact congrArg _ (if_neg fun ⟨_, _, h, _⟩ => by simp [hv] at h)

end Sys2Proof.Machine

end

section
/-! Sense blocks, judgements and missing answers (O55). -/

set_option Elab.async false

namespace Sys2Proof.Machine

/-- A saturating counter field after one more count (R78). -/
theorem inc_get (s : State) (f : Fld) (h : f.lo + f.w ≤ 32) : (s.inc f).get f = s.plusOne f := by
  rw [State.inc, State.incBy, get_put_same _ _ _ h, State.plusOne]
  exact Nat.mod_eq_of_lt (by have := Nat.two_pow_pos f.w; omega)

/-- An absence of a condition changes its record only (R313). -/
theorem setCond_absent (s : State) (cls inst : Nat) : Only P.flt s (s.setCond cls inst false) := by
  unfold State.setCond
  exact .ite (.refl ..) (State.setInst_only ..)

theorem staleBit_absent (s : State) (x : Nat) : Only (P.flt ||| P.pgSup) s (s.staleBit x false) := by
  unfold State.staleBit
  exact .comp (.setBit (.refl ..) covers_arr) (setCond_absent ..)

/-- The rows of a tile that gave results are stale no more (R295). -/
theorem rowsIn_only (s : State) (x : Nat) (rs : List Nat) : Only (P.tiles ||| P.flt ||| P.pgSup) s (s.rowsIn x rs) := by
  unfold State.rowsIn
  exact .iteOn (.comp (.refl ..) (State.onTile_only ..)) (.comp (.refl ..) (staleBit_absent ..))

theorem rowsIn_syncBad (s : State) (x y : Nat) (rs : List Nat) : ((s.rowsIn x rs).tile y).syncBad = (s.tile y).syncBad := by
  have h : ((s.onTile x fun t => { t with staleRows := (s.tile x).staleRows.filter fun r => !rs.contains r }).tile y).syncBad =
      (s.tile y).syncBad := tile_onTile_part Tile.syncBad s x y _ fun _ => rfl
  unfold State.rowsIn
  dsimp only
  split
  · rw [tile_congr ((staleBit_absent ..).tiles (by decide)), h]
  · exact h

/-- Every segment of the block has its 512 bytes and its CRC (R261). -/
def wholeSegments (b : SenseBlk) : Prop := ∀ k : Fin 8, b.segs[k].data.length = 512 ∧ b.segs[k].crc.toNat = crcChain b.segs[k].data

theorem whole_segments {b : SenseBlk} (h : wholeSegments b) :
    (b.segs.toList.zipIdx.filter fun x => x.1.crc.toNat == crcChain x.1.data && x.1.data.length == 512) = b.segs.toList.zipIdx := by
  refine List.filter_eq_self.mpr fun x hx => ?_
  obtain ⟨k, hk, he⟩ := List.getElem_of_mem hx
  have hk' : k < 8 := by simpa using hk
  have hs : x.1 = b.segs[(⟨k, hk'⟩ : Fin 8)] := by rw [← he]; simp
  have := h ⟨k, hk'⟩
  rw [← hs] at this
  simp [this.1, this.2]

/-- The rows of a block that is whole, and the state that holds them before they wait for their judgement (R284). -/
def State.blockRows (s : State) (c x p d off : Nat) (b : SenseBlk) : List (Nat × Nat × List Byte) :=
  b.segs.toList.zipIdx.flatMap fun (y : Segment × Nat) => (s.incBy (F.CHN_SENSE_segs c) 0).segmentRows c x p y.2 d off y.1.data

def State.blockHeld (s : State) (c x p : Nat) (segs : List (Segment × Nat)) (rows : List (Nat × Nat × List Byte)) : State :=
  let s := (s.incBy (F.CHN_SENSE_segs c) 0).onRec p fun r =>
    { r with acc := kvPut r.acc x ((segs.map fun (y : Segment × Nat) => 2 ^ y.2).sum) }
  let s := s.onTile x fun t =>
    { t with rowPer := rows.foldl (fun m (e : Nat × Nat × List Byte) => kvPut m e.1 (e.2.1 + 1)) t.rowPer,
             rowAge := rows.foldl (fun m (e : Nat × Nat × List Byte) => kvPut m e.1 (s.rowAgeAt e.2.1)) t.rowAge }
  s.rowsIn x (rows.map Prod.fst)

theorem takeBlock_whole (s : State) (c x p d off : Nat) {b : SenseBlk} (h : wholeSegments b) : s.takeBlock c x p d off b =
    let u := s.blockHeld c x p b.segs.toList.zipIdx (s.blockRows c x p d off b)
    { u with light := { u.light with blocks := u.light.blocks ++ [{ tile := x, per := p, rows := s.blockRows c x p d off b }] } } := by
  have hl : 8 - b.segs.toList.zipIdx.length = 0 := by simp
  unfold State.takeBlock State.blockHeld State.blockRows
  dsimp only
  rw [whole_segments h, hl, if_pos rfl]

theorem blockHeld_only (s : State) (c x p : Nat) (segs : List (Segment × Nat)) (rows : List (Nat × Nat × List Byte)) :
    Only (P.light ||| P.tiles ||| P.flt ||| P.pgSup ||| P.pgChn) s (s.blockHeld c x p segs rows) := by
  unfold State.blockHeld
  exact .comp (.comp (.comp (.incBy (.refl ..) covers_chn) (State.onRec_only ..)) (State.onTile_only ..)) (rowsIn_only ..)

section
variable (s : State) (c x p d off : Nat) {b : SenseBlk} (h : wholeSegments b)
include h

theorem takeBlock_chain (k : Nat) : (s.takeBlock c x p d off b).chain k = s.chain k := by
  rw [takeBlock_whole s c x p d off h]
  exact chain_congr ((blockHeld_only ..).chains (by decide)) k

theorem takeBlock_count : (s.takeBlock c x p d off b).get (F.CHN_SENSE_blocks c) = s.get (F.CHN_SENSE_blocks c) := by
  have hseg : (s.incBy (F.CHN_SENSE_segs c) 0).get (F.CHN_SENSE_blocks c) = s.get (F.CHN_SENSE_blocks c) :=
    get_put_beside _ _ _ _ _ _ _ (by decide)
  have hheld (segs : List (Segment × Nat)) (rows : List (Nat × Nat × List Byte)) :
      (s.blockHeld c x p segs rows).get (F.CHN_SENSE_blocks c) = s.get (F.CHN_SENSE_blocks c) := by
    rw [State.blockHeld, (rowsIn_only ..).get leaves_chn, onTile_get]
    exact hseg
  rw [takeBlock_whole s c x p d off h]
  exact hheld ..

theorem takeBlock_syncBad (y : Nat) : ((s.takeBlock c x p d off b).tile y).syncBad = (s.tile y).syncBad := by
  have hheld (segs : List (Segment × Nat)) (rows : List (Nat × Nat × List Byte)) :
      ((s.blockHeld c x p segs rows).tile y).syncBad = (s.tile y).syncBad := by
    rw [State.blockHeld, rowsIn_syncBad]
    exact tile_onTile_part Tile.syncBad _ _ _ _ fun _ => rfl
  rw [takeBlock_whole s c x p d off h]
  exact hheld ..

/-- The block waits for its judgement (R284). -/
theorem takeBlock_blocks : (s.takeBlock c x p d off b).light.blocks =
    s.light.blocks ++ [{ tile := x, per := p, rows := s.blockRows c x p d off b }] := by
  have hheld (segs : List (Segment × Nat)) (rows : List (Nat × Nat × List Byte)) :
      (s.blockHeld c x p segs rows).light.blocks = s.light.blocks := by
    rw [State.blockHeld, (rowsIn_only ..).light (by decide), (State.onTile_only ..).light (by decide)]
    rfl
  rw [takeBlock_whole s c x p d off h]
  exact congrArg (· ++ _) (hheld ..)

end

/-- What a block whose header agrees takes from the state before its segments are read: its expectation, the count and the answer to the
LATCH (R261, R266). -/
def State.headerTaken (s : State) (c : Nat) (e : Sent) (ltag off : Nat) : State :=
  let u := (s.unexpect c e).inc (F.CHN_SENSE_blocks c)
  match u.instOf e.key with
  | some i => (u.put (F.TIL_SYNC_ltag i) ltag).put (F.TIL_SYNC_offset i) off
  | none => u

theorem headerTaken_only (s : State) (c : Nat) (e : Sent) (ltag off : Nat) :
    Only (P.chains ||| P.pgChn ||| P.pgTil) s (s.headerTaken c e ltag off) := by
  unfold State.headerTaken
  dsimp only
  split
  · exact .put (.put (.inc (.comp (.refl ..) (State.unexpect_only ..)) covers_chn) covers_til) covers_til
  · exact .inc (.comp (.refl ..) (State.unexpect_only ..)) covers_chn

theorem headerTaken_expect (s : State) {c : Nat} (hc : c < 20) (e : Sent) (ltag off : Nat) :
    ((s.headerTaken c e ltag off).chain c).expect = (s.chain c).expect.erase e := by
  have he : (((s.unexpect c e).inc (F.CHN_SENSE_blocks c)).chain c).expect = (s.chain c).expect.erase e := by
    rw [State.inc, State.incBy, put_chain, State.unexpect, chain_onChain s hc]
  unfold State.headerTaken
  dsimp only
  split
  · rw [put_chain, put_chain, he]
  · exact he

theorem headerTaken_count (s : State) (c : Nat) (e : Sent) (ltag off : Nat) :
    (s.headerTaken c e ltag off).get (F.CHN_SENSE_blocks c) = s.plusOne (F.CHN_SENSE_blocks c) := by
  have hg : ((s.unexpect c e).inc (F.CHN_SENSE_blocks c)).get (F.CHN_SENSE_blocks c) = s.plusOne (F.CHN_SENSE_blocks c) := by
    rw [inc_get _ _ (by simp [F.CHN_SENSE_blocks]), State.plusOne, State.unexpect, onChain_get, State.plusOne]
  have hne (i : Nat) : R.TIL_SYNC i ≠ R.CHN_SENSE c := by unfold R.TIL_SYNC R.CHN_SENSE tilAddr chnAddr; omega
  unfold State.headerTaken
  dsimp only
  split
  · rw [get_put_ne _ _ (hne _), get_put_ne _ _ (hne _), hg]
  · exact hg

/-- The hypotheses of an accepted block: the chain answers, the block is whole, and its header agrees with what was in force in its
period (R261, R268). -/
structure BlockAgrees (s : State) (c : Nat) (b : SenseBlk) (e : Sent) (r : PerRec) : Prop where
  live : s.chainLive c = true
  mode : s.mode ≠ .mirror
  ebp : b.ebp = false
  errs : s.itemErrs c b.gap b.syms = 0
  crc : b.hcrc.toNat = crcChain (b.h0 :: b.h1 :: leBytes 2 b.seq.toNat ++ b.hdr.toList)
  found : (s.chain c).expect.find? (fun e => e.typ == 6 && e.seq == b.seq.toNat) = some e
  typ : b.h0.toNat = 23
  hop : b.h1.toNat = s.pop c - 1 - e.pos
  record : s.recOf e.per = some r
  per : leNat (b.hdr.toList.take 2) = e.per % 65536
  tag : leNat ((b.hdr.toList.drop 2).take 1) = r.tags.getD c 0
  offset : leNat ((b.hdr.toList.drop 3).take 2) = r.offs.getD e.key 0
  divider : leNat ((b.hdr.toList.drop 5).take 1) = r.d

/-- A block that agrees is taken (R268). -/
theorem senseBlock_agrees {s : State} {c : Nat} {b : SenseBlk} {e : Sent} {r : PerRec} (h : BlockAgrees s c b e r) :
    s.senseBlock c b =
      ((s.headerTaken c e (leNat ((b.hdr.toList.drop 2).take 1)) (leNat ((b.hdr.toList.drop 3).take 2))).onTile e.key
        fun x => { x with syncBad := false }).takeBlock c e.key e.per r.d (r.offs.getD e.key 0) b := by
  have hsn : s.snoop true = s := if_neg fun hm => h.mode hm.1
  have hpop : ((s.unexpect c e).inc (F.CHN_SENSE_blocks c)).pop c = s.pop c := by
    have ho : Only P.chains s (s.unexpect c e) := State.unexpect_only ..
    have hn : R.CHN_CTRL c ≠ R.CHN_SENSE c := by unfold R.CHN_CTRL R.CHN_SENSE; omega
    exact pop_congr (congrArg Light.fb (ho.light (by decide))) (ho.otp (by decide))
      ((reg_put_ne _ _ _ hn).trans (ho.word _ (leaves_chn (k := 0))))
  have hw : b.ebp = false ∧ b.hcrc.toNat = crcChain (b.h0 :: b.h1 :: leBytes 2 b.seq.toNat ++ b.hdr.toList) := ⟨h.ebp, h.crc⟩
  have hhead : ¬ (b.h0.toNat ≠ answerHead 7 ∨ b.h1.toNat ≠ ((s.unexpect c e).inc (F.CHN_SENSE_blocks c)).answerHop c e.pos) := by
    rw [State.answerHop, hpop]
    exact fun hc => hc.elim (fun hc => hc h.typ) (fun hc => hc h.hop)
  have hrec (a b : Nat) : (s.headerTaken c e a b).recOf e.per = some r := by
    rw [State.recOf, (headerTaken_only ..).light (by decide)]
    exact h.record
  unfold State.senseBlock
  dsimp only
  rw [hsn, if_pos (show s.listens c = true from h.live), if_pos hw, if_pos (And.intro hw h.errs), h.found]
  dsimp only
  rw [if_neg (not_not.mpr hw), if_neg hhead]
  change (match (s.headerTaken c e (leNat ((b.hdr.toList.drop 2).take 1)) (leNat ((b.hdr.toList.drop 3).take 2))).recOf e.per with
    | none => _ | some r => _) = _
  rw [hrec]
  exact if_pos ⟨h.per, h.tag, h.offset, h.divider⟩

/-- The code groups of an item show in its chain's disparity and error count only (R248, R249, R275). -/
theorem hear_expect (s : State) (c : Nat) (gap syms : List (BitVec 10 × BitVec 10)) :
    ((s.hear c gap syms).chain c).expect = (s.chain c).expect := by
  have hi (u : State) (n : Nat) : ((u.inwardErrs c n).chain c).expect = (u.chain c).expect := by
    rw [chain_congr ((State.inwardErrs_only u c n).chains (by decide))]
  unfold State.hear
  split
  · rfl
  · exact (hi ..).trans (chain_onChain_part Chain.expect s c c _ fun _ => rfl)

theorem hear_count (s : State) (c : Nat) (gap syms : List (BitVec 10 × BitVec 10)) :
    (s.hear c gap syms).get (F.CHN_SENSE_blocks c) = s.get (F.CHN_SENSE_blocks c) := by
  have hi (u : State) (n : Nat) : (u.inwardErrs c n).get (F.CHN_SENSE_blocks c) = u.get (F.CHN_SENSE_blocks c) := by
    unfold State.inwardErrs
    split
    · rw [event_get _ notRaw_chn, State.incBy, get_put_ne]
      unfold F.CHN_ERR_pairs F.CHN_SENSE_blocks R.CHN_ERR R.CHN_SENSE
      simp only
      omega
    · rfl
  unfold State.hear
  split
  · rfl
  · exact (hi ..).trans (onChain_get ..)

/-- A block that agrees is accepted (R261, R268, R284). -/
theorem senseBlock_accepted {s : State} {c : Fin 20} {b : SenseBlk} {e : Sent} {r : PerRec} (h : BlockAgrees s c b e r) (hk : e.key < 80)
    (hw : wholeSegments b) : Does (.senseBlock c b) s (P.fault ||| P.pair ||| P.pgSup ||| P.pgAxo) fun t =>
      (t.chain c).expect = (s.chain c).expect.erase e ∧ t.get (F.CHN_SENSE_blocks c) = s.plusOne (F.CHN_SENSE_blocks c) ∧
        (t.tile e.key).syncBad = false ∧
        ∃ rows, t.light.blocks = s.light.blocks ++ [{ tile := e.key, per := e.per, rows := rows }] := by
  have he : execSenseBlock c b s = .next ((s.senseBlock c b).hear c b.gap b.syms) := rfl
  refine ⟨_, he, execSenseBlock_only c b s he, ?_⟩
  beta_reduce
  have hh := State.hear_only (s.senseBlock c b) c b.gap b.syms
  rw [hear_expect, hear_count, tile_congr (hh.tiles (by decide)), hh.light (by decide), senseBlock_agrees h]
  generalize hu : s.headerTaken c e _ _ = u
  have hl (f : Tile → Tile) : (u.onTile e.key f).light = s.light :=
    ((State.onTile_only ..).light (by decide)).trans (hu ▸ (headerTaken_only ..).light (by decide))
  refine ⟨?_, ?_, ?_, _, (takeBlock_blocks _ _ _ _ _ _ hw).trans (by rw [hl])⟩
  · rw [takeBlock_chain _ _ _ _ _ _ hw, onTile_chain, ← hu, headerTaken_expect _ c.isLt]
  · rw [takeBlock_count _ _ _ _ _ _ hw, onTile_get, ← hu, headerTaken_count]
  · rw [takeBlock_syncBad _ _ _ _ _ _ hw, tile_onTile _ hk]

/-- A judgement that is released beats the heart, and its time counts (R11, R19, R308). -/
def State.released (s : State) (b : Block) (rest : List Block) (cycles : Nat) : State :=
  ({ s with light := { s.light with blocks := rest }, isl := { s.isl with hbFlag := true } }.peak F.SUP_JRUN_t cycles).dropDue b.tile b.per

theorem execJudgementRelease_oldest {s : State} {b : Block} {rest : List Block} (cycles : Nat) (h : s.light.blocks = b :: rest) :
    execJudgementRelease cycles s =
      .next (b.rows.foldl (fun u e => u.judgeRow b.tile b.per e.1 e.2.1 e.2.2) (s.released b rest cycles)) := by
  rw [execJudgementRelease, h]
  rfl

theorem released_shown (s : State) (b : Block) (rest : List Block) (cycles : Nat) :
    (s.released b rest cycles).isl.hbFlag = true ∧
      (s.released b rest cycles).get F.SUP_JRUN_t = max (s.get F.SUP_JRUN_t) (min cycles 65535) ∧
      (s.released b rest cycles).light = { s.light with blocks := rest } := by
  have ho := State.dropDue_only
    ({ s with light := { s.light with blocks := rest }, isl := { s.isl with hbFlag := true } }.peak F.SUP_JRUN_t cycles) b.tile b.per
  refine ⟨?_, ?_, ?_⟩
  · rw [State.released, ho.isl (by decide)]; rfl
  · rw [State.released, ho.get, State.peak, get_put_same _ _ _ (by decide)]
    have h1 : s.get F.SUP_JRUN_t < 65536 := get_lt s F.SUP_JRUN_t
    have h2 : max (s.get F.SUP_JRUN_t) (min cycles 65535) < 65536 := by omega
    exact Nat.mod_eq_of_lt h2
  · rw [State.released, ho.light (by decide)]; rfl

theorem released_skip (s : State) (b : Block) (rest : List Block) (cycles : Nat) :
    (s.released b rest cycles).get F.SUP_SKIP_rows = s.get F.SUP_SKIP_rows := by
  rw [State.released, State.dropDue, onTile_get, State.peak, get_put_ne _ _ (by decide)]
  rfl

theorem released_due (s : State) {b : Block} (rest : List Block) (cycles : Nat) (h : b.tile < 80) :
    ((s.released b rest cycles).tile b.tile).due = (s.tile b.tile).due.filter fun d => d.1 != b.per := by
  rw [State.released, State.dropDue, tile_onTile _ h]
  rfl

/-- A row that was not verified is skipped (R306). -/
theorem judgeRow_unverified {s : State} {r : PerRec} (x tok row q : Nat) (data : List Byte) (hr : s.recOf q = some r)
    (hj : r.judges (128 * x + row) = false) : s.judgeRow x tok row q data = s.inc F.SUP_SKIP_rows := by
  rw [State.judgeRow, hr]
  simp only [hj]
  rfl

theorem judgementRelease_judges {s : State} (cycles : Nat) {b : Block} {rest : List Block} (h : s.light.blocks = b :: rest) :
    Does (.judgementRelease cycles) s (P.fault ||| P.pair ||| P.draws ||| P.sys ||| P.pgSup ||| P.pgAxo) fun t =>
      t.isl.hbFlag = true ∧ t.get F.SUP_JRUN_t = max (s.get F.SUP_JRUN_t) (min cycles 65535) ∧
      (b.rows = [] → t.light.blocks = rest ∧
        (b.tile < 80 → (t.tile b.tile).due = (s.tile b.tile).due.filter fun d => d.1 != b.per)) ∧
      (∀ row q data r, b.rows = [(row, q, data)] → s.recOf q = some r → r.judges (128 * b.tile + row) = false →
        t.get F.SUP_SKIP_rows = s.plusOne F.SUP_SKIP_rows ∧ t.light.blocks = rest) := by
  have he := execJudgementRelease_oldest cycles h
  obtain ⟨hb, hj, hl⟩ := released_shown s b rest cycles
  have hc : Calm (s.released b rest cycles)
      (b.rows.foldl (fun u e => u.judgeRow b.tile b.per e.1 e.2.1 e.2.2) (s.released b rest cycles)) :=
    .foldl (.refl ..) fun u e => State.judgeRow_calm ..
  refine ⟨_, he, execJudgementRelease_only cycles s he, ?_, hc.get.trans hj, fun hr => ?_, fun row q data r hr hq hn => ?_⟩
  · exact (congrArg Island.hbFlag hc.isl).trans hb
  · rw [hr, List.foldl_nil, hl]
    exact ⟨rfl, released_due s rest cycles⟩
  · have hq' : (s.released b rest cycles).recOf q = some r := by rw [State.recOf, hl]; exact hq
    rw [hr, List.foldl_cons, List.foldl_nil, judgeRow_unverified _ _ _ _ _ hq' hn, inc_get _ _ (by decide), State.plusOne,
      released_skip]
    exact ⟨rfl, congrArg Light.blocks hl⟩

/-- Nothing waits for its turn: no request goes out (R270). -/
theorem flushReg_none {s : State} {c : Nat} (h : (s.chain c).regq = []) : s.flushReg c = s := if_pos (.inl h)

/-- An expectation without an answer is dropped (R256). -/
theorem returnTimeout_first {s : State} {c : Nat} {e : Sent} {r : List Sent} (h : (s.chain c).expect = e :: r) :
    s.returnTimeout c = (s.unexpect c e).failItem c e := by
  rw [State.returnTimeout, h]

theorem unexpect_first {s : State} {c : Nat} (hc : c < 20) {e : Sent} {r : List Sent} (h : (s.chain c).expect = e :: r) :
    (s.unexpect c e).chain c = { s.chain c with expect := r } := by
  rw [State.unexpect, chain_onChain s hc, h, List.erase_cons_head]

theorem execReturnTimeout_first {s : State} {c : Fin 20} {e : Sent} {r : List Sent} (h : (s.chain c).expect = e :: r)
    (hq : (((s.unexpect c e).failItem c e).chain c).regq = []) :
    execReturnTimeout c s = .next ((s.unexpect c e).failItem c e) := by
  rw [execReturnTimeout, returnTimeout_first h, flushReg_none hq]

/-- A CODES row is sent again while tries are left (R256). -/
theorem codesTimeout_again {s : State} {c : Fin 20} {e : Sent} {r : List Sent} (h : (s.chain c).expect = e :: r)
    (hq : (s.chain c).regq = []) (ht : e.typ = 1) (hc : e.cls ≠ 3) (hn : e.tries < s.get (F.CHN_CFG_retry c)) :
    Does (.returnTimeout c) s (P.fault ||| P.out) fun t =>
      (t.chain c).expect = r ∧ (t.chain c).again = (s.chain c).again ++ [{ e with tries := e.tries + 1 }] := by
  have hf : (s.unexpect c e).failItem c e =
      (s.unexpect c e).onChain c fun ch => { ch with again := ch.again ++ [{ e with tries := e.tries + 1 }] } := by
    have hg : (s.unexpect c e).get (F.CHN_CFG_retry c) = s.get (F.CHN_CFG_retry c) := onChain_get ..
    simp only [State.failItem, ht, State.failWait, if_neg hc, hg, if_pos hn]
  have hch : ((s.unexpect c e).failItem c e).chain c =
      { s.chain c with expect := r, again := (s.chain c).again ++ [{ e with tries := e.tries + 1 }] } := by
    rw [hf, chain_onChain _ c.isLt, unexpect_first c.isLt h]
  have he := execReturnTimeout_first h (by rw [hch]; exact hq)
  refine ⟨_, he, execReturnTimeout_only c s he, ?_⟩
  beta_reduce
  rw [hch]
  exact ⟨rfl, rfl⟩

/-- An expectation whose end changes a tile only: a SENSE_BLOCK's or a STATUS reply's (R256, R268, R269). -/
theorem tileTimeout {s : State} {c : Fin 20} {e : Sent} {r : List Sent} (h : (s.chain c).expect = e :: r) (hq : (s.chain c).regq = [])
    (hk : e.key < 80) (f : Tile → Tile) (hf : (s.unexpect c e).failItem c e = (s.unexpect c e).onTile e.key f) :
    Does (.returnTimeout c) s (P.fault ||| P.out) fun t => (t.chain c).expect = r ∧ t.tile e.key = f (s.tile e.key) := by
  have hch : ((s.unexpect c e).failItem c e).chain c = { s.chain c with expect := r } := by
    rw [hf, onTile_chain, unexpect_first c.isLt h]
  have he := execReturnTimeout_first h (by rw [hch]; exact hq)
  refine ⟨_, he, execReturnTimeout_only c s he, ?_⟩
  beta_reduce
  rw [hch, hf, tile_onTile _ hk, State.unexpect, onChain_tile]
  exact ⟨rfl, rfl⟩

theorem senseTimeout_releases {s : State} {c : Fin 20} {e : Sent} {r : List Sent} (h : (s.chain c).expect = e :: r)
    (hq : (s.chain c).regq = []) (ht : e.typ = 6) (hk : e.key < 80) :
    Does (.returnTimeout c) s (P.fault ||| P.out) fun t =>
      (t.chain c).expect = r ∧ (t.tile e.key).due = (s.tile e.key).due.filter fun d => d.1 != e.per := by
  obtain ⟨t, he, ho, hx, htl⟩ := tileTimeout h hq hk (fun x => { x with due := x.due.filter fun d => d.1 != e.per })
    (by simp only [State.failItem, ht, State.dropDue])
  exact ⟨t, he, ho, hx, congrArg Tile.due htl⟩

theorem statusTimeout_counts {s : State} {c : Fin 20} {e : Sent} {r : List Sent} (h : (s.chain c).expect = e :: r)
    (hq : (s.chain c).regq = []) (ht : e.typ = 8) (hk : e.key < 80) :
    Does (.returnTimeout c) s (P.fault ||| P.out) fun t =>
      (t.chain c).expect = r ∧ (t.tile e.key).statMiss = (s.tile e.key).statMiss + 1 := by
  obtain ⟨t, he, ho, hx, htl⟩ := tileTimeout h hq hk (fun x => { x with statMiss := x.statMiss + 1 })
    (by simp only [State.failItem, ht])
  exact ⟨t, he, ho, hx, congrArg Tile.statMiss htl⟩

/-- What a tile shows leaves its staleness (R269, R278, R365). -/
theorem tileFlags_stands (s : State) (x : Nat) : Stands s (s.tileFlags x) := by
  have hon (u : State) : Stands u u.cycleOn := .upd (.refl u)
  have hoff (u : State) (m : Option Mode) : Stands u (u.cycleOff m) := .upd (.refl u)
  unfold State.tileFlags
  dsimp only
  refine .comp (.comp (.comp (.comp (.comp ?_ (hon _)) (State.setCond_stands ..)) (State.setCond_stands ..)) (State.setCond_stands ..))
    (hoff ..)
  split
  · exact .eventIf (.flag (.flag (.put (.refl ..) notRaw_til) notRaw_til) notRaw_til)
  · exact .refl ..

theorem statusStale_shows {s : State} (x : Fin 80) (hm : 16 ≤ (s.tile x).statMiss) (hs : (s.tile x).stale = false) :
    Does (.statusStale x) s P.fault fun t => (t.tile x).stale = true := by
  have he : execStatusStale x s = .next ((s.onTile x fun t => { t with stale := true }).tileFlags x) := by
    rw [execStatusStale, if_pos ⟨hm, hs⟩]
  refine ⟨_, he, execStatusStale_only x s he, ?_⟩
  beta_reduce
  rw [(tileFlags_stands ..).stale, tile_onTile s x.isLt]

theorem leaves_supStale (k : Nat) : leaves P.fault (R.SUP_STALE k) = true :=
  (by decide : ∀ j < 3, leaves P.fault (0x0F070 + 4 * j) = true) _ (Nat.mod_lt k (by decide))

theorem senseStale_shows {s : State} (x : Fin 80) (hr : (s.tile x).staleRows = [])
    (ha : ∃ e ∈ (s.tile x).rowAge, s.get F.SUP_CFG_stale < e.2) :
    Does (.senseStale x) s (P.fault ||| P.pgSup) fun t =>
      (t.tile x).staleRows = List.range 128 ∧ t.bit (R.SUP_STALE (x / 32)) (x % 32) = true := by
  have he : execSenseStale x s =
      .next (((s.onTile x fun t => { t with staleRows := List.range 128 }).event 15 2).staleBit x true) :=
    congrArg _ (if_pos ⟨hr, by simpa using ha⟩)
  refine ⟨_, he, execSenseStale_only x s he, ?_, ?_⟩
  · rw [State.staleBit, (State.setCond_stands ..).staleRows, State.setBit, setReg_tile, State.event, State.setBit, setReg_tile,
      tile_onTile s x.isLt]
  · rw [State.staleBit, bit_get, beq_iff_eq, (State.setCond_only ..).get (leaves_supStale _)]
    exact get_put_same _ ⟨R.SUP_STALE (x / 32), x % 32, 1⟩ 1 (by simp only; omega)

/-- Settles O55: a whole block changes the record of its fault by an absence alone, a judgement leaves the island, and the faults that a
missing answer raises leave the staleness of the tiles. -/
theorem senseAnswers : Obligations.SenseAnswers := by
  refine ⟨fun s => ⟨?_, fun cycles b rest => judgementRelease_judges cycles⟩, fun s =>
    ⟨fun c e r h hq => ⟨codesTimeout_again h hq, senseTimeout_releases h hq, statusTimeout_counts h hq⟩, statusStale_shows,
      senseStale_shows⟩⟩
  intro c b e r live mode ebp errs crc found hk typ hop record per tag offset divider hw
  exact senseBlock_accepted ⟨live, mode, ebp, errs, crc, found, typ, hop, record, per, tag, offset, divider⟩ hk hw

end Sys2Proof.Machine

end

section
/-! Frame LATCH and urgent LATCH events (O53). -/

set_option Elab.async false

namespace Sys2Proof.Machine

/-- What LATCH events hold beside the proofs on the chains (R298). -/
def Light.events (l : Light) : Light := { l with proofSent := [], proofBad := [] }

/-- A step that sends on the chains: the LATCHes that wait, the LATCH shown last and the events stay (R252, R266, R298). -/
structure Sends (s t : State) : Prop where
  latchF : ∀ c, (t.chain c).latchF = (s.chain c).latchF
  latchU : ∀ c, (t.chain c).latchU = (s.chain c).latchU
  ltag : t.reg R.CHN_LTAG = s.reg R.CHN_LTAG
  light : t.light.events = s.light.events

theorem Sends.refl (s : State) : Sends s s := ⟨fun _ => rfl, fun _ => rfl, rfl, rfl⟩

theorem Sends.comp {s t u : State} (h : Sends s t) (k : Sends t u) : Sends s u :=
  ⟨fun c => (k.latchF c).trans (h.latchF c), fun c => (k.latchU c).trans (h.latchU c), k.ltag.trans h.ltag, k.light.trans h.light⟩

theorem Sends.lightTag {s t : State} (h : Sends s t) : t.light.ltag = s.light.ltag :=
  (congrArg Light.ltag h.light : t.light.events.ltag = s.light.events.ltag)

theorem Sends.frameDue {s t : State} (h : Sends s t) : t.light.frameDue = s.light.frameDue :=
  (congrArg Light.frameDue h.light : t.light.events.frameDue = s.light.events.frameDue)

theorem Sends.offDue {s t : State} (h : Sends s t) : t.light.offDue = s.light.offDue :=
  (congrArg Light.offDue h.light : t.light.events.offDue = s.light.events.offDue)

theorem Sends.maskDue {s t : State} (h : Sends s t) : t.light.maskDue = s.light.maskDue :=
  (congrArg Light.maskDue h.light : t.light.events.maskDue = s.light.events.maskDue)

theorem Sends.foldl {s t : State} {α : Type} {f : State → α → State} {l : List α} (h : Sends s t) (hf : ∀ u x, Sends u (f u x)) :
    Sends s (l.foldl f t) := by
  induction l generalizing t with
  | nil => exact h
  | cons x r ih => exact ih (h.comp (hf t x))

theorem Sends.ite {s a b : State} {c : Prop} [Decidable c] (ha : Sends s a) (hb : Sends s b) : Sends s (if c then a else b) := by
  split <;> assumption

/-- A chain changes beside the LATCHes that wait. -/
theorem Sends.onChain {s t : State} {c : Nat} {f : Chain → Chain} (h : Sends s t)
    (hF : ∀ ch, (f ch).latchF = ch.latchF := by intro _; rfl) (hU : ∀ ch, (f ch).latchU = ch.latchU := by intro _; rfl) :
    Sends s (t.onChain c f) :=
  h.comp ⟨fun d => chain_onChain_part Chain.latchF t c d f hF, fun d => chain_onChain_part Chain.latchU t c d f hU,
    reg_congr (onChain_regs ..) _, congrArg Light.events ((State.onChain_only t c f).light (by decide))⟩

/-- A word other than CHN_LTAG is written. -/
theorem Sends.put {s t : State} {f : Fld} {v : Nat} (h : Sends s t) (hf : f.addr ≠ R.CHN_LTAG) : Sends s (t.put f v) :=
  h.comp ⟨fun _ => rfl, fun _ => rfl, reg_put_ne t f v (Ne.symm hf), rfl⟩

/-- The proofs on the chains change. -/
theorem Sends.proofs {s t : State} (h : Sends s t) {sent bad : List (Nat × List Nat)} :
    Sends s { t with light := { t.light with proofSent := sent, proofBad := bad } } :=
  h.comp ⟨fun _ => rfl, fun _ => rfl, rfl, rfl⟩

theorem Sends.event {s t : State} {p n : Nat} (h : Sends s t) : Sends s (t.event p n) :=
  h.put (f := ⟨R.PIRQ_RAW p, n, 1⟩) (v := 1) (by unfold R.PIRQ_RAW R.CHN_LTAG pageAddr; simp only; omega)

theorem sendChain_sends (s : State) (c : Nat) (e : Sent) : Sends s (s.sendChain c e) := by
  unfold State.sendChain
  exact .ite (.onChain (.refl s)) (.comp (.onChain (.refl s)) ⟨fun _ => rfl, fun _ => rfl, rfl, rfl⟩)

theorem sendAgain_sends (s : State) (c : Nat) (e : Sent) : Sends s (s.sendAgain c e) := by
  unfold State.sendAgain
  exact .comp (.event (.put (.refl s) (by unfold F.CHN_RETX_again R.CHN_RETX R.CHN_LTAG chnAddr; simp only; omega)))
    (sendChain_sends ..)

/-- The requests that wait go out (R270). -/
theorem flushReg_sends (s : State) (c : Nat) : Sends s (s.flushReg c) := by
  unfold State.flushReg
  exact .ite (.refl s) (.foldl (.onChain (.refl s)) fun u e => .ite (sendChain_sends ..) (sendAgain_sends ..))

theorem sendReplacement_sends (s : State) (c : Nat) (e : Sent) (told : List Nat) : Sends s (s.sendReplacement c e told) := by
  unfold State.sendReplacement
  exact .proofs (.comp (.put (.refl s) (by decide)) (sendChain_sends ..))

theorem proofDriven_sends (s : State) (n : Nat) : Sends s (s.proofDriven n) := by
  unfold State.proofDriven
  exact .event (.put (.refl s) (by decide))

theorem proofReplace_sends (s : State) (target : Nat) (dark : Nat → Bool) (x : Nat) : Sends s (s.proofReplace target dark x) := by
  unfold State.proofReplace
  split
  · dsimp only
    refine .ite (.refl s) (.ite (.proofs (.ite ?_ ?_)) (.proofs (proofDriven_sends ..)))
    · exact .comp (.onChain (.refl s)) (sendReplacement_sends ..)
    · exact .onChain (.onChain (.refl s))
  · exact .refl s

/-- Proofs are made again after a LATCH event (R298). -/
theorem proofsAfterLatch_sends (s : State) : Sends s s.proofsAfterLatch := by
  unfold State.proofsAfterLatch
  exact .ite (.refl s) (.foldl (.refl s) fun u x => proofReplace_sends ..)

theorem flushRegs_sends (s : State) : Sends s ((List.range 20).foldl State.flushReg s) := .foldl (.refl s) flushReg_sends

theorem flushRegs_only (s : State) : Only (P.chains ||| P.out ||| P.pgChn) s ((List.range 20).foldl State.flushReg s) :=
  .foldl (.refl ..) State.flushReg_only

/-- What follows a LATCH event: the proofs are made again, and the requests that waited go out. -/
def State.afterLatch (s : State) : State := (List.range 20).foldl State.flushReg s.proofsAfterLatch

theorem afterLatch_sends (s : State) : Sends s s.afterLatch := .comp (proofsAfterLatch_sends s) (flushRegs_sends _)

theorem afterLatch_only (s : State) : Only (P.chains ||| P.light ||| P.out ||| P.pgPrf ||| P.pgChn) s s.afterLatch :=
  .comp (.comp (.refl ..) (State.proofsAfterLatch_only s)) (flushRegs_only _)

/-- A LATCH sent on a chain waits there (R258, R266). -/
theorem sendLatch_waits (s : State) (frame : Bool) (target ltag : Nat) (offs : List Nat) {c : Nat} (hc : c < 20) :
    (if frame then ((s.sendLatch frame target ltag offs c).chain c).latchF else ((s.sendLatch frame target ltag offs c).chain c).latchU).map
      (fun w => (w.target, w.ltag)) = some (target, ltag) := by
  unfold State.sendLatch State.waitLatch
  rw [chain_onChain _ hc]
  cases frame <;> rfl

theorem sendLatch_chain_ne (s : State) (frame : Bool) (target ltag : Nat) (offs : List Nat) {c d : Nat} (h : d ≠ c) :
    (s.sendLatch frame target ltag offs c).chain d = s.chain d := by
  have hs (u : State) (e : Sent) : (u.sendChain c e).chain d = u.chain d := by
    unfold State.sendChain
    dsimp only
    refine (apply_ite (fun v : State => v.chain d) _ _ _).trans ((ite_self _).trans ?_)
    exact chain_onChain_ne u h _
  unfold State.sendLatch State.waitLatch
  rw [chain_onChain_ne _ h, put_chain, hs, chain_onChain_ne _ h]

/-- Every chain that an event names has its LATCH waiting. -/
theorem sendLatches_wait (s : State) (frame : Bool) (target ltag : Nat) (offs : Nat → List Nat) {l : List Nat} (hl : ∀ c ∈ l, c < 20)
    {c : Nat} (hc : c ∈ l) :
    let t := l.foldl (fun u c => u.sendLatch frame target ltag (offs c) c) s
    (if frame then (t.chain c).latchF else (t.chain c).latchU).map (fun w => (w.target, w.ltag)) = some (target, ltag) := by
  refine foldl_brings (Q := fun u => (if frame then (u.chain c).latchF else (u.chain c).latchU).map (fun w => (w.target, w.ltag)) =
    some (target, ltag)) s hc (fun u => sendLatch_waits u _ _ _ _ (hl c hc)) fun u d hu => ?_
  by_cases h : c = d
  · subst h
    exact sendLatch_waits u _ _ _ _ (hl c hc)
  · simpa only [sendLatch_chain_ne _ _ _ _ _ h] using hu

theorem sendLatches_only (s : State) (frame : Bool) (target ltag : Nat) (offs : Nat → List Nat) (l : List Nat) :
    Only (P.chains ||| P.out ||| P.pgChn) s (l.foldl (fun u c => u.sendLatch frame target ltag (offs c) c) s) :=
  .foldl (.refl ..) fun _ _ => State.sendLatch_only ..

/-- The LATCH event shows its tag and the period that it names, and the tag goes on by one (R258). -/
theorem latchEvent_shows (s : State) (target : Nat) :
    (s.latchEvent target).get F.CHN_LTAG_ltag = s.light.ltag % 256 ∧ (s.latchEvent target).get F.CHN_LTAG_target = target % 65536 ∧
      (s.latchEvent target).light = { s.light with ltag := (s.light.ltag + 1) % 256 } := by
  refine ⟨?_, ?_, rfl⟩
  · exact (get_put_beside _ _ _ _ _ _ _ (by decide)).trans (get_put_same _ _ _ (by decide))
  · exact get_put_same _ _ _ (by decide)

theorem mem_liveChains {s : State} {c : Nat} (h : c ∈ s.liveChains) : c < 20 := List.mem_range.mp (List.mem_filter.mp h).1

/-- The placement of the initial offsets leaves the chains that are live. -/
theorem placeInitial_liveChains (s : State) (k : FrameKind) : (s.placeInitial k).liveChains = s.liveChains := by
  have hone (u : State) (x : Nat) (f : Tile → Tile) : (u.onTile x f).liveChains = u.liveChains := by
    unfold State.onTile
    split <;> rfl
  have hall (l : List Nat) (g : Nat → Tile → Tile) :
      ∀ u : State, (l.foldl (fun u t => u.onTile t (g t)) u).liveChains = u.liveChains := by
    induction l with
    | nil => exact fun u => rfl
    | cons x l ih => exact fun u => (ih _).trans (hone ..)
  unfold State.placeInitial
  split
  · exact hall _ _ s
  · rfl

/-- The initial offset of a tile that is placed (R233). -/
theorem placeInitial_next {s : State} {k : FrameKind} {x c q : Nat} (hi : s.light.initial = true) (hx : x < 80)
    (hp : s.placeIn (s.passFb k) x = some (c, q)) :
    ((s.placeInitial k).tile x).next = slotsOf (s.passD k) * q / s.popIn (s.passFb k) c := by
  have hm : x ∈ s.tilesIn (s.passFb k) := List.mem_filter.mpr ⟨List.mem_range.mpr hx, by rw [hp]; rfl⟩
  have ho : s.initialOff (s.passD k) (s.passFb k) x = slotsOf (s.passD k) * q / s.popIn (s.passFb k) c := by
    rw [State.initialOff, hp]
  unfold State.placeInitial
  rw [if_pos hi, ← ho]
  refine foldl_brings (Q := fun u => (u.tile x).next = s.initialOff (s.passD k) (s.passFb k) x) s hm (fun u => ?_) fun u y hu => ?_
  · rw [tile_onTile u hx]
  · by_cases h : x = y
    · subst h
      rw [tile_onTile u hx]
    · rw [tile_onTile_ne u h, hu]

/-- The frame shown by the slot that a frame LATCH event brings into force. -/
def State.latchKind (s : State) : FrameKind := (s.snapOf (s.get F.CMP_STAT_target)).kind

/-- The state in which the LATCHes of a frame LATCH event are sent, with its offsets placed (R232, R233). -/
def State.latchesSent (s : State) : State :=
  let p := s.placeInitial s.latchKind
  p.liveChains.foldl (fun u c => u.sendLatch true s.latchTarget p.light.ltag (p.latchOffs s.latchKind c) c) p

theorem tile_map {s t : State} (f : Tile → Tile) (h0 : f {} = {}) (ht : t.tiles = s.tiles.map f) (x : Nat) :
    t.tile x = f (s.tile x) := by
  by_cases hx : x < 80
  · simp [State.tile, ht, hx]
  · simp [State.tile, ht, hx, h0]

/-- The parts of a frame LATCH event: the LATCHes are sent, the event shows, the pass ends, and its slot and offsets are due (R10, R232,
R258). -/
theorem frameLatch_parts (s : State) : ∃ v : State, s.frameLatch = v.proofsAfterLatch ∧ v.chains = s.latchesSent.chains ∧
    v.tiles = s.latchesSent.tiles.map (fun t => { t with prev := t.next }) ∧
    v.regs = ((s.latchesSent.latchEvent s.latchTarget).put F.CMP_STAT_state 0).regs ∧
    v.light.ltag = (s.latchesSent.light.ltag + 1) % 256 ∧
    v.light.frameDue = some (s.latchTarget, s.get F.CMP_STAT_target, s.latchKind) := by
  refine ⟨_, by unfold State.frameLatch; rfl, ?_⟩
  unfold State.latchesSent State.latchKind
  dsimp only
  generalize List.foldl _ (s.placeInitial (s.snapOf (s.get F.CMP_STAT_target)).kind) _ = u
  exact ⟨rfl, rfl, rfl, rfl, rfl⟩

theorem execLatchSend_frame {s : State} (hv : s.frameVerified = true) (hd : s.driving = true) (hn : s.liveChains.all s.latchNew = true) :
    execLatchSend true none s = .next ((List.range 20).foldl State.flushReg s.frameLatch) := by
  have hr : s.frameReady = true := by rw [State.frameReady, hv, hd]; rfl
  have h : s.latchSend true none = s.frameLatch := if_pos ⟨hr, hn⟩
  rw [execLatchSend, h]

/-- A frame LATCH event (R10, R173, R232, R233, R258). -/
theorem frameLatch_brings {s : State} (hv : s.frameVerified = true) (hd : s.driving = true) (hn : s.liveChains.all s.latchNew = true) :
    Does (.latchSend true none) s
      (P.boot ||| P.cl ||| P.vid ||| P.chains ||| P.tiles ||| P.light ||| P.out ||| P.pgCmp ||| P.pgPrf ||| P.pgChn) fun t =>
        t.get F.CMP_STAT_state = 0 ∧ t.get F.CHN_LTAG_ltag = s.light.ltag % 256 ∧ t.get F.CHN_LTAG_target = s.latchTarget % 65536 ∧
          t.light.ltag = (s.light.ltag + 1) % 256 ∧
          t.light.frameDue = some (s.latchTarget, s.get F.CMP_STAT_target, (s.snapOf (s.get F.CMP_STAT_target)).kind) ∧
          (s.light.initial = false → ∀ x : Fin 80, (t.tile x).prev = (s.tile x).next) ∧
          (∀ k c q, s.light.initial = true → k = (s.snapOf (s.get F.CMP_STAT_target)).kind →
            ∀ x : Fin 80, s.placeIn (s.passFb k) x = some (c, q) →
              (t.tile x).prev = slotsOf (s.passD k) * q / s.popIn (s.passFb k) c) ∧
          ∀ c ∈ s.liveChains, ((t.chain c).latchF.map fun w => (w.target, w.ltag)) = some (s.latchTarget, s.light.ltag) := by
  obtain ⟨v, hf, hvc, hvt, hvr, hvl, hvd⟩ := frameLatch_parts s
  have he : execLatchSend true none s = .next v.afterLatch := by rw [execLatchSend_frame hv hd hn, hf, State.afterLatch]
  refine ⟨v.afterLatch, he, execLatchSend_only true none s he, ?_⟩
  have hp : Only P.tiles s (s.placeInitial s.latchKind) := State.placeInitial_only ..
  have hu : Only (P.chains ||| P.out ||| P.pgChn) (s.placeInitial s.latchKind) s.latchesSent := sendLatches_only ..
  have hl : s.latchesSent.light = s.light := (hu.light (by decide)).trans (hp.light (by decide))
  have hs : Sends v v.afterLatch := afterLatch_sends v
  have ho := afterLatch_only v
  have htile (x : Nat) : (v.afterLatch.tile x).prev = ((s.placeInitial s.latchKind).tile x).next := by
    rw [tile_congr (ho.tiles (by decide)), tile_map (fun t => { t with prev := t.next }) rfl hvt, tile_congr (hu.tiles (by decide))]
  obtain ⟨htag, htgt, -⟩ := latchEvent_shows s.latchesSent s.latchTarget
  have hshow (f : Fld) (h : f.addr = R.CHN_LTAG) : v.afterLatch.get f = (s.latchesSent.latchEvent s.latchTarget).get f := by
    rw [State.get, h, hs.ltag, ← h, ← State.get, get_congr hvr, get_put_ne _ _ (by rw [h]; decide)]
  refine ⟨?_, (hshow _ rfl).trans (by rw [htag, hl]), (hshow _ rfl).trans htgt, ?_, ?_, fun hi x => ?_, fun k c q hi hk x hx => ?_,
    fun c hc => ?_⟩
  · rw [ho.get, get_congr hvr, get_put_same _ _ _ (by decide)]; rfl
  · rw [hs.lightTag, hvl, hl]
  · rw [hs.frameDue, hvd, State.latchKind]
  · rw [htile, State.placeInitial, hi]; rfl
  · subst hk
    rw [htile, State.latchKind, placeInitial_next hi x.isLt hx]
  · have hc' : c ∈ (s.placeInitial s.latchKind).liveChains := by rwa [placeInitial_liveChains]
    have hw := sendLatches_wait (s.placeInitial s.latchKind) true s.latchTarget (s.placeInitial s.latchKind).light.ltag
      ((s.placeInitial s.latchKind).latchOffs s.latchKind) (fun _ => mem_liveChains) hc'
    rw [hs.latchF, chain_congr hvc, ← hp.light (by decide)]
    exact hw

/-- The state in which the LATCHes of an urgent LATCH event are sent and shown (R258). -/
def State.urgentSent (s : State) : State :=
  (s.urgentChains.foldl (fun u c => u.sendLatch false s.latchTarget s.light.ltag [] c) s).latchEvent s.latchTarget

theorem urgentSent_only (s : State) : Only (P.chains ||| P.light ||| P.out ||| P.pgChn) s s.urgentSent :=
  .comp (.comp (.refl ..) (sendLatches_only s false s.latchTarget s.light.ltag (fun _ => []) s.urgentChains)) (State.latchEvent_only ..)

theorem urgentSent_light (s : State) : s.urgentSent.light = { s.light with ltag := (s.light.ltag + 1) % 256 } := by
  have hl := (sendLatches_only s false s.latchTarget s.light.ltag (fun _ => []) s.urgentChains).light (by decide)
  rw [State.urgentSent, (latchEvent_shows ..).2.2, hl]

/-- The rectangles of the newest mask generation are words of the MSK page (R176). -/
theorem maskWords_congr {E : Nat} {s t : State} (h : Only E s t) (hE : (List.range 32).all (fun k => leaves E (R.MSK_RECTLo k) &&
    leaves E (R.MSK_RECTHi k)) = true := by decide) : t.maskWords = s.maskWords := by
  simp only [List.all_eq_true, Bool.and_eq_true] at hE
  exact List.flatMap_congr fun k hk => by rw [h.word _ (hE k hk).1, h.word _ (hE k hk).2]

/-- The aspects off that an urgent LATCH brings are none of the chains' (R321). -/
theorem sendOff_congr {s t : State} (h : Only (P.chains ||| P.light ||| P.out ||| P.pgChn) s t) (hm : s.mode ≠ .fallback) :
    t.sendOff t.slotNow = s.sendOff s.slotNow := by
  have hoff : t.shownOff = s.shownOff :=
    List.filter_congr fun a _ => by rw [State.on, State.on, F.ASP_FLT_off, h.get (leaves_asp (k := 28))]
  unfold State.sendOff
  rw [h.modeEq, h.pair (by decide), hoff]
  split
  · rfl
  · rename_i hf
    exact absurd hf hm
  · rfl

theorem bringMask_light (s : State) (target : Nat) :
    (s.bringMask target).light.offDue = s.light.offDue ∧ (s.bringMask target).light.ltag = s.light.ltag ∧
      (s.bringMask target).light.frameDue = s.light.frameDue ∧
      (∀ a, s.vid.maskGen = some a → s.fbMode = false → s.light.maskDue = [] →
        (s.bringMask target).light.maskDue = [(target, a, s.get F.MSK_GEN_applied, s.maskWords)]) := by
  unfold State.bringMask
  cases hg : s.vid.maskGen with
  | none => exact ⟨rfl, rfl, rfl, fun a ha => by cases ha⟩
  | some a =>
    dsimp only
    split
    · rename_i hc
      exact ⟨rfl, rfl, rfl, fun b _ hf hd => by simp [hf, hd] at hc⟩
    · refine ⟨rfl, rfl, rfl, fun b hb _ hd => ?_⟩
      cases hb
      simp only [hd, List.nil_append]

/-- A mask generation that waits goes with the urgent LATCH, and the aspects off with it, but in FALLBACK (R176, R321). -/
theorem bringUrgent_light (s : State) (target : Nat) :
    (s.bringUrgent target).light.offDue =
        (if s.mode = .fallback then s.light.offDue else s.light.offDue ++ [(target, s.sendOff s.slotNow)]) ∧
      (s.bringUrgent target).light.ltag = s.light.ltag ∧ (s.bringUrgent target).light.frameDue = s.light.frameDue ∧
      (∀ a, s.vid.maskGen = some a → s.fbMode = false → s.light.maskDue = [] →
        (s.bringUrgent target).light.maskDue = [(target, a, s.get F.MSK_GEN_applied, s.maskWords)]) := by
  have hb : Only P.light s (s.bringMask target) := State.bringMask_only ..
  obtain ⟨hoff, hltag, hframe, hmask⟩ := bringMask_light s target
  by_cases hm : s.mode = .fallback
  · have hu : s.bringUrgent target = s.bringMask target := if_pos (hb.modeEq.trans hm)
    rw [hu, if_pos hm]
    exact ⟨hoff, hltag, hframe, hmask⟩
  · have hu : (s.bringUrgent target).light = { (s.bringMask target).light with
        offDue := (s.bringMask target).light.offDue ++ [(target, (s.bringMask target).sendOff (s.bringMask target).slotNow)] } := by
      have hm' : ¬ (s.bringMask target).mode = .fallback := by rwa [hb.modeEq]
      rw [State.bringUrgent, if_neg hm']
    rw [hu, if_neg hm, ← sendOff_congr (hb.mono (by decide)) hm, ← hoff]
    exact ⟨rfl, hltag, hframe, hmask⟩

theorem urgentLatch_parts (s : State) : s.urgentLatch = (s.urgentSent.bringUrgent s.latchTarget).proofsAfterLatch := rfl

theorem execLatchSend_urgent {s : State} (hr : s.urgentReady = true) (hn : s.urgentChains.all s.latchNew = true) :
    execLatchSend false none s = .next (s.urgentSent.bringUrgent s.latchTarget).afterLatch := by
  have h : s.latchSend false none = s.urgentLatch := if_pos ⟨hr, hn⟩
  rw [execLatchSend, h, urgentLatch_parts, State.afterLatch]

/-- An urgent LATCH event (R173, R176, R258, R321). -/
theorem urgentLatch_brings {s : State} (hr : s.urgentReady = true) (hn : s.urgentChains.all s.latchNew = true) :
    Does (.latchSend false none) s
      (P.boot ||| P.cl ||| P.vid ||| P.chains ||| P.tiles ||| P.light ||| P.out ||| P.pgCmp ||| P.pgPrf ||| P.pgChn) fun t =>
        t.get F.CHN_LTAG_ltag = s.light.ltag % 256 ∧ t.light.ltag = (s.light.ltag + 1) % 256 ∧
          t.light.offDue = (if s.mode = .fallback then s.light.offDue
            else s.light.offDue ++ [(s.latchTarget, s.sendOff s.slotNow)]) ∧
          (∀ a, s.vid.maskGen = some a → s.fbMode = false → s.light.maskDue = [] →
            t.light.maskDue = [(s.latchTarget, a, s.get F.MSK_GEN_applied, s.maskWords)]) ∧
          t.light.frameDue = s.light.frameDue ∧
          ∀ c ∈ s.liveChains, (s.chain c).bankU ≠ [] →
            ((t.chain c).latchU.map fun w => (w.target, w.ltag)) = some (s.latchTarget, s.light.ltag) := by
  have he := execLatchSend_urgent hr hn
  refine ⟨_, he, execLatchSend_only false none s he, ?_⟩
  generalize hv : s.urgentSent.bringUrgent s.latchTarget = v
  have hs : Sends v v.afterLatch := afterLatch_sends v
  have hso := urgentSent_only s
  have hb : Only P.light s.urgentSent v := hv ▸ State.bringUrgent_only ..
  have hul := urgentSent_light s
  obtain ⟨hoff, hltag, hframe, hmask⟩ := bringUrgent_light s.urgentSent s.latchTarget
  rw [hv] at hoff hltag hframe hmask
  refine ⟨?_, ?_, ?_, fun a ha hf hm => ?_, ?_, fun c hc hne => ?_⟩
  · rw [State.get, show F.CHN_LTAG_ltag.addr = R.CHN_LTAG from rfl, hs.ltag, hb.word _ (by decide)]
    have hl := (sendLatches_only s false s.latchTarget s.light.ltag (fun _ => []) s.urgentChains).light (by decide)
    exact (latchEvent_shows _ s.latchTarget).1.trans (by rw [hl])
  · rw [hs.lightTag, hltag, hul]
  · rw [hs.offDue, hoff, hul, hso.modeEq]
    by_cases hm : s.mode = .fallback
    · rw [if_pos hm, if_pos hm]
    · rw [if_neg hm, if_neg hm, sendOff_congr hso hm]
  · have hf' : s.urgentSent.fbMode = false := by rw [State.fbMode, hso.modeEq, hso.pair (by decide)]; exact hf
    rw [hs.maskDue, hmask a (by rw [hso.vid (by decide), ha]) hf' (by rw [hul, hm]), hso.get, maskWords_congr hso]
  · rw [hs.frameDue, hframe, hul]
  · have hc' : c ∈ s.urgentChains := List.mem_filter.mpr ⟨hc, by simpa using hne⟩
    have hw := sendLatches_wait s false s.latchTarget s.light.ltag (fun _ => [])
      (fun _ hd => mem_liveChains (List.mem_filter.mp hd).1) hc'
    rw [hs.latchU, chain_congr (hb.chains (by decide)), State.urgentSent, chain_congr ((State.latchEvent_only ..).chains (by decide))]
    exact hw

/-- Settles O53: the LATCHes are sent first, and neither the event nor the proofs and requests that follow it touch those that wait. -/
theorem latchEvents : Obligations.LatchEvents := fun _ => ⟨frameLatch_brings, urgentLatch_brings⟩

end Sys2Proof.Machine

end

section
/-! The start of a composition pass (O44). -/

set_option Elab.async false

namespace Sys2Proof.Machine

/-- Words without an error are read as they are (R188). -/
theorem readWords_clean {s : State} (h1 : s.ecc1 = []) (h2 : s.ecc2 = []) (f : Nat → Bool) (req : Nat) : s.readWords f req = s := by
  simp only [State.readWords, h1, h2, List.filter_nil, List.foldl_nil]

/-- Where no word has an error, a write changes the SRAM only (R189). -/
theorem setBytes_clean {s : State} (h1 : s.ecc1 = []) (h2 : s.ecc2 = []) (a : Nat) (bs : List Byte) :
    s.setBytes a bs = { s with sram := (s.setBytes a bs).sram } := by
  obtain ⟨⟩ := s
  subst h1 h2
  rfl

theorem setPrf_clean {s : State} (h1 : s.ecc1 = []) (h2 : s.ecc2 = []) (p k : Nat) :
    s.setPrf p k = { s with sram := (s.setPrf p k).sram } := by
  have hr : s.restore (wordIn (0xC00000 + p) 1) = s := by
    rw [State.restore, h2, readWords_clean h1 h2]
    rfl
  simp only [State.setPrf, hr, State.setLe]
  exact setBytes_clean h1 h2 ..

/-- A step that changes the SRAM and marks rows (R296). -/
def Marks (s t : State) : Prop := ∃ m d, t = { s with sram := m, vid := { s.vid with dirty := d } } ∧ ∀ r ∈ s.vid.dirty, r ∈ d

theorem Marks.refl (s : State) : Marks s s := ⟨s.sram, s.vid.dirty, rfl, fun _ h => h⟩

theorem Marks.trans {s t u : State} (h : Marks s t) (k : Marks t u) : Marks s u := by
  obtain ⟨m, d, rfl, hd⟩ := h
  obtain ⟨m', d', rfl, hd'⟩ := k
  exact ⟨m', d', rfl, fun r hr => hd' r (hd r hr)⟩

theorem mem_addNum {a b : Nat} {l : List Nat} (h : a ∈ l) : a ∈ addNum b l := by
  induction l with
  | nil => cases h
  | cons c l ih =>
    rw [addNum]
    split
    · exact h
    · split
      · exact List.mem_cons_of_mem _ h
      · rcases List.mem_cons.mp h with rfl | h
        · exact List.mem_cons_self
        · exact List.mem_cons_of_mem _ (ih h)

theorem markRows_marks (s : State) (rs : List Nat) : Marks s (s.markRows rs) := by
  refine ⟨s.sram, _, rfl, fun r hr => ?_⟩
  induction rs with
  | nil => exact hr
  | cons x rs ih => exact mem_addNum ih

/-- A fold of steps that mark rows, where no word has an error. -/
theorem Marks.foldl {α : Type} {f : State → α → State} (l : List α)
    (hf : ∀ u x, u.ecc1 = [] → u.ecc2 = [] → Marks u (f u x)) {s : State} (h1 : s.ecc1 = []) (h2 : s.ecc2 = []) :
    Marks s (l.foldl f s) := by
  induction l generalizing s with
  | nil => exact .refl s
  | cons x l ih =>
    have h := hf s x h1 h2
    obtain ⟨m, d, he, -⟩ := id h
    exact h.trans (ih (by rw [he]; exact h1) (by rw [he]; exact h2))

/-- The pass over the proof ledger marks rows (R296, R303). -/
theorem ledgerPass_marks {s : State} (ps : Nat) (h1 : s.ecc1 = []) (h2 : s.ecc2 = []) : Marks s (s.ledgerPass ps) := by
  unfold State.ledgerPass
  refine .foldl _ (fun u t h1 h2 => .foldl _ (fun u x h1 h2 => ?_) h1 h2) h1 h2
  dsimp only
  generalize (if (u.frameF : Int) ≤ ledgerLeft x.2 ps then 2 else 1) = want
  split
  · exact .refl u
  · have hp : Marks u (u.setPrf (16384 * t + bits x.2 0 14) want) := ⟨_, u.vid.dirty, setPrf_clean h1 h2 .., fun _ h => h⟩
    exact hp.trans (markRows_marks ..)

theorem readLedger_clean {s : State} (h1 : s.ecc1 = []) (h2 : s.ecc2 = []) : s.readLedger = s := by
  simp only [State.readLedger, State.readEntries, State.readRange, readWords_clean h1 h2, h2, List.filter_nil, List.foldl_nil]

/-- More rows marked: a pass that is due stays due (R171). -/
theorem Marks.passDue {s t : State} (h : Marks s t) (hs : s.passDue (s.vid.swapAt == some s.pnow) = true) :
    t.passDue (t.vid.swapAt == some t.pnow) = true := by
  obtain ⟨m, d, rfl, hd⟩ := h
  simp only [State.passDue, Bool.and_eq_true, Bool.not_eq_true'] at hs ⊢
  obtain ⟨⟨⟨⟨hl, hr⟩, hst⟩, hp⟩, hw⟩ := hs
  refine ⟨⟨⟨⟨hl, ?_⟩, hst⟩, hp⟩, hw⟩
  rw [List.isEmpty_eq_false_iff_exists_mem] at hr ⊢
  obtain ⟨r, hr⟩ := hr
  obtain ⟨hm, ht⟩ := List.mem_filter.mp hr
  exact ⟨r, List.mem_filter.mpr ⟨hd r hm, ht⟩⟩

theorem Marks.slotFree {s t : State} (h : Marks s t) : t.slotFree = s.slotFree := by
  obtain ⟨m, d, rfl, -⟩ := h
  rfl

theorem Marks.passKind {s t : State} (h : Marks s t) : t.passKind = s.passKind := by
  obtain ⟨m, d, rfl, -⟩ := h
  rfl

theorem setBytes_marks {s : State} (h1 : s.ecc1 = []) (h2 : s.ecc2 = []) (a : Nat) (bs : List Byte) : Marks s (s.setBytes a bs) :=
  ⟨_, s.vid.dirty, setBytes_clean h1 h2 .., fun _ h => h⟩

theorem copyRow_marks {s : State} (h1 : s.ecc1 = []) (h2 : s.ecc2 = []) (slot r : Nat) : Marks s (s.copyRow slot r) := by
  rw [State.copyRow, State.readRange, readWords_clean h1 h2]
  exact setBytes_marks h1 h2 ..

/-- The state in which a pass shows, once its rows are composed (R171, R205). -/
def State.passShown (a : State) (slot : Nat) (full : Bool) (g : Video → Video) : State :=
  ((((a.put F.CMP_STAT_state 1).put F.CMP_STAT_target slot).put F.CMP_STAT_wait_rel 0).flag F.CMP_STAT_full full).onVid g

/-- The parts of the start of a pass: its rows are composed into the slot that is not in force, the pass shows with its snapshot, the
frame's rows are queued, and the rows that are not composed are copied (R171, R172, R205). -/
theorem startPass_parts (s : State) : ∃ (a : State) (g : Video → Video) (rows copies : List Nat) (bs : Nat → List Byte) (snap : Snap)
    (full : Bool) (f : Nat → Bool),
    s.startPass = copies.foldl (fun t r => t.copyRow s.targetSlot r)
      ((if s.passKind = .layers then ((a.passShown s.targetSlot full g).queueFrame rows).resolveHolds s.targetSlot
        else (a.passShown s.targetSlot full g).queueFrame rows).readWords f 3) ∧
    a = rows.foldl (fun t r => t.setBytes (codeAddr s.targetSlot (128 * r)) (bs r))
      (if s.get F.CMP_STAT_state = 2 then s.dropFrameRows else s) ∧
    (∀ v : Video, (g v).passPer = some s.pnow) ∧
    (∀ v : Video, (g v).snap = if h : s.targetSlot < 2 then v.snap.set s.targetSlot snap else v.snap) ∧ snap.kind = s.passKind := by
  unfold State.startPass State.passShown
  dsimp only
  exact ⟨_, _, _, _, _, _, _, _, rfl, rfl, fun _ => rfl, fun _ => rfl, rfl⟩

theorem Marks.clean {s t : State} (h : Marks s t) (hs : s.ecc1 = [] ∧ s.ecc2 = []) : t.ecc1 = [] ∧ t.ecc2 = [] := by
  obtain ⟨m, d, rfl, -⟩ := h
  exact hs

theorem Marks.regs {s t : State} (h : Marks s t) : t.regs = s.regs := by
  obtain ⟨m, d, rfl, -⟩ := h
  rfl

theorem Marks.snap {s t : State} (h : Marks s t) : t.vid.snap = s.vid.snap ∧ t.vid.passPer = s.vid.passPer := by
  obtain ⟨m, d, rfl, -⟩ := h
  exact ⟨rfl, rfl⟩

theorem Marks.pnow {s t : State} (h : Marks s t) : t.pnow = s.pnow := by
  obtain ⟨m, d, rfl, -⟩ := h
  rfl

/-- The registers of a pass that starts (R171, R172). -/
theorem passShown_stat (a : State) (slot : Nat) (full : Bool) (g : Video → Video) :
    (a.passShown slot full g).get F.CMP_STAT_state = 1 ∧ (a.passShown slot full g).get F.CMP_STAT_target = slot % 2 ∧
      (a.passShown slot full g).get F.CMP_STAT_inforce = a.get F.CMP_STAT_inforce := by
  have hv (u : State) (f : Fld) : (u.onVid g).get f = u.get f := rfl
  unfold State.passShown
  simp only [hv, State.flag, F.CMP_STAT_state, F.CMP_STAT_target, F.CMP_STAT_inforce, F.CMP_STAT_wait_rel, F.CMP_STAT_full]
  simp (disch := simp) only [get_put_beside, get_put_same, and_true]
  exact ⟨rfl, rfl⟩

/-- A pass starts in the slot that is not in force, with its snapshot (R171, R172, R173). -/
theorem startPass_shows {s : State} (h1 : s.ecc1 = []) (h2 : s.ecc2 = []) :
    s.startPass.get F.CMP_STAT_state = 1 ∧ s.startPass.get F.CMP_STAT_target = 1 - s.get F.CMP_STAT_inforce ∧
      s.startPass.get F.CMP_STAT_inforce = s.get F.CMP_STAT_inforce ∧ s.startPass.vid.passPer = some s.pnow ∧
      (s.startPass.snapOf (1 - s.get F.CMP_STAT_inforce)).kind = s.passKind := by
  obtain ⟨a, g, rows, copies, bs, snap, full, f, hp, ha, hper, hsnap, hkind⟩ := startPass_parts s
  have hin : s.get F.CMP_STAT_inforce < 2 := get_lt s F.CMP_STAT_inforce
  have hslot : s.targetSlot = 1 - s.get F.CMP_STAT_inforce := rfl
  -- The rows are composed: only the SRAM, the chains and the tiles differ.
  generalize hb : (if s.get F.CMP_STAT_state = 2 then s.dropFrameRows else s) = b at ha
  have hbo : Only (P.chains ||| P.tiles) s b := hb ▸ .ite (State.dropFrameRows_only s) (.refl ..)
  have hbe : b.ecc1 = [] ∧ b.ecc2 = [] := by
    obtain ⟨e1, e2⟩ := hbo.ecc (by decide)
    exact ⟨e1.trans h1, e2.trans h2⟩
  have hba : Marks b a := ha ▸ .foldl _ (fun u r e1 e2 => setBytes_marks e1 e2 ..) hbe.1 hbe.2
  have hag : a.get F.CMP_STAT_inforce = s.get F.CMP_STAT_inforce := (get_congr hba.regs _).trans hbo.get
  -- The pass shows.
  obtain ⟨hst, htg, hif⟩ := passShown_stat a s.targetSlot full g
  generalize hw : a.passShown s.targetSlot full g = w at hp hst htg hif
  have hwv : w.vid = g a.vid := by rw [← hw]; rfl
  have hwe : w.ecc1 = a.ecc1 ∧ w.ecc2 = a.ecc2 := by rw [← hw]; exact ⟨rfl, rfl⟩
  -- Its rows are queued and the aspects that its faults hold off are evaluated: the chains, the light and the faults differ.
  generalize hq : (if s.passKind = .layers then (w.queueFrame rows).resolveHolds s.targetSlot else w.queueFrame rows) = q at hp
  have hqo : Only (P.chains ||| P.light ||| P.flt ||| P.pgAsp) w q := by
    have hwq : Only (P.chains ||| P.light ||| P.flt ||| P.pgAsp) w (w.queueFrame rows) := (State.queueFrame_only w rows).mono
    exact hq ▸ .ite (.comp hwq (State.resolveHolds_only ..)) hwq
  have hqe : q.ecc1 = [] ∧ q.ecc2 = [] := by
    obtain ⟨e1, e2⟩ := hqo.ecc (by decide)
    obtain ⟨c1, c2⟩ := hba.clean hbe
    exact ⟨e1.trans (hwe.1.trans c1), e2.trans (hwe.2.trans c2)⟩
  rw [readWords_clean hqe.1 hqe.2] at hp
  -- The other rows are copied.
  have hqt : Marks q s.startPass := hp ▸ .foldl _ (fun u r e1 e2 => copyRow_marks e1 e2 ..) hqe.1 hqe.2
  have hreg (x : Fld) (hx : leaves (P.chains ||| P.light ||| P.flt ||| P.pgAsp) x.addr = true) : s.startPass.get x = w.get x :=
    (get_congr hqt.regs x).trans (hqo.get hx)
  have hqv : q.vid = g a.vid := (hqo.vid (by decide)).trans hwv
  refine ⟨(hreg _ (by decide)).trans hst, (hreg _ (by decide)).trans ?_, ((hreg _ (by decide)).trans hif).trans hag, ?_, ?_⟩
  · rw [htg, hslot]
    omega
  · rw [hqt.snap.2, hqv, hper]
  · have hlt : s.targetSlot < 2 := by omega
    rw [State.snapOf, hqt.snap.1, hqv, hsnap, dif_pos hlt, ← hslot, ← hkind]
    simp [hlt]

theorem execPassStart_due {s : State} (hd : s.passDue (s.vid.swapAt == some s.pnow) = true) (hf : s.slotFree = true) (h1 : s.ecc1 = [])
    (h2 : s.ecc2 = []) : execPassStart s = .next (s.ledgerPass s.pnow).startPass := by
  have hm := ledgerPass_marks s.pnow h1 h2
  rw [execPassStart, if_pos ⟨hd, hf⟩, readLedger_clean h1 h2]
  dsimp only
  rw [if_pos ⟨hm.passDue hd, hm.slotFree.trans hf⟩]

/-- A pass that is due starts (R171). -/
theorem passStart_starts {s : State} (hd : s.passDue (s.vid.swapAt == some s.pnow) = true) (hf : s.slotFree = true) (h1 : s.ecc1 = [])
    (h2 : s.ecc2 = []) : Does .passStart s (P.fault ||| P.draws ||| P.pgSup) fun t => t.get F.CMP_STAT_state = 1 ∧
      t.get F.CMP_STAT_target = 1 - s.get F.CMP_STAT_inforce ∧ t.get F.CMP_STAT_inforce = s.get F.CMP_STAT_inforce ∧
      t.vid.passPer = some s.pnow ∧ (t.snapOf (1 - s.get F.CMP_STAT_inforce)).kind = s.passKind := by
  have he := execPassStart_due hd hf h1 h2
  have hm := ledgerPass_marks s.pnow h1 h2
  obtain ⟨c1, c2⟩ := hm.clean ⟨h1, h2⟩
  have hs := startPass_shows c1 c2
  rw [get_congr hm.regs, hm.pnow, hm.passKind] at hs
  exact ⟨_, he, execPassStart_only s he, hs⟩

end Sys2Proof.Machine

end

section
/-! The end of a composition pass (O44). -/

set_option Elab.async false

namespace Sys2Proof.Machine

/-- An action of degree 0 to 2 is no action on the mode (R319). -/
theorem modeAction_low (s : State) (cls : Nat) {act : Nat} (h : act ≤ 2) : s.modeAction cls act = s := by
  unfold State.modeAction
  generalize s.actMode = m
  interval_cases act <;> cases m <;> rfl

/-- What a fault whose action is of degree 0 to 2 may change (R319, R321, R383). -/
abbrev P.low : Nat := P.chains ||| P.light ||| P.flt ||| P.sio ||| P.pgAsp ||| P.pgFlt ||| P.pgSio

/-- The record of a fault leaves the table of reactions (R315, R331). -/
theorem logFault_rct (s : State) (cls inst what act k : Nat) : (s.logFault cls inst what act).reg (R.FLT_RCT k) = s.reg (R.FLT_RCT k) := by
  have hlog (j : Nat) : R.FLT_RCT k ≠ R.FLT_LOGLo j ∧ R.FLT_RCT k ≠ R.FLT_LOGHi j := by
    unfold R.FLT_RCT R.FLT_LOGLo R.FLT_LOGHi
    omega
  have hptr : R.FLT_RCT k ≠ R.FLT_LOGPTR := by unfold R.FLT_RCT R.FLT_LOGPTR; omega
  have hev (u : State) (c : Bool) : (u.eventIf c 18 5).reg (R.FLT_RCT k) = u.reg (R.FLT_RCT k) := by
    unfold State.eventIf
    split
    · exact reg_setReg_ne _ _ (by unfold R.FLT_RCT R.PIRQ_RAW pageAddr; omega)
    · rfl
  unfold State.logFault
  dsimp only
  refine (reg_put_ne _ _ _ hptr).trans ((reg_put_ne _ _ _ hptr).trans ?_)
  rw [State.setRegN, reg_setReg_ne _ _ (hlog _).2, State.setRegN, reg_setReg_ne _ _ (hlog _).1, hev]

/-- A step of a fault of class 6 while its action is of degree 0 to 2. -/
structure Mild (s t : State) : Prop where
  only : Only P.low s t
  rct : t.reg (R.FLT_RCT 6) = s.reg (R.FLT_RCT 6)

theorem Mild.trans {s t u : State} (h : Mild s t) (k : Mild t u) : Mild s u := ⟨h.only.comp k.only, k.rct.trans h.rct⟩

/-- The action of class 6 is its floor in FALLBACK and the action set for it elsewhere (R319, R326). -/
theorem actionOf_fill {s : State} (h : s.get (F.FLT_RCT_action 6) ≤ 2) : s.actionOf 6 ≤ 2 := by
  unfold State.actionOf
  split
  · decide
  · exact h

theorem takeAction_mild {s : State} (inst : Nat) (h : s.get (F.FLT_RCT_action 6) ≤ 2) : Mild s (s.takeAction 6 inst) := by
  unfold State.takeAction
  dsimp only
  rw [modeAction_low _ _ (actionOf_fill h)]
  refine ⟨.comp (.comp (.comp (.event (.inc (.comp (.refl ..) (State.setInst_only ..)))) (State.logFault_only ..))
    (State.updateOff_only ..)) (State.sioDrive_only ..), ?_⟩
  rw [(State.sioDrive_only ..).word _ (by decide), (State.updateOff_only ..).word _ (by decide), logFault_rct, State.event, State.setBit,
    reg_setReg_ne _ _ (by unfold R.FLT_RCT R.PIRQ_RAW pageAddr; omega)]
  exact reg_put_ne _ _ _ (by decide)

theorem setCond_mild {s : State} (inst : Nat) (b : Bool) (h : s.get (F.FLT_RCT_action 6) ≤ 2) : Mild s (s.setCond 6 inst b) := by
  have hraw (u : State) (v : Word) : (u.setReg (R.PIRQ_RAW 18) v).reg (R.FLT_RCT 6) = u.reg (R.FLT_RCT 6) := reg_setReg_ne _ _ (by decide)
  have hev (i : FltInst) : Mild s ((s.setInst 6 inst i).event 18 0) :=
    ⟨.event (.comp (.refl ..) (State.setInst_only ..)), hraw (s.setInst 6 inst i) _⟩
  unfold State.setCond
  dsimp only
  split
  · exact ⟨.refl .., rfl⟩
  · split
    · split
      · refine (hev _).trans (takeAction_mild _ ?_)
        rw [State.get, show (F.FLT_RCT_action 6).addr = R.FLT_RCT 6 from rfl, (hev _).rct]
        exact h
      · exact hev _
    · exact ⟨.comp (.refl ..) (State.setInst_only ..), rfl⟩

/-- The losses of filling become present or absent for each aspect (R205, R313). -/
theorem fillConds_only {s : State} (lossy l : List Nat) (h : lossy = [] ∨ s.get (F.FLT_RCT_action 6) ≤ 2) :
    Only P.low s (l.foldl (fun t a => t.setCond 6 a (lossy.contains a)) s) := by
  rcases h with rfl | h
  · exact .foldl (.refl ..) fun u a => .comp (.refl ..) (setCond_absent ..)
  · have hm : Mild s (l.foldl (fun t a => t.setCond 6 a (lossy.contains a)) s) := by
      induction l generalizing s with
      | nil => exact ⟨.refl .., rfl⟩
      | cons a l ih =>
        have ha := setCond_mild a (lossy.contains a) h
        refine ha.trans (ih ?_)
        rw [State.get, show (F.FLT_RCT_action 6).addr = R.FLT_RCT 6 from rfl, ha.rct]
        exact h
    exact hm.only

/-- The counts of a pass that ends, with the rows that it marks again (R171, R205). -/
def State.passCounted (s : State) (cycles : Nat) : State :=
  let u := ((((s.inc F.CMP_PASS_done).put F.CMP_LAST_composed s.vid.rows.length).put F.CMP_LAST_copied s.vid.copied).put
    F.CMP_LASTT_t cycles).event 11 0
  u.markRows u.vid.again

/-- The losses of filling, and the aspects that they hold off (R205, R323). -/
def State.fillsJudged (s : State) : State :=
  (((List.range 160).foldl (fun t a => t.setCond 6 a (s.vid.lossy.contains a)) s.cycleOn).cycleOff s.flt.cyc).evalPolicies

/-- The pass waits for its placement, or ends where it has no rows (R171, R232). -/
def State.passEnds (s : State) : State :=
  if s.vid.rows = [] then s.put F.CMP_STAT_state 0
  else (s.put F.CMP_STAT_state 2).onVid fun v => { v with placing := true, flat := s.on F.PLC_CFG_flat }

theorem passCounted_only (s : State) (cycles : Nat) : Only (P.vid ||| P.pgCmp) s (s.passCounted cycles) :=
  .comp (.event (.put (.put (.put (.inc (.refl ..)))))) (State.markRows_only ..)

theorem passCounted_vid (s : State) (cycles : Nat) : (s.passCounted cycles).vid.rows = s.vid.rows ∧
    (s.passCounted cycles).vid.lossy = s.vid.lossy := ⟨rfl, rfl⟩

theorem passCounted_shows (s : State) (cycles : Nat) :
    (s.passCounted cycles).get F.CMP_STAT_state = s.get F.CMP_STAT_state ∧
      (s.passCounted cycles).get F.CMP_PASS_done = s.plusOne F.CMP_PASS_done ∧
      (s.passCounted cycles).get F.CMP_LAST_composed = s.vid.rows.length % 2 ^ 14 ∧
      (s.passCounted cycles).get F.CMP_LAST_copied = s.vid.copied % 2 ^ 14 ∧
      (s.passCounted cycles).get F.CMP_LASTT_t = cycles % 2 ^ 24 := by
  have hinc := inc_get s F.CMP_PASS_done (by decide)
  have hm (u : State) (rs : List Nat) (f : Fld) : (u.markRows rs).get f = u.get f := rfl
  have hst : (s.inc F.CMP_PASS_done).get F.CMP_STAT_state = s.get F.CMP_STAT_state := get_put_ne _ _ (by decide)
  have hapart : F.CMP_LAST_copied.apart F.CMP_LAST_composed = true := by decide
  unfold State.passCounted
  refine ⟨?_, ?_, ?_, ?_, ?_⟩ <;>
    simp (disch := decide) only [hm, event_get, get_put_ne, get_put_same, get_put_apart _ _ _ _ hapart, hinc, hst] <;> rfl

theorem fillsJudged_only {s : State} (h : s.vid.lossy = [] ∨ s.get (F.FLT_RCT_action 6) ≤ 2) : Only P.low s s.fillsJudged := by
  have hon : Only P.low s s.cycleOn := .upd (.refl ..)
  have hoff (u : State) (m : Option Mode) : Only P.low u (u.cycleOff m) := .upd (.refl ..)
  exact .comp ((hon.comp (fillConds_only _ _ h)).comp (hoff ..)) (State.evalPolicies_only ..)

theorem passCounted_loses {s : State} (cycles : Nat) (h : s.vid.lossy = [] ∨ s.get (F.FLT_RCT_action 6) ≤ 2) :
    (s.passCounted cycles).vid.lossy = [] ∨ (s.passCounted cycles).get (F.FLT_RCT_action 6) ≤ 2 := by
  rwa [(passCounted_vid s cycles).2, (passCounted_only s cycles).get]

/-- The end of a pass leaves every word but CMP_STAT. -/
theorem passEnds_get (s : State) {f : Fld} (h : f.addr ≠ R.CMP_STAT) : s.passEnds.get f = s.get f := by
  unfold State.passEnds
  split
  · exact get_put_ne _ _ (Ne.symm h)
  · exact get_put_ne s (f := F.CMP_STAT_state) 2 (Ne.symm h)

theorem passEnds_shows (s : State) :
    (s.vid.rows ≠ [] → s.passEnds.get F.CMP_STAT_state = 2 ∧ s.passEnds.vid.placing = true ∧
      s.passEnds.vid.flat = s.on F.PLC_CFG_flat) ∧ (s.vid.rows = [] → s.passEnds.get F.CMP_STAT_state = 0) := by
  unfold State.passEnds
  refine ⟨fun h => ?_, fun h => ?_⟩
  · rw [if_neg h]
    exact ⟨get_put_same s F.CMP_STAT_state 2 (by decide), rfl, rfl⟩
  · rw [if_pos h]
    exact get_put_same _ _ _ (by decide)

theorem execPassComplete_running {s : State} (cycles : Nat) (h : s.get F.CMP_STAT_state = 1)
    (hl : s.vid.lossy = [] ∨ s.get (F.FLT_RCT_action 6) ≤ 2) :
    execPassComplete cycles s = .next (s.passCounted cycles).fillsJudged.passEnds := by
  have hs : (s.passCounted cycles).fillsJudged.get F.CMP_STAT_state = 1 := by
    rw [(fillsJudged_only (passCounted_loses cycles hl)).get, (passCounted_shows s cycles).1, h]
  have he : execPassComplete cycles s = .next (let u := (s.passCounted cycles).fillsJudged
      if u.get F.CMP_STAT_state = 1 then u.passEnds else u) := by
    rw [execPassComplete, if_pos h]
    unfold State.passCounted State.fillsJudged State.passEnds
    dsimp only
  rw [he]
  dsimp only
  rw [if_pos hs]

/-- A pass ends (R171, R205, R232). -/
theorem passComplete_ends {s : State} (cycles : Nat) (h : s.get F.CMP_STAT_state = 1)
    (hl : s.vid.lossy = [] ∨ s.get (F.FLT_RCT_action 6) ≤ 2) : Does (.passComplete cycles) s P.fault fun t =>
      (s.vid.rows ≠ [] → t.get F.CMP_STAT_state = 2 ∧ t.vid.placing = true ∧ t.vid.flat = s.on F.PLC_CFG_flat) ∧
        (s.vid.rows = [] → t.get F.CMP_STAT_state = 0) ∧ t.mode = s.mode ∧ t.get F.CMP_PASS_done = s.plusOne F.CMP_PASS_done ∧
        t.get F.CMP_LAST_composed = s.vid.rows.length % 2 ^ 14 ∧ t.get F.CMP_LAST_copied = s.vid.copied % 2 ^ 14 ∧
        t.get F.CMP_LASTT_t = cycles % 2 ^ 24 := by
  have he := execPassComplete_running cycles h hl
  refine ⟨_, he, execPassComplete_only cycles s he, ?_⟩
  have hj := fillsJudged_only (passCounted_loses cycles hl)
  have hc := passCounted_only s cycles
  have hrows : (s.passCounted cycles).fillsJudged.vid.rows = s.vid.rows := by rw [hj.vid (by decide), (passCounted_vid s cycles).1]
  have hflat : (s.passCounted cycles).fillsJudged.on F.PLC_CFG_flat = s.on F.PLC_CFG_flat := by
    rw [State.on, hj.get, hc.get, State.on]
  have hmode : (s.passCounted cycles).fillsJudged.mode = s.mode := hj.modeEq.trans hc.modeEq
  obtain ⟨-, hdone, hcomp, hcopy, htime⟩ := passCounted_shows s cycles
  obtain ⟨hplace, hnone⟩ := passEnds_shows (s.passCounted cycles).fillsJudged
  rw [hrows, hflat] at hplace
  rw [hrows] at hnone
  refine ⟨hplace, hnone, ?_, ?_, ?_, ?_, ?_⟩
  · rw [State.mode, passEnds_get _ (by decide)]
    exact hmode
  · rw [passEnds_get _ (by decide), hj.get, hdone]
  · rw [passEnds_get _ (by decide), hj.get, hcomp]
  · rw [passEnds_get _ (by decide), hj.get, hcopy]
  · rw [passEnds_get _ (by decide), hj.get, htime]

end Sys2Proof.Machine

end

section
/-! The end of a placement, and the scrubber (O44). -/

set_option Elab.async false

namespace Sys2Proof.Machine

/-- Placement writes the duration and the count of passes nowhere (R232, R238). -/
theorem runPlacement_word (s : State) (k : FrameKind) (f : Fld) (h : f.addr = R.PLC_RUN ∨ f.addr = R.PLC_CNT) :
    (s.runPlacement k).get f = s.get f := by
  have hpeak (j : Nat) : R.PLC_PEAK j ≠ f.addr := by
    have hr : R.PLC_RUN < 0x0E070 ∧ R.PLC_CNT < 0x0E070 := by decide
    unfold R.PLC_PEAK
    omega
  have hone (u : State) (fb : Bool) (d slot g : Nat) : (u.showPeak fb d slot g).get f = u.get f := by
    unfold State.showPeak
    dsimp only
    rw [get_put_ne _ _ (hpeak g), get_put_ne _ _ (hpeak g)]
  have hall (fb : Bool) (d slot : Nat) (l : List Nat) : ∀ u : State, (l.foldl (fun u g => u.showPeak fb d slot g) u).get f = u.get f := by
    induction l with
    | nil => exact fun u => rfl
    | cons g l ih => exact fun u => (ih _).trans (hone ..)
  have htile (l : List (Nat × Nat)) :
      ∀ u : State, (l.foldl (fun u e => u.onTile e.1 fun x => { x with next := e.2 }) u).get f = u.get f := by
    induction l with
    | nil => exact fun u => rfl
    | cons e l ih => exact fun u => (ih _).trans (onTile_get ..)
  have hev (u : State) (c : Bool) : (u.eventIf c 14 2).get f = u.get f := by
    unfold State.eventIf
    split
    · exact event_get _ (by rcases h with h | h <;> rw [h] <;> decide)
    · rfl
  unfold State.runPlacement
  dsimp only
  rw [hall, hev, State.incBy, get_put_ne _ _ (by rcases h with h | h <;> rw [h] <;> decide), htile]

/-- A layer frame's tiles keep their offsets where placement is not flat (R232, R242). -/
theorem runPlacement_keeps {s : State} (hi : s.light.initial = false) (hf : s.vid.flat = false) {x : Nat} (hx : x < 80)
    (hm : x ∈ s.tilesIn false) : ((s.runPlacement .layers).tile x).next = (s.tile x).prev := by
  have hpeak (fb : Bool) (d slot : Nat) (l : List Nat) (u : State) :
      (l.foldl (fun u g => u.showPeak fb d slot g) u).tile x = u.tile x :=
    tile_congr ((show Only P.pgPlc u _ from .foldl (.refl ..) fun u g => State.showPeak_only ..).tiles (by decide)) x
  have hev (u : State) (c : Bool) : (u.eventIf c 14 2).tile x = u.tile x := by unfold State.eventIf; split <;> rfl
  have hfb : s.passFb .layers = false := rfl
  unfold State.runPlacement
  dsimp only
  rw [hpeak, hev, State.incBy, put_tile, hi, hf, hfb, if_neg (by decide), if_pos ⟨rfl, rfl⟩, List.foldl_map]
  refine foldl_brings (Q := fun u => (u.tile x).next = (s.tile x).prev) s hm (fun u => ?_) fun u y hu => ?_
  · rw [tile_onTile u hx]
  · by_cases h : x = y
    · subst h
      rw [tile_onTile u hx]
    · rw [tile_onTile_ne u h, hu]

/-- The duration of a placement and its count show (R238). -/
def State.placed (s : State) (cycles : Nat) : State :=
  (((s.put F.PLC_RUN_last cycles).peak F.PLC_RUN_longest cycles).inc F.PLC_CNT_done).event 14 0

theorem execPlacementComplete_placing {s : State} (cycles : Nat) (h : s.vid.placing = true) : execPlacementComplete cycles s =
    .next (((s.runPlacement (s.snapOf (s.get F.CMP_STAT_target)).kind).placed cycles).onVid fun v => { v with placing := false }) := by
  rw [execPlacementComplete, if_pos h]
  rfl

theorem placed_shows (s : State) (cycles : Nat) : (s.placed cycles).get F.PLC_RUN_last = cycles % 2 ^ 16 ∧
    (s.placed cycles).get F.PLC_RUN_longest = max (s.get F.PLC_RUN_longest) (min cycles 65535) ∧
    (s.placed cycles).get F.PLC_CNT_done = s.plusOne F.PLC_CNT_done := by
  have h1 : s.get F.PLC_RUN_longest < 65536 := get_lt s F.PLC_RUN_longest
  have h2 : max (s.get F.PLC_RUN_longest) (min cycles 65535) < 65536 := by omega
  have ha : F.PLC_RUN_longest.apart F.PLC_RUN_last = true := by decide
  have hb : F.PLC_RUN_last.apart F.PLC_RUN_longest = true := by decide
  unfold State.placed
  refine ⟨?_, ?_, ?_⟩
  · rw [event_get _ (by decide), State.inc, State.incBy, get_put_ne _ _ (by decide), State.peak, get_put_apart _ _ _ _ ha,
      get_put_same _ _ _ (by decide)]
    rfl
  · rw [event_get _ (by decide), State.inc, State.incBy, get_put_ne _ _ (by decide), State.peak, get_put_same _ _ _ (by decide),
      get_put_apart _ _ _ _ hb]
    exact Nat.mod_eq_of_lt h2
  · rw [event_get _ (by decide), inc_get _ _ (by decide), State.plusOne, State.peak, get_put_ne _ _ (by decide),
      get_put_ne _ _ (by decide), State.plusOne]

theorem placed_vid (s : State) (cycles : Nat) : (s.placed cycles).vid = s.vid := rfl

theorem placed_tile (s : State) (cycles x : Nat) : (s.placed cycles).tile x = s.tile x := rfl

/-- A placement ends (R232, R238, R242). -/
theorem placementComplete_ends {s : State} (cycles : Nat) (h : s.vid.placing = true) :
    Does (.placementComplete cycles) s (P.vid ||| P.tiles ||| P.pgPlc) fun t =>
      t.vid = { s.vid with placing := false } ∧ t.get F.PLC_RUN_last = cycles % 2 ^ 16 ∧
        t.get F.PLC_RUN_longest = max (s.get F.PLC_RUN_longest) (min cycles 65535) ∧
        t.get F.PLC_CNT_done = s.plusOne F.PLC_CNT_done ∧
        ((s.snapOf (s.get F.CMP_STAT_target)).kind = .layers → s.light.initial = false → s.vid.flat = false →
          ∀ x ∈ s.tilesIn false, x < 80 → (t.tile x).next = (s.tile x).prev) := by
  have he := execPlacementComplete_placing cycles h
  refine ⟨_, he, execPlacementComplete_only cycles s he, ?_⟩
  have hv (u : State) (g : Video → Video) (f : Fld) : (u.onVid g).get f = u.get f := rfl
  have hx (u : State) (g : Video → Video) (x : Nat) : (u.onVid g).tile x = u.tile x := rfl
  have hvid : (s.runPlacement (s.snapOf (s.get F.CMP_STAT_target)).kind).vid = s.vid := (State.runPlacement_only ..).vid (by decide)
  obtain ⟨hlast, hlong, hdone⟩ := placed_shows (s.runPlacement (s.snapOf (s.get F.CMP_STAT_target)).kind) cycles
  refine ⟨?_, (hv ..).trans hlast, ?_, ?_, fun hk hi hf x hm hlt => ?_⟩
  · rw [State.onVid, placed_vid, hvid]
  · rw [hv, hlong, runPlacement_word _ _ _ (.inl rfl)]
  · rw [hv, hdone, State.plusOne, runPlacement_word _ _ _ (.inr rfl), State.plusOne]
  · rw [hx, placed_tile, hk]
    exact runPlacement_keeps hi hf hlt hm

/-- A word without an error is passed over (R189). -/
theorem scrubWord_none {s : State} {w : Nat} (h1 : s.ecc1.contains w = false) (h2 : s.ecc2 = []) : s.scrubWord w = s := by
  rw [State.scrubWord, h2, h1]
  rfl

/-- A fold of which no step but one changes the state. -/
theorem foldl_single {f : State → Nat → State} {l : List Nat} {c : Nat} {s t : State} (hc : c ∈ l) (hn : l.Nodup)
    (hs : ∀ d ∈ l, d ≠ c → f s d = s) (he : f s c = t) (ht : ∀ d ∈ l, d ≠ c → f t d = t) : l.foldl f s = t := by
  have keep {u : State} {r : List Nat} (hu : ∀ d ∈ r, f u d = u) : r.foldl f u = u := by
    induction r with
    | nil => rfl
    | cons d r ih => rw [List.foldl_cons, hu d List.mem_cons_self, ih fun e he => hu e (List.mem_cons_of_mem _ he)]
  obtain ⟨l₁, l₂, rfl⟩ := List.append_of_mem hc
  obtain ⟨-, hn₂, hd⟩ := List.nodup_append.mp hn
  rw [List.foldl_append, List.foldl_cons,
    keep fun d h => hs d (List.mem_append_left _ h) (hd d h c List.mem_cons_self), he]
  exact keep fun d h => ht d (List.mem_append_right _ (List.mem_cons_of_mem _ h)) fun e => (List.nodup_cons.mp hn₂).1 (e ▸ h)

/-- The state in which a word with a single error is corrected (R188, R189). -/
def State.scrubbed (s : State) (w : Nat) : State :=
  { (s.inc ⟨R.CMP_ECCCNT (w / 131072 / 4), 8 * (w / 131072 % 4), 8⟩).event 11 2 with
    ecc1 := [], vid := { s.vid with scrubErr := s.vid.scrubErr + 1, scrubNew := addNum w s.vid.scrubNew } }

/-- A word that the scrubber did not find in its last round raises no fault (R189). -/
theorem scrubFound_new {s : State} {w : Nat} (h : s.vid.scrubOld = []) :
    s.scrubFound w = s.onVid fun v => { v with scrubNew := addNum w v.scrubNew } := by
  rw [State.scrubFound, h]
  rfl

theorem scrubbed_vid (s : State) (w : Nat) : (s.scrubbed w).vid.scrubAt = s.vid.scrubAt ∧
    (s.scrubbed w).vid.scrubErr = s.vid.scrubErr + 1 := ⟨rfl, rfl⟩

theorem scrubbed_mem (s : State) (w : Nat) : (s.scrubbed w).ecc1 = [] ∧ (s.scrubbed w).ecc2 = s.ecc2 ∧ (s.scrubbed w).sram = s.sram :=
  ⟨rfl, rfl, rfl⟩

/-- The error is counted for its bank (R188). -/
theorem scrubbed_count (s : State) {w b : Nat} (h : w / 131072 = b) :
    (s.scrubbed w).get ⟨R.CMP_ECCCNT (b / 4), 8 * (b % 4), 8⟩ = s.plusOne ⟨R.CMP_ECCCNT (b / 4), 8 * (b % 4), 8⟩ := by
  subst h
  refine (event_get _ ?_).trans (inc_get _ _ (by simp only; omega))
  unfold R.CMP_ECCCNT
  simp only
  omega

theorem scrubWord_single {s : State} {w : Nat} (h1 : s.ecc1 = [w]) (h2 : s.ecc2 = []) (h3 : s.vid.scrubOld = []) :
    s.scrubWord w = s.scrubbed w := by
  have hw : [w].filter (wordIn (8 * w) 8) = [w] := List.filter_eq_self.mpr (by simp [wordIn])
  have hr : s.readRange (8 * w) 8 10 = (s.inc ⟨R.CMP_ECCCNT (w / 131072 / 4), 8 * (w / 131072 % 4), 8⟩).event 11 2 := by
    rw [State.readRange, State.readWords, h1, hw]
    dsimp only [List.foldl_cons, List.foldl_nil]
    rw [show ((s.inc _).event 11 2).ecc2 = [] from h2]
    rfl
  have hc : s.ecc1.contains w = true := by simp [h1]
  have he : ((s.inc ⟨R.CMP_ECCCNT (w / 131072 / 4), 8 * (w / 131072 % 4), 8⟩).event 11 2).ecc1.filter (· != w) = [] := by
    rw [show ((s.inc _).event 11 2).ecc1 = [w] from h1]
    simp
  rw [State.scrubWord, h2, if_neg (by simp), if_pos hc, hr]
  dsimp only
  rw [he]
  exact scrubFound_new h3

theorem execScrubRead_within {s : State} (hl : s.live = true) (ha : s.vid.scrubAt + 1 < 131072) {t : State}
    (ht : (List.range 16).foldl (fun t b => t.scrubWord (131072 * b + s.vid.scrubAt)) s = t) (hv : t.vid.scrubAt = s.vid.scrubAt) :
    execScrubRead s = .next (t.onVid fun v => { v with scrubAt := v.scrubAt + 1 }) := by
  rw [execScrubRead, if_pos hl, ht]
  dsimp only
  rw [if_neg (by omega)]

/-- Where no word has an error the scrubber goes on (R189). -/
theorem scrubRead_clean {s : State} (hl : s.live = true) (ha : s.vid.scrubAt + 1 < 131072) (h2 : s.ecc2 = []) (h1 : s.ecc1 = []) :
    exec .scrubRead s = .next (s.onVid fun v => { v with scrubAt := v.scrubAt + 1 }) := by
  have hnone (w : Nat) : s.scrubWord w = s := scrubWord_none (by simp [h1]) h2
  exact execScrubRead_within hl ha
    (foldl_single (c := 0) (by decide) List.nodup_range (fun _ _ _ => hnone _) (hnone _) fun _ _ _ => hnone _) rfl

/-- The scrubber corrects a single error of the word that it reads (R188, R189). -/
theorem scrubRead_corrects {s : State} (hl : s.live = true) (ha : s.vid.scrubAt + 1 < 131072) (h2 : s.ecc2 = []) (b : Fin 16)
    (h1 : s.ecc1 = [131072 * b + s.vid.scrubAt]) (h3 : s.vid.scrubOld = []) : Does .scrubRead s (P.fault ||| P.draws) fun t =>
      t.ecc1 = [] ∧ t.vid.scrubAt = s.vid.scrubAt + 1 ∧ t.vid.scrubErr = s.vid.scrubErr + 1 ∧ t.sram = s.sram ∧
        t.get ⟨R.CMP_ECCCNT (b / 4), 8 * (b % 4), 8⟩ = s.plusOne ⟨R.CMP_ECCCNT (b / 4), 8 * (b % 4), 8⟩ := by
  generalize hw : 131072 * b.val + s.vid.scrubAt = w at h1
  obtain ⟨hm1, hm2, hmem⟩ := scrubbed_mem s w
  obtain ⟨hat, herr⟩ := scrubbed_vid s w
  have hother (d : Nat) (hd : d ≠ b) : s.scrubWord (131072 * d + s.vid.scrubAt) = s :=
    scrubWord_none (by rw [h1]; simp; omega) h2
  have hafter (d : Nat) : (s.scrubbed w).scrubWord (131072 * d + s.vid.scrubAt) = s.scrubbed w :=
    scrubWord_none (by simp [hm1]) (hm2.trans h2)
  have he : execScrubRead s = .next ((s.scrubbed w).onVid fun v => { v with scrubAt := v.scrubAt + 1 }) :=
    execScrubRead_within hl ha (foldl_single (List.mem_range.mpr b.isLt) List.nodup_range (fun d _ hd => hother d hd)
      (by rw [hw]; exact scrubWord_single h1 h2 h3) fun d _ _ => hafter d) hat
  refine ⟨_, he, execScrubRead_only s he, hm1, congrArg (· + 1) hat, herr, hmem, ?_⟩
  exact scrubbed_count s (by omega)

/-- Settles O44: where no word has an error the pass over the ledger only marks rows, an action of class 6 below the mode actions leaves the
pass, and one bank alone holds the word in error. -/
theorem compositionPasses : Obligations.CompositionPasses := fun _ =>
  ⟨passStart_starts, passComplete_ends, placementComplete_ends,
    fun hl ha h2 => ⟨scrubRead_clean hl ha h2, scrubRead_corrects hl ha h2⟩⟩

end Sys2Proof.Machine

end

section
/-! Every command keeps the invariant of the device (O3), which holds at reset (O8). -/

set_option Elab.async false

namespace Sys2Proof.Machine

/-- Every command keeps the invariant: each has a footprint, and a footprint is a step that keeps it. -/
theorem exec_inv (c : Instr) (s : State) {t : State} (h : exec c s = .next t) : s.Inv → t.Inv := by
  match c with
  | .powerOnReset fell => exact (execPowerOnReset_only fell s h).inv
  | .resetNFall _ => exact (execResetNFall_only _ s h).inv
  | .partnerRstNFall _ => exact (execPartnerRstNFall_only _ s h).inv
  | .resetGlitch => exact (execResetGlitch_only s h).inv
  | .resetRelease _ _ => exact (execResetRelease_only _ _ s h).inv
  | .pllLock => exact (execPllLock_only s h).inv
  | .pllLockTimeout => exact (execPllLockTimeout_only s h).inv
  | .pllRestart => exact (execPllRestart_only s h).inv
  | .selftestStepComplete _ => exact (execSelftestStepComplete_only _ s h).inv
  | .selftestTimerExpiry => exact (execSelftestTimerExpiry_only s h).inv
  | .safetyTick _ => exact (execSafetyTick_only _ s h).inv
  | .clockFault => exact (execClockFault_only s h).inv
  | .watchdogExpiry => exact (execWatchdogExpiry_only s h).inv
  | .supplyFault _ => exact (execSupplyFault_only _ s h).inv
  | .vddhLossBypassClose => exact (execVddhLossBypassClose_only s h).inv
  | .thermalTrip => exact (execThermalTrip_only s h).inv
  | .crossingParityError _ => exact (execCrossingParityError_only _ s h).inv
  | .periodStart => exact (execPeriodStart_only s h).inv
  | .permitGrant => exact (execPermitGrant_only s h).inv
  | .modereqHold _ => exact (execModereqHold_only _ s h).inv
  | .modereqConfigure _ => exact (execModereqConfigure_only _ s h).inv
  | .softReset _ => exact (execSoftReset_only _ s h).inv
  | .darkReleaseEnd => exact (execDarkReleaseEnd_only s h).inv
  | .hostLoss => exact (execHostLoss_only s h).inv
  | .cfgTimeout => exact (execCfgTimeout_only s h).inv
  | .ackNRelease => exact (execAckNRelease_only s h).inv
  | .ackNStuck => exact (execAckNStuck_only s h).inv
  | .ackNStuckClear => exact (execAckNStuckClear_only s h).inv
  | .sysAckWrite _ _ => exact (execSysAckWrite_only _ _ s h).inv
  | .ackArmTimeout => exact (execAckArmTimeout_only s h).inv
  | .registerWrite _ _ _ => exact (execRegisterWrite_only _ _ _ s h).inv
  | .pctrlSrst _ _ => exact (execPctrlSrst_only _ _ s h).inv
  | .pctrlFreeze _ _ _ => exact (execPctrlFreeze_only _ _ _ s h).inv
  | .pctrlPerrClr _ _ => exact (execPctrlPerrClr_only _ _ s h).inv
  | .pirqSet _ _ _ => exact (execPirqSet_only _ _ _ s h).inv
  | .pirqStatClear _ _ _ => exact (execPirqStatClear_only _ _ _ s h).inv
  | .pageLock _ _ => exact (execPageLock_only _ _ s h).inv
  | .stagedWrite _ _ _ => exact (execStagedWrite_only _ _ _ s h).inv
  | .clauseCommit _ _ => exact (execClauseCommit_only _ _ s h).inv
  | .clauseCheckDone => exact (execClauseCheckDone_only s h).inv
  | .clauseApply => exact (execClauseApply_only s h).inv
  | .clauseAbort _ => exact (execClauseAbort_only _ s h).inv
  | .clauseLaneLossAbort => exact (execClauseLaneLossAbort_only s h).inv
  | .implicitClauseApply => exact (execImplicitClauseApply_only s h).inv
  | .windowWrite _ _ _ _ => exact (execWindowWrite_only _ _ _ _ s h).inv
  | .detectProbe _ _ => exact (execDetectProbe_only _ _ s h).inv
  | .tsSetReceive _ _ _ _ _ _ _ => exact (execTsSetReceive_only _ _ _ _ _ _ _ s h).inv
  | .pollTimeout _ => exact (execPollTimeout_only _ s h).inv
  | .capSetReceive _ _ => exact (execCapSetReceive_only _ _ s h).inv
  | .capsTimeout _ => exact (execCapsTimeout_only _ s h).inv
  | .electricalIdle _ => exact (execElectricalIdle_only _ s h).inv
  | .eiosReceive _ => exact (execEiosReceive_only _ s h).inv
  | .errorBucketFull _ => exact (execErrorBucketFull_only _ s h).inv
  | .laneWordReceive _ _ => exact (execLaneWordReceive_only _ _ s h).inv
  | .exitWaitDone _ => exact (execExitWaitDone_only _ s h).inv
  | .downRetry _ => exact (execDownRetry_only _ s h).inv
  | .skipSetSend _ => exact (execSkipSetSend_only _ s h).inv
  | .skipSetReceive _ => exact (execSkipSetReceive_only _ s h).inv
  | .bndSetReceive _ _ _ _ => exact (execBndSetReceive_only _ _ _ _ s h).inv
  | .ebOverflow _ => exact (execEbOverflow_only _ s h).inv
  | .rateChange _ _ => exact (execRateChange_only _ _ s h).inv
  | .rateChangeStart => exact (execRateChangeStart_only s h).inv
  | .lanePllRelock => exact (execLanePllRelock_only s h).inv
  | .rateRevert => exact (execRateRevert_only s h).inv
  | .lnkRetrain _ _ => exact (execLnkRetrain_only _ _ s h).inv
  | .lnkRestart _ _ => exact (execLnkRestart_only _ _ s h).inv
  | .lnkReadapt _ _ => exact (execLnkReadapt_only _ _ s h).inv
  | .lnkEyeAbort _ _ => exact (execLnkEyeAbort_only _ _ s h).inv
  | .lnkClrcnt _ _ => exact (execLnkClrcnt_only _ _ s h).inv
  | .eyePoint _ _ _ => exact (execEyePoint_only _ _ _ s h).inv
  | .eyeScan _ _ _ => exact (execEyeScan_only _ _ _ s h).inv
  | .eyeOpComplete _ _ => exact (execEyeOpComplete_only _ _ s h).inv
  | .marginCheck _ => exact (execMarginCheck_only _ s h).inv
  | .marginCheckDone _ _ _ => exact (execMarginCheckDone_only _ _ _ s h).inv
  | .adaptUpdate _ _ _ _ _ => exact (execAdaptUpdate_only _ _ _ _ _ s h).inv
  | .adaptFreeze _ => exact (execAdaptFreeze_only _ s h).inv
  | .adaptResume _ => exact (execAdaptResume_only _ s h).inv
  | .readaptEnd _ => exact (execReadaptEnd_only _ s h).inv
  | .rdreq _ _ => exact (execRdreq_only _ _ s h).inv
  | .wrreq _ _ => exact (execWrreq_only _ _ s h).inv
  | .returnPacketReceive _ _ _ => exact (execReturnPacketReceive_only _ _ _ s h).inv
  | .vline _ _ => exact (execVline_only _ _ s h).inv
  | .fend _ _ => exact (execFend_only _ _ s h).inv
  | .maskupd _ _ => exact (execMaskupd_only _ _ s h).inv
  | .symupdData _ _ => exact (execSymupdData_only _ _ s h).inv
  | .symupdDescriptor _ _ => exact (execSymupdDescriptor_only _ _ s h).inv
  | .aspupd _ _ => exact (execAspupd_only _ _ s h).inv
  | .fcSend => exact (execFcSend_only s h).inv
  | .irqmsgSend => exact (execIrqmsgSend_only s h).inv
  | .irqmsgRepeat => exact (execIrqmsgRepeat_only s h).inv
  | .spiFrameStart => exact (execSpiFrameStart_only s h).inv
  | .spiFrameEnd _ _ => exact (execSpiFrameEnd_only _ _ s h).inv
  | .spiNop => exact (execSpiNop_only s h).inv
  | .spiRead => exact (execSpiRead_only s h).inv
  | .spiWrite => exact (execSpiWrite_only s h).inv
  | .spiAccessComplete => exact (execSpiAccessComplete_only s h).inv
  | .pktClrcnt _ => exact (execPktClrcnt_only _ s h).inv
  | .safePdu _ _ => exact (execSafePdu_only _ _ s h).inv
  | .nop => exact (execNop_only s h).inv
  | .write _ _ => exact (execWrite_only _ _ s h).inv
  | .beam => exact (execBeam_only s h).inv
  | .confirm _ _ => exact (execConfirm_only _ _ s h).inv
  | .ccvComputeDone => exact (execCcvComputeDone_only s h).inv
  | .otpcom _ => exact (execOtpcom_only _ s h).inv
  | .otpfb _ => exact (execOtpfb_only _ s h).inv
  | .otpProgramDone _ => exact (execOtpProgramDone_only _ s h).inv
  | .deadlineMiss => exact (execDeadlineMiss_only s h).inv
  | .spdResync _ => exact (execSpdResync_only _ s h).inv
  | .spdClrcnt _ => exact (execSpdClrcnt_only _ s h).inv
  | .statusPduSend => exact (execStatusPduSend_only s h).inv
  | .ccvRecheckStart => exact (execCcvRecheckStart_only s h).inv
  | .ccvRecheckDone => exact (execCcvRecheckDone_only s h).inv
  | .fsyncEdge _ => exact (execFsyncEdge_only _ s h).inv
  | .swapTakeEffect => exact (execSwapTakeEffect_only s h).inv
  | .passStart => exact (execPassStart_only s h).inv
  | .passComplete _ => exact (execPassComplete_only _ s h).inv
  | .placementComplete _ => exact (execPlacementComplete_only _ s h).inv
  | .scrubRead => exact (execScrubRead_only s h).inv
  | .vinClrcnt _ => exact (execVinClrcnt_only _ s h).inv
  | .cmpClrcnt _ => exact (execCmpClrcnt_only _ s h).inv
  | .cmpCapclr _ => exact (execCmpCapclr_only _ s h).inv
  | .mskClrcnt _ => exact (execMskClrcnt_only _ s h).inv
  | .aspCtlWrite _ _ _ => exact (execAspCtlWrite_only _ _ _ s h).inv
  | .fadeGroupWrite _ _ => exact (execFadeGroupWrite_only _ _ s h).inv
  | .fadeGroupChange _ => exact (execFadeGroupChange_only _ s h).inv
  | .calClrcnt _ => exact (execCalClrcnt_only _ s h).inv
  | .plcClrcnt _ => exact (execPlcClrcnt_only _ s h).inv
  | .codesSend _ => exact (execCodesSend_only _ s h).inv
  | .latchSend _ _ => exact (execLatchSend_only _ _ s h).inv
  | .proofSend _ _ => exact (execProofSend_only _ _ s h).inv
  | .senseTokenSend _ _ => exact (execSenseTokenSend_only _ _ s h).inv
  | .tileRegGo _ _ _ => exact (execTileRegGo_only _ _ _ s h).inv
  | .ackReturn _ _ => exact (execAckReturn_only _ _ s h).inv
  | .latchReturn _ _ _ => exact (execLatchReturn_only _ _ _ s h).inv
  | .regrReply _ _ => exact (execRegrReply_only _ _ s h).inv
  | .statusReply _ _ => exact (execStatusReply_only _ _ s h).inv
  | .senseBlock _ _ => exact (execSenseBlock_only _ _ s h).inv
  | .returnTimeout _ => exact (execReturnTimeout_only _ s h).inv
  | .firstCodesTimeout _ => exact (execFirstCodesTimeout_only _ s h).inv
  | .chainLockLoss _ => exact (execChainLockLoss_only _ s h).inv
  | .statusStale _ => exact (execStatusStale_only _ s h).inv
  | .chnClrcnt _ => exact (execChnClrcnt_only _ s h).inv
  | .judgementRelease _ => exact (execJudgementRelease_only _ s h).inv
  | .senseStale _ => exact (execSenseStale_only _ s h).inv
  | .supClrcnt _ => exact (execSupClrcnt_only _ s h).inv
  | .prfClrcnt _ => exact (execPrfClrcnt_only _ s h).inv
  | .debounceExpiry _ _ => exact (execDebounceExpiry_only _ _ s h).inv
  | .fltClrcnt _ => exact (execFltClrcnt_only _ s h).inv
  | .fltLogclr _ => exact (execFltLogclr_only _ s h).inv
  | .fastBurst _ _ => exact (execFastBurst_only _ _ s h).inv
  | .conversionComplete _ => exact (execConversionComplete_only _ s h).inv
  | .adcRstart _ => exact (execAdcRstart_only _ s h).inv
  | .adcRstop _ => exact (execAdcRstop_only _ s h).inv
  | .adcIstart _ => exact (execAdcIstart_only _ s h).inv
  | .adcCalreq _ => exact (execAdcCalreq_only _ s h).inv
  | .adcCaparm _ => exact (execAdcCaparm_only _ s h).inv
  | .adcCapforce _ => exact (execAdcCapforce_only _ s h).inv
  | .adcClrcnt _ => exact (execAdcClrcnt_only _ s h).inv
  | .regularTimer => exact (execRegularTimer_only s h).inv
  | .injectedSlotTrigger => exact (execInjectedSlotTrigger_only s h).inv
  | .calibrationComplete _ => exact (execCalibrationComplete_only _ s h).inv
  | .calibrationPeriod => exact (execCalibrationPeriod_only s h).inv
  | .bgcUpdate _ _ => exact (execBgcUpdate_only _ _ s h).inv
  | .adcDataRead _ => exact (execAdcDataRead_only _ s h).inv
  | .adcInjRead _ _ => exact (execAdcInjRead_only _ _ s h).inv
  | .winClrcnt _ => exact (execWinClrcnt_only _ s h).inv
  | .balanceWindowEnd => exact (execBalanceWindowEnd_only s h).inv
  | .balClrcnt _ => exact (execBalClrcnt_only _ s h).inv
  | .tempNodata => exact (execTempNodata_only s h).inv
  | .splClrcnt _ => exact (execSplClrcnt_only _ s h).inv
  | .discrepancy _ => exact (execDiscrepancy_only _ s h).inv
  | .testPulseStart _ => exact (execTestPulseStart_only _ s h).inv
  | .offPulseStart _ => exact (execOffPulseStart_only _ s h).inv
  | .testMissed _ => exact (execTestMissed_only _ s h).inv
  | .sioClrcnt _ => exact (execSioClrcnt_only _ s h).inv
  | .crcLoad _ _ => exact (execCrcLoad_only _ _ s h).inv
  | .crcValWrite _ _ _ => exact (execCrcValWrite_only _ _ _ s h).inv
  | .crcDin8 _ _ _ => exact (execCrcDin8_only _ _ _ s h).inv
  | .crcDin32 _ _ _ => exact (execCrcDin32_only _ _ _ s h).inv
  | .skinkGo _ _ => exact (execSkinkGo_only _ _ s h).inv
  | .skinkAbort _ => exact (execSkinkAbort_only _ s h).inv
  | .skinkWord => exact (execSkinkWord_only s h).inv
  | .crcClrcnt _ => exact (execCrcClrcnt_only _ s h).inv
  | .psyncEdge _ => exact (execPsyncEdge_only _ s h).inv
  | .digest _ _ => exact (execDigest_only _ _ s h).inv
  | .lists _ _ => exact (execLists_only _ _ s h).inv
  | .heartbeat _ _ => exact (execHeartbeat_only _ _ s h).inv
  | .digestTimeout => exact (execDigestTimeout_only s h).inv
  | .unnamedEffectDiscard => exact (execUnnamedEffectDiscard_only s h).inv
  | .takeoverDecision => exact (execTakeoverDecision_only s h).inv
  | .axoTakeover _ => exact (execAxoTakeover_only _ s h).inv
  | .axoRealign _ => exact (execAxoRealign_only _ s h).inv
  | .axoClrcnt _ => exact (execAxoClrcnt_only _ s h).inv
  | .partnerRstRelease => exact (execPartnerRstRelease_only s h).inv
  | .chainInwardLock _ => exact (execChainInwardLock_only _ s h).inv
  | .bypassLegsOpen _ => exact (execBypassLegsOpen_only _ s h).inv
  | .pollTs2TimeLimit _ => exact (execPollTs2TimeLimit_only _ s h).inv
  | .testPulseEnd _ => exact (execTestPulseEnd_only _ s h).inv
  | .offPulseEnd _ => exact (execOffPulseEnd_only _ s h).inv
  | .snoopedChainItem _ _ => exact (execSnoopedChainItem_only _ _ s h).inv
  | .inwardPeriodMarker _ _ => exact (execInwardPeriodMarker_only _ _ s h).inv
/-- Settles O3: an idle step and the command taken off the queue leave the invariant's parts, and every command keeps it. -/
theorem stepKeepsInv : Obligations.StepKeepsInv := by
  intro s t hs h
  unfold step at h
  split at h
  · cases h
    exact hs
  · exact exec_inv _ _ h hs

/-- Settles O8: the SRAM lists nothing, and the OTP and SYS_STAT have their reset values. -/
theorem resetMeetsInvariant : Obligations.ResetMeetsInvariant := by
  refine ⟨rfl, ?_, ?_⟩ <;> decide

end Sys2Proof.Machine

end

section
/-! What the withdrawal of the permit switches off, and what keeps it off (R18, R32, R33, R372, R383). -/

set_option Elab.async false

namespace Sys2Proof.Machine

@[simp] theorem onOut_regs (s : State) (k : Nat) (f : SioOut → SioOut) : (s.onOut k f).regs = s.regs := by
  unfold State.onOut; split <;> rfl

theorem onOut_get (s : State) (k : Nat) (f : SioOut → SioOut) (g : Fld) : (s.onOut k f).get g = s.get g := get_congr (onOut_regs ..) g

/-- An output that is driven off is off (R383). -/
theorem driveOut_off (s : State) (k : Nat) : (s.driveOut k false).get (F.SIO_OST_drv k) = 0 := by
  unfold State.driveOut
  split
  · next h => simpa [State.on] using h
  · have hd : ((s.flag (F.SIO_OST_drv k) false).onOut k fun o => { o with steady := 0, bad := 0, offOk := 0, onFor := 0 }).get
        (F.SIO_OST_drv k) = 0 := by
      rw [onOut_get]
      exact get_put_same s _ _ (show 0 + 1 ≤ 32 by decide)
    dsimp only
    split
    · exact (get_put_beside _ _ _ _ _ _ _ (by decide)).trans hd
    · exact hd

/-- It leaves the status of the other outputs. -/
theorem driveOut_get_ne (s : State) {k : Nat} (b : Bool) {f : Fld} (h : R.SIO_OST k ≠ f.addr) : (s.driveOut k b).get f = s.get f := by
  have hd (g : SioOut → SioOut) : ((s.flag (F.SIO_OST_drv k) b).onOut k g).get f = s.get f := by
    rw [onOut_get]
    exact get_put_ne s _ h
  unfold State.driveOut
  split
  · rfl
  · dsimp only
    split
    · exact (get_put_ne _ _ h).trans (hd _)
    · exact hd _

/-- A discarded test counts, and shows in the status of its output alone (R386). -/
theorem dropTest_get_ne (s : State) {k : Nat} {f : Fld} (h : R.SIO_OST k ≠ f.addr) (hc : R.SIO_TCNT ≠ f.addr)
    (hr : R.PIRQ_RAW 28 ≠ f.addr) : (s.dropTest k).get f = s.get f := by
  unfold State.dropTest
  dsimp only
  split
  · rw [onOut_get, get_put_ne _ _ h]
    exact (get_setReg_ne _ _ (Ne.symm hr)).trans (get_put_ne _ _ hc)
  · rfl

/-- Every safety output is off once all are switched off (R383). -/
theorem outputsOff_drv (s : State) {k : Nat} (hk : k < 8) : s.outputsOff.get (F.SIO_OST_drv k) = 0 := by
  refine foldl_brings (Q := fun u => u.get (F.SIO_OST_drv k) = 0) s (List.mem_range.mpr hk) (fun u => driveOut_off _ k) fun u j hu => ?_
  have apart {b : Nat} (i : Nat) (h : b ≤ 0x1C100 := by decide) : b ≠ (F.SIO_OST_drv i).addr := by
    simp only [F.SIO_OST_drv, R.SIO_OST]
    omega
  by_cases h : R.SIO_OST j = R.SIO_OST k
  · have := driveOut_off (u.dropTest j) j
    simp only [F.SIO_OST_drv, h] at this ⊢
    exact this
  · exact (driveOut_get_ne _ false h).trans ((dropTest_get_ne u h (apart k) (apart k)).trans hu)

/-- The device drives nothing outward: the permit is withdrawn, the chains' drivers are off and their legs closed, and the safety
outputs are off (R18, R33). -/
structure State.Quiet (s : State) : Prop where
  clk : s.get F.CLK_STAT_permit = 0
  sys : s.get F.SYS_STAT_permit = 0
  drv : ∀ c < 20, s.get (F.CHN_STAT_drv c) = 0
  byp : ∀ c < 20, s.get (F.CHN_STAT_byp c) = 0
  out : ∀ k < 8, s.get (F.SIO_OST_drv k) = 0

/-- The pins of a device that drives nothing (R32). -/
theorem State.Quiet.pins {s : State} (h : s.Quiet) : s.scDriven = false ∧ s.psyncDriven = false ∧
    (∀ c < 20, s.outwardDriven c = false ∧ s.bypassOpen c = false) ∧ ∀ k < 8, s.soOn k = false := by
  have hm : s.master = false := by simp [State.master, State.on, h.clk]
  refine ⟨hm, hm, fun c hc => ⟨?_, ?_⟩, fun k hk => ?_⟩
  · simp [State.outwardDriven, State.on, h.drv c hc]
  · simp [State.bypassOpen, State.on, h.byp c hc]
  · simp [State.soOn, State.on, h.out k hk]

/-- The status of an output lies outside a footprint without its page. -/
theorem leaves_ost {E k : Nat} (h : E.testBit 54 = false := by decide) : leaves E (R.SIO_OST k) = true := by
  have hp : wordPart (R.SIO_OST k) = 54 :=
    (wordPart_page (b := R.SIO_STAT) (by unfold R.SIO_OST; omega) (by simp only [R.SIO_OST, R.SIO_STAT]; omega)).trans (by decide)
  simp only [leaves, hp, h, Bool.not_false, Bool.and_true, Bool.and_eq_true, decide_eq_true_eq, bne_iff_ne]
  unfold R.SIO_OST
  omega

/-- The status of a chain lies outside a footprint without the pages of the chains. -/
theorem leaves_chnStat {E c : Nat} (h : E.testBit 48 = false := by decide) : leaves E (R.CHN_STAT c) = true :=
  leaves_chn (k := 8) ⟨by decide, h⟩

/-- A step whose footprint holds neither of the pages, and which leaves the permit. -/
theorem State.Quiet.step {E : Nat} {s t : State} (q : s.Quiet) (h : Only E s t)
    (hp : t.get F.SYS_STAT_permit = s.get F.SYS_STAT_permit)
    (hE : (!E.testBit 32 && !E.testBit 48 && !E.testBit 54) = true := by decide) : t.Quiet := by
  simp only [Bool.and_eq_true, Bool.not_eq_true'] at hE
  obtain ⟨⟨hk, hc⟩, ho⟩ := hE
  have hclk : leaves E F.CLK_STAT_permit.addr = true := by
    have : wordPart F.CLK_STAT_permit.addr = 32 := by decide
    simp only [leaves, this, hk]
    decide
  refine ⟨(h.get hclk).trans q.clk, hp.trans q.sys, fun c hc' => ?_, fun c hc' => ?_, fun k hk' => ?_⟩
  · exact (h.get (f := F.CHN_STAT_drv c) (leaves_chnStat hc)).trans (q.drv c hc')
  · exact (h.get (f := F.CHN_STAT_byp c) (leaves_chnStat hc)).trans (q.byp c hc')
  · exact (h.get (f := F.SIO_OST_drv k) (leaves_ost ho)).trans (q.out k hk')

/-- A step whose footprint holds neither of the pages nor SYS_STAT. -/
theorem State.Quiet.of {E : Nat} {s t : State} (q : s.Quiet) (h : Only E s t)
    (hE : (!E.testBit 27 && !E.testBit 32 && !E.testBit 48 && !E.testBit 54) = true := by decide) : t.Quiet := by
  simp only [Bool.and_eq_true, Bool.not_eq_true'] at hE
  obtain ⟨⟨⟨hs, hk⟩, hc⟩, ho⟩ := hE
  exact q.step h (get_of_stat (h.stat hs) (by decide)) (by simp [hk, hc, ho])

theorem State.Quiet.congr {s t : State} (q : s.Quiet) (h : t.regs = s.regs) : t.Quiet :=
  ⟨(get_congr h _).trans q.clk, (get_congr h _).trans q.sys, fun c hc => (get_congr h _).trans (q.drv c hc),
    fun c hc => (get_congr h _).trans (q.byp c hc), fun k hk => (get_congr h _).trans (q.out k hk)⟩

/-- A record update beside the register file. -/
theorem State.Quiet.upd {t : State} (q : t.Quiet) {pending' now' pstart' sram' ecc1' ecc2' otp' boot' isl' cl' vid' fades' chains' tiles'
    light' flt' adc' bal' spl' sio' skink' link' spi' spd' pair' out' draws'} :
    State.Quiet ⟨pending', now', pstart', t.regs, sram', ecc1', ecc2', otp', boot', isl', cl', vid', fades', chains', tiles', light',
      flt', adc', bal', spl', sio', skink', link', spi', spd', pair', out', draws'⟩ := q.congr rfl

/-- The withdrawal of the permit (R18). -/
theorem withdraw_quiet (s : State) : s.withdraw.Quiet := by
  obtain ⟨hclk, hsys⟩ := withdraw_permit s
  have hc (c : Nat) (h : c < 20) {f : Fld} (hf : f.addr = R.CHN_STAT c)
      (h0 : ((s.put F.CLK_STAT_permit 0).put F.SYS_STAT_permit 0).chainsOff.get f = 0) : s.withdraw.get f = 0 :=
    ((State.outputsOff_only _).get (by rw [hf]; exact leaves_chnStat)).trans h0
  refine ⟨hclk, hsys, fun c h => ?_, fun c h => ?_, fun k hk => outputsOff_drv _ hk⟩
  · exact hc c h rfl (chainsOff_stat _ ⟨c, h⟩).2.1
  · exact hc c h rfl (chainsOff_stat _ ⟨c, h⟩).2.2

/-- A fallback evaluation that starts afresh writes the status of no output (R382). -/
theorem clearFbInput_quiet {s : State} (q : s.Quiet) : s.clearFbInput.Quiet := by
  have ho := State.clearFbInput_only s
  have hout (k : Nat) : s.clearFbInput.get (F.SIO_OST_drv k) = s.get (F.SIO_OST_drv k) := by
    have apart (j : Nat) : R.SIO_INST j ≠ R.SIO_OST k := by simp only [R.SIO_INST, R.SIO_OST]; omega
    have hs : R.SIO_STAT ≠ R.SIO_OST k := by simp only [R.SIO_STAT, R.SIO_OST]; omega
    have hf : ∀ l u, (List.foldl (fun t j => t.put (F.SIO_INST_fbval j) 0) u l : State).get (F.SIO_OST_drv k) =
        u.get (F.SIO_OST_drv k) := by
      intro l
      induction l with
      | nil => exact fun _ => rfl
      | cons j r ih => exact fun u => (ih _).trans (get_put_ne _ _ (apart j))
    exact (get_put_ne _ _ hs).trans (hf _ _)
  refine ⟨ho.get.trans q.clk, (get_of_stat (ho.stat (by decide)) (by decide)).trans q.sys, fun c hc => ?_, fun c hc => ?_,
    fun k hk => (hout k).trans (q.out k hk)⟩
  · exact (ho.get (f := F.CHN_STAT_drv c) leaves_chnStat).trans (q.drv c hc)
  · exact (ho.get (f := F.CHN_STAT_byp c) leaves_chnStat).trans (q.byp c hc)

/-- The end of a dark release leaves the permit (R28). -/
theorem darkOff_quiet {s : State} (q : s.Quiet) : s.darkOff.Quiet :=
  q.step (State.darkOff_only s) (get_put_apart _ _ _ _ (by decide))

/-- Entry into HOLD (R25). -/
theorem enterHold_quiet {s : State} (h : s.mode ≠ .hold) (code detail : Nat) : (s.enterHold code detail).Quiet := by
  unfold State.enterHold
  rw [if_neg h]
  dsimp only
  refine .of (.upd (.of (clearFbInput_quiet (.of (darkOff_quiet ?_) (State.holdOtp_only _))) (State.ccvAbandon_only _)))
    (State.evalPolicies_only _)
  exact .of (.of (withdraw_quiet _) (State.abortClause_only ..)) (State.stopLight_only _)

/-- In HOLD a later cause leaves the outputs as they are. -/
theorem enterHold_quiet_more {s : State} (q : s.Quiet) (code detail : Nat) : (s.enterHold code detail).Quiet := by
  by_cases h : s.mode = .hold
  · rw [enterHold_more h]
    exact q.of (E := P.hold) (.put (.refl ..))
  · exact enterHold_quiet h code detail

end Sys2Proof.Machine

end

section
/-! Power-on reset, the pulses on the reset inputs, reset release, and the causes for which the safety island forces HOLD (O9, O11, O12,
O13). -/

set_option Elab.async false

namespace Sys2Proof.Machine

/-- OTP programming that runs is cut short by a reset: its block is marked (R158). -/
theorem cutOtp_marks (s : State) : s.cutOtp.spd.cutCom = (s.spd.cutCom || s.spd.otp.any (!·.1)) ∧
    s.cutOtp.spd.cutFb = (s.spd.cutFb || s.spd.otp.any (·.1)) := by
  unfold State.cutOtp
  split
  · next h => simp [h]
  · next h => simp [h]
  · next h => simp [h]

/-- Settles O9: the state of a power-on reset is given in full, and only the marks of a cut programming take a case split. -/
theorem powerOnReset : Obligations.PowerOnReset := by
  intro fell s
  have hspd : s.porState.spd = { cutCom := s.spd.cutCom || s.spd.otp.any (!·.1), cutFb := s.spd.cutFb || s.spd.otp.any (·.1) } := by
    obtain ⟨hc, hf⟩ := cutOtp_marks s
    simp only [State.porState, hc, hf]
  exact ⟨s.porState, rfl, fun _ => rfl, show State.reset.mode = .selftest by decide, rfl, rfl, rfl, hspd, rfl⟩

/-- A pulse on a reset input that does not reset (R30): the permit is withdrawn and the glitch is kept. -/
theorem resetInput_pulse {s : State} (hp : s.boot.phase ≠ .held) {ns : Nat} (h : ns < 50 ∨ ns < 200 ∧ Config.pulseResets s.draws = false)
    (bit which : Nat) :
    s.resetInput ns bit which = { s.withdraw.draw with boot := { s.withdraw.boot with glitch := which } } := by
  have hd : s.withdraw.draws = s.draws := (State.withdraw_only s).draws (by decide)
  unfold State.resetInput
  dsimp only
  rw [if_neg hp, if_neg (by omega), hd, if_pos (h.imp_right And.right)]

/-- What such a pulse may change. -/
theorem resetPulse_only (s : State) (which : Nat) :
    Only (P.chains ||| P.sio ||| P.stat ||| P.clk ||| P.pgChn ||| P.pgTil ||| P.pgSio ||| P.boot ||| P.draws) s
      { s.withdraw.draw with boot := { s.withdraw.boot with glitch := which } } :=
  .upd (.comp (.comp (.refl ..) (State.withdraw_only s)) (State.draw_only _))

/-- Settles O11: the withdrawal of the permit switches the outputs off, and nothing after it drives them. -/
theorem resetPulse : Obligations.ResetPulse := by
  intro c which ns s hp hns hc
  have hw := State.withdraw_only s
  have he : exec c s = .next { s.withdraw.draw with boot := { s.withdraw.boot with glitch := which } } := by
    rcases hc with ⟨rfl, rfl⟩ | ⟨hr, rfl, rfl⟩
    · show execResetNFall ns s = _
      rw [execResetNFall, resetInput_pulse hp hns]
    · show execPartnerRstNFall ns s = _
      rw [execPartnerRstNFall, hr, if_neg (by decide), resetInput_pulse hp hns]
  have hq : ({ s.withdraw.draw with boot := { s.withdraw.boot with glitch := which } } : State).Quiet :=
    .upd (.of (withdraw_quiet s) (State.draw_only _))
  obtain ⟨-, -, -, hso⟩ := hq.pins
  refine ⟨_, he, resetPulse_only s which, ?_, hq.clk, hq.sys, (resetPulse_only s which).modeEq, hso⟩
  rw [hw.boot (by decide)]

/-- Settles O12: each row writes its words and its part of the boot state alone. -/
theorem startUp : Obligations.StartUp := by
  intro ackN role s
  refine ⟨fun h => ?_, fun h he => ?_, fun h => ?_, fun h => ?_⟩
  · refine ⟨_, rfl, execResetRelease_only ackN role s rfl, ?_⟩
    rw [if_pos h]
    exact ⟨rfl, rfl, get_put_same _ _ _ (by decide)⟩
  · have hx : execPllLock s = .next { ((((s.put F.CLK_STAT_core_lock 1).put F.CLK_STAT_chain_lock 1).put F.CLK_STAT_conv_lock 1).put
        F.CLK_STAT_ltx_lock 1) with boot := { s.boot with phase := .up } } := by
      rw [execPllLock, if_pos h]
      simp only [put_boot, he]
    refine ⟨_, hx, .upd (.put (.put (.put (.put (.refl ..))))), rfl, ?_⟩
    simp (disch := decide) only [get_regs, put_regs, rget_rput_apart, rget_rput_same]
    decide
  · refine ⟨_, rfl, execPllLockTimeout_only s rfl, ?_⟩
    rw [if_pos h]
    exact ⟨rfl, get_put_same _ _ _ (by decide), get_put_ne _ _ (by decide)⟩
  · show execPllRestart s = _
    rw [execPllRestart, if_pos h]

/-- HOLD forced by the safety island once SELFTEST has begun, where it acknowledges no stuck ACK_N (R27). -/
theorem forceHold_eq {s : State} (hp : s.boot.phase = .up) (ha : s.mode = .selftest → s.boot.ackLow = false) (code detail : Nat) :
    s.forceHold code detail =
      (if s.mode = .selftest then s.put F.BIST_TIME2_total (min (10 * s.boot.selfT) 65535) else s).withdraw.enterHold code detail := by
  have hb := (forceHold_steps s).boot (by decide)
  unfold State.forceHold
  rw [hp]
  dsimp only
  rw [if_neg]
  rintro ⟨hs, hl, -⟩
  rw [enterHold_ackLow, hb, ha hs] at hl
  cases hl

/-- What a forced HOLD leaves (R25, R27, R33, R38). -/
theorem forceHold_island {s : State} (hp : s.boot.phase = .up) (ha : s.mode = .selftest → s.boot.ackLow = false) {code : Nat}
    (hc : code < 256) (detail : Nat) :
    (s.forceHold code detail).mode = .hold ∧ (s.forceHold code detail).Quiet ∧
      (s.mode ≠ .hold → (s.forceHold code detail).get F.SYS_HOLDCAUSE_code = code ∧
        (s.forceHold code detail).get F.SYS_HOLDCAUSE_detail = detail % 65536) ∧
      (s.mode = .hold → (s.forceHold code detail).get F.SYS_HOLDCAUSE_more = 1 ∧
        (s.forceHold code detail).get F.SYS_HOLDCAUSE_code = s.get F.SYS_HOLDCAUSE_code) := by
  have hq : (s.forceHold code detail).Quiet := by
    rw [forceHold_eq hp ha]
    exact enterHold_quiet_more (withdraw_quiet _) code detail
  by_cases hm : s.mode = .hold
  · obtain ⟨hmode, hmore, hcode⟩ := forceHold_hold hp hm code detail
    exact ⟨hmode, hq, fun h => absurd hm h, fun _ => ⟨hmore, hcode⟩⟩
  · obtain ⟨hmode, hcode, hdet, -, -⟩ := forceHold_up hp hm ha code detail
    exact ⟨hmode, hq, fun _ => ⟨by rw [hcode, Nat.mod_eq_of_lt hc], hdet⟩, fun h => absurd h hm⟩

/-- Every cause of the safety island, where it acts, is noted beside the registers and forces HOLD. -/
theorem islandCause_forces {c : Instr} {code detail : Nat} {s : State} (hp : s.boot.phase = .up)
    (hc : (c = .clockFault ∧ code = 3 ∧ s.isl.clkBad = false ∧ s.isl.clkOff.toList.findIdx? (2 ≤ ·) = some detail) ∨
      (c = .watchdogExpiry ∧ code = 2 ∧ s.live = true ∧ s.isl.wdogDue = true ∧ s.isl.wdogExp = false ∧ detail = s.isl.hbLast) ∨
      (∃ rail, c = .supplyFault rail ∧ code = 4 ∧ detail = rail.val) ∨
      (c = .thermalTrip ∧ code = 5 ∧ 3 ≤ s.isl.hot ∧ s.isl.hotTrip = false ∧ detail = unsigned 16 (s.isl.tempC + 64)) ∨
      (c = .resetGlitch ∧ code = 11 ∧ s.boot.glitch ≠ 0 ∧ detail = s.boot.glitch)) :
    code < 256 ∧ ∃ i b, exec c s = .next (({ s with isl := i, boot := b } : State).forceHold code detail) ∧ b.phase = s.boot.phase ∧
      b.ackLow = s.boot.ackLow := by
  rcases hc with ⟨rfl, rfl, hb, hk⟩ | ⟨rfl, rfl, hl, hd, he, rfl⟩ | ⟨rail, rfl, rfl, rfl⟩ | ⟨rfl, rfl, h3, ht, rfl⟩ |
    ⟨rfl, rfl, hg, rfl⟩
  · refine ⟨by decide, { s.isl with clkBad := true }, s.boot, ?_, rfl, rfl⟩
    show execClockFault s = _
    unfold execClockFault
    rw [hk]
    dsimp only
    rw [if_pos ⟨hp, hb⟩]
  · refine ⟨by decide, { s.isl with wdogExp := true }, s.boot, ?_, rfl, rfl⟩
    show execWatchdogExpiry s = _
    rw [execWatchdogExpiry, if_pos ⟨hl, hd, he⟩]
  · refine ⟨by decide, { s.isl with supBad := true }, s.boot, ?_, rfl, rfl⟩
    show execSupplyFault rail s = _
    rw [execSupplyFault, if_neg (by simp [hp])]
  · refine ⟨by decide, { s.isl with hotTrip := true }, s.boot, ?_, rfl, rfl⟩
    show execThermalTrip s = _
    rw [execThermalTrip, if_pos ⟨h3, ht⟩]
  · refine ⟨by decide, s.isl, { s.boot with glitch := 0 }, ?_, rfl, rfl⟩
    show execResetGlitch s = _
    unfold execResetGlitch
    dsimp only
    rw [if_neg hg]

/-- Settles O13: each cause forces HOLD, and its entry withdraws the permit. -/
theorem islandHold : Obligations.IslandHold := by
  intro c code detail s hp ha hc
  obtain ⟨hlt, i, b, he, hbp, hba⟩ := islandCause_forces hp hc
  generalize hu : ({ s with isl := i, boot := b } : State) = u at he
  have hg (f : Fld) : u.get f = s.get f := by subst hu; rfl
  have hm : u.mode = s.mode := by subst hu; rfl
  have hub : u.boot = b := by subst hu; rfl
  obtain ⟨hmode, hq, hfirst, hmore⟩ := forceHold_island (s := u) (by rw [hub, hbp, hp]) (by rw [hm, hub, hba]; exact ha) hlt detail
  obtain ⟨hsc, hps, hch, hso⟩ := hq.pins
  have ho : Only (P.fault ||| P.bist) s (u.forceHold code detail) := by
    subst hu
    exact .comp (.upd (.refl ..)) (State.forceHold_only ..)
  rw [hm, hg] at hmore
  rw [hm] at hfirst
  exact ⟨_, he, ho, hmode, hq.clk, hq.sys, hfirst, hmore, hsc, hps, hch, hso⟩

end Sys2Proof.Machine

end

section
/-! The command registers of page 0, the beginning and the end of a dark release, and entry into CONFIGURE. -/

set_option Elab.async false

namespace Sys2Proof.Machine

theorem command_modereq (s : State) (src : Src) (v : Word) : s.command src R.SYS_MODEREQ v = s.modeReq src (getBits v 0 4) := rfl

theorem command_reset (s : State) (src : Src) (v : Word) : s.command src R.SYS_RESET v = s.softReset v := rfl

theorem command_ack (s : State) (src : Src) (v : Word) : s.command src R.SYS_ACK v = s.ackKey src v := rfl

section
variable {s : State} {src : Src} (hs : src ≠ .lane) (hl : s.live = true) (ho : s.owns src 0 = true)
include hs hl ho

/-- A request for HOLD that its source may make (R29). -/
theorem exec_modereqHold : exec (.modereqHold src) s = .next (s.modeReq src 1) := by
  show s.regRow src R.SYS_MODEREQ 1 = _
  rw [regRow_sys (.inl rfl) hs hl ho, command_modereq]
  rfl

/-- A request for CONFIGURE that its source may make (R29). -/
theorem exec_modereqConfigure : exec (.modereqConfigure src) s = .next (s.modeReq src 2) := by
  show s.regRow src R.SYS_MODEREQ 2 = _
  rw [regRow_sys (.inl rfl) hs hl ho, command_modereq]
  rfl

/-- The key of SYS_RESET from a source that may write it (R39). -/
theorem exec_softReset : exec (.softReset src) s = .next (s.softReset 0xC0DE) := by
  show s.regRow src R.SYS_RESET 0xC0DE = _
  rw [regRow_sys (.inr (.inl rfl)) hs hl ho, command_reset]

/-- A write of SYS_ACK from a source that may write it (R43). -/
theorem exec_sysAckWrite (v : Word) : exec (.sysAckWrite src v) s = .next (s.ackKey src v) := by
  show s.regRow src R.SYS_ACK v = _
  rw [regRow_sys (.inr (.inr rfl)) hs hl ho, command_ack]

end

/-- A device that drives its chains is past SELFTEST and in OPERATE or FALLBACK (R25). -/
theorem driving_iff (s : State) : s.driving = true ↔ s.mode = .operate ∨ s.mode = .fallback := by
  simp [State.driving]

theorem markAll_regs (s : State) : s.markAll.regs = s.regs := by simp only [State.markAll]

theorem markAll_boot (s : State) : s.markAll.boot = s.boot := by simp only [State.markAll]

theorem markAll_dirty (s : State) : s.markAll.vid.dirty = List.range 10240 := by simp only [State.markAll]

/-- The beginning of a dark release (R28): the mode stays, and every row is to be composed. -/
theorem startDark_begins (s : State) (t : DarkTarget) :
    (s.startDark t).mode = s.mode ∧ (s.startDark t).get F.SYS_STAT_dark_rel = 1 ∧
      (s.startDark t).boot = { s.boot with dark := some t, darkFrom := none } ∧ (s.startDark t).vid.dirty = List.range 10240 := by
  have hd := State.dropPass_only (s.put F.SYS_STAT_dark_rel 1)
  have hrel : ((s.put F.SYS_STAT_dark_rel 1).dropPass).get F.SYS_STAT_dark_rel = 1 :=
    (get_of_stat (hd.stat (by decide)) (by decide)).trans (get_put_same _ _ _ (by decide))
  have hboot : ((s.put F.SYS_STAT_dark_rel 1).dropPass).boot = s.boot := hd.boot (by decide)
  refine ⟨(State.startDark_only s t).modeEq, ?_, ?_, ?_⟩ <;> unfold State.startDark <;> dsimp only
  · rw [get_regs, markAll_regs, ← get_regs, hrel]
  · rw [markAll_boot, hboot]
  · rw [markAll_dirty]

/-- The end of a dark release (R28). -/
theorem darkOff_boot (s : State) : s.darkOff.boot = { s.boot with dark := none, darkFrom := none } := rfl

theorem darkOff_get (s : State) (f : Fld) (h : F.SYS_STAT_dark_rel.apart f = true) : s.darkOff.get f = s.get f :=
  (get_congr (s := s.put F.SYS_STAT_dark_rel 0) rfl f).trans (get_put_apart _ _ _ _ h)

theorem darkOff_get_same (s : State) : s.darkOff.get F.SYS_STAT_dark_rel = 0 :=
  (get_congr (s := s.put F.SYS_STAT_dark_rel 0) rfl _).trans (get_put_same _ _ _ (by decide))

/-- Entry into HOLD ends a dark release and leaves the boot state otherwise (R28). -/
theorem enterHold_boot {s : State} (h : s.mode ≠ .hold) (code detail : Nat) :
    (s.enterHold code detail).boot = { s.boot with dark := none, darkFrom := none } := by
  unfold State.enterHold
  rw [if_neg h]
  dsimp only
  have h0 : (if s.mode = .selftest then s.leaveSelftest else s).ownSwap.boot = s.boot := by
    refine ((State.ownSwap_only _).boot (by decide)).trans ?_
    split
    · exact (State.leaveSelftest_only s).boot (by decide)
    · rfl
  generalize (if s.mode = .selftest then s.leaveSelftest else s).ownSwap = u at h0 ⊢
  generalize hw : ((u.put F.SYS_HOLDCAUSE_code code).put F.SYS_HOLDCAUSE_detail detail).setMode .hold = w
  have h1 : w.boot = s.boot := by subst hw; exact h0
  have h2 : ((w.withdraw.abortClause true).stopLight).boot = w.boot :=
    ((State.stopLight_only _).boot (by decide)).trans (((State.abortClause_only ..).boot (by decide)).trans
      ((State.withdraw_only _).boot (by decide)))
  have h3 (x : State) : (((x.holdOtp).clearFbInput).ccvAbandon).boot = x.boot :=
    ((State.ccvAbandon_only _).boot (by decide)).trans (((State.clearFbInput_only _).boot (by decide)).trans
      ((State.holdOtp_only _).boot (by decide)))
  rw [(State.evalPolicies_only _).boot (by decide), h3, darkOff_boot, h2, h1]

/-- The last steps of an entry into CONFIGURE: SYS_STAT.cfg_fail clears, and the policies write no other field of its word. -/
theorem configureLast_stat {y z : State} (hz : z.regs = (y.put F.SYS_STAT_cfg_fail 0).regs) :
    z.evalPolicies.mode = y.mode ∧ z.evalPolicies.get F.SYS_STAT_cfg_fail = 0 ∧
      z.evalPolicies.get F.SYS_STAT_permit = y.get F.SYS_STAT_permit ∧
      z.evalPolicies.get F.SYS_STAT_dark_rel = y.get F.SYS_STAT_dark_rel ∧ z.evalPolicies.isl = z.isl ∧
      z.evalPolicies.boot = z.boot := by
  have hp := State.evalPolicies_only z
  have hs {f : Fld} (hf : f.addr = R.SYS_STAT ∧ 4 ≤ f.lo ∧ f.lo + f.w ≤ 32) : z.evalPolicies.get f = (y.put F.SYS_STAT_cfg_fail 0).get f :=
    (get_of_stat (hp.stat (by decide)) hf).trans (get_congr hz f)
  refine ⟨?_, ?_, ?_, ?_, hp.isl (by decide), hp.boot (by decide)⟩
  · rw [hp.modeEq]
    exact mode_congr ((get_congr hz _).trans (get_put_apart _ _ _ _ (by decide)))
  · exact (hs (by decide)).trans (get_put_same _ _ _ (by decide))
  · exact (hs (by decide)).trans (get_put_apart _ _ _ _ (by decide))
  · exact (hs (by decide)).trans (get_put_apart _ _ _ _ (by decide))

/-- The first steps of an entry into CONFIGURE: the permit is withdrawn, and a dark release ends. -/
theorem configureFirst (u : State) :
    (((u.withdraw.stopLight).darkOff).clearFbInput.ccvAbandon).mode = u.mode ∧
      (((u.withdraw.stopLight).darkOff).clearFbInput.ccvAbandon).get F.SYS_STAT_permit = 0 ∧
      (((u.withdraw.stopLight).darkOff).clearFbInput.ccvAbandon).get F.SYS_STAT_dark_rel = 0 ∧
      (((u.withdraw.stopLight).darkOff).clearFbInput.ccvAbandon).boot = { u.boot with dark := none, darkFrom := none } := by
  have hw := State.withdraw_only u
  have hl := State.stopLight_only u.withdraw
  have hd := State.darkOff_only u.withdraw.stopLight
  have hc : Only (P.sio ||| P.pgSio ||| P.skink ||| P.pgCrc) u.withdraw.stopLight.darkOff
      (u.withdraw.stopLight.darkOff).clearFbInput.ccvAbandon :=
    .comp (.comp (.refl ..) (State.clearFbInput_only _)) (State.ccvAbandon_only _)
  have hs {f : Fld} (hf : f.addr = R.SYS_STAT ∧ 4 ≤ f.lo ∧ f.lo + f.w ≤ 32) :
      (u.withdraw.stopLight.darkOff).clearFbInput.ccvAbandon.get f = u.withdraw.stopLight.darkOff.get f :=
    get_of_stat (hc.stat (by decide)) hf
  refine ⟨?_, ?_, ?_, ?_⟩
  · rw [hc.modeEq, hd.modeEq, hl.modeEq, hw.modeEq]
  · rw [hs (by decide), darkOff_get _ _ (by decide), get_of_stat (hl.stat (by decide)) (by decide), (withdraw_permit u).2]
  · rw [hs (by decide), darkOff_get_same]
  · rw [hc.boot (by decide), darkOff_boot, hl.boot (by decide), hw.boot (by decide)]

/-- The steps of an entry into CONFIGURE (R26, R52). -/
theorem enterConfigure_eq (s : State) : ∃ y z : State,
    y = (((((s.ownSwap).setMode .configure).withdraw.stopLight).darkOff).clearFbInput.ccvAbandon) ∧
      s.enterConfigure = z.evalPolicies ∧ z.regs = (y.put F.SYS_STAT_cfg_fail 0).regs ∧ z.isl.req = false ∧ z.boot = { y.boot with cfgFailed := false } := by
  refine ⟨_, _, rfl, rfl, ?_, ?_, ?_⟩
  · dsimp only
  · dsimp only
  · simp only [put_boot]

/-- Entry into CONFIGURE (R26, R28, R52): the mode, what is withdrawn, and what starts afresh. -/
theorem enterConfigure_enters (s : State) :
    s.enterConfigure.mode = .configure ∧ s.enterConfigure.get F.SYS_STAT_permit = 0 ∧ s.enterConfigure.get F.SYS_STAT_cfg_fail = 0 ∧
      s.enterConfigure.get F.SYS_STAT_dark_rel = 0 ∧ s.enterConfigure.isl.req = false ∧
      s.enterConfigure.boot = { s.boot with dark := none, darkFrom := none, cfgFailed := false } := by
  have hb : ((s.ownSwap).setMode .configure).boot = s.boot := (State.ownSwap_only s).boot (by decide)
  obtain ⟨y, z, hy, he, hr, hi, hz⟩ := enterConfigure_eq s
  obtain ⟨hmode, hperm, hdark, hboot⟩ := configureFirst ((s.ownSwap).setMode .configure)
  rw [← hy] at hmode hperm hdark hboot
  obtain ⟨hmode', hfail, hperm', hdark', hisl, hboot'⟩ := configureLast_stat hr
  rw [he]
  refine ⟨hmode'.trans (hmode.trans (mode_setMode ..)), hperm'.trans hperm, hfail, hdark'.trans hdark, ?_, ?_⟩
  · rw [hisl, hi]
  · rw [hboot', hz, hboot, hb]

/-- A refused mode request counts (R26). -/
theorem refuseMode_counts (s : State) : onlyRegs s s.refuseMode ∧ regsBut [R.SYS_STAT] s s.refuseMode ∧
    s.refuseMode.get F.SYS_STAT_refused = min (s.get F.SYS_STAT_refused + 1) 255 ∧ s.refuseMode.mode = s.mode := by
  refine ⟨rfl, fun a ha => reg_put_ne _ _ _ fun h => ha (List.mem_singleton.mpr h), ?_, (State.refuseMode_only s).modeEq⟩
  have hm : min (s.get F.SYS_STAT_refused + 1) 255 % 256 = min (s.get F.SYS_STAT_refused + 1) 255 := Nat.mod_eq_of_lt (by omega)
  exact (get_put_same s F.SYS_STAT_refused _ (by decide)).trans hm

/-- While a dark release or a takeover runs a mode request is refused (R28, R434). -/
theorem modeReq_busy {s : State} (h : s.boot.dark.isSome = true) (src : Src) (tgt : Nat) : s.modeReq src tgt = s.refuseMode := by
  unfold State.modeReq
  rw [if_pos (.inl h)]

/-- A mode request while neither runs, by the present mode (R26, R28). -/
theorem modeReq_free {s : State} (hd : s.boot.dark = none) (ht : s.pair.tkP = none) (src : Src) :
    (s.mode = .configure ∨ s.mode = .mirror → s.modeReq src 1 = s.enterHold 7 (if src = .spi then 1 else 2)) ∧
      (s.mode = .mirror → s.modeReq src 2 = s.enterConfigure) ∧
      (s.driving = true → s.modeReq src 1 = s.startDark (.hold (if src = .spi then 1 else 2)) ∧
        s.modeReq src 2 = s.startDark .configure) ∧
      (s.mode = .hold ∨ s.mode = .configure → s.modeReq src 2 = s.refuseMode) := by
  have hfree : ¬(s.darkRel = true ∨ s.pair.tkP.isSome = true) := by simp [State.darkRel, hd, ht]
  rw [driving_iff]
  unfold State.modeReq
  rw [if_neg hfree, if_neg hfree]
  refine ⟨?_, fun h => ?_, ?_, ?_⟩
  · rintro (h | h) <;> rw [h] <;> rfl
  · rw [h]
    rfl
  · rintro (h | h) <;> rw [h] <;> exact ⟨rfl, rfl⟩
  · rintro (h | h) <;> rw [h] <;> rfl

end Sys2Proof.Machine

end

section
/-! The resets beside the power-on reset (O10), and mode requests with the dark release (O24). -/

set_option Elab.async false

namespace Sys2Proof.Machine

/-- What a reset other than a power-on reset leaves of the records (R40; log entry 9). -/
theorem doReset_records (s : State) (bit : Nat) : (s.doReset bit).boot = { rolePin := s.boot.rolePin } ∧ (s.doReset bit).sram = s.sram ∧
    (s.doReset bit).otp = s.otp ∧ (s.doReset bit).pending = s.pending := ⟨rfl, rfl, rfl, rfl⟩

/-- The registers that count and name the resets (R40). -/
theorem doReset_cause (s : State) {bit : Nat} (hb : bit < 8) :
    (s.doReset bit).get F.SYS_RSTCNT_cnt = min (s.get F.SYS_RSTCNT_cnt + 1) 65535 ∧
      (∀ n < 8, (s.doReset bit).bit R.SYS_RSTCAUSE n = (n == bit || s.bit R.SYS_RSTCAUSE n)) ∧
      (s.doReset bit).get F.SYS_RSTCAUSE_last_hold = s.get F.SYS_HOLDCAUSE_code := by
  have hcnt := doReset_words s bit R.SYS_RSTCNT
  have hcause := doReset_words s bit R.SYS_RSTCAUSE
  rw [if_pos rfl] at hcnt
  rw [if_neg (by decide), if_pos rfl] at hcause
  refine ⟨?_, fun n hn => ?_, ?_⟩
  · show getBits ((s.doReset bit).reg R.SYS_RSTCNT) 0 16 = _
    rw [hcnt, getBits_insBits_same _ _ (by decide)]
    exact Nat.mod_eq_of_lt (by omega)
  · show ((s.doReset bit).reg R.SYS_RSTCAUSE).getLsbD n = _
    rw [hcause, getLsbD_insBits _ _ _ _ _ (by omega), if_neg (by simp only [F.SYS_RSTCAUSE_last_hold]; omega),
      getLsbD_insBits _ _ _ _ _ (by omega)]
    by_cases h : n = bit
    · subst h
      simp
    · rw [if_neg (by omega)]
      simp [h, State.bit]
  · show getBits ((s.doReset bit).reg R.SYS_RSTCAUSE) 16 8 = _
    rw [hcause]
    refine (getBits_insBits_same _ _ (by decide)).trans (Nat.mod_eq_of_lt ?_)
    exact get_lt s F.SYS_HOLDCAUSE_code

/-- After a reset a field of another register reads its reset value (R40). -/
theorem doReset_get (s : State) (bit : Nat) (f : Fld) (h1 : f.addr ≠ R.SYS_RSTCNT) (h2 : f.addr ≠ R.SYS_RSTCAUSE) :
    (s.doReset bit).get f = getBits (resetWord f.addr) f.lo f.w := by
  rw [State.get, doReset_words, if_neg h1, if_neg h2]

theorem doReset_mode (s : State) (bit : Nat) : (s.doReset bit).mode = .selftest := by
  rw [State.mode, doReset_get _ _ _ (by decide) (by decide)]
  decide

/-- The pins of a device in reset (R32, R33). -/
theorem doReset_pins (s : State) (bit : Nat) : (s.doReset bit).scDriven = false ∧ (s.doReset bit).psyncDriven = false ∧
    (s.doReset bit).sdoDriven = false ∧ (s.doReset bit).lrxTerminated = false ∧
    (∀ l < 4, (s.doReset bit).ltxIdle l = true ∧ (s.doReset bit).tpsPin l = false) ∧ (∀ k < 8, (s.doReset bit).soOn k = false) ∧
    ∀ c < 20, (s.doReset bit).outwardDriven c = false ∧ (s.doReset bit).bypassOpen c = false := by
  have hm := doReset_mode s bit
  have hl : (s.doReset bit).live = false := by simp [State.live, hm]
  have hd : (s.doReset bit).driving = false := by simp [State.driving, hm]
  have hoff (f : Fld) (h : f.addr ≠ R.SYS_RSTCNT ∧ f.addr ≠ R.SYS_RSTCAUSE ∧ getBits (resetWord f.addr) f.lo f.w = 0) :
      (s.doReset bit).on f = false := by
    rw [State.on, doReset_get _ _ _ h.1 h.2.1, h.2.2]
    rfl
  have hout : ∀ k < 8, (F.SIO_OST_drv k).addr ≠ R.SYS_RSTCNT ∧ (F.SIO_OST_drv k).addr ≠ R.SYS_RSTCAUSE ∧
      getBits (resetWord (F.SIO_OST_drv k).addr) (F.SIO_OST_drv k).lo (F.SIO_OST_drv k).w = 0 := by decide
  have hdrv : ∀ c < 20, (F.CHN_STAT_drv c).addr ≠ R.SYS_RSTCNT ∧ (F.CHN_STAT_drv c).addr ≠ R.SYS_RSTCAUSE ∧
      getBits (resetWord (F.CHN_STAT_drv c).addr) (F.CHN_STAT_drv c).lo (F.CHN_STAT_drv c).w = 0 := by decide
  have hbyp : ∀ c < 20, (F.CHN_STAT_byp c).addr ≠ R.SYS_RSTCNT ∧ (F.CHN_STAT_byp c).addr ≠ R.SYS_RSTCAUSE ∧
      getBits (resetWord (F.CHN_STAT_byp c).addr) (F.CHN_STAT_byp c).lo (F.CHN_STAT_byp c).w = 0 := by decide
  refine ⟨?_, ?_, ?_, hl, fun l _ => ⟨?_, ?_⟩, fun k hk => hoff _ (hout k hk), fun c hc => ⟨hoff _ (hdrv c hc), hoff _ (hbyp c hc)⟩⟩
  · simp [State.scDriven, State.master, hd]
  · simp [State.psyncDriven, State.master, hd]
  · simp [State.sdoDriven, hl]
  · simp [State.ltxIdle, hl]
  · simp [State.tpsPin, hl]

/-- A reset source that acts withdraws the permit and resets the device (R30, R39). -/
theorem resetSource_resets {c : Instr} {bit ns : Nat} {src : Src} {s : State}
    (h : (200 ≤ ns ∧ s.boot.phase ≠ .held ∧ c = .resetNFall ns ∧ bit = 1) ∨
      (200 ≤ ns ∧ s.boot.phase ≠ .held ∧ s.pair.rstLow = false ∧ c = .partnerRstNFall ns ∧ bit = 2) ∨
      (s.live = true ∧ s.driving = false ∧ src ≠ .lane ∧ s.owns src 0 = true ∧ c = .softReset src ∧ bit = 3)) :
    bit < 8 ∧ exec c s = .next (s.withdraw.doReset bit) := by
  have hin (hns : 200 ≤ ns) (hp : s.boot.phase ≠ .held) (b w : Nat) : s.resetInput ns b w = s.withdraw.doReset b := by
    unfold State.resetInput
    rw [if_neg hp, if_pos hns]
  rcases h with ⟨hns, hp, rfl, rfl⟩ | ⟨hns, hp, hr, rfl, rfl⟩ | ⟨hl, hd, hs, ho, rfl, rfl⟩
  · refine ⟨by decide, ?_⟩
    show execResetNFall ns s = _
    rw [execResetNFall, hin hns hp]
  · refine ⟨by decide, ?_⟩
    show execPartnerRstNFall ns s = _
    rw [execPartnerRstNFall, hr, if_neg (by decide), hin hns hp]
  · refine ⟨by decide, ?_⟩
    rw [exec_softReset hs hl ho, State.softReset, if_neg (by decide), hd, if_neg (by decide)]

/-- Settles O10: while the device drives, the key begins a dark release or names the reset as its end; every other source withdraws the
permit, which leaves what a reset copies, and resets. -/
theorem resetSources : Obligations.ResetSources := by
  refine ⟨fun src s hs hl ho hd => ⟨fun hn => ?_, fun hn => ?_⟩, fun c bit ns src s h => ?_⟩
  · have he : exec (.softReset src) s = .next (s.startDark .reset) := by
      rw [exec_softReset hs hl ho, State.softReset, if_neg (by decide), if_pos hd, if_neg (by simp [State.darkRel, hn])]
    obtain ⟨hm, hrel, hb, hv⟩ := startDark_begins s .reset
    exact ⟨_, he, (State.startDark_only s .reset).mono, hm, hrel, hb, hv⟩
  · rw [exec_softReset hs hl ho, State.softReset, if_neg (by decide), if_pos hd, if_pos (show s.darkRel = true from hn)]
  · obtain ⟨hbit, he⟩ := resetSource_resets h
    have hw := State.withdraw_only s
    obtain ⟨hboot, hsram, hotp, hpend⟩ := doReset_records s.withdraw bit
    obtain ⟨hcnt, hcause, hlast⟩ := doReset_cause s.withdraw hbit
    obtain ⟨hsc, hps, hsdo, hlrx, hlane, hso, hch⟩ := doReset_pins s.withdraw bit
    refine ⟨_, he, doReset_mode .., ?_, ?_, ?_, ?_, ?_, fun n hn => ?_, ?_, hsc, hps, hsdo, hlrx, hlane, hso, hch, fun a h1 h2 => ?_⟩
    · rw [hboot, hw.boot (by decide)]
    · rw [hsram, hw.sram (by decide)]
    · rw [hotp, hw.otp (by decide)]
    · rw [hpend, hw.pending (by decide)]
    · rw [hcnt, hw.get]
    · rw [hcause n hn, State.bit, State.bit, hw.word _ (by decide)]
    · rw [hlast, hw.get]
    · rw [doReset_words, if_neg h1, if_neg h2]

/-- The end of a dark release, where two periods of the all-dark frame have passed (R28). -/
theorem exec_darkReleaseEnd {s : State} {p : Nat} (hd : s.driving = true) (hf : s.boot.darkFrom = some p) (hr : s.darkRel = true)
    (hp : perReached (perAdd p 2) s.pnow = true) : exec .darkReleaseEnd s = .next s.darkDone := by
  show execDarkReleaseEnd s = _
  unfold execDarkReleaseEnd
  rw [hf]
  dsimp only
  rw [if_pos ⟨hd, hr, hp⟩]

/-- A device that drives its chains is not in HOLD. -/
theorem not_hold_of_driving {s : State} (h : s.driving = true) : s.mode ≠ .hold := by
  rcases (driving_iff s).mp h with h | h <;> rw [h] <;> decide

/-- Entry into HOLD by a request (R29, R38). -/
theorem requestedHold {s : State} (h : s.mode ≠ .hold) (detail : Nat) :
    Only P.fault s (s.enterHold 7 detail) ∧ (s.enterHold 7 detail).mode = .hold ∧ (s.enterHold 7 detail).get F.SYS_HOLDCAUSE_code = 7 ∧
      (s.enterHold 7 detail).get F.SYS_HOLDCAUSE_detail = detail % 65536 ∧ (s.enterHold 7 detail).get F.SYS_STAT_permit = 0 := by
  obtain ⟨hm, hc, hd, -, hp⟩ := enterHold_enters h 7 detail
  exact ⟨(State.enterHold_only s 7 detail).mono, hm, hc, hd, hp⟩

/-- Settles O24: a request is carried out by the mode, a dark release comes first where the device drives, and its end is the target's
own entry. -/
theorem modeChanges : Obligations.ModeChanges := by
  have refuse {c : Instr} {s : State} (he : exec c s = .next s.refuseMode) : Puts c s [R.SYS_STAT] fun t =>
      t.get F.SYS_STAT_refused = min (s.get F.SYS_STAT_refused + 1) 255 ∧ t.mode = s.mode :=
    ⟨_, he, refuseMode_counts s⟩
  refine ⟨fun src s hs hl ho ht hd => ?_, fun src c s hs hl ho hd hc => ?_, fun p d s hdr hf hp => ⟨fun h => ?_, fun h => ?_, fun h => ?_⟩⟩
  · obtain ⟨hhold, hconf, hdrive, hrefuse⟩ := modeReq_free hd ht src
    have eh := exec_modereqHold hs hl ho
    have ec := exec_modereqConfigure hs hl ho
    refine ⟨fun h => ?_, fun h => ?_, fun h => ⟨?_, ?_⟩, fun h => refuse (by rw [ec, hrefuse h])⟩
    · have hm : s.mode ≠ .hold := by rcases h with h | h <;> rw [h] <;> decide
      obtain ⟨hon, hmode, hcode, hdet, hperm⟩ := requestedHold hm (if src = .spi then 1 else 2)
      refine ⟨_, by rw [eh, hhold h], hon, hmode, hcode, hdet.trans (Nat.mod_eq_of_lt ?_), hperm⟩
      split <;> decide
    · obtain ⟨hmode, hperm, hfail, -, hreq, -⟩ := enterConfigure_enters s
      exact ⟨_, by rw [ec, hconf h], (State.enterConfigure_only s).mono, hmode, hperm, hfail, hreq⟩
    · obtain ⟨hm, hrel, hb, -⟩ := startDark_begins s (.hold (if src = .spi then 1 else 2))
      exact ⟨_, by rw [eh, (hdrive h).1], (State.startDark_only ..).mono, hm, hrel, hb⟩
    · obtain ⟨hm, hrel, hb, -⟩ := startDark_begins s .configure
      exact ⟨_, by rw [ec, (hdrive h).2], (State.startDark_only ..).mono, hm, hrel, hb⟩
  · rcases hc with rfl | rfl
    · exact refuse (by rw [exec_modereqHold hs hl ho, modeReq_busy hd])
    · exact refuse (by rw [exec_modereqConfigure hs hl ho, modeReq_busy hd])
  · have he := exec_darkReleaseEnd hdr hf (by simp [State.darkRel, h]) hp
    obtain ⟨hmode, hperm, -, hrel, hreq, hboot⟩ := enterConfigure_enters s
    refine ⟨s.enterConfigure, by rw [he, State.darkDone, h], (State.enterConfigure_only s).mono, hmode, hperm, hrel, ?_, hreq⟩
    rw [hboot]
  · have he := exec_darkReleaseEnd hdr hf (by simp [State.darkRel, h]) hp
    have hm := not_hold_of_driving hdr
    obtain ⟨hon, hmode, hcode, hdet, hperm⟩ := requestedHold hm d
    refine ⟨s.enterHold 7 d, by rw [he, State.darkDone, h], hon, hmode, hperm, hcode, hdet, ?_⟩
    rw [enterHold_boot hm]
  · have he := exec_darkReleaseEnd hdr hf (by simp [State.darkRel, h]) hp
    have hw := State.withdraw_only s
    obtain ⟨hboot, hsram, hotp, -⟩ := doReset_records s.withdraw 3
    obtain ⟨-, hcause, -⟩ := doReset_cause s.withdraw (bit := 3) (by decide)
    refine ⟨s.withdraw.doReset 3, by rw [he, State.darkDone, h], doReset_mode .., ?_, ?_, ?_, ?_⟩
    · rw [hcause 3 (by decide)]
      rfl
    · rw [hboot, hw.boot (by decide)]
    · rw [hsram, hw.sram (by decide)]
    · rw [hotp, hw.otp (by decide)]

end Sys2Proof.Machine

end

section
/-! Fault acknowledgements (O21). -/

set_option Elab.async false

namespace Sys2Proof.Machine

theorem Calm.ackVoid {s t : State} (h : Calm s t) : t.isl.ackVoid = s.isl.ackVoid :=
  (congrArg Island.ackVoid h.isl : t.isl.calm.ackVoid = s.isl.calm.ackVoid)

/-- An accepted acknowledgement counts and names its source, and is an event outside MIRROR (R41, R43, R44). -/
theorem acknowledge_counts (s : State) (src : Nat) :
    (s.acknowledge src).get F.SYS_ACKSTAT_count = (s.get F.SYS_ACKSTAT_count + 1) % 256 ∧
      (s.acknowledge src).get F.SYS_ACKSTAT_src = src % 4 ∧
      (s.acknowledge src).get F.SYS_ACKSTAT_armed = s.get F.SYS_ACKSTAT_armed ∧
      (s.acknowledge src).isl = { s.isl with ackEvent := s.isl.ackEvent || s.mode != .mirror } := by
  have hr : (s.acknowledge src).regs = rput (rput s.regs F.SYS_ACKSTAT_count (rget s.regs F.SYS_ACKSTAT_count + 1)) F.SYS_ACKSTAT_src src := by
    unfold State.acknowledge
    dsimp only
    split <;> rfl
  have hm : ((s.incWrap F.SYS_ACKSTAT_count).put F.SYS_ACKSTAT_src src).mode = s.mode :=
    mode_congr ((get_put_ne _ _ (by decide)).trans (get_put_ne s (f := F.SYS_ACKSTAT_count) _ (by decide)))
  refine ⟨?_, ?_, ?_, ?_⟩
  · rw [get_regs, hr, rget_rput_apart _ _ _ _ (by decide), rget_rput_same _ _ _ (by decide)]
    rfl
  · rw [get_regs, hr, rget_rput_same _ _ _ (by decide)]
    rfl
  · rw [get_regs, hr, rget_rput_apart _ _ _ _ (by decide), rget_rput_apart _ _ _ _ (by decide)]
    rfl
  · unfold State.acknowledge
    dsimp only
    rw [hm]
    by_cases h : s.mode = .mirror
    · rw [if_pos h, h]
      simp [State.incWrap]
    · rw [if_neg h]
      simp [State.incWrap, h]

/-- The SYS_ACK sequence is disarmed (R43). -/
theorem disarm_disarms (s : State) : s.disarm.get F.SYS_ACKSTAT_armed = 0 ∧ s.disarm.isl = { s.isl with ackSrc := none } ∧
    s.disarm.get F.SYS_ACKSTAT_count = s.get F.SYS_ACKSTAT_count ∧ s.disarm.mode = s.mode := by
  have hg (f : Fld) : s.disarm.get f = (s.put F.SYS_ACKSTAT_armed 0).get f := rfl
  refine ⟨(hg _).trans (get_put_same _ _ _ (by decide)), rfl, (hg _).trans (get_put_apart _ _ _ _ (by decide)), ?_⟩
  exact mode_congr ((hg _).trans (get_put_ne _ _ (by decide)))

/-- The key that arms the sequence (R43). -/
theorem ackKey_arms (s : State) (src : Src) : (s.ackKey src 0xA5).get F.SYS_ACKSTAT_armed = 1 ∧
    (s.ackKey src 0xA5).isl = { s.isl with ackSrc := some src } ∧
    (s.ackKey src 0xA5).get F.SYS_ACKSTAT_count = s.get F.SYS_ACKSTAT_count := by
  unfold State.ackKey
  rw [if_pos rfl]
  have hg (f : Fld) : ({ s.put F.SYS_ACKSTAT_armed 1 with isl := { s.isl with ackSrc := some src } } : State).get f =
      (s.put F.SYS_ACKSTAT_armed 1).get f := rfl
  exact ⟨(hg _).trans (get_put_same _ _ _ (by decide)), rfl, (hg _).trans (get_put_apart _ _ _ _ (by decide))⟩

/-- The second write of the sequence, from the source that armed it (R43). -/
theorem ackKey_acknowledges {s : State} {src : Src} (h : s.isl.ackSrc = some src) :
    s.ackKey src 0x5A = s.disarm.acknowledge (if src = .spi then 2 else 3) := by
  unfold State.ackKey
  rw [if_neg (by decide)]
  simp [h]

/-- Any other value, and the second key from another source, disarm the sequence (R43). -/
theorem ackKey_disarms {s : State} {src : Src} {v : Word} (hv : v ≠ 0xA5) (h : v ≠ 0x5A ∨ s.isl.ackSrc ≠ some src) :
    s.ackKey src v = s.disarm := by
  unfold State.ackKey
  rw [if_neg hv]
  dsimp only
  rw [if_neg]
  simp only [Bool.and_eq_true, decide_eq_true_eq, beq_iff_eq]
  rintro ⟨hk, ha⟩
  exact h.elim (fun hn => hn hk) fun hn => hn ha

/-- A press of ACK_N that ended is judged by its length (R41). -/
theorem exec_ackNRelease {s : State} {n : Nat} (hr : s.isl.ackRel = some n) :
    exec .ackNRelease s = .next (if s.boot.phase = .up ∧ s.isl.ackVoid = false ∧ 200 ≤ n ∧ n < 20000 then
      ({ s with isl := { s.isl with ackRel := none } } : State).acknowledge 1 else { s with isl := { s.isl with ackRel := none } }) := by
  show execAckNRelease s = _
  unfold execAckNRelease
  rw [hr]

/-- ACK_N low for 2 s is stuck and voids the press; neither the class nor the wait for the end of SELFTEST touches the record (R41, R42). -/
theorem ackNStuck_sticks {s : State} (hp : s.boot.phase = .up) (hl : s.isl.ackLvl = false) (hn : 20000 ≤ s.isl.ackLen) :
    Does .ackNStuck s (P.fault ||| P.ack) fun t =>
      t.get F.SYS_ACKSTAT_stuck = 1 ∧ t.isl.ackVoid = true ∧ t.get F.SYS_ACKSTAT_count = s.get F.SYS_ACKSTAT_count := by
  refine ⟨_, rfl, execAckNStuck_only s rfl, ?_⟩
  rw [if_pos ⟨hp, hl, hn⟩]
  dsimp only
  have hstuck := get_put_same s F.SYS_ACKSTAT_stuck 1 (by decide)
  have hcount := get_put_apart s F.SYS_ACKSTAT_stuck F.SYS_ACKSTAT_count 1 (by decide)
  split
  · exact ⟨hstuck, rfl, hcount⟩
  · exact ⟨(State.setCond_only ..).get.trans hstuck, (State.setCond_calm ..).ackVoid, (State.setCond_only ..).get.trans hcount⟩

/-- ACK_N high for 1,000 samples is no longer stuck (R41, R42). -/
theorem ackNStuckClear_clears {s : State} (hs : s.get F.SYS_ACKSTAT_stuck = 1) (hh : 1000 ≤ s.isl.ackHigh) :
    Does .ackNStuckClear s (P.fault ||| P.ack) fun t =>
      t.get F.SYS_ACKSTAT_stuck = 0 ∧ t.get F.SYS_ACKSTAT_count = s.get F.SYS_ACKSTAT_count := by
  refine ⟨_, rfl, execAckNStuckClear_only s rfl, ?_⟩
  rw [if_pos ⟨by simp [State.on, hs], hh⟩]
  have hc := State.setCond_only (s.put F.SYS_ACKSTAT_stuck 0) 36 0 false
  exact ⟨hc.get.trans (get_put_same _ _ _ (by decide)), hc.get.trans (get_put_apart _ _ _ _ (by decide))⟩

/-- Settles O21: one operation accepts every acknowledgement, and every other row only arms, disarms or marks. -/
theorem acknowledgements : Obligations.Acknowledgements := by
  refine ⟨fun src v n s => ⟨fun hp hr hv h1 h2 => ?_, fun hp hr h => ?_, ?_, fun hs hl ho => ⟨?_, fun ha hm => ?_, fun hv h => ?_⟩⟩,
    fun s => ⟨ackNStuck_sticks, ackNStuckClear_clears⟩⟩
  · have he := exec_ackNRelease hr
    rw [if_pos ⟨hp, hv, h1, h2⟩] at he
    obtain ⟨hcount, hsrc, -, hisl⟩ := acknowledge_counts { s with isl := { s.isl with ackRel := none } } 1
    exact ⟨_, he, execAckNRelease_only s he, hcount, hsrc, hisl⟩
  · rw [exec_ackNRelease hr, if_neg]
    rintro ⟨-, hv, h1, h2⟩
    rcases h with h | h | h
    · rw [hv] at h
      cases h
    · omega
    · omega
  · obtain ⟨harm, hisl, hcount, -⟩ := disarm_disarms s
    exact ⟨_, rfl, State.disarm_only s, harm, hisl, hcount⟩
  · exact ⟨_, exec_sysAckWrite hs hl ho _, State.ackKey_only .., ackKey_arms s src⟩
  · obtain ⟨harm, hisl, hcount, hmode⟩ := disarm_disarms s
    obtain ⟨hcount', hsrc', harm', hisl'⟩ := acknowledge_counts s.disarm (if src = .spi then 2 else 3)
    have he := exec_sysAckWrite hs hl ho 0x5A
    rw [ackKey_acknowledges ha] at he
    refine ⟨_, he, .comp (State.disarm_only s) (State.acknowledge_only ..), harm'.trans harm, by rw [hcount', hcount], ?_, ?_⟩
    · rw [hsrc']
      split <;> rfl
    · rw [hisl', hmode, hisl]
      simp [hm]
  · obtain ⟨harm, hisl, hcount, -⟩ := disarm_disarms s
    have he := exec_sysAckWrite hs hl ho v
    rw [ackKey_disarms hv h] at he
    exact ⟨_, he, State.disarm_only s, harm, hcount, hisl⟩

end Sys2Proof.Machine

end

section
/-! The steps of SELFTEST (O14). -/

set_option Elab.async false

namespace Sys2Proof.Machine

theorem reg_ite {c : Prop} [Decidable c] {s t : State} {a : Nat} {v : Word} (hs : s.reg a = v) (ht : t.reg a = v) :
    (if c then s else t).reg a = v := by split <;> assumption

/-- The identity block is read from the OTP alone (R457). -/
theorem idBlock_congr {s t : State} (h : t.otp = s.otp) : t.idBlock = s.idBlock ∧ t.idOk = s.idOk := by
  simp only [State.idOk, State.idBlock, h, and_self]

/-- A valid identity block gives SYS_ID0 its serial, and the rest of the reading writes other words (R457). -/
theorem readOtp_id0 {s : State} (h : s.idOk = true) : s.readOtp.reg R.SYS_ID0 = BitVec.ofNat 32 (blkLe s.idBlock 0 4) := by
  have put {u : State} {f : Fld} {x : Nat} {v : Word} (hu : u.reg R.SYS_ID0 = v) (hf : R.SYS_ID0 ≠ f.addr := by decide) :
      (u.put f x).reg R.SYS_ID0 = v := (reg_put_ne u f x hf).trans hu
  have setReg {u : State} {a : Nat} {x v : Word} (hu : u.reg R.SYS_ID0 = v) (ha : R.SYS_ID0 ≠ a := by decide) :
      (u.setReg a x).reg R.SYS_ID0 = v := (reg_setReg_ne u x ha).trans hu
  unfold State.readOtp
  dsimp only
  rw [if_pos h]
  generalize hu : (((s.setRegN R.SYS_ID0 (blkLe s.idBlock 0 4)).put F.SYS_ID1_serialHi (blkLe s.idBlock 4 2)).put F.SYS_ID1_grade
    (blkLe s.idBlock 6 1)).put F.SYS_ID1_rev (blkLe s.idBlock 7 1) = u
  have h1 : u.reg R.SYS_ID0 = BitVec.ofNat 32 (blkLe s.idBlock 0 4) := hu ▸ put (put (put (reg_setReg_same ..)))
  refine reg_ite ?_ ?_
  · exact put (put (reg_ite (reg_ite (setReg (put (put (put h1)))) (setReg (setReg (put (put (put h1)))))) (put h1)))
  · exact put (put (reg_ite (reg_ite (setReg (put (put (put h1)))) (setReg (setReg (put (put (put h1)))))) (put h1)))

/-- A SELFTEST step has ended: its details are shown, and it counts (R34, R55). -/
def State.stepDone (s : State) (n : Nat) (r : StepRes) : State :=
  { s.showStep n r with boot := { (s.showStep n r).boot with step := n } }

theorem stepDone_only (s : State) (n : Nat) (r : StepRes) : Only (P.boot ||| P.adc ||| P.bist ||| P.pgAdc) s (s.stepDone n r) := by
  unfold State.stepDone
  exact .upd (.comp (.refl ..) (State.showStep_only s n r))

theorem stepDone_boot (s : State) (n : Nat) (r : StepRes) : (s.stepDone n r).boot = { s.boot with step := n } := by
  have h := (State.showStep_only s n r).boot (by decide)
  unfold State.stepDone
  dsimp only
  rw [h]

/-- The end of step `n` (R34). -/
theorem exec_selftestStep {s : State} (hp : s.boot.phase = .up) (hm : s.mode = .selftest) (r : StepRes) {n : Nat} (hn : n = s.boot.step + 1) :
    exec (.selftestStepComplete r) s = .next (
      if n = 1 then
        if (s.stepDone n r).readOtp.idOk then (s.stepDone n r).readOtp else (s.stepDone n r).readOtp.failStep 1 0 r.tot10 0x0A
      else if r.pass = false then (s.stepDone n r).failStep n r.inst.toNat r.tot10 1
      else
        let s := if n = 4 then { s.stepDone n r with sram := [], ecc1 := [], ecc2 := [] } else s.stepDone n r
        let s := if n = 5 then s.loopLanes else s
        if n = 9 then (s.put F.BIST_TIME2_total (min r.tot10 65535)).passSelftest else s) := by
  subst hn
  show execSelftestStepComplete r s = _
  rw [execSelftestStepComplete, if_pos ⟨hp, hm⟩]
  rfl

/-- A failed step ends SELFTEST in HOLD, with its number, its detail and the total duration (R34, R35, R38, R55). -/
theorem failStep_holds {s : State} (hp : s.boot.phase = .up) (hm : s.mode = .selftest) (ha : s.boot.ackLow = false) {n : Nat} (hn : n ≤ 9)
    (inst tot10 : Nat) {code : Nat} (hc : code < 256) :
    (s.failStep n inst tot10 code).mode = .hold ∧ (s.failStep n inst tot10 code).get F.SYS_HOLDCAUSE_code = code ∧
      (s.failStep n inst tot10 code).get F.SYS_HOLDCAUSE_detail = (if code = 1 then 4096 * n + inst else 0) % 65536 ∧
      (s.failStep n inst tot10 code).bit R.SYS_STRES (n - 1) = true ∧
      (s.failStep n inst tot10 code).get F.BIST_TIME2_total = min tot10 65535 := by
  unfold State.failStep
  dsimp only
  generalize hu : ((s.setBit R.SYS_STRES (n - 1) true).put F.SYS_STDETAIL_step n).put F.SYS_STDETAIL_inst inst = u
  have hbit : u.bit R.SYS_STRES (n - 1) = true := by
    have hne : R.SYS_STDETAIL ≠ R.SYS_STRES := by decide
    rw [bit_get, beq_iff_eq, ← hu, get_put_ne _ _ hne, get_put_ne _ _ hne]
    exact get_put_same s ⟨R.SYS_STRES, n - 1, 1⟩ 1 (by simp only; omega)
  have hmode : u.mode = .selftest := by
    rw [← hm, ← hu]
    exact mode_congr ((get_put_ne _ _ (by decide)).trans ((get_put_ne _ _ (by decide)).trans (get_setReg_ne s _ (by decide))))
  have hboot : u.boot = s.boot := by subst hu; rfl
  generalize (if code = 1 then 4096 * n + inst else 0) = detail
  have hf := State.forceHold_only u code detail
  obtain ⟨hhold, hcode, hdet, -, -⟩ := forceHold_up (by rw [hboot, hp]) (by rw [hmode]; decide) (fun _ => by rw [hboot, ha]) code detail
  generalize u.forceHold code detail = t at hf hhold hcode hdet
  refine ⟨?_, ?_, ?_, ?_, ?_⟩
  · rw [← hhold]
    exact mode_congr (get_put_ne _ _ (by decide))
  · rw [get_put_ne _ _ (by decide), hcode, Nat.mod_eq_of_lt hc]
  · rw [get_put_ne _ _ (by decide), hdet]
  · rw [State.bit, reg_put_ne _ _ _ (by decide), hf.word _ (by decide)]
    exact hbit
  · exact (get_put_same _ _ _ (by decide)).trans (Nat.mod_eq_of_lt (by show min tot10 65535 < 2 ^ 16; omega))

/-- As SELFTEST ends the ROLE pin is sampled, and neither the lanes nor the timing that start write SYS_STAT (R26, R35). -/
theorem leaveSelftest_role (s : State) : s.leaveSelftest.get F.SYS_STAT_role_pin = s.boot.rolePin.toNat := by
  have hf : (s.flag F.SYS_STAT_role_pin s.boot.rolePin).get F.SYS_STAT_role_pin = s.boot.rolePin.toNat := get_flag_same _ _ _ (by decide)
  unfold State.leaveSelftest
  generalize s.flag F.SYS_STAT_role_pin s.boot.rolePin = u at hf
  dsimp only
  generalize ht : (List.range 4).foldl State.laneEnable _ = t
  have ho : Only (P.pgLnk ||| P.pgPlc ||| P.pgPrf) u t := by
    subst ht
    refine .foldl (.comp (.foldl (.refl ..) fun v l => .ite (.put (.refl ..) covers_lnk) (.refl ..)) (State.showTiming_only ..)) fun v l => ?_
    exact (State.laneEnable_only v l).mono
  rw [← hf]
  exact get_of_stat (ho.stat (by decide)) (by decide)

/-- The end of the last step: CONFIGURE (R26, R35). -/
theorem passSelftest_configures {s : State} (ha : s.boot.ackLow = false) :
    s.passSelftest.mode = .configure ∧ s.passSelftest.get F.SYS_STRES_complete = 1 ∧ s.passSelftest.sram = [] ∧
      s.passSelftest.get F.SYS_STAT_role_pin = s.boot.rolePin.toNat ∧ s.passSelftest.get F.BIST_TIME2_total = s.get F.BIST_TIME2_total := by
  have hl := State.leaveSelftest_only (s.put F.SYS_STRES_complete 1)
  have hrole := leaveSelftest_role (s.put F.SYS_STRES_complete 1)
  have hsram : (s.put F.SYS_STRES_complete 1).leaveSelftest.sram = [] := by simp only [State.leaveSelftest]
  have hboot : ((s.put F.SYS_STRES_complete 1).leaveSelftest.setMode .configure).boot = s.boot := by
    rw [State.setMode, put_boot, hl.boot (by decide), put_boot]
  have hset (u : State) {f : Fld} (h : Fld.apart F.SYS_STAT_mode f = true) : (u.setMode .configure).get f = u.get f :=
    get_put_apart _ _ _ _ h
  unfold State.passSelftest
  dsimp only
  rw [if_neg (by rw [hboot, ha]; simp)]
  refine ⟨mode_setMode .., ?_, hsram, ?_, ?_⟩
  · rw [hset _ (by decide), hl.get, get_put_same _ _ _ (by decide)]
    rfl
  · rw [hset _ (by decide), hrole]
    rfl
  · rw [hset _ (by decide), hl.get, get_put_ne _ _ (by decide)]

/-- Step 6 begins with every lane in LOOPBACK (R34, R93). -/
theorem loopLanes_state (s : State) (l : Fin 4) : s.loopLanes.laneState l = 6 := by
  have same (u : State) (k : Nat) : (u.put (F.LNK_STAT_state k) 6).laneState k = 6 := get_put_same u _ 6 (show 0 + 3 ≤ 32 by decide)
  refine foldl_brings (Q := fun u => u.laneState l = 6) s (List.mem_range.mpr l.isLt) (fun u => same u l) fun u k hu => ?_
  by_cases h : R.LNK_STAT l = R.LNK_STAT k
  · have hk := same u k
    simp only [State.laneState, F.LNK_STAT_state, h] at hk ⊢
    exact hk
  · exact (get_put_ne u (f := F.LNK_STAT_state k) (g := F.LNK_STAT_state l) 6 (Ne.symm h)).trans hu

/-- A forced HOLD that ends SELFTEST shows the duration that the safety ticks counted (R55; log entry 57). -/
theorem forceHold_total {s : State} (hp : s.boot.phase = .up) (hm : s.mode = .selftest) (ha : s.boot.ackLow = false) (code detail : Nat) :
    (s.forceHold code detail).get F.BIST_TIME2_total = min (10 * s.boot.selfT) 65535 := by
  rw [forceHold_eq hp (fun _ => ha), if_pos hm, (State.enterHold_only ..).get, (State.withdraw_only _).get, get_put_same _ _ _ (by decide)]
  exact Nat.mod_eq_of_lt (by show min (10 * s.boot.selfT) 65535 < 2 ^ 16; omega)

/-- The first step passes with the identity block (R457). -/
theorem selftest_identified {r : StepRes} {s : State} (hp : s.boot.phase = .up) (hm : s.mode = .selftest) (h0 : s.boot.step = 0)
    (hid : s.idOk = true) :
    Does (.selftestStepComplete r) s (P.boot ||| P.adc ||| P.bist ||| P.pgAdc ||| P.draws ||| P.sys ||| P.pgSpd) fun t =>
      t.mode = .selftest ∧ t.boot = { s.boot with step := 1 } ∧ t.reg R.SYS_ID0 = BitVec.ofNat 32 (blkLe s.idBlock 0 4) := by
  have he := exec_selftestStep hp hm r (n := 1) (by rw [h0])
  have hu := stepDone_only s 1 r
  have hub := stepDone_boot s 1 r
  generalize s.stepDone 1 r = u at he hu hub
  have hr := State.readOtp_only u
  obtain ⟨hblk, huid⟩ := idBlock_congr (hu.otp (by decide))
  rw [if_pos rfl, if_pos ((idBlock_congr (hr.otp (by decide))).2.trans (huid.trans hid))] at he
  refine ⟨_, he, .comp hu.mono hr, hr.modeEq.trans (hu.modeEq.trans hm), (hr.boot (by decide)).trans hub, ?_⟩
  rw [readOtp_id0 (huid.trans hid), hblk]

/-- A step passes that is neither the first nor the last (R34, R93). -/
theorem selftest_passes {r : StepRes} {s : State} (hp : s.boot.phase = .up) (hm : s.mode = .selftest) {n : Nat} (hn : n = s.boot.step + 1)
    (h2 : 2 ≤ n) (h9 : n < 9) (hr : r.pass = true) :
    Does (.selftestStepComplete r) s (P.boot ||| P.sram ||| P.ecc ||| P.adc ||| P.bist ||| P.pgAdc ||| P.pgLnk) fun t =>
      t.mode = .selftest ∧ t.boot = { s.boot with step := n } ∧ (n = 4 → t.sram = []) ∧ (n ≠ 4 → t.sram = s.sram) ∧
        (n = 5 → ∀ l : Fin 4, t.laneState l = 6) := by
  have he := exec_selftestStep hp hm r hn
  rw [if_neg (by omega), if_neg (by simp [hr])] at he
  dsimp only at he
  rw [if_neg (by omega)] at he
  have hu := stepDone_only s n r
  have hub := stepDone_boot s n r
  generalize s.stepDone n r = u at he hu hub
  generalize hv : (if n = 4 then ({ u with sram := [], ecc1 := [], ecc2 := [] } : State) else u) = v at he
  have hvo : Only (P.boot ||| P.sram ||| P.ecc ||| P.adc ||| P.bist ||| P.pgAdc) s v := by
    subst hv
    exact .ite (.updMem hu.mono (hs := fun _ => rfl)) hu.mono
  have hvb : v.boot = u.boot := by
    subst hv
    split <;> rfl
  have h4 : n = 4 → v.sram = [] := by
    intro h
    rw [← hv, if_pos h]
  have hn4 : n ≠ 4 → v.sram = s.sram := by
    intro h
    rw [← hv, if_neg h, hu.sram (by decide)]
  have hl := State.loopLanes_only v
  by_cases h5 : n = 5
  · rw [if_pos h5] at he
    refine ⟨_, he, .comp hvo.mono hl, hl.modeEq.trans (hvo.modeEq.trans hm), ?_, fun h => absurd (h.symm.trans h5) (by decide),
      fun h => (hl.sram (by decide)).trans (hn4 h), fun _ => loopLanes_state v⟩
    rw [hl.boot (by decide), hvb, hub]
  · rw [if_neg h5] at he
    exact ⟨_, he, hvo.mono, hvo.modeEq.trans hm, hvb.trans hub, h4, hn4, fun h => absurd h h5⟩

/-- Settles O14: a step ends by its number, a failed one forces HOLD, and the last one ends SELFTEST. -/
theorem selftest : Obligations.Selftest := by
  intro r s hp hm ha
  have shown (n : Nat) : (s.stepDone n r).mode = .selftest ∧ (s.stepDone n r).boot = { s.boot with step := n } :=
    ⟨(stepDone_only s n r).modeEq.trans hm, stepDone_boot s n r⟩
  refine ⟨selftest_identified hp hm, fun h0 hid => ?_, fun n hn h2 h9 hr => ?_, fun n => selftest_passes hp hm, fun h8 hr => ?_, ?_⟩
  · have he := exec_selftestStep hp hm r (n := 1) (by rw [h0])
    obtain ⟨hum, hub⟩ := shown 1
    have ho := State.readOtp_only (s.stepDone 1 r)
    have hotp : (s.stepDone 1 r).readOtp.otp = s.otp := (ho.otp (by decide)).trans ((stepDone_only s 1 r).otp (by decide))
    have hvb : (s.stepDone 1 r).readOtp.boot = { s.boot with step := 1 } := (ho.boot (by decide)).trans hub
    rw [if_pos rfl, if_neg (by rw [(idBlock_congr hotp).2, hid]; decide)] at he
    obtain ⟨hhold, hcode, -, hbit, -⟩ := failStep_holds (s := (s.stepDone 1 r).readOtp) (by rw [hvb]; exact hp) (ho.modeEq.trans hum)
      (by rw [hvb]; exact ha) (n := 1) (by decide) 0 r.tot10 (code := 0x0A) (by decide)
    exact ⟨_, he, execSelftestStepComplete_only r s he, hhold, hcode, hbit⟩
  · have he := exec_selftestStep hp hm r hn
    obtain ⟨hum, hub⟩ := shown n
    rw [if_neg (by omega), if_pos hr] at he
    obtain ⟨hhold, hcode, hdet, hbit, htot⟩ := failStep_holds (s := s.stepDone n r) (by rw [hub]; exact hp) hum (by rw [hub]; exact ha) h9
      r.inst.toNat r.tot10 (code := 1) (by decide)
    exact ⟨_, he, execSelftestStepComplete_only r s he, hhold, hcode, hdet, hbit, htot⟩
  · have he := exec_selftestStep hp hm r (n := 9) (by rw [h8])
    obtain ⟨-, hub⟩ := shown 9
    rw [if_neg (by decide), if_neg (by simp [hr])] at he
    dsimp only at he
    rw [if_pos rfl, if_neg (by decide), if_neg (by decide)] at he
    obtain ⟨hmode, hcomp, hsram, hrole, htot⟩ := passSelftest_configures
      (s := (s.stepDone 9 r).put F.BIST_TIME2_total (min r.tot10 65535)) (by rw [put_boot, hub]; exact ha)
    refine ⟨_, he, execSelftestStepComplete_only r s he, hmode, hcomp, hsram, ?_, htot.trans ?_⟩
    · rw [hrole, put_boot, hub]
    · exact (get_put_same _ _ _ (by decide)).trans (Nat.mod_eq_of_lt (by show min r.tot10 65535 < 2 ^ 16; omega))
  · have he : exec .selftestTimerExpiry s = .next ((s.put ⟨R.BIST_TIME2, 8, 1⟩ 1).forceHold 1 (4096 * (s.boot.step + 1))) := by
      show execSelftestTimerExpiry s = _
      rw [execSelftestTimerExpiry, if_pos ⟨hp, hm⟩]
    have hum : (s.put ⟨R.BIST_TIME2, 8, 1⟩ 1).mode = .selftest := by
      rw [← hm]
      exact mode_congr (get_put_ne _ _ (by decide))
    obtain ⟨hhold, hcode, hdet, -, -⟩ := forceHold_up (s := s.put ⟨R.BIST_TIME2, 8, 1⟩ 1) hp (by rw [hum]; decide) (fun _ => ha) 1
      (4096 * (s.boot.step + 1))
    exact ⟨_, he, execSelftestTimerExpiry_only s he, hhold, hcode, hdet, forceHold_total (s := s.put ⟨R.BIST_TIME2, 8, 1⟩ 1) hp hum ha _ _⟩

end Sys2Proof.Machine

end

section
/-! What the action of a fault leaves: its record, its count and its entry in the log (O50). -/

set_option Elab.async false

namespace Sys2Proof.Machine

theorem eventIf_get (s : State) (c : Bool) (p n : Nat) {f : Fld} (h : f.addr ≠ R.PIRQ_RAW p) : (s.eventIf c p n).get f = s.get f := by
  unfold State.eventIf
  split
  · exact get_setReg_ne _ _ h
  · rfl

/-- A record in the fault log (R331, R332): its two words, and the pointer that moves on. -/
theorem logFault_writes (s : State) (cls inst what act : Nat) {k : Nat} (hk : k = s.get F.FLT_LOGPTR_next) :
    (s.logFault cls inst what act).get F.FLT_LOGPTR_next = (k + 1) % 16 ∧
      (s.logFault cls inst what act).reg (R.FLT_LOGLo k) = BitVec.ofNat 32 (cls + 64 * what + 256 * act + 65536 * inst) ∧
      (s.logFault cls inst what act).reg (R.FLT_LOGHi k) = s.reg R.CLS_PNOW := by
  have hpnow (c : Bool) : (s.eventIf c 18 5).reg R.CLS_PNOW = s.reg R.CLS_PNOW := by
    unfold State.eventIf
    split
    · exact reg_setReg_ne _ _ (by decide)
    · rfl
  have hlo : R.FLT_LOGLo k ≠ R.FLT_LOGPTR := by unfold R.FLT_LOGLo R.FLT_LOGPTR; omega
  have hhi : R.FLT_LOGHi k ≠ R.FLT_LOGPTR := by unfold R.FLT_LOGHi R.FLT_LOGPTR; omega
  have hlh : R.FLT_LOGLo k ≠ R.FLT_LOGHi k := by unfold R.FLT_LOGLo R.FLT_LOGHi; omega
  unfold State.logFault
  rw [← hk]
  dsimp only
  generalize decide (s.get (F.FLT_LOGLo_what k) ≠ 0 ∧ s.flt.unread.contains k = true) = c
  refine ⟨?_, ?_, ?_⟩
  · exact (get_put_apart _ _ _ _ (by decide)).trans (get_put_same _ _ _ (by decide))
  · refine (reg_put_ne _ _ _ hlo).trans ((reg_put_ne _ _ _ hlo).trans ?_)
    rw [State.setRegN, reg_setReg_ne _ _ hlh, State.setRegN, reg_setReg_same]
  · refine (reg_put_ne _ _ _ hhi).trans ((reg_put_ne _ _ _ hhi).trans ?_)
    rw [State.setRegN, reg_setReg_same, State.pnow, State.regN, BitVec.ofNat_toNat, BitVec.setWidth_eq, hpnow]

/-- The record of a fault whose action is taken (R318, R319). -/
def FltInst.taken (i : FltInst) (act : Nat) (holds : Option (List Nat)) : FltInst :=
  { i with latched := true, count := none, due := none, act := act, holds := holds }

/-- The action of a fault is taken, up to the aspects, the mode and the safety outputs (R318, R319, R331). -/
def State.latchAction (s : State) (cls inst : Nat) (holds : Option (List Nat)) : State :=
  (((s.setInst cls inst ((s.fltInst cls inst).taken (s.actionOf cls) holds)).inc F.FLT_CNT_actions).event 18 1).logFault
    cls inst 1 (s.actionOf cls)

theorem takeAction_latches (s : State) (cls inst : Nat) : ∃ holds, s.takeAction cls inst =
    ((s.latchAction cls inst holds).updateOff.modeAction cls (s.actionOf cls)).sioDrive := ⟨_, rfl⟩

theorem latchAction_only (s : State) (cls inst : Nat) (holds : Option (List Nat)) :
    Only (P.flt ||| P.pgFlt) s (s.latchAction cls inst holds) :=
  .comp (.event (.inc (.comp (.refl ..) (State.setInst_only ..)))) (State.logFault_only ..)

/-- The mode in which an action is taken stays while it is (R326). -/
theorem latchAction_actMode (s : State) (cls inst : Nat) (holds : Option (List Nat)) :
    (s.latchAction cls inst holds).actMode = s.actMode := by
  have hc : (s.latchAction cls inst holds).flt.cyc = s.flt.cyc := by
    unfold State.latchAction State.logFault
    dsimp only
    unfold State.eventIf
    split <;> rfl
  rw [State.actMode, hc, (latchAction_only ..).modeEq, State.actMode]

/-- The record of the fault after its action (R318). -/
theorem latchAction_inst (s : State) (cls inst : Nat) (holds : Option (List Nat)) :
    (s.latchAction cls inst holds).fltInst cls inst = (s.fltInst cls inst).taken (s.actionOf cls) holds := by
  have hi : (s.latchAction cls inst holds).flt.insts =
      (s.setInst cls inst ((s.fltInst cls inst).taken (s.actionOf cls) holds)).flt.insts := by
    unfold State.latchAction State.logFault
    dsimp only
    unfold State.eventIf
    split <;> rfl
  rw [State.fltInst, hi, State.setInst]
  simp

/-- The count of the actions and the log after an action (R331, R332). -/
theorem latchAction_writes (s : State) (cls inst : Nat) (holds : Option (List Nat)) {k : Nat} (hk : k = s.get F.FLT_LOGPTR_next) :
    (s.latchAction cls inst holds).get F.FLT_CNT_actions = s.plusOne F.FLT_CNT_actions ∧
      (s.latchAction cls inst holds).get F.FLT_LOGPTR_next = (k + 1) % 16 ∧
      (s.latchAction cls inst holds).reg (R.FLT_LOGLo k) = BitVec.ofNat 32 (cls + 64 + 256 * s.actionOf cls + 65536 * inst) ∧
      (s.latchAction cls inst holds).reg (R.FLT_LOGHi k) = s.reg R.CLS_PNOW := by
  unfold State.latchAction
  generalize hu : s.setInst cls inst _ = u
  have hg (f : Fld) : u.get f = s.get f := by subst hu; rfl
  have hr : u.reg R.CLS_PNOW = s.reg R.CLS_PNOW := by subst hu; rfl
  have hptr : ((u.inc F.FLT_CNT_actions).event 18 1).get F.FLT_LOGPTR_next = k := by
    rw [hk, ← hg]
    exact (get_setReg_ne _ _ (by decide)).trans (get_put_ne _ _ (by decide))
  have hnow : ((u.inc F.FLT_CNT_actions).event 18 1).reg R.CLS_PNOW = s.reg R.CLS_PNOW := by
    rw [← hr]
    exact (reg_setReg_ne _ _ (by decide)).trans (reg_put_ne _ _ _ (by decide))
  obtain ⟨hnext, hlo, hhi⟩ := logFault_writes ((u.inc F.FLT_CNT_actions).event 18 1) cls inst 1 (s.actionOf cls) hptr.symm
  refine ⟨?_, hnext, hlo, hhi.trans hnow⟩
  have hcnt : ((u.inc F.FLT_CNT_actions).event 18 1).get F.FLT_CNT_actions = s.plusOne F.FLT_CNT_actions := by
    rw [State.plusOne, ← hg]
    exact (get_setReg_ne _ _ (by decide)).trans (inc_get u _ (by decide))
  refine Eq.trans ?_ hcnt
  generalize (u.inc F.FLT_CNT_actions).event 18 1 = v
  have hne (j : Nat) : F.FLT_CNT_actions.addr ≠ R.FLT_LOGLo j ∧ F.FLT_CNT_actions.addr ≠ R.FLT_LOGHi j := by
    simp only [F.FLT_CNT_actions, R.FLT_CNT, R.FLT_LOGLo, R.FLT_LOGHi]
    omega
  unfold State.logFault
  dsimp only
  refine (get_put_ne _ _ (by decide)).trans ((get_put_ne _ _ (by decide)).trans ?_)
  rw [State.setRegN, get_setReg_ne _ _ (hne _).2, State.setRegN, get_setReg_ne _ _ (hne _).1, eventIf_get _ _ _ _ (by decide)]

/-- The words of the log lie outside a footprint without the page of the faults. -/
theorem leaves_log {E k : Nat} (h : E.testBit 46 = false := by decide) :
    leaves E (R.FLT_LOGLo k) = true ∧ leaves E (R.FLT_LOGHi k) = true := by
  have hp : wordPart (R.FLT_LOGLo k) = 46 ∧ wordPart (R.FLT_LOGHi k) = 46 := by
    constructor
    · exact (wordPart_page (b := R.FLT_CNT) (by unfold R.FLT_LOGLo; omega) (by unfold R.FLT_LOGLo R.FLT_CNT; omega)).trans (by decide)
    · exact (wordPart_page (b := R.FLT_CNT) (by unfold R.FLT_LOGHi; omega) (by unfold R.FLT_LOGHi R.FLT_CNT; omega)).trans (by decide)
  simp only [leaves, hp.1, hp.2, h, Bool.not_false, Bool.and_true, Bool.and_eq_true, decide_eq_true_eq, bne_iff_ne]
  unfold R.FLT_LOGLo R.FLT_LOGHi
  omega

/-- The last steps of an entry into FALLBACK (R48). -/
theorem fallbackLast_only (u : State) : Only (P.vid ||| P.light ||| P.sio ||| P.pgSio ||| P.chains ||| P.flt ||| P.pgAsp) u
    ((((u.initOffsets).markAll).clearFbInput).evalPolicies) :=
  .comp (.comp (.comp (.comp (.refl ..) (State.initOffsets_only _)) (State.markAll_only _)) (State.clearFbInput_only _))
    (State.evalPolicies_only _)

/-- Entry into FALLBACK from OPERATE (R48). -/
theorem enterFallback_eq {s : State} (hm : s.mode = .operate) (hd : s.boot.dark = none) (hv : s.get F.SYS_FBSTAT_valid = 1) :
    s.enterFallback = (((((s.passAfresh).setMode .fallback).initOffsets).markAll).clearFbInput).evalPolicies := by
  unfold State.enterFallback
  rw [if_neg (by simp [hm, State.darkRel, hd]), if_neg (by rw [hv]; decide)]

theorem enterFallback_mode {s : State} (hm : s.mode = .operate) (hd : s.boot.dark = none) (hv : s.get F.SYS_FBSTAT_valid = 1) :
    s.enterFallback.mode = .fallback := by
  rw [enterFallback_eq hm hd hv, (fallbackLast_only _).modeEq, mode_setMode]

/-- A mode action shows its class, and leaves the mode (R331). -/
theorem modeTook_class (s : State) (cls : Nat) : (s.modeTook cls).mode = s.mode ∧
    (s.modeTook cls).get F.FLT_ACT_mclass = cls % 64 := by
  refine ⟨(State.modeTook_only ..).modeEq, ?_⟩
  exact (get_setReg_ne _ _ (by decide)).trans ((get_put_apart _ _ _ _ (by decide)).trans (get_put_same _ _ _ (by decide)))

/-- A FALLBACK action in OPERATE (R319). -/
theorem modeAction_fallback {s : State} {cls : Nat} (ha : s.actMode = .operate) (hm : s.mode = .operate) (hd : s.boot.dark = none)
    (ht : s.pair.tkP = none) : s.modeAction cls 3 = s.enterFallback.modeTook cls := by
  unfold State.modeAction
  rw [ha]
  show s.fallbackAction cls = _
  rw [State.fallbackAction, if_pos hm, if_neg (by simp [State.darkRel, hd, ht])]

/-- A HOLD action outside HOLD (R319, R326). -/
theorem modeAction_hold {s : State} {cls : Nat} (ha : s.actMode = .operate ∨ s.actMode = .fallback ∨ s.actMode = .configure)
    (hm : s.mode ≠ .hold) : s.modeAction cls 4 = (s.enterHold 6 cls).modeTook cls := by
  have : s.modeAction cls 4 = s.holdAction cls := by
    unfold State.modeAction
    rcases ha with ha | ha | ha <;> rw [ha] <;> rfl
  rw [this, State.holdAction, if_neg (fun h => hm h.1), if_neg hm]

/-- The action of a fault whose debounce count is reached, in the mode in which it was (R317, R326). -/
theorem debounceExpiry_acts {cls : Fin 64} {inst : BitVec 16} {m : Mode} {act : Nat} {s : State}
    (hdue : (s.fltInst cls inst.toNat).due = some m)
    (ha : act = (if m = .fallback then (clsInfo cls).floor else s.get (F.FLT_RCT_action cls))) :
    ∃ b u : State, Only (P.flt ||| P.chains ||| P.light ||| P.pgAsp ||| P.pgFlt) s u ∧ Only (P.chains ||| P.light ||| P.pgAsp) b u ∧
      u.actMode = m ∧ exec (.debounceExpiry cls inst) s = .next (((u.modeAction cls act).sioDrive).cycleOff s.flt.cyc) ∧
      b.fltInst cls inst.toNat = (s.fltInst cls inst.toNat).taken act (b.fltInst cls inst.toNat).holds ∧
      b.get F.FLT_CNT_actions = s.plusOne F.FLT_CNT_actions ∧
      b.get F.FLT_LOGPTR_next = (s.get F.FLT_LOGPTR_next + 1) % 16 ∧
      b.reg (R.FLT_LOGLo (s.get F.FLT_LOGPTR_next)) = BitVec.ofNat 32 (cls + 64 + 256 * act + 65536 * inst.toNat) ∧
      b.reg (R.FLT_LOGHi (s.get F.FLT_LOGPTR_next)) = s.reg R.CLS_PNOW := by
  have hx : exec (.debounceExpiry cls inst) s =
      .next ((({ s with flt := { s.flt with cyc := some m } }).takeAction cls inst.toNat).cycleOff s.flt.cyc) := by
    show execDebounceExpiry cls inst s = _
    rw [execDebounceExpiry, hdue]
  have hc : Only P.flt s { s with flt := { s.flt with cyc := some m } } := .upd (.refl ..)
  have hact : ({ s with flt := { s.flt with cyc := some m } } : State).actionOf cls = act := ha.symm
  have hm : ({ s with flt := { s.flt with cyc := some m } } : State).actMode = m := rfl
  have hk : s.get F.FLT_LOGPTR_next = ({ s with flt := { s.flt with cyc := some m } } : State).get F.FLT_LOGPTR_next := rfl
  have hi : ({ s with flt := { s.flt with cyc := some m } } : State).fltInst cls inst.toNat = s.fltInst cls inst.toNat := rfl
  have hcnt : ({ s with flt := { s.flt with cyc := some m } } : State).plusOne F.FLT_CNT_actions = s.plusOne F.FLT_CNT_actions := rfl
  have hnow : ({ s with flt := { s.flt with cyc := some m } } : State).reg R.CLS_PNOW = s.reg R.CLS_PNOW := rfl
  generalize ({ s with flt := { s.flt with cyc := some m } } : State) = v at *
  obtain ⟨holds, ht⟩ := takeAction_latches v cls inst.toNat
  obtain ⟨h1, h2, h3, h4⟩ := latchAction_writes v cls inst.toNat holds hk
  have h5 := latchAction_inst v cls inst.toNat holds
  have h6 := State.updateOff_only (v.latchAction cls inst.toNat holds)
  have h7 := latchAction_actMode v cls inst.toNat holds
  rw [hact] at ht h3 h5
  refine ⟨_, _, .comp (.comp hc.mono (latchAction_only ..)) h6, h6, ?_, ?_, ?_, h1.trans hcnt, h2, h3, h4.trans hnow⟩
  · rw [State.actMode, h6.flt (by decide), h6.modeEq, ← State.actMode, h7, hm]
  · rw [hx, ht]
  · rw [h5, hi]
    rfl

/-- The safety outputs follow, and the core cycle is over: the mode and the other pages stay (R383, R326). -/
theorem cycleEnd_only (u : State) (c : Option Mode) : Only (P.sio ||| P.pgSio ||| P.flt) u ((u.sioDrive).cycleOff c) :=
  .comp (.comp (.refl ..) (State.sioDrive_only _)) (State.cycleOff_only ..)

theorem cycleOff_insts (u : State) (c : Option Mode) : (u.cycleOff c).flt.insts = u.flt.insts := rfl

/-- Settles O50: the action is that of the mode in which the count was reached, and the record, the count and the log are written before
the mode changes. -/
theorem debouncedAction : Obligations.DebouncedAction := by
  intro cls inst m act s hdue ha
  obtain ⟨b, u, hsu, hbu, hm, hx, hinst, hcnt, hnext, hlo, hhi⟩ := debounceExpiry_acts hdue ha
  have hcls : cls.val % 64 = cls := Nat.mod_eq_of_lt cls.isLt
  refine ⟨fun h2 => ?_, fun h3 hop hsm hd ht hv => ?_, fun h4 hmm hsm => ?_⟩
  · rw [modeAction_low u cls h2] at hx
    have ho : Only (P.chains ||| P.light ||| P.pgAsp ||| P.sio ||| P.pgSio ||| P.flt) b ((u.sioDrive).cycleOff s.flt.cyc) :=
      .comp hbu.mono (cycleEnd_only ..)
    have hf : ((u.sioDrive).cycleOff s.flt.cyc).fltInst cls inst.toNat = b.fltInst cls inst.toNat := by
      have hi : ((u.sioDrive).cycleOff s.flt.cyc).flt.insts = b.flt.insts := by
        rw [cycleOff_insts, (State.sioDrive_only u).flt (by decide), hbu.flt (by decide)]
      rw [State.fltInst, hi, State.fltInst]
    refine ⟨_, hx, execDebounceExpiry_only cls inst s hx, ?_, ?_, ?_, ?_, ?_, ?_, ?_, ?_⟩
    · exact (cycleEnd_only ..).modeEq.trans hsu.modeEq
    · rw [hf, hinst, FltInst.taken]
    · rw [hf, hinst, FltInst.taken]
    · rw [hf, hinst, FltInst.taken]
    · exact (ho.get (by decide)).trans hcnt
    · exact (ho.get (by decide)).trans hnext
    · exact (ho.word _ (leaves_log (by decide)).1).trans hlo
    · exact (ho.word _ (leaves_log (by decide)).2).trans hhi
  · subst h3
    have hum := hsu.modeEq.trans hsm
    have hub : u.boot.dark = none := by rw [hsu.boot (by decide), hd]
    rw [modeAction_fallback (hm.trans hop) hum hub (by rw [hsu.pair (by decide), ht])] at hx
    obtain ⟨hmode, hclass⟩ := modeTook_class u.enterFallback cls
    refine ⟨_, hx, execDebounceExpiry_only cls inst s hx, ?_, ?_⟩
    · rw [(cycleEnd_only ..).modeEq, hmode, enterFallback_mode hum hub ((hsu.get (by decide)).trans hv)]
    · rw [(cycleEnd_only ..).get (by decide), hclass, hcls]
  · subst h4
    have hum : u.mode ≠ .hold := by rwa [hsu.modeEq]
    rw [modeAction_hold (by rwa [hm]) hum] at hx
    obtain ⟨hmode, -⟩ := modeTook_class (u.enterHold 6 cls) cls
    obtain ⟨hhold, hcode, hdet, -, -⟩ := enterHold_enters hum 6 cls
    have hrest : Only (P.pgFlt ||| P.sio ||| P.pgSio ||| P.flt) (u.enterHold 6 cls)
        ((((u.enterHold 6 cls).modeTook cls).sioDrive).cycleOff s.flt.cyc) :=
      .comp (.comp (.refl ..) (State.modeTook_only ..)) (cycleEnd_only ..)
    refine ⟨_, hx, execDebounceExpiry_only cls inst s hx, ?_, ?_, ?_⟩
    · rw [hrest.modeEq, hhold]
    · rw [hrest.get (by decide), hcode]
    · rw [hrest.get (by decide), hdet, Nat.mod_eq_of_lt (by omega)]

end Sys2Proof.Machine

end

section
/-! The counts of the safe PDU connection stay while a fault acts (R147, R149). -/

set_option Elab.async false

namespace Sys2Proof.Machine

/-- The words that count what the safe PDU connection missed. -/
def missWords : List Nat := [R.SPD_RXSTAT, R.SPD_LOST]

/-- A step that leaves these counts. Every fault's action is such a step, though its footprint holds their page: where it enters HOLD, it
ends an item of OTP programming (R158). -/
structure MissStays (s t : State) : Prop where
  word : ∀ a ∈ missWords, t.reg a = s.reg a

theorem MissStays.refl (s : State) : MissStays s s := ⟨fun _ _ => rfl⟩

theorem MissStays.comp {s t u : State} (h : MissStays s t) (k : MissStays t u) : MissStays s u :=
  ⟨fun a ha => (k.word a ha).trans (h.word a ha)⟩

theorem MissStays.of {E : Nat} {s t : State} (h : Only E s t) (hE : missWords.all (leaves E) = true := by decide) : MissStays s t :=
  ⟨fun a ha => h.word a (List.all_eq_true.mp hE a ha)⟩

theorem MissStays.put {s t : State} {f : Fld} {v : Nat} (h : MissStays s t) (hf : f.addr ∉ missWords := by decide) :
    MissStays s (t.put f v) :=
  h.comp ⟨fun _ ha => reg_put_ne _ _ _ fun he => hf (he ▸ ha)⟩

/-- A record update beside the register file. -/
theorem MissStays.upd {s t : State} (h : MissStays s t) {pending' now' pstart' sram' ecc1' ecc2' otp' boot' isl' cl' vid' fades' chains'
    tiles' light' flt' adc' bal' spl' sio' skink' link' spi' spd' pair' out' draws'} :
    MissStays s ⟨pending', now', pstart', t.regs, sram', ecc1', ecc2', otp', boot', isl', cl', vid', fades', chains', tiles', light',
      flt', adc', bal', spl', sio', skink', link', spi', spd', pair', out', draws'⟩ := ⟨h.word⟩

theorem MissStays.ite {s a b : State} {c : Prop} [Decidable c] (ha : MissStays s a) (hb : MissStays s b) :
    MissStays s (if c then a else b) := by split <;> assumption

/-- The result of a PDU is shown in a word of its own (R146). -/
theorem pduResult_missStays (s : State) (seq done status : Nat) : MissStays s (s.pduResult seq done status) := by
  have h (u : State) (c : Bool) : MissStays u (u.eventIf c 9 3) := .of (E := 0) (.eventIf (.refl ..))
  exact .comp (.put (.put (.put (.put (.refl s))))) (h ..)

theorem holdOtp_missStays (s : State) : MissStays s s.holdOtp := by
  have h : MissStays s (((s.cutOtp.put F.SPD_OTPSTAT_busy 0).put F.SPD_OTPSTAT_err 1).event 9 9) :=
    .comp (.put (.put (.of (State.cutOtp_only s)))) (.of (E := 0) (.event (.refl ..)))
  unfold State.holdOtp
  refine .ite ?_ (.refl s)
  dsimp only
  generalize ((s.cutOtp.put F.SPD_OTPSTAT_busy 0).put F.SPD_OTPSTAT_err 1).event 9 9 = u at h
  refine .upd ?_
  split
  · exact h.comp (pduResult_missStays ..)
  · exact h

theorem enterHold_missStays (s : State) (code detail : Nat) : MissStays s (s.enterHold code detail) := by
  have h0 (u : State) (h : MissStays s u) : MissStays s (((((u.ownSwap.put F.SYS_HOLDCAUSE_code code).put F.SYS_HOLDCAUSE_detail
      detail).setMode .hold).withdraw.abortClause true).stopLight.darkOff) :=
    .comp (.comp (.comp (.comp (.put (f := F.SYS_STAT_mode) (.put (.put (.comp h (.of (State.ownSwap_only _))))))
      (.of (State.withdraw_only _))) (.of (State.abortClause_only ..))) (.of (State.stopLight_only _))) (.of (State.darkOff_only _))
  have h1 (u : State) : MissStays u ((u.holdOtp).clearFbInput.ccvAbandon) :=
    .comp (.comp (holdOtp_missStays u) (.of (State.clearFbInput_only _))) (.of (State.ccvAbandon_only _))
  unfold State.enterHold
  refine .ite (.put (.refl s)) ?_
  dsimp only
  exact .comp (.upd (.comp (h0 _ (.ite (.of (State.leaveSelftest_only s)) (.refl s))) (h1 _))) (.of (State.evalPolicies_only _))

theorem enterFallback_missStays (s : State) : MissStays s s.enterFallback := by
  unfold State.enterFallback
  refine .ite (.refl s) (.ite (enterHold_missStays ..) ?_)
  exact .comp (.put (f := F.SYS_STAT_mode) (.of (State.passAfresh_only s))) (.of (fallbackLast_only _))

theorem holdAction_missStays (s : State) (cls : Nat) : MissStays s (s.holdAction cls) := by
  unfold State.holdAction
  refine .ite (.ite (.refl s) (.comp (.put (.put (.refl s))) (.of (State.modeTook_only ..)))) (.ite (enterHold_missStays ..) ?_)
  exact .comp (enterHold_missStays ..) (.of (State.modeTook_only ..))

theorem fallbackAction_missStays (s : State) (cls : Nat) : MissStays s (s.fallbackAction cls) := by
  unfold State.fallbackAction
  refine .ite (.ite (.refl s) (.comp (enterFallback_missStays s) (.of (State.modeTook_only ..)))) ?_
  exact .ite (.put (.refl s)) (.refl s)

theorem modeAction_missStays (s : State) (cls act : Nat) : MissStays s (s.modeAction cls act) := by
  have hk := holdAction_missStays s cls
  unfold State.modeAction
  split
  · exact fallbackAction_missStays s cls
  · exact hk
  · exact hk
  · exact hk
  · exact hk
  · exact .ite (.refl s) hk
  · exact .ite (.refl s) hk
  · exact .refl s

theorem takeAction_missStays (s : State) (cls inst : Nat) : MissStays s (s.takeAction cls inst) := by
  obtain ⟨holds, ht⟩ := takeAction_latches s cls inst
  rw [ht]
  refine .comp (.comp (.comp (.of (latchAction_only s cls inst holds)) (.of (State.updateOff_only _))) ?_) (.of (State.sioDrive_only _))
  exact modeAction_missStays ..

theorem setCond_missStays (s : State) (cls inst : Nat) (b : Bool) : MissStays s (s.setCond cls inst b) := by
  have h (i : FltInst) : MissStays s ((s.setInst cls inst i).event 18 0) := .of (E := P.flt) (.event (State.setInst_only ..))
  unfold State.setCond
  dsimp only
  refine .ite (.refl s) (.ite (.ite (.comp (h _) (takeAction_missStays ..)) (h _)) ?_)
  exact .of (State.setInst_only ..)

end Sys2Proof.Machine

end
section
/-! Host loss, a missed deadline, and the time limit of a configuration (O25). -/

set_option Elab.async false

namespace Sys2Proof.Machine

/-- A missed deadline counts in both its counters, whether or not the fault acts (R148, R149). -/
theorem deadlineMiss_counts {s : State} (hl : s.live = true) (ht : s.spd.texp ≠ 0) (hd : 10 * s.spd.texp < s.spd.dl) :
    Does .deadlineMiss s P.fault fun t => t.get F.SPD_RXSTAT_miss = min (s.get F.SPD_RXSTAT_miss + 1) 255 ∧
      t.get F.SPD_LOST_late = min (s.get F.SPD_LOST_late + 1) 65535 := by
  have hx : exec .deadlineMiss s = _ := show execDeadlineMiss s = _ by rw [execDeadlineMiss, if_pos ⟨hl, ht, hd⟩]
  refine ⟨_, hx, execDeadlineMiss_only s hx, ?_⟩
  dsimp only
  have hmiss : ((s.inc F.SPD_RXSTAT_miss).inc F.SPD_LOST_late).get F.SPD_RXSTAT_miss = min (s.get F.SPD_RXSTAT_miss + 1) 255 :=
    (get_put_ne _ _ (by decide)).trans (inc_get s _ (by decide))
  have hlate : ((s.inc F.SPD_RXSTAT_miss).inc F.SPD_LOST_late).get F.SPD_LOST_late = min (s.get F.SPD_LOST_late + 1) 65535 := by
    rw [inc_get _ _ (by decide), State.plusOne, show (s.inc F.SPD_RXSTAT_miss).get F.SPD_LOST_late = s.get F.SPD_LOST_late from
      get_put_ne _ _ (by decide)]
    rfl
  rw [← hmiss, ← hlate]
  generalize (s.inc F.SPD_RXSTAT_miss).inc F.SPD_LOST_late = u
  have hk : MissStays u ((u.event 9 1).onSpd fun d => { d with dl := 1 }) :=
    .of (E := P.spd) (.comp (.event (.refl ..)) (State.onSpd_only ..))
  generalize (u.event 9 1).onSpd (fun d => { d with dl := 1 }) = v at hk
  have hv := MissStays.ite (c := v.get F.SPD_RXCFG_maxmiss ≤ v.get F.SPD_RXSTAT_miss) (hk.comp (setCond_missStays v 21 0 true)) hk
  exact ⟨congrArg (getBits · 8 8) (hv.word _ (by decide)), congrArg (getBits · 16 16) (hv.word _ (by decide))⟩

/-- The pair role follows the ROLE pin, a few words, and what the device knows of its partner (R411). -/
theorem roleRow_congr {s t : State} (hpin : t.get F.SYS_STAT_role_pin = s.get F.SYS_STAT_role_pin)
    (hw : ∀ a ∈ [R.AXO_CFG, R.PCTRL 30, R.AXO_PSER, R.SYS_ID0], t.reg a = s.reg a) (hp : t.pair = s.pair) (hs : t.spd = s.spd) :
    t.roleRow = s.roleRow := by
  have hf {f : Fld} (h : f.addr ∈ [R.AXO_CFG, R.PCTRL 30, R.AXO_PSER, R.SYS_ID0]) : t.get f = s.get f := by
    rw [State.get, hw _ h, State.get]
  have hpaired : t.paired = s.paired := by
    rw [State.paired, State.on, State.on, hf (by decide), hf (by decide)]
    rfl
  have hheard (n : Nat) : t.heard n = s.heard n := by rw [State.heard, hf (by decide), State.heard]
  have hser : t.regN R.AXO_PSER = s.regN R.AXO_PSER ∧ t.serialLo = s.serialLo := by
    simp only [State.regN, State.serialLo, hw _ (show R.AXO_PSER ∈ _ by decide), hw _ (show R.SYS_ID0 ∈ _ by decide), and_self]
  unfold State.roleRow
  simp only [hpaired, hheard, hser, hp, hs, State.on, hpin, hf (show F.AXO_CFG_alone.addr ∈ _ by decide)]
  congr

/-- SYS_STAT.host_lost and SPD_RXSTAT.synced as the host is lost (R49, R147). -/
def State.markLost (s : State) : State :=
  if s.live && decide (10 * s.get F.SYS_HOSTTO_ms < s.spd.host) && !s.on F.SYS_STAT_host_lost then
    (s.put F.SYS_STAT_host_lost 1).put F.SPD_RXSTAT_synced 0 else s

/-- Host loss in each mode (R48, R49, R50). -/
theorem exec_hostLoss (s : State) : exec .hostLoss s = .next (match s.markLost.mode with
    | .operate => if s.live && decide (10 * s.get F.SYS_HOSTTO_ms < s.spd.host) then s.markLost.enterFallback else s.markLost
    | .fallback => if s.live && decide (10 * s.get F.SYS_HOSTTO_ms < s.spd.host) then s.markLost.cancelBack else s.markLost
    | .configure => if s.markLost.boot.cfgFailed ∧ 10 * s.get F.SYS_HOSTTO_ms < s.markLost.spd.failT then
        s.markLost.fallbackFromConfigure else s.markLost
    | _ => s.markLost) := rfl

/-- What the mark of a lost host leaves. -/
theorem markLost_keeps (s : State) : s.markLost.boot = s.boot ∧ s.markLost.spd = s.spd ∧ s.markLost.light = s.light ∧
    s.markLost.mode = s.mode ∧ s.markLost.get F.SYS_FBSTAT_valid = s.get F.SYS_FBSTAT_valid ∧
    s.markLost.get F.SYS_FBSTAT_check = s.get F.SYS_FBSTAT_check ∧ s.markLost.roleRow = s.roleRow := by
  unfold State.markLost
  split
  · refine ⟨by simp only [put_boot], rfl, rfl, ?_, ?_, ?_, roleRow_congr ?_ ?_ rfl rfl⟩
    · exact mode_congr ((get_put_ne _ _ (by decide)).trans (get_put_apart _ _ _ _ (by decide)))
    · exact (get_put_ne _ _ (by decide)).trans (get_put_ne _ _ (by decide))
    · exact (get_put_ne _ _ (by decide)).trans (get_put_ne _ _ (by decide))
    · exact (get_put_ne _ _ (by decide)).trans (get_put_apart _ _ _ _ (by decide))
    · have hne : ∀ a ∈ [R.AXO_CFG, R.PCTRL 30, R.AXO_PSER, R.SYS_ID0], a ≠ R.SPD_RXSTAT ∧ a ≠ R.SYS_STAT := by decide
      exact fun a ha => (reg_put_ne _ _ _ (hne a ha).1).trans (reg_put_ne _ _ _ (hne a ha).2)
  · exact ⟨rfl, rfl, rfl, rfl, rfl, rfl, rfl⟩

/-- A lost host is shown, and where it was not lost before, the connection is not synchronised (R49, R147). -/
theorem markLost_shows {s : State} (hl : s.live = true) (hh : 10 * s.get F.SYS_HOSTTO_ms < s.spd.host) :
    s.markLost.get F.SYS_STAT_host_lost = 1 ∧ (s.get F.SYS_STAT_host_lost = 0 →
      s.markLost = (s.put F.SYS_STAT_host_lost 1).put F.SPD_RXSTAT_synced 0) := by
  by_cases h0 : s.get F.SYS_STAT_host_lost = 0
  · have he : s.markLost = (s.put F.SYS_STAT_host_lost 1).put F.SPD_RXSTAT_synced 0 := by
      rw [State.markLost, if_pos (by simp [hl, hh, State.on, h0])]
    refine ⟨?_, fun _ => he⟩
    rw [he]
    exact (get_put_ne _ _ (by decide)).trans (get_put_same _ _ _ (by decide))
  · have he : s.markLost = s := by rw [State.markLost, if_neg (by simp [State.on, h0])]
    have := get_lt s F.SYS_STAT_host_lost
    refine ⟨?_, fun h => absurd h h0⟩
    rw [he]
    exact Nat.le_antisymm (Nat.lt_succ_iff.mp this) (Nat.pos_of_ne_zero h0)

/-- In the modes that a host loss leaves, it is only shown (R49). -/
theorem hostLoss_shows {s : State} (hl : s.live = true) (hh : 10 * s.get F.SYS_HOSTTO_ms < s.spd.host)
    (h0 : s.get F.SYS_STAT_host_lost = 0) (hm : s.mode = .mirror ∨ s.mode = .hold ∨ s.mode = .configure ∧ s.boot.cfgFailed = false ∨
      s.mode = .fallback ∧ s.light.back = false) :
    Puts .hostLoss s [R.SYS_STAT, R.SPD_RXSTAT] fun t =>
      t.get F.SYS_STAT_host_lost = 1 ∧ t.get F.SPD_RXSTAT_synced = 0 ∧ t.mode = s.mode := by
  obtain ⟨hboot, -, hlight, hmode, -⟩ := markLost_keeps s
  obtain ⟨hlost, he⟩ := markLost_shows hl hh
  have hx : exec .hostLoss s = .next s.markLost := by
    rw [exec_hostLoss, hmode]
    rcases hm with hm | hm | ⟨hm, hc⟩ | ⟨hm, hb⟩ <;> rw [hm] <;> dsimp only
    · rw [if_neg (by simp [hboot, hc])]
    · rw [State.cancelBack, if_neg (by simp [hlight, hb] : ¬ s.markLost.light.back = true), ite_self]
  rw [he h0] at hx hlost hmode
  refine ⟨_, hx, rfl, fun a ha => ?_, hlost, get_put_same _ _ _ (by decide), hmode⟩
  simp only [List.mem_cons, List.not_mem_nil, or_false, not_or] at ha
  exact (reg_put_ne _ _ _ ha.2).trans (reg_put_ne _ _ _ ha.1)

/-- A host loss in OPERATE, without a dark release, enters FALLBACK where the descriptor is valid, else HOLD (R48, R49). -/
theorem exec_hostLoss_operate {s : State} (hl : s.live = true) (hh : 10 * s.get F.SYS_HOSTTO_ms < s.spd.host) (hm : s.mode = .operate) :
    exec .hostLoss s = .next s.markLost.enterFallback := by
  obtain ⟨-, -, -, hmode, -⟩ := markLost_keeps s
  rw [exec_hostLoss, hmode, hm]
  dsimp only
  rw [if_pos (by simp [hl, hh])]

/-- What an entry into FALLBACK from OPERATE leaves of the words that show the host. -/
theorem enterFallback_host {s : State} (hm : s.mode = .operate) (hd : s.boot.dark = none) (hv : s.get F.SYS_FBSTAT_valid = 1) :
    s.enterFallback.get F.SYS_STAT_host_lost = s.get F.SYS_STAT_host_lost ∧
      s.enterFallback.get F.SPD_RXSTAT_synced = s.get F.SPD_RXSTAT_synced := by
  have ho : Only (P.vid ||| P.chains ||| P.tiles ||| P.light ||| P.sio ||| P.flt ||| P.mode ||| P.pgCmp ||| P.pgSio ||| P.pgAsp) s
      s.enterFallback := by
    rw [enterFallback_eq hm hd hv]
    exact .comp (.setMode (.comp (.refl ..) (State.passAfresh_only s))) (fallbackLast_only _)
  exact ⟨get_of_stat (ho.stat (by decide)) (by decide), ho.get (by decide)⟩

/-- Composition for FALLBACK is chosen on its entry from CONFIGURE, and nothing after it changes that (R26, R47). -/
theorem updateOff_fb (s : State) : s.updateOff.light.fb = s.light.fb := by
  have hq (u : State) (rs : List Nat) : (u.resendFrame rs).light = u.light := (State.resendFrame_only ..).light (by decide)
  have hback (u : State) : u.updateBack.light.fb = u.light.fb := by
    unfold State.updateBack
    split
    · dsimp only
      split
      · rfl
      · rw [hq]
    · rfl
  have hstream (u : State) (c n : List Nat) : (u.streamOff c n).light.fb = u.light.fb := by
    have hr : (u.queueReact (u.reactRows c)).light = u.light := (State.queueReact_only ..).light (by decide)
    unfold State.streamOff
    dsimp only
    rw [hq]
    split
    · dsimp only
      rw [hr]
    · rw [hr]
  have hshow (n : List Nat) : (s.showOff n).light = s.light := (State.showOff_only ..).light (by decide)
  unfold State.updateOff
  dsimp only
  split
  · exact hback s
  · split
    · rw [hstream, hshow]
    · rw [hshow]
    · rw [hback, hshow]
    · dsimp only
      rw [hshow]

theorem evalPolicies_fb (s : State) : s.evalPolicies.light.fb = s.light.fb := updateOff_fb _

/-- The classes of supervision become absent: no action is taken (R292, R304). -/
theorem clearPixelClasses_fb (s : State) : s.clearPixelClasses.light.fb = s.light.fb ∧ s.clearPixelClasses.mode = s.mode := by
  unfold State.clearPixelClasses
  generalize hu : List.foldl _ s s.flt.insts = u
  have h : Only P.flt s u := by
    subst hu
    exact .foldl (.refl ..) fun v e => .ite (setCond_absent ..) (.refl ..)
  exact ⟨(evalPolicies_fb u).trans (congrArg Light.fb (h.light (by decide))), (State.evalPolicies_only u).modeEq.trans h.modeEq⟩

theorem enterDriving_fb (s : State) (m : Mode) : (s.enterDriving m).light.fb = (m == .fallback) ∧ (s.enterDriving m).mode = m := by
  have h : Only (P.sram ||| P.ecc ||| P.vid ||| P.tiles ||| P.light ||| P.sio ||| P.sys ||| P.pgSup ||| P.pgAsp ||| P.pgPrf ||| P.pgSio)
      (s.setMode m) (s.enterDriving m) := by
    unfold State.enterDriving
    dsimp only
    exact .upd (.comp (.comp (.comp (.comp (.refl ..) (State.clearStore_only _)) (State.initOffsets_only _)) (State.markAll_only _))
      (State.clearFbInput_only _))
  refine ⟨?_, h.modeEq.trans (mode_setMode ..)⟩
  unfold State.enterDriving
  dsimp only

/-- Entry into FALLBACK from CONFIGURE (R26, R47). -/
theorem drive_fallback (s : State) : (s.drive .fallback).mode = .fallback ∧ (s.drive .fallback).light.fb = true := by
  obtain ⟨hfb, hmode⟩ := enterDriving_fb s .fallback
  obtain ⟨hcfb, hcmode⟩ := clearPixelClasses_fb (s.enterDriving .fallback)
  unfold State.drive
  rw [if_neg (by decide)]
  generalize (s.enterDriving .fallback).clearPixelClasses = u at hcfb hcmode
  have h : Only (P.spl ||| P.pgSpl ||| P.bal) u.freshOff u.freshOff.supplyInit.balStart :=
    .comp (.comp (.refl ..) (State.supplyInit_only _)) (State.balStart_only _)
  have hfresh : u.freshOff.light.fb = u.light.fb := by
    unfold State.freshOff
    dsimp only
    generalize hw : List.foldl _ _ (List.range 20) = w
    have hl : Only P.chains { u with light := { u.light with offForce := u.shownOff, offDue := [] } } w := by
      subst hw
      exact .foldl (.refl ..) fun v c => State.onChain_only ..
    rw [hl.light (by decide)]
  refine ⟨?_, ?_⟩
  · rw [h.modeEq, (State.freshOff_only u).modeEq, hcmode, hmode]
  · rw [h.light (by decide), hfresh, hcfb, hfb]
    rfl

/-- A host loss in CONFIGURE after a failed configuration (R49, R412). -/
theorem exec_hostLoss_configure {s : State} (hm : s.mode = .configure) (hc : s.boot.cfgFailed = true)
    (ht : 10 * s.get F.SYS_HOSTTO_ms < s.spd.failT) (hv : s.get F.SYS_FBSTAT_valid = 1) (hr : s.roleRow.1 ≤ 1) :
    ∃ u : State, exec .hostLoss s = .next (u.drive .fallback) := by
  obtain ⟨hboot, hspd, -, hmode, hvalid, -, hrow⟩ := markLost_keeps s
  refine ⟨s.markLost.evalRole, ?_⟩
  rw [exec_hostLoss, hmode, hm]
  dsimp only
  rw [if_pos (by rw [hboot, hspd]; exact ⟨hc, ht⟩), State.fallbackFromConfigure]
  have hrole : s.markLost.evalRole.get F.AXO_STAT_role ≤ 1 := by
    have : s.markLost.evalRole.get F.AXO_STAT_role = s.markLost.roleRow.1 % 4 := by
      unfold State.evalRole
      exact get_put_same _ _ _ (by decide)
    rw [this, hrow]
    omega
  have hval : s.markLost.evalRole.get F.SYS_FBSTAT_valid = 1 := ((State.evalRole_only _).get (by decide)).trans (hvalid.trans hv)
  rw [if_pos ⟨by simp [State.roleActive, hrole], by simp [State.on, hval]⟩]

/-- Settles O25, by the mode in which the host is lost; a missed deadline counts whatever its fault does. -/
theorem hostConnection : Obligations.HostConnection := by
  intro s
  obtain ⟨hboot, -, -, hmode, hvalid, hcheck, -⟩ := markLost_keeps s
  refine ⟨fun hl hh => ⟨fun h0 hm => hostLoss_shows hl hh h0 hm, fun hm hd hv => ?_, fun hm hd hv => ?_⟩, fun hm hc ht hv hr => ?_,
    fun hm hms hov ht => ?_, fun hl ht hd => deadlineMiss_counts hl ht hd⟩
  · have hx := exec_hostLoss_operate hl hh hm
    have hum := hmode.trans hm
    have hud : s.markLost.boot.dark = none := by rw [hboot, hd]
    obtain ⟨hlost, he⟩ := markLost_shows hl hh
    obtain ⟨hkl, hks⟩ := enterFallback_host hum hud (hvalid.trans hv)
    refine ⟨_, hx, execHostLoss_only s hx, enterFallback_mode hum hud (hvalid.trans hv), hkl.trans hlost, fun h0 => hks.trans ?_⟩
    rw [he h0]
    exact get_put_same _ _ _ (by decide)
  · have hx := exec_hostLoss_operate hl hh hm
    have hum := hmode.trans hm
    have hck : s.get F.SYS_FBSTAT_check < 16 := get_lt s _
    have hf : s.markLost.enterFallback = s.markLost.enterHold 8 (s.get F.SYS_FBSTAT_check) := by
      rw [State.enterFallback, if_neg (by simp [hum, State.darkRel, hboot, hd]), if_pos (hvalid.trans hv), hcheck]
    obtain ⟨hhold, hcode, hdet, -, -⟩ := enterHold_enters (s := s.markLost) (by rw [hum]; decide) 8 (s.get F.SYS_FBSTAT_check)
    refine ⟨_, hx, execHostLoss_only s hx, ?_⟩
    rw [hf]
    exact ⟨hhold, hcode, hdet.trans (Nat.mod_eq_of_lt (by omega))⟩
  · obtain ⟨u, hx⟩ := exec_hostLoss_configure hm hc ht hv hr
    exact ⟨_, hx, execHostLoss_only s hx, drive_fallback u⟩
  · have hx : exec .cfgTimeout s = .next { s.cfgFail with spd := { s.cfgFail.spd with cfgOver := true } } := by
      show execCfgTimeout s = _
      rw [execCfgTimeout]
      dsimp only
      rw [if_pos ⟨hm, hms, hov, ht⟩]
    refine ⟨_, hx, execCfgTimeout_only s hx, ?_, ?_, rfl, rfl⟩
    · exact get_put_same s F.SYS_STAT_cfg_fail 1 (by decide)
    · rw [(execCfgTimeout_only s hx).modeEq, hm]

end Sys2Proof.Machine

end

section
/-! Takeover, the release of the partner reset, and realignment (O60). -/

set_option Elab.async false

namespace Sys2Proof.Machine

/-- A write of AXO_CTRL that its source may make is its command, where it asks for no takeover or the standby is ready for one (R426). -/
theorem regRow_axoCtrl {s : State} {src : Src} {v : Word} (hm : s.mayCommand src 30)
    (ht : v[0] = true → src ≠ .lane ∧ s.axoReady = true) : s.regRow src R.AXO_CTRL v = .next (s.axoCtrl v) := by
  obtain ⟨hl, hh, ho⟩ := hm
  have hp : pageOf R.AXO_CTRL = 30 := by decide
  obtain ⟨r, hr, hw⟩ : ∃ r, regSpec R.AXO_CTRL = some r ∧ woWord R.AXO_CTRL r = true := ⟨_, rfl, by decide⟩
  have hn : aspCtlAt R.AXO_CTRL = none ∧ R.AXO_CTRL ≠ R.ASP_FGRP ∧ R.AXO_CTRL ≠ R.CLS_COMMIT ∧ R.AXO_CTRL ≠ R.SYS_MODEREQ ∧
      R.AXO_CTRL ≠ R.SYS_RESET ∧ R.AXO_CTRL ≠ R.SYS_ACK := by decide
  have hhold : s.mode ≠ .hold := fun h => absurd (hh h) (by decide)
  rw [State.regRow, if_pos hl, writeReg_wo hr hw _ _ (by rw [hp]; exact ho) (by simp [hn])]
  · rfl
  · cases hv : v[0]
    · simp [State.modeBars, hhold, hv]
    · simp [State.modeBars, hhold, (ht hv).2]
  · cases hv : v[0]
    · simp [State.sourceBars, hn, hv]
    · simp [State.sourceBars, hn, (ht hv).1]

/-- AXO_CTRL.realign acts on a standby alone (R420). -/
theorem axoCtrl_realign (s : State) : s.axoCtrl 2 = if s.mode = .mirror then s.loseAligned else s := by
  have h : s.axoCtrl 2 = if s.mode == .mirror then s.loseAligned else s := rfl
  rw [h]
  simp

/-- What the loss of the alignment leaves (R420). -/
theorem loseAligned_loses (s : State) : s.loseAligned.get F.AXO_STAT_aligned = 0 ∧ s.loseAligned.get F.AXO_STAT_restating = 0 ∧
    s.loseAligned.pair.joined = false ∧ s.loseAligned.pair.nextAt = none := by
  refine ⟨?_, ?_, rfl, rfl⟩ <;> unfold State.loseAligned <;> generalize s.eventIf (s.on F.AXO_STAT_aligned) 30 5 = u
  · exact (get_put_apart (u.put F.AXO_STAT_aligned 0) _ _ _ (by decide)).trans (get_put_same _ _ _ (by decide))
  · exact get_put_same (u.put F.AXO_STAT_aligned 0) F.AXO_STAT_restating 0 (by decide)

/-- The steps of a takeover up to the words that show it: the mode is that of the last DIGEST (R426). -/
theorem takeMode_only (s : State) (w : State)
    (hw : w = ((if s.ownSwap.pair.digMode = 5 then s.ownSwap.setMode .fallback
      else (s.ownSwap.setMode .operate).balStart).markAll).evalPolicies) :
    Only (P.vid ||| P.chains ||| P.light ||| P.flt ||| P.bal ||| P.mode ||| P.pgAsp) s w ∧
      w.mode = if s.pair.digMode = 5 then .fallback else .operate := by
  have hs := State.ownSwap_only s
  rw [hs.pair (by decide)] at hw
  subst hw
  constructor
  · refine .comp (.comp ?_ (State.markAll_only _)) (State.evalPolicies_only _)
    exact .ite (.setMode hs.mono) (.comp (.setMode hs.mono) (State.balStart_only _))
  · rw [(State.evalPolicies_only _).modeEq, (State.markAll_only _).modeEq]
    split
    · rw [mode_setMode]
    · rw [(State.balStart_only _).modeEq, mode_setMode]

/-- What a takeover shows (R26, R426, R427). -/
theorem takeRole_takes (s : State) :
    s.takeRole.mode = (if s.pair.digMode = 5 then .fallback else .operate) ∧ s.takeRole.get F.AXO_STAT_role = 1 ∧
      s.takeRole.get F.AXO_STAT_tk = 1 ∧ s.takeRole.get F.AXO_TKCNT_takeovers = s.plusOne F.AXO_TKCNT_takeovers ∧
      s.takeRole.get F.AXO_TKCNT_cold = s.get F.AXO_TKCNT_cold ∧
      s.takeRole.pair.tkP = some s.pnow ∧ s.takeRole.pair.rstLow = true ∧ s.takeRole.isl.req = true := by
  unfold State.takeRole
  dsimp only
  generalize hw : State.evalPolicies _ = w
  obtain ⟨ho, hm⟩ := takeMode_only s w hw.symm
  have hcnt : ((w.put F.AXO_STAT_tk 1).inc F.AXO_TKCNT_takeovers).get F.AXO_TKCNT_takeovers = s.plusOne F.AXO_TKCNT_takeovers := by
    rw [inc_get _ _ (by decide), State.plusOne, get_put_ne _ _ (by decide), ho.get (by decide), State.plusOne]
  have hcold : ((w.put F.AXO_STAT_tk 1).inc F.AXO_TKCNT_takeovers).get F.AXO_TKCNT_cold = s.get F.AXO_TKCNT_cold :=
    (get_put_apart _ _ _ _ (by decide)).trans ((get_put_ne _ _ (by decide)).trans (ho.get (by decide)))
  have htk : ((w.put F.AXO_STAT_tk 1).inc F.AXO_TKCNT_takeovers).get F.AXO_STAT_tk = 1 :=
    (get_put_ne _ _ (by decide)).trans (get_put_same _ _ _ (by decide))
  have hxm : ((w.put F.AXO_STAT_tk 1).inc F.AXO_TKCNT_takeovers).mode = w.mode :=
    mode_congr ((get_put_ne _ _ (by decide)).trans (get_put_ne _ _ (by decide)))
  have hx : Only P.pgAxo w ((w.put F.AXO_STAT_tk 1).inc F.AXO_TKCNT_takeovers) := .inc (.put (.refl ..))
  have hxn : ((w.put F.AXO_STAT_tk 1).inc F.AXO_TKCNT_takeovers).pnow = s.pnow := hx.pnow.trans ho.pnow
  generalize (w.put F.AXO_STAT_tk 1).inc F.AXO_TKCNT_takeovers = x at *
  generalize hy : x.eventIf _ 30 0 = y
  have hyo : Only 0 x y := hy ▸ .eventIf (.refl ..)
  have hput (f : Fld) (h : F.AXO_STAT_role.apart f = true) : (y.put F.AXO_STAT_role 1).get f = y.get f := get_put_apart _ _ _ _ h
  have hzo : Only P.pgAxo y (y.put F.AXO_STAT_role 1) := .put (.refl ..)
  refine ⟨?_, get_put_same y F.AXO_STAT_role 1 (by decide), ?_, ?_, ?_, ?_, rfl, rfl⟩
  · exact (mode_congr (hput _ (by decide))).trans (hyo.modeEq.trans (hxm.trans hm))
  · exact (hput _ (by decide)).trans ((hyo.get (by decide)).trans htk)
  · exact (hput _ (by decide)).trans ((hyo.get (by decide)).trans hcnt)
  · exact (hput _ (by decide)).trans ((hyo.get (by decide)).trans hcold)
  · exact congrArg some (hzo.pnow.trans (hyo.pnow.trans hxn))

/-- A cold takeover counts, and leaves what shows the takeover (R429). -/
theorem takeCold_counts (s : State) : Only (P.vid ||| P.chains ||| P.tiles ||| P.light ||| P.pgCmp) (s.inc F.AXO_TKCNT_cold) s.takeCold := by
  unfold State.takeCold
  dsimp only
  refine .comp (.put (.put (.upd ?_))) (State.queueFrame_only ..)
  refine .foldl ?_ fun u c => (State.onChain_only ..).mono
  exact .comp (.comp (.refl ..) (State.dropPass_only _)) (State.initOffsets_only _)

/-- What a standby that has taken over shows, warm or cold (R426 to R429). -/
theorem takeOver_takes (s : State) :
    s.takeOver.mode = (if s.pair.digMode = 5 then .fallback else .operate) ∧ s.takeOver.get F.AXO_STAT_role = 1 ∧
      s.takeOver.get F.AXO_STAT_tk = 1 ∧ s.takeOver.get F.AXO_TKCNT_takeovers = s.plusOne F.AXO_TKCNT_takeovers ∧
      s.takeOver.get F.AXO_TKCNT_cold =
        (if s.on F.AXO_STAT_aligned then s.get F.AXO_TKCNT_cold else s.plusOne F.AXO_TKCNT_cold) ∧
      s.takeOver.pair.tkP = some s.pnow ∧ s.takeOver.pair.rstLow = true ∧ s.takeOver.isl.req = true := by
  unfold State.takeOver
  split
  · have hu : Only P.chains s ((List.range 20).foldl State.takeChain s) := .foldl (.refl ..) fun u c => State.takeChain_only ..
    generalize (List.range 20).foldl State.takeChain s = u at hu
    obtain ⟨hmode, hrole, htk, hcnt, hcold, htkP, hrst, hreq⟩ := takeRole_takes u
    have hw := State.takeWarm_only u.takeRole
    rw [hu.pair (by decide)] at hmode
    refine ⟨hw.modeEq.trans hmode, (hw.get (by decide)).trans hrole, (hw.get (by decide)).trans htk, ?_, ?_, ?_, ?_, ?_⟩
    · rw [hw.get (by decide), hcnt, State.plusOne, hu.get (by decide), State.plusOne]
    · rw [hw.get (by decide), hcold, hu.get (by decide)]
    · rw [hw.pair (by decide), htkP, hu.pnow]
    · rw [hw.pair (by decide), hrst]
    · rw [hw.isl (by decide), hreq]
  · obtain ⟨hmode, hrole, htk, hcnt, hcold, htkP, hrst, hreq⟩ := takeRole_takes s
    have hc := takeCold_counts s.takeRole
    have hi : Only P.pgAxo s.takeRole (s.takeRole.inc F.AXO_TKCNT_cold) := .inc (.refl ..)
    refine ⟨hc.modeEq.trans (hi.modeEq.trans hmode), ?_, ?_, ?_, ?_, ?_, ?_, ?_⟩
    · rw [hc.get (by decide), State.inc, State.incBy, get_put_ne _ _ (by decide), hrole]
    · rw [hc.get (by decide), State.inc, State.incBy, get_put_ne _ _ (by decide), htk]
    · rw [hc.get (by decide), State.inc, State.incBy, get_put_apart _ _ _ _ (by decide), hcnt]
    · rw [hc.get (by decide), inc_get _ _ (by decide), State.plusOne, hcold, State.plusOne]
    · rw [hc.pair (by decide), hi.pair (by decide), htkP]
    · rw [hc.pair (by decide), hi.pair (by decide), hrst]
    · rw [hc.isl (by decide), hi.isl (by decide), hreq]

/-- Settles O60: what shows a takeover is written once the mode is taken, and neither the warm nor the cold one writes it after. -/
theorem takeover : Obligations.Takeover := by
  intro s
  refine ⟨fun src hm hs hr => ?_, fun hm hc ht h => ?_, fun hl => ?_, fun src hm => ⟨fun hmir => ?_, fun hmir => ?_⟩⟩
  · show s.regRow src R.AXO_CTRL 1 = _
    rw [regRow_axoCtrl hm fun _ => ⟨hs, hr⟩]
    rfl
  · have hx : exec .takeoverDecision s = .next s.takeOver := by
      show execTakeoverDecision s = _
      unfold execTakeoverDecision
      dsimp only
      refine congrArg _ (if_pos ⟨hm, by simp [State.on, hc], by rw [ht]; rfl, ?_⟩)
      rcases h with h | ⟨n, hn, hle⟩
      · exact .inl h
      · rw [hn]
        exact .inr (decide_eq_true hle)
    exact ⟨_, hx, (execTakeoverDecision_only s hx).mono, takeOver_takes s⟩
  · show execPartnerRstRelease s = _
    rw [execPartnerRstRelease, if_pos hl]
  · have hx : exec (.axoRealign src) s = .next s.loseAligned := by
      show s.regRow src R.AXO_CTRL 2 = _
      rw [regRow_axoCtrl hm fun h => absurd h (by decide), axoCtrl_realign, if_pos hmir]
    exact ⟨_, hx, execAxoRealign_only src s hx, loseAligned_loses s⟩
  · show s.regRow src R.AXO_CTRL 2 = _
    rw [regRow_axoCtrl hm fun h => absurd h (by decide), axoCtrl_realign, if_neg hmir]

end Sys2Proof.Machine

end

section
/-! Steps that change register words alone, and the records of refused accesses, PERR and SYS_WINERR (R68, R82). -/

set_option Elab.async false

namespace Sys2Proof.Machine

/-- From `s` to `t` register words change only, those of a list. -/
structure Writes (as : List Nat) (s t : State) : Prop where
  regs : onlyRegs s t
  words : regsBut as s t

theorem Writes.refl (as : List Nat) (s : State) : Writes as s s := ⟨rfl, fun _ _ => rfl⟩

theorem Writes.setReg {as : List Nat} {s t : State} {a : Nat} {v : Word} (h : Writes as s t) (ha : a ∈ as) : Writes as s (t.setReg a v) := by
  refine ⟨?_, fun b hb => (reg_setReg_ne t v fun e => hb (by rwa [e])).trans (h.words b hb)⟩
  have ht : t = { s with regs := t.regs } := h.regs
  rw [onlyRegs, setReg_eq, ht]

theorem Writes.put {as : List Nat} {s t : State} {f : Fld} {v : Nat} (h : Writes as s t) (ha : f.addr ∈ as) : Writes as s (t.put f v) :=
  h.setReg ha

theorem Writes.flag {as : List Nat} {s t : State} {f : Fld} {b : Bool} (h : Writes as s t) (ha : f.addr ∈ as) : Writes as s (t.flag f b) :=
  h.setReg ha

/-- A command that is such a step. -/
theorem Writes.puts {as : List Nat} {c : Instr} {s t : State} {Q : State → Prop} (h : Writes as s t) (hx : exec c s = .next t) (hq : Q t) :
    Puts c s as Q := ⟨t, hx, h.regs, h.words, hq⟩

theorem perr_writes (s : State) (src : Src) (a type : Nat) (wr : Bool) : Writes [R.PERR (pageOf a)] s (s.perr src a type wr) := by
  have hm : R.PERR (pageOf a) ∈ [R.PERR (pageOf a)] := List.mem_singleton.mpr rfl
  unfold State.perr
  dsimp only
  split
  · exact .put (.refl ..) hm
  · exact .put (.flag (.put (.put (.put (.refl ..) hm) hm) hm) hm) hm

theorem winErr_writes (s : State) (src : Src) (sram type : Nat) (wr : Bool) : Writes [R.SYS_WINERR] s (s.winErr src sram type wr) := by
  have hm : R.SYS_WINERR ∈ [R.SYS_WINERR] := List.mem_singleton.mpr rfl
  unfold State.winErr
  split
  · exact .put (.refl ..) hm
  · exact .put (.flag (.put (.put (.put (.refl ..) hm) hm) hm) hm) hm

/-- The fields of one word after the five that a record puts, in their order. -/
theorem record_reads (s : State) (A wo wt : Nat) (off type src : Nat) (wr : Bool) (h : wo + wt ≤ 28) :
    let t := ((((s.put ⟨A, 0, wo⟩ off).put ⟨A, wo, wt⟩ type).put ⟨A, wo + wt, 2⟩ src).put ⟨A, wo + wt + 2, 1⟩ wr.toNat).put ⟨A, 31, 1⟩ 1
    t.get ⟨A, 0, wo⟩ = off % 2 ^ wo ∧ t.get ⟨A, wo, wt⟩ = type % 2 ^ wt ∧ t.get ⟨A, wo + wt, 2⟩ = src % 2 ^ 2 ∧
      t.get ⟨A, wo + wt + 2, 1⟩ = wr.toNat % 2 ^ 1 ∧ t.get ⟨A, 31, 1⟩ = 1 := by
  intro t
  have same (u : State) (lo w v : Nat) (hw : lo + w ≤ 32) : (u.put ⟨A, lo, w⟩ v).get ⟨A, lo, w⟩ = v % 2 ^ w := get_put_same _ _ _ hw
  refine ⟨?_, ?_, ?_, ?_, same _ _ _ _ (by omega)⟩ <;> simp (disch := omega) only [t, get_put_beside, same]

/-- The first refused access is captured (R68). -/
theorem perr_first {s : State} {a : Nat} (h : s.get (F.PERR_valid (pageOf a)) = 0) (src : Src) (type : Nat) (wr : Bool) :
    let t := s.perr src a type wr
    t.get (F.PERR_offset (pageOf a)) = a % 0x1000 ∧ t.get (F.PERR_type (pageOf a)) = type % 16 ∧
      t.get (F.PERR_src (pageOf a)) = (if src = .spi then 2 else 1) ∧ t.get (F.PERR_wr (pageOf a)) = wr.toNat ∧
      t.get (F.PERR_valid (pageOf a)) = 1 := by
  have hv : s.on (F.PERR_valid (pageOf a)) = false := by simp [State.on, h]
  have hr := record_reads s (R.PERR (pageOf a)) 12 4 (a % 0x1000) type (if src = .spi then 2 else 1) wr (by decide)
  obtain ⟨hoff, htype, hsrc, hwr, hvalid⟩ := hr
  unfold State.perr
  dsimp only
  rw [hv]
  refine ⟨hoff.trans (Nat.mod_eq_of_lt (Nat.mod_lt _ (by decide))), htype, hsrc.trans ?_, hwr.trans ?_, hvalid⟩
  · split <;> rfl
  · cases wr <;> rfl

/-- A later one only marks that there were more (R68). -/
theorem perr_later {s : State} {a : Nat} (h : s.get (F.PERR_valid (pageOf a)) = 1) (src : Src) (type : Nat) (wr : Bool) :
    let t := s.perr src a type wr
    t.get (F.PERR_more (pageOf a)) = 1 ∧ t.get (F.PERR_type (pageOf a)) = s.get (F.PERR_type (pageOf a)) ∧
      t.get (F.PERR_offset (pageOf a)) = s.get (F.PERR_offset (pageOf a)) := by
  have hv : s.on (F.PERR_valid (pageOf a)) = true := by simp [State.on, h]
  unfold State.perr
  dsimp only
  rw [if_pos hv]
  exact ⟨get_put_same _ _ _ (show 30 + 1 ≤ 32 by decide), get_put_beside _ _ _ _ _ _ _ (by decide), get_put_beside _ _ _ _ _ _ _ (by decide)⟩

/-- The first refused window access is captured (R82). -/
theorem winErr_first {s : State} (h : s.get F.SYS_WINERR_valid = 0) (src : Src) (sram type : Nat) (wr : Bool) :
    let t := s.winErr src sram type wr
    t.get F.SYS_WINERR_addr = sram / 4 % 2 ^ 22 ∧ t.get F.SYS_WINERR_type = type % 16 ∧ t.get F.SYS_WINERR_valid = 1 := by
  have hv : s.on F.SYS_WINERR_valid = false := by simp [State.on, h]
  obtain ⟨haddr, htype, -, -, hvalid⟩ :=
    record_reads s R.SYS_WINERR 22 4 (sram / 4) type (if src = .spi then 2 else 1) wr (by decide)
  unfold State.winErr
  rw [hv]
  exact ⟨haddr, htype, hvalid⟩

end Sys2Proof.Machine

end

section
/-! The sizes of register accesses (O15). -/

set_option Elab.async false

namespace Sys2Proof.Machine

/-- Step 1 of R61 admits the aligned words of R58. -/
theorem accessOk_iff (a n : Nat) : accessOk a n = true ↔
    (n = 4 ∧ a % 4 = 0 ∧ (a < 0x1F000 ∨ 0x80000 ≤ a ∧ a < 0x100000)) ∨ (n = 8 ∧ a % 8 = 0 ∧ 0x80000 ≤ a ∧ a < 0x100000) := by
  simp only [accessOk, Bool.and_eq_true, Bool.or_eq_true, beq_iff_eq, decide_eq_true_eq]
  constructor
  · rintro ⟨hal, ⟨hlt, rfl⟩ | ⟨hw, rfl | rfl⟩⟩ <;> omega
  · rintro (⟨rfl, hal, hr⟩ | ⟨rfl, hal, hr⟩) <;> omega

/-- A refused access changes no register but the records of refused accesses (R61, R68, R82). -/
theorem badAccess_reg (s : State) (src : Src) (a : Nat) (wr : Bool) {b : Nat} (hp : b % 0x1000 ≠ 0x28) (hw : b ≠ R.SYS_WINERR) :
    (s.badAccess src a wr).reg b = s.reg b := by
  have hperr : b ∉ [R.PERR (pageOf a)] := by
    rw [List.mem_singleton]
    rintro rfl
    exact hp (by unfold R.PERR pageAddr; omega)
  unfold State.badAccess
  split
  · exact (perr_writes ..).words b hperr
  · split
    · exact (winErr_writes ..).words b (by simpa using hw)
    · rfl

/-- A read that passes step 1 of R61 is not answered with access-error. -/
theorem readWord_status {s : State} {src : Src} {a n : Nat} (h : accessOk a n = true) : (s.readWord src a n).2.1 ≠ 1 := by
  unfold State.readWord
  rw [if_neg (by simp [h])]
  dsimp only
  split
  · simp
  · split <;> simp

/-- Settles O15: step 1 of R61 is the condition of R58, and behind it only the checks of the range follow. -/
theorem accessSizes : Obligations.AccessSizes := by
  intro s src a n v
  dsimp only
  rw [← accessOk_iff]
  refine ⟨fun h => ?_, fun h => ⟨readWord_status h, ?_⟩⟩
  · have hbad : accessOk a n = false := Bool.eq_false_iff.mpr h
    have hwrite : s.writeWord src a n v = (s.badAccess src a true, 1) := by rw [State.writeWord, if_pos hbad]
    rw [hwrite, State.readWord, if_pos hbad]
    exact ⟨rfl, rfl, fun b => badAccess_reg s src a true⟩
  · rw [State.writeWord, if_neg (by simp [h])]

end Sys2Proof.Machine

end

section
/-! Writes of the registers of a page header (R58 to R69): the checks of R61 come down to the mode and the owner. -/

set_option Elab.async false

namespace Sys2Proof.Machine

/-- A header register of a page: its page and its offset there. -/
theorem header_split (p : Nat) {k : Nat} (hk : k < 0x40) : pageOf (pageAddr p + k) = p ∧ (pageAddr p + k) % 0x1000 = k := by
  unfold pageOf pageAddr; omega

/-- A header register has no meaning of its own in the write path but by its offset. -/
theorem header_plain (p : Nat) {k : Nat} (hk : k < 0x40) : reservedEntry (pageAddr p + k) = false ∧ crcSlot (pageAddr p + k) = none ∧
    aspCtlAt (pageAddr p + k) = none ∧ raccAt (pageAddr p + k) = none := by
  obtain ⟨hp, ho⟩ := header_split p hk
  refine ⟨?_, ?_, ?_, ?_⟩
  · simp [reservedEntry, ho, show ¬0x100 ≤ k by omega]
  · simp [crcSlot, ho, show ¬0x400 ≤ k by omega]
  · refine List.find?_eq_none.mpr fun a _ h => ?_
    rw [beq_iff_eq, R.ASP_CTL, aspAddr] at h
    omega
  · refine List.find?_eq_none.mpr fun a _ h => ?_
    rw [beq_iff_eq, R.TIL_RACC, tilAddr] at h
    omega

/-- It is none of the registers past the header. -/
theorem header_ne (p : Nat) {k b : Nat} (hk : k < 0x40) (hb : 0x40 ≤ b % 0x1000 := by decide) : pageAddr p + k ≠ b := by
  have := (header_split p hk).2
  omega

/-- The row of a header register in the register map (R57). -/
theorem regSpec_header {p k : Nat} {r : RegSpec} (hp : p < 31) (hk : k < 0x40) (h : headerRegs.find? (fun r => r.holds k) = some r) :
    regSpec (pageAddr p + k) = some r := by
  obtain ⟨hpage, ho⟩ := header_split p hk
  rw [regSpec, hpage, if_pos hp, ho, List.find?_append, h, Option.some_or]

/-- Whether the mode leaves a header register writable: in HOLD, on a page that stays writable, or an interrupt register (R37). -/
def State.headerOpen (s : State) (p k : Nat) : Prop := s.mode = .hold → holdWritable p = true ∨ k ∈ [0x14, 0x18, 0x1C]

/-- Of a header register without lockable and staged fields steps 4 to 8 of R61 check the owner alone where its mode is open. -/
theorem writeCheck_header {s : State} {p k : Nat} (hk : k < 0x40) (ho : s.headerOpen p k) (src : Src) (v rw wo w1c : Word) :
    s.writeCheck src (pageAddr p + k) v ⟨rw, 0, 0, wo, w1c⟩ = if s.owns src p = false then 6 else 0 := by
  obtain ⟨hp, hoff⟩ := header_split p hk
  obtain ⟨-, -, hasp, hracc⟩ := header_plain p hk
  have hmode : s.modeBars (pageAddr p + k) v ⟨rw, 0, 0, wo, w1c⟩ = false := by
    have hopen : (s.mode == .hold && !holdWritable p && k != 0x14 && k != 0x18 && k != 0x1C) = false := by
      by_cases hm : s.mode = .hold
      · rcases ho hm with h | h
        · simp [h]
        · simp only [List.mem_cons, List.not_mem_nil, or_false] at h
          rcases h with rfl | rfl | rfl <;> simp
      · simp [hm]
    simp [State.modeBars, hp, hoff, hopen, header_ne p hk (b := R.LNK_RATE 0), header_ne p hk (b := R.AXO_CTRL)]
  have hsrc : s.sourceBars src (pageAddr p + k) v = false := by
    simp [State.sourceBars, hasp, header_ne p hk (b := R.SYS_MODEREQ), header_ne p hk (b := R.SYS_RESET),
      header_ne p hk (b := R.SYS_ACK), header_ne p hk (b := R.AXO_CTRL), header_ne p hk (b := R.ASP_FGRP)]
  simp only [State.writeCheck, hmode, hsrc, hp, hracc]
  simp [header_ne p hk (b := R.CLS_PTGT), header_ne p hk (b := R.CLS_COMMIT)]

/-- A write of such a register that some field concerns: its fields take effect, or it is a refused write of another owner's page. -/
theorem writeReg_header {s : State} {src : Src} {p k : Nat} {v rw wo w1c : Word} {r : RegSpec} (hp : p < 31) (hk : k < 0x40) (h8 : k ≠ 8)
    (hr : headerRegs.find? (fun r => r.holds k) = some r) (hro : (r.rw ||| r.rwl ||| r.rws ||| r.wo ||| r.w1c) ≠ 0)
    (ht : s.touch src r (pageAddr p + k) v = ⟨rw, 0, 0, wo, w1c⟩) (hn : rw ||| wo ||| w1c ≠ 0) (ho : s.headerOpen p k) :
    s.writeReg src (pageAddr p + k) v = if s.owns src p = false then (s.perr src (pageAddr p + k) 6 true, 6)
      else (s.writeFields src r (pageAddr p + k) v ⟨rw, 0, 0, wo, w1c⟩, 0) := by
  obtain ⟨hres, hcrc, -, -⟩ := header_plain p hk
  have h8' : (pageAddr p + k) % 0x1000 ≠ 0x008 := by rw [(header_split p hk).2]; exact h8
  have hnone : (⟨rw, 0, 0, wo, w1c⟩ : Touch).none = false := by simpa [Touch.none] using hn
  have hread : readOnly r (pageAddr p + k) = false := by simp [readOnly, hcrc, hro]
  unfold State.writeReg
  rw [if_neg h8', regSpec_header hp hk hr]
  simp only [hres, hread, ht, hnone, writeCheck_header hk ho]
  by_cases hown : s.owns src p = false
  · simp [hown, State.eventIf]
  · simp [hown]

/-- What the fields of such a register do, once checked (R59, R65, R66). -/
theorem writeFields_header {s : State} {src : Src} {p k : Nat} {v rw wo w1c : Word} {r : RegSpec} (hk : k < 0x40) :
    s.writeFields src r (pageAddr p + k) v ⟨rw, 0, 0, wo, w1c⟩ =
      let a := pageAddr p + k
      let keep : Word := BitVec.ofNat 32 (r.rw ||| r.rwl)
      let new := BitVec.ofNat 32 (normWord a ((s.reg a &&& ~~~keep) ||| (v &&& keep)).toNat)
      let u := if rw = 0 then s else (s.setReg a new).afterWrite s src a v
      let u := if w1c = 0 then u
        else if k = 0x018 then u.setReg (R.PIRQ_RAW p) (u.reg (R.PIRQ_RAW p) &&& ~~~v)
        else u.setReg a (u.reg a &&& ~~~(v &&& w1c))
      if wo = 0 then u else u.command src a v := by
  obtain ⟨hp, hoff⟩ := header_split p hk
  obtain ⟨-, hcrc, -, -⟩ := header_plain p hk
  have hbase := header_ne p hk (b := R.SPD_RXID)
  have hwin := header_ne p hk (b := R.SYS_WINBASE)
  have hheld : s.held src (pageAddr p + k) = s.reg (pageAddr p + k) := by rw [State.held, if_neg fun h => hwin h.1]
  have hkeep (x y : Word) : (x &&& ~~~0) ||| (y &&& 0) = x := by simp; exact BitVec.and_allOnes
  simp only [State.writeFields, hcrc, hheld, hbase, hwin, hp, hoff, hkeep, changesSet_same]
  simp

end Sys2Proof.Machine

end

section
/-! The interrupts of a page (O16). -/

set_option Elab.async false

namespace Sys2Proof.Machine

/-- A bit of a number put together from bits. -/
theorem bitmask_testBit (n : Nat) (f : Nat → Bool) : bitmask n f < 2 ^ n ∧ ∀ p < n, (bitmask n f).testBit p = f p := by
  induction n with
  | zero => exact ⟨Nat.one_pos, fun p hp => absurd hp (Nat.not_lt_zero p)⟩
  | succ n ih =>
    have hs : bitmask (n + 1) f = bitmask n f + if f n then 2 ^ n else 0 := by
      simp [bitmask, List.range_succ, List.map_append, List.sum_append]
    obtain ⟨hlt, hbit⟩ := ih
    rw [hs]
    cases hf : f n
    · refine ⟨by simp only [Bool.false_eq_true, if_false]; omega, fun p hp => ?_⟩
      rcases Nat.lt_succ_iff_lt_or_eq.mp hp with h | rfl
      · simpa using hbit p h
      · simpa [hf] using Nat.testBit_lt_two_pow hlt
    · refine ⟨by simp only [if_true]; omega, fun p hp => ?_⟩
      rw [if_pos rfl, Nat.add_comm]
      rcases Nat.lt_succ_iff_lt_or_eq.mp hp with h | rfl
      · rw [Nat.testBit_two_pow_add_gt h, hbit p h]
      · rw [Nat.testBit_two_pow_add_eq, Nat.testBit_lt_two_pow hlt, hf]; rfl

/-- A bit of a word after it took a truth value. -/
theorem bit_setBit (s : State) {a k j : Nat} (b : Bool) (hk : k < 32) : (s.setBit a k b).bit a j = if j = k then b else s.bit a j := by
  by_cases hj : j < 32
  · simp only [State.bit, State.setBit, reg_setReg_same, getLsbD_insBits _ _ _ _ _ hj]
    by_cases h : j = k
    · subst h
      cases b <;> simp
    · rw [if_neg (by omega), if_neg h]
  · simp only [State.bit, BitVec.getLsbD_of_ge _ _ (Nat.not_lt.mp hj), if_neg (show j ≠ k by omega)]

/-- What an event does (R65). -/
theorem event_sets (s : State) (p : Nat) {k : Nat} (hk : k < 32) : (s.event p k).bit (R.PIRQ_RAW p) k = true ∧
    (∀ j, j ≠ k → (s.event p k).bit (R.PIRQ_RAW p) j = s.bit (R.PIRQ_RAW p) j) ∧
      ∀ b, b ≠ R.PIRQ_RAW p → (s.event p k).reg b = s.reg b :=
  ⟨event_same s hk, fun _ hj => (bit_setBit s true hk).trans (if_neg hj), fun _ hb => reg_setReg_ne s _ hb⟩

/-- PIRQ_STAT as it reads (R65). -/
theorem present_pirqStat (s : State) (p : Nat) : s.present (R.PIRQ_STAT p) = s.irq p := by
  obtain ⟨hp, ho⟩ := header_split p (show 0x18 < 0x40 by decide)
  have hc : s.computed (R.PIRQ_STAT p) = some (s.irq p).toNat := by
    unfold State.computed R.PIRQ_STAT
    dsimp only
    rw [hp, ho, if_neg (by decide), if_pos rfl]
  rw [State.present, hc]
  exact (BitVec.ofNat_toNat 32 (s.irq p)).trans (BitVec.setWidth_eq _)

/-- SYS_IRQSUM as it reads (R65, R81). -/
theorem present_irqSum (s : State) {p : Nat} (hp : p < 31) : (s.present R.SYS_IRQSUM).getLsbD p = (s.irq p != 0) := by
  have hs : s.present R.SYS_IRQSUM = BitVec.ofNat 32 s.irqSum := rfl
  rw [hs, BitVec.getLsbD_ofNat, State.irqSum, (bitmask_testBit 31 _).2 p hp]
  simp [show p < 32 by omega]

/-- A write of PIRQ_SET sets the bits of its ones (R65). -/
theorem regRow_pirqSet {s : State} {src : Src} {p : Nat} (hp : p < 31) (hl : s.live = true) (ho : s.owns src p = true) (v : Word) :
    s.regRow src (R.PIRQ_SET p) v = .next (s.setReg (R.PIRQ_RAW p) (s.reg (R.PIRQ_RAW p) ||| v)) := by
  obtain ⟨hpage, hoff⟩ := header_split p (show 0x1C < 0x40 by decide)
  rw [State.regRow, if_pos hl, R.PIRQ_SET, writeReg_header (rw := 0) (w1c := 0) (wo := BitVec.ofNat 32 full) hp (by decide) (by decide)
    rfl (by decide) rfl (by decide) (fun _ => .inr (by decide)), if_neg (by simp [ho]), writeFields_header (by decide)]
  have hcmd : s.command src (pageAddr p + 0x1C) v = s.setReg (R.PIRQ_RAW p) (s.reg (R.PIRQ_RAW p) ||| v) := by
    rw [State.command, hoff, if_pos rfl, hpage]
  rw [← hcmd]
  rfl

/-- A write of PIRQ_STAT clears the bits of its ones (R65). -/
theorem regRow_pirqStat {s : State} {src : Src} {p : Nat} (hp : p < 31) (hl : s.live = true) (ho : s.owns src p = true) (v : Word) :
    s.regRow src (R.PIRQ_STAT p) v = .next (s.setReg (R.PIRQ_RAW p) (s.reg (R.PIRQ_RAW p) &&& ~~~v)) := by
  rw [State.regRow, if_pos hl, R.PIRQ_STAT, writeReg_header (rw := 0) (wo := 0) (w1c := BitVec.ofNat 32 full) hp (by decide) (by decide)
    rfl (by decide) rfl (by decide) (fun _ => .inr (by decide)), if_neg (by simp [ho]), writeFields_header (by decide)]
  rfl

/-- Settles O16: each register of the page's interrupts by the rule of its word. -/
theorem pageInterrupts : Obligations.PageInterrupts := by
  intro s p k hk
  have hraw (w : Word) : Writes [R.PIRQ_RAW p] s (s.setReg (R.PIRQ_RAW p) w) := .setReg (.refl ..) (List.mem_singleton.mpr rfl)
  refine ⟨event_sets s p hk, present_pirqStat s p, ?_, fun src v hl ho => ⟨?_, ?_⟩⟩
  · rw [present_irqSum s p.isLt, present_pirqStat]
  · exact (hraw _).puts (regRow_pirqSet p.isLt hl ho v) (reg_setReg_same ..)
  · exact (hraw _).puts (regRow_pirqStat p.isLt hl ho v) ⟨reg_setReg_same .., event_same _ hk⟩

end Sys2Proof.Machine

end

section
/-! Writes of one RW word and the writes that PERR records (O26). -/

set_option Elab.async false

namespace Sys2Proof.Machine

/-- A header register holds the word that is written: no field of it reads back changed. -/
theorem normWord_header {p k : Nat} {r : RegSpec} (hp : p < 31) (hk : k < 0x40) (hr : headerRegs.find? (fun r => r.holds k) = some r)
    (hn : r.norms = []) (v : Nat) : normWord (pageAddr p + k) v = v := by
  obtain ⟨-, hoff⟩ := header_split p hk
  simp [normWord, regSpec_header hp hk hr, hn, header_ne p hk (b := 0x70), header_ne p hk (b := 0x104), hoff, show ¬0x100 ≤ k by omega]

/-- What a write of a header register does beside it: on four pages the block's outputs follow its settings. -/
theorem afterWrite_header (s old : State) (src : Src) {p k : Nat} (hk : k < 0x40) (v : Word) :
    s.afterWrite old src (pageAddr p + k) v =
      if p = 24 then s.adcShow
      else if p = 26 then (if s.reg (pageAddr p + k) = old.reg (pageAddr p + k) then s else s.balWritten (pageAddr p + k))
      else if p = 28 ∨ p = 18 then s.sioDrive else s := by
  obtain ⟨hpage, hoff⟩ := header_split p hk
  simp only [State.afterWrite, hpage, hoff, header_ne p hk (b := R.LNK_RATE 0), header_ne p hk (b := R.VIN_CFG),
    header_ne p hk (b := R.ADC_RCFG)]
  by_cases hl : 4 ≤ p ∧ p ≤ 7
  · simp [hl, show k ≠ 0x48 by omega, show k ≠ 0x70 by omega, show p ≠ 24 by omega, show p ≠ 26 by omega, show ¬(p = 28 ∨ p = 18) by omega]
  · simp only [hl, if_false, show ¬0x400 ≤ k by omega, show ¬0xC0 ≤ k by omega, show ¬0x80 ≤ k by omega]
    by_cases h24 : p = 24
    · simp [h24]
    · by_cases h26 : p = 26
      · simp [h26]
      · by_cases h28 : p = 28
        · simp [h28]
        · by_cases h18 : p = 18 <;> simp [h24, h26, h28, h18]

/-- A write of PIRQ_EN: the whole word (R65), and what follows on its page. -/
theorem writeReg_pirqEn {s : State} {src : Src} {p : Nat} (hp : p < 31) (ho : s.owns src p = true) (v : Word) :
    s.writeReg src (R.PIRQ_EN p) v = ((s.setReg (R.PIRQ_EN p) v).afterWrite s src (R.PIRQ_EN p) v, 0) := by
  have hnew : BitVec.ofNat 32 (normWord (R.PIRQ_EN p) ((s.reg (R.PIRQ_EN p) &&& ~~~BitVec.ofNat 32 full) ||| (v &&& BitVec.ofNat 32 full)).toNat) = v := by
    have hv : (s.reg (R.PIRQ_EN p) &&& ~~~BitVec.ofNat 32 full) ||| (v &&& BitVec.ofNat 32 full) = v := by
      rw [show BitVec.ofNat 32 full = BitVec.allOnes 32 from rfl]; simp; exact BitVec.and_allOnes
    rw [hv, R.PIRQ_EN, normWord_header hp (by decide) rfl rfl]
    exact (BitVec.ofNat_toNat 32 v).trans (BitVec.setWidth_eq _)
  rw [R.PIRQ_EN] at hnew ⊢
  rw [writeReg_header (rw := BitVec.ofNat 32 full) (wo := 0) (w1c := 0) hp (by decide) (by decide) rfl (by decide) rfl (by decide)
    (fun _ => .inr (by decide)), if_neg (by simp [ho]), writeFields_header (by decide)]
  show ((s.setReg (pageAddr p + 0x14) (BitVec.ofNat 32 (normWord _ _))).afterWrite s src _ v, 0) = _
  exact congrArg (fun x => ((s.setReg (pageAddr p + 0x14) x).afterWrite s src (pageAddr p + 0x14) v, 0)) hnew

/-- A write of an aligned register word is a write under the checks of R61. -/
theorem exec_registerWrite {s : State} {src : Src} {a : Nat} (hl : s.live = true) (ha : a < 0x1F000) (h4 : a % 4 = 0) (v : Word) :
    exec (.registerWrite src a v) s = .next (s.writeReg src a v).1 := by
  have hok : accessOk a 4 = true := by simp [accessOk, ha, h4]
  show execRegisterWrite src a v s = _
  rw [execRegisterWrite, if_pos hl, State.writeWord, if_neg (by simp [hok]), if_pos ha]
  simp

theorem header_lt {p k : Nat} (hp : p < 31) (hk : k < 0x40) : pageAddr p + k < 0x1F000 := by unfold pageAddr; omega

theorem header_aligned (p : Nat) {k : Nat} (hk : k % 4 = 0) : (pageAddr p + k) % 4 = 0 := by unfold pageAddr; omega

/-- A write that records a refusal and does nothing else. -/
theorem perr_puts {s : State} {src : Src} {a b type : Nat} {v : Word} {Q : State → Prop} {p : Nat} (hp : pageOf b = p)
    (hx : exec (.registerWrite src a v) s = .next (s.perr src b type true)) (hq : Q (s.perr src b type true)) :
    Puts (.registerWrite src a v) s [R.PERR p] Q :=
  Writes.puts (by rw [← hp]; exact perr_writes s src b type true) hx hq

/-- A refused write of a header register, the first one of its page, is captured (R68). -/
theorem perr_header {s : State} {p k : Nat} (hk : k < 0x40) (hv : s.get (F.PERR_valid p) = 0) (src : Src) (type : Nat) :
    let t := s.perr src (pageAddr p + k) type true
    t.get (F.PERR_offset p) = k ∧ t.get (F.PERR_type p) = type % 16 ∧ t.get (F.PERR_src p) = (if src = .spi then 2 else 1) ∧
      t.get (F.PERR_wr p) = 1 ∧ t.get (F.PERR_valid p) = 1 := by
  obtain ⟨hpage, hoff⟩ := header_split p hk
  have hf := perr_first (a := pageAddr p + k) (by rw [hpage]; exact hv) src type true
  rw [hpage, hoff] at hf
  exact hf

/-- PIRQ_EN takes the value where no output of the page follows it (R65). -/
theorem exec_write_pirqEn {s : State} {src : Src} {p : Nat} (hl : s.live = true) (hp : p < 31) (ho : s.owns src p = true)
    (hpg : p ∉ [18, 24, 26, 28]) (v : Word) : exec (.registerWrite src (R.PIRQ_EN p) v) s = .next (s.setReg (R.PIRQ_EN p) v) := by
  simp only [List.mem_cons, List.not_mem_nil, or_false, not_or] at hpg
  obtain ⟨h18, h24, h26, h28⟩ := hpg
  rw [exec_registerWrite (a := R.PIRQ_EN p) hl (header_lt hp (by decide)) (header_aligned p rfl), writeReg_pirqEn hp ho, R.PIRQ_EN,
    afterWrite_header _ _ _ (by decide), if_neg h24, if_neg h26, if_neg (by omega)]

/-- A write of PIRQ_EN by a source that does not own the page is recorded (R61, step 6). -/
theorem exec_write_pirqEn_foreign {s : State} {src : Src} {p : Nat} (hl : s.live = true) (hp : p < 31) (ho : s.owns src p = false) (v : Word) :
    exec (.registerWrite src (R.PIRQ_EN p) v) s = .next (s.perr src (R.PIRQ_EN p) 6 true) := by
  rw [exec_registerWrite (a := R.PIRQ_EN p) hl (header_lt hp (by decide)) (header_aligned p rfl), R.PIRQ_EN,
    writeReg_header (rw := BitVec.ofNat 32 full) (wo := 0) (w1c := 0) hp (by decide) (by decide) rfl (by decide) rfl (by decide)
      (fun _ => .inr (by decide)), if_pos ho]

/-- A write that is not aligned is recorded (R58, R61, step 1). -/
theorem exec_write_unaligned {s : State} {a : Nat} (hl : s.live = true) (ha : a < 0x1F000) (h4 : a % 4 ≠ 0) (src : Src) (v : Word) :
    exec (.registerWrite src a v) s = .next (s.perr src a 1 true) := by
  show execRegisterWrite src a v s = _
  rw [execRegisterWrite, if_pos hl, State.writeWord, if_pos (by simp [accessOk, h4]), State.badAccess, if_pos ha]

/-- A write of a read-only header register is recorded (R61, step 3). -/
theorem exec_write_pid {s : State} {src : Src} {p : Nat} (hl : s.live = true) (hp : p < 31) (v : Word) :
    exec (.registerWrite src (R.PID p) v) s = .next (s.perr src (R.PID p) 3 true) := by
  obtain ⟨hres, -, -, -⟩ := header_plain p (show 0 < 0x40 by decide)
  rw [R.PID, exec_registerWrite hl (header_lt hp (by decide)) (header_aligned p rfl), State.writeReg,
    if_neg (by rw [(header_split p (by decide)).2]; decide), regSpec_header hp (by decide) rfl]
  simp only [hres]
  simp [readOnly]

/-- A write of a register of a page that HOLD locks out (R37, R61, step 4). -/
theorem exec_write_vinCfg_hold {s : State} (hm : s.mode = .hold) (src : Src) (v : Word) :
    exec (.registerWrite src R.VIN_CFG v) s = .next (s.perr src R.VIN_CFG 4 true) := by
  obtain ⟨r, hr, hw⟩ : ∃ r, regSpec R.VIN_CFG = some r ∧ readOnly r R.VIN_CFG = false ∧ r.mixed = false ∧ r.rw = 0 ∧ r.rwl = 0xF03 ∧ r.rws = 0 ∧ r.wo = 0 ∧ r.w1c = 0 :=
    ⟨_, rfl, by decide⟩
  obtain ⟨hread, hmix, hrw, hrwl, hrws, hwo, hw1c⟩ := hw
  have ht : s.touch src r R.VIN_CFG v = ⟨0, 0xF03, 0, 0, 0⟩ := by simp [State.touch, hmix, hrw, hrwl, hrws, hwo, hw1c]
  have hbars (t : Touch) : s.modeBars R.VIN_CFG v t = true := by
    simp only [State.modeBars, hm]
    rfl
  have hcheck (t : Touch) : s.writeCheck src R.VIN_CFG v t = 4 := by simp only [State.writeCheck, hbars, if_true]
  rw [exec_registerWrite (by simp [State.live, hm]) (by decide) (by decide), State.writeReg, if_neg (by decide), hr]
  simp only [show reservedEntry R.VIN_CFG = false from rfl, hread, ht, hcheck]
  simp [Touch.none, State.eventIf, R.VIN_CFG, R.AXO_CTRL]

/-- Settles O26: the word of PIRQ_EN, and each check of R61 with the record that a refusal leaves. -/
theorem writeChecks : Obligations.WriteChecks := by
  have hpage (p k : Nat) (hk : k < 0x40) : pageOf (pageAddr p + k) = p := (header_split p hk).1
  refine ⟨fun src v s hl => ⟨fun p ho hpg => ?_, fun p ho hv => ?_, fun p hv => ?_, fun p hv => ?_, fun a ha h4 hv => ?_⟩, fun src v s hm hv => ?_⟩
  · exact (Writes.setReg (.refl ..) (List.mem_singleton.mpr rfl)).puts (exec_write_pirqEn hl p.isLt ho hpg v) (reg_setReg_same ..)
  · obtain ⟨hoff, htype, hsrc, hwr, hvalid⟩ := perr_header (k := 0x14) (by decide) hv src 6
    exact perr_puts (hpage p _ (by decide)) (exec_write_pirqEn_foreign hl p.isLt ho v) ⟨htype, hoff, hsrc, hwr, hvalid⟩
  · obtain ⟨hoff, htype, -, -, hvalid⟩ := perr_header (k := 0) (by decide) hv src 3
    exact perr_puts (hpage p _ (by decide)) (exec_write_pid hl p.isLt v) ⟨htype, hoff, hvalid⟩
  · have hf := perr_later (a := R.PID p) (by rw [R.PID, hpage p 0 (by decide)]; exact hv) src 3 true
    rw [R.PID, hpage p 0 (by decide)] at hf
    exact perr_puts (hpage p _ (by decide)) (exec_write_pid hl p.isLt v) hf
  · obtain ⟨hoff, htype, -, -, -⟩ := perr_first hv src 1 true
    exact perr_puts rfl (exec_write_unaligned hl ha h4 src v) ⟨htype, hoff⟩
  · obtain ⟨hoff, htype, -, -, hvalid⟩ := perr_first (a := R.VIN_CFG) hv src 4 true
    exact perr_puts rfl (exec_write_vinCfg_hold hm src v) ⟨htype, hoff, hvalid⟩

end Sys2Proof.Machine

end

section
/-! Writes through the SRAM window (O28). -/

set_option Elab.async false

namespace Sys2Proof.Machine

@[simp] theorem length_leBytes (n v : Nat) : (leBytes n v).length = n := by
  induction n generalizing v with
  | zero => rfl
  | succ n ih => rw [leBytes, List.length_cons, ih]

/-- A number of `n` bytes reads back from its bytes. -/
theorem leNat_leBytes (n v : Nat) : leNat (leBytes n v) = v % 256 ^ n := by
  induction n generalizing v with
  | zero => simp [leBytes, leNat, Nat.mod_one]
  | succ n ih =>
    rw [leBytes, leNat, ih, BitVec.toNat_ofNat, show 256 ^ (n + 1) = 256 * 256 ^ n from Nat.pow_succ', Nat.mod_mul]

/-- Bytes that were written read back. -/
theorem memBytes_memPutBytes {m : Memory} (h : m.wf = true) (a : Nat) (bs : List Byte) :
    memBytes (memPutBytes m a bs) a bs.length = bs := by
  refine List.ext_getElem (by simp [memBytes]) fun i hi hb => ?_
  simp only [memBytes, List.getElem_map, List.getElem_range, memByte_memPutBytes h]
  rw [if_pos (by omega), Nat.add_sub_cancel_left, List.getD_eq_getElem _ _ hb]

/-- Where no word is in error a number is stored as its bytes and nothing else changes (R79, R186). -/
theorem setLe_clean {s : State} (h1 : s.ecc1 = []) (h2 : s.ecc2 = []) (a n v : Nat) :
    s.setLe a n v = { s with sram := memPutBytes s.sram a (leBytes n v) } := by
  rw [State.setLe, setBytes_clean h1 h2, State.setBytes, State.mend, h2]
  rfl

/-- What a number that was stored reads as, and that no other byte changes. -/
theorem setLe_reads {s : State} (hs : s.sram.wf = true) (h1 : s.ecc1 = []) (h2 : s.ecc2 = []) (a n v : Nat) :
    (s.setLe a n v).le a n = v % 256 ^ n ∧ ∀ b, b < a ∨ a + n ≤ b → (s.setLe a n v).byte b = s.byte b := by
  rw [setLe_clean h1 h2]
  refine ⟨?_, fun b hb => ?_⟩
  · have := memBytes_memPutBytes hs a (leBytes n v)
    rw [length_leBytes] at this
    rw [State.le, memLe, this, leNat_leBytes]
  · rw [State.byte, memByte_memPutBytes hs, length_leBytes, if_neg (by omega)]
    rfl

/-- The confirmed configuration is lost (R155). -/
theorem loseCfg_cfgOk (s : State) : s.loseCfg.get F.SYS_STAT_cfg_ok = 0 := by
  have hlast (u : State) : u.cancelBack.ccvAbandon.get F.SYS_STAT_cfg_ok = u.get F.SYS_STAT_cfg_ok :=
    get_of_stat (((State.ccvAbandon_only _).stat (by decide)).trans ((State.cancelBack_only u).stat (by decide))) (by decide)
  unfold State.loseCfg
  split
  · rw [hlast, event_get _ (by decide), get_put_ne _ _ (by decide), get_put_same _ _ _ (by decide)]
    rfl
  · rename_i h
    simpa [State.on] using h

/-- A window write of a word is a write under the checks of its range (R58, R79). -/
theorem exec_windowWrite {s : State} {addr : Nat} {w64 : Bool} (hl : s.live = true) (hlo : 0x80000 ≤ addr) (hhi : addr < 0x100000)
    (hal : addr % (if w64 then 8 else 4) = 0) (src : Src) (d : BitVec 64) : exec (.windowWrite src addr w64 d) s =
      .next (s.writeWindow src addr (if w64 then 8 else 4) (d.toNat % (if w64 then 2 ^ 64 else 2 ^ 32))).1 := by
  have hok : accessOk addr (if w64 then 8 else 4) = true := by cases w64 <;> simp_all [accessOk]
  have hword (v : Nat) : s.writeWord src addr (if w64 then 8 else 4) v = s.writeWindow src addr (if w64 then 8 else 4) v := by
    rw [State.writeWord, if_neg (by simp [hok]), if_neg (by omega)]
  show execWindowWrite src addr w64 d s = _
  rw [execWindowWrite, if_pos hl]
  cases w64
  · simp only [Bool.false_eq_true, if_false] at hword ⊢
    rw [hword]
  · simp only [if_true] at hword ⊢
    rw [hword, Nat.mod_eq_of_lt d.isLt]

/-- A window write that its range admits, where no word is in error (R79, R82). -/
theorem writeWindow_accepted {s : State} {src : Src} {a n : Nat} (h1 : s.ecc1 = []) (h2 : s.ecc2 = [])
    (hc : s.windowCheck (s.windowAddr src a) n = 0) (v : Nat) : (s.writeWindow src a n v).1 =
      if inSet (s.windowAddr src a) then (s.setLe (s.windowAddr src a) n v).loseCfg else s.setLe (s.windowAddr src a) n v := by
  have hr : (if n = 4 then s.readRange (s.windowAddr src a) 4 (winReq src) else s) = s := by
    rw [State.readRange, readWords_clean h1 h2, ite_self]
  simp only [State.writeWindow, hc, if_true, hr]

/-- Below the safety parameter set no window write is admitted (R80). -/
theorem writeWindow_below {s : State} {src : Src} {a : Nat} (h : s.windowAddr src a < 0x8C0000) (n v : Nat) :
    (s.writeWindow src a n v).1 = s.winErr src (s.windowAddr src a) 1 true := by
  have hc : s.windowCheck (s.windowAddr src a) n = 1 := by
    have hin : inSet (s.windowAddr src a) = false := by simp [inSet]; omega
    simp only [State.windowCheck, hin, if_neg (show ¬0xE00000 ≤ s.windowAddr src a by omega),
      if_neg (show ¬(0xD44000 ≤ s.windowAddr src a ∧ s.windowAddr src a < 0xD48000) by omega)]
    rfl
  simp [State.writeWindow, hc]

/-- Settles O28: the bytes of an admitted write, and the record of one below the safety parameter set. -/
theorem windowWrite : Obligations.WindowWrite := by
  intro src addr w64 d s hl hs h1 h2 hlo hhi hal
  have hx := exec_windowWrite hl hlo hhi hal src d
  refine ⟨fun hc => ?_, fun hlow hv => ?_⟩
  · obtain ⟨hle, hbyte⟩ := setLe_reads hs h1 h2 (s.windowAddr src addr) (if w64 then 8 else 4) (d.toNat % (if w64 then 2 ^ 64 else 2 ^ 32))
    have hv : d.toNat % (if w64 then 2 ^ 64 else 2 ^ 32) % 256 ^ (if w64 then 8 else 4) = d.toNat % (if w64 then 2 ^ 64 else 2 ^ 32) := by
      cases w64
      · exact Nat.mod_mod d.toNat (2 ^ 32)
      · exact Nat.mod_mod d.toNat (2 ^ 64)
    refine ⟨_, hx, execWindowWrite_only _ _ _ _ s hx, ?_⟩
    rw [writeWindow_accepted h1 h2 hc]
    cases hin : inSet (s.windowAddr src addr)
    · exact ⟨hle.trans hv, hbyte, fun h => absurd h (by decide)⟩
    · have hsram (u : State) : u.loseCfg.sram = u.sram := (State.loseCfg_only u).sram (by decide)
      refine ⟨?_, fun b hb => ?_, fun _ => loseCfg_cfgOk _⟩
      · rw [if_pos rfl, State.le, hsram]
        exact hle.trans hv
      · rw [if_pos rfl, State.byte, hsram]
        exact hbyte b hb
  · rw [writeWindow_below hlow] at hx
    obtain ⟨haddr, htype, hvalid⟩ := winErr_first hv src (s.windowAddr src addr) 1 true
    exact (winErr_writes ..).puts hx ⟨htype, haddr.trans (Nat.mod_eq_of_lt (by omega)), hvalid⟩

end Sys2Proof.Machine

end

section
/-! Staged register writes (O27). -/

set_option Elab.async false

namespace Sys2Proof.Machine

/-- A register of the map lies on one of the 31 pages and its row holds its offset (R57). -/
theorem regSpec_row {a : Nat} {r : RegSpec} (h : regSpec a = some r) :
    pageOf a < 31 ∧ r ∈ headerRegs ++ blockRegs (pageOf a) ∧ r.holds (a % 0x1000) = true := by
  unfold regSpec at h
  split at h
  · exact ⟨‹_›, List.mem_of_find?_eq_some h, List.find?_some (p := fun (r : RegSpec) => r.holds (a % 0x1000)) h⟩
  · cases h

/-- The rows with RWS fields: their mask is one word, none is of the CRC page, those of an aspect lie before its ASP_CTL, and those of
the chains and the tiles are CHN_CTRL and TIL_MAP (R219, R275, R278, R405). -/
theorem stagedRows : ∀ p : Fin 31, ∀ r ∈ headerRegs ++ blockRegs p, r.rws ≠ 0 → r.rws < 2 ^ 32 ∧ p.val ≠ 29 ∧
    (p.val = 16 ∨ p.val = 17 → r.stride = 32 ∧ 0x400 ≤ r.off ∧ r.off < 0x410) ∧
    (p.val = 20 ∨ p.val = 21 → r.off = 0x400 ∧ r.cnt = 10 ∧ r.stride = 64) ∧
    (p.val = 22 ∨ p.val = 23 → r.off = 0x400 ∧ r.cnt = 40 ∧ r.stride = 32) := by
  decide +kernel

/-- What `RegSpec.holds` says of an offset. -/
theorem RegSpec.holds_iff (r : RegSpec) (o : Nat) :
    r.holds o = true ↔ r.off ≤ o ∧ o < r.off + r.cnt * r.stride ∧ (o - r.off) % r.stride = 0 := by
  simp [RegSpec.holds, and_assoc]

section

variable {a : Nat} {r : RegSpec} (hr : regSpec a = some r) (hs : r.rws ≠ 0)
include hr hs

/-- A register with RWS fields is none whose row has no such field. -/
theorem staged_ne {b : Nat} (hb : (regSpec b).all (fun r => r.rws == 0) = true := by decide) : a ≠ b := by
  rintro rfl
  rw [hr] at hb
  exact hs (by simpa using hb)

/-- Nor a PCTRL. -/
theorem staged_not_pctrl : a % 0x1000 ≠ 0x008 := by
  intro h8
  have ha : a = pageAddr (pageOf a) + 8 := by unfold pageAddr pageOf; omega
  have hp := (regSpec_row hr).1
  rw [ha, regSpec_header hp (by decide) rfl] at hr
  obtain rfl := Option.some.inj hr
  exact hs rfl

theorem staged_crcSlot : crcSlot a = none := by
  obtain ⟨hp, hm, -⟩ := regSpec_row hr
  rw [crcSlot, if_neg fun h => (stagedRows ⟨pageOf a, hp⟩ r hm hs).2.1 h.1]

theorem staged_aspCtlAt : aspCtlAt a = none := by
  obtain ⟨hp, hm, hh⟩ := regSpec_row hr
  obtain ⟨-, -, hasp, -⟩ := stagedRows ⟨pageOf a, hp⟩ r hm hs
  refine List.find?_eq_none.mpr fun k _ h => ?_
  obtain rfl := beq_iff_eq.mp h
  have hpage : pageOf (R.ASP_CTL k) = 16 ∨ pageOf (R.ASP_CTL k) = 17 := by unfold R.ASP_CTL aspAddr pageOf; omega
  obtain ⟨hst, hlo, hhi⟩ := hasp hpage
  obtain ⟨hle, -, hmod⟩ := r.holds_iff _ |>.mp hh
  rw [hst] at hmod
  have : R.ASP_CTL k % 0x1000 = 0x410 + k % 80 * 32 := by unfold R.ASP_CTL aspAddr; omega
  omega

/-- On the CHN pages it is a CHN_CTRL, on the TIL pages a TIL_MAP (R275, R278). -/
theorem staged_chnTil : ((pageOf a = 20 ∨ pageOf a = 21) → a % 64 = 0 → ∃ c : Fin 20, a = R.CHN_CTRL c) ∧
    ((pageOf a = 22 ∨ pageOf a = 23) → a % 32 = 0 → ∃ i : Fin 80, a = R.TIL_MAP i) := by
  obtain ⟨hp, hm, hrow⟩ := regSpec_row hr
  obtain ⟨-, -, -, hchn, htil⟩ := stagedRows ⟨pageOf a, hp⟩ r hm hs
  obtain ⟨hle, hlt, -⟩ := r.holds_iff _ |>.mp hrow
  constructor
  · intro hpage hmod
    obtain ⟨hoff, hcnt, hst⟩ := hchn hpage
    rw [hoff, hcnt, hst] at hlt
    refine ⟨⟨10 * (pageOf a - 20) + (a % 0x1000 - 0x400) / 64, by omega⟩, ?_⟩
    unfold R.CHN_CTRL chnAddr
    unfold pageOf at hpage ⊢
    dsimp only
    omega
  · intro hpage hmod
    obtain ⟨hoff, hcnt, hst⟩ := htil hpage
    rw [hoff, hcnt, hst] at hlt
    refine ⟨⟨40 * (pageOf a - 22) + (a % 0x1000 - 0x400) / 32, by omega⟩, ?_⟩
    unfold R.TIL_MAP tilAddr
    unfold pageOf at hpage ⊢
    dsimp only
    omega

/-- Outside the registers that are written in CONFIGURE alone no mode refuses it on a page that HOLD leaves writable (R37, R61). -/
theorem staged_modeBars {s : State} (hh : s.mode = .hold → holdWritable (pageOf a) = true)
    (hc : s.mode ≠ .configure → a ≠ R.PLC_PWM ∧ (∀ c : Fin 20, a ≠ R.CHN_CTRL c) ∧ ∀ i : Fin 80, a ≠ R.TIL_MAP i) (v m : Word) :
    s.modeBars a v ⟨0, 0, m, 0, 0⟩ = false := by
  obtain ⟨hchn, htil⟩ := staged_chnTil hr hs
  rw [Bool.eq_false_iff]
  intro h
  simp only [State.modeBars, Bool.or_eq_true, Bool.and_eq_true, beq_iff_eq, bne_iff_ne, decide_eq_true_eq, Bool.not_eq_true'] at h
  rcases h with ((⟨⟨⟨⟨hm, hw⟩, -⟩, -⟩, -⟩ | ⟨⟨hm, -⟩, (rfl | ⟨⟨hp, -⟩, hmod⟩) | ⟨⟨hp, -⟩, hmod⟩⟩) | ⟨-, h0⟩) | ⟨⟨he, -⟩, -⟩
  · rw [hh hm] at hw; cases hw
  · exact (hc hm).1 rfl
  · obtain ⟨c, rfl⟩ := hchn hp (by omega)
    exact (hc hm).2.1 c rfl
  · obtain ⟨i, rfl⟩ := htil hp (by omega)
    exact (hc hm).2.2 i rfl
  · exact h0 rfl
  · exact absurd he (staged_ne hr hs)

theorem staged_sourceBars (s : State) (src : Src) (v : Word) : s.sourceBars src a v = false := by
  simp [State.sourceBars, staged_aspCtlAt hr hs, staged_ne hr hs (b := R.SYS_MODEREQ), staged_ne hr hs (b := R.SYS_RESET),
    staged_ne hr hs (b := R.SYS_ACK), staged_ne hr hs (b := R.AXO_CTRL), staged_ne hr hs (b := R.ASP_FGRP)]

/-- The mask of its RWS fields is not empty as a word. -/
theorem staged_mask : BitVec.ofNat 32 r.rws ≠ 0 := by
  obtain ⟨hp, hm, -⟩ := regSpec_row hr
  have hlt := (stagedRows ⟨pageOf a, hp⟩ r hm hs).1
  intro h
  have := congrArg BitVec.toNat h
  rw [BitVec.toNat_ofNat, Nat.mod_eq_of_lt hlt] at this
  exact hs this

/-- A write of a word whose fields are RWS alone, once every check of R61 admits it, joins the clause (R72). -/
theorem writeReg_staged {s : State} {src : Src} (h0 : r.rw = 0 ∧ r.rwl = 0 ∧ r.wo = 0 ∧ r.w1c = 0 ∧ r.ro = 0)
    (ho : s.owns src (pageOf a) = true) (hh : s.mode = .hold → holdWritable (pageOf a) = true)
    (hc : s.mode ≠ .configure → a ≠ R.PLC_PWM ∧ (∀ c : Fin 20, a ≠ R.CHN_CTRL c) ∧ ∀ i : Fin 80, a ≠ R.TIL_MAP i)
    (hlock : s.locked (pageOf a) = false) (hconf : s.spd.conf = false) (hres : reservedEntry a = false)
    (hcl : s.clauseBars src = false) (v : Word) : s.writeReg src a v = (s.stage src a v (BitVec.ofNat 32 r.rws), 0) := by
  obtain ⟨hrw, hrwl, hwo, hw1c, hro⟩ := h0
  have hmask := staged_mask hr hs
  have hmix : r.mixed = false := by simp [RegSpec.mixed, hrw, hrwl, hwo, hw1c, hro, hs]
  have ht : s.touch src r a v = ⟨0, 0, BitVec.ofNat 32 r.rws, 0, 0⟩ := by simp [State.touch, hmix, hrw, hrwl, hwo, hw1c]
  have hnone : (⟨0, 0, BitVec.ofNat 32 r.rws, 0, 0⟩ : Touch).none = false := by simpa [Touch.none] using hmask
  have hread : readOnly r a = false := by simp [readOnly, staged_crcSlot hr hs, hrw, hrwl, hwo, hw1c, hs]
  have hcheck : s.writeCheck src a v ⟨0, 0, BitVec.ofNat 32 r.rws, 0, 0⟩ = 0 := by
    simp only [State.writeCheck, staged_modeBars hr hs hh hc, staged_sourceBars hr hs, ho, hlock, hconf, hcl]
    simp [staged_ne hr hs (b := R.CLS_COMMIT)]
  have hkeep (x y : Word) : (x &&& ~~~0) ||| (y &&& 0) = x := by simp; exact BitVec.and_allOnes
  have hfields : s.writeFields src r a v ⟨0, 0, BitVec.ofNat 32 r.rws, 0, 0⟩ = s.stage src a v (BitVec.ofNat 32 r.rws) := by
    simp only [State.writeFields, staged_crcSlot hr hs, hkeep, changesSet_same, if_neg hmask]
    simp
  rw [State.writeReg, if_neg (staged_not_pctrl hr hs), hr]
  simp only [hres, hread, ht, hnone, hcheck, hfields]
  simp

end

/-- The clause that is open for a source takes the new value of a word (R72). -/
def State.join (s : State) (a : Nat) (v m : Word) : State :=
  let w := normWord a ((s.shadow a &&& ~~~m) ||| (v &&& m)).toNat
  let s := { s with cl := { s.cl with shadow := kvPut s.cl.shadow a (BitVec.ofNat 32 w) } }
  s.put F.CLS_STAT_regs s.cl.shadow.length

/-- The explicit clause opens for a source (R73, R84). -/
def State.openClause (s : State) (src : Src) : State :=
  ((s.put F.CLS_STAT_state 1).put F.CLS_STAT_owner (ownerOfSrc src)).put F.CLS_STAT_sysabort 0

theorem stage_eq (s : State) (src : Src) (a : Nat) (v m : Word) :
    s.stage src a v m = (if s.get F.CLS_STAT_state = 0 then s.openClause src else s).join a v m := rfl

theorem openClause_opens (s : State) (src : Src) : (s.openClause src).get F.CLS_STAT_state = 1 ∧
    (s.openClause src).get F.CLS_STAT_owner = ownerOfSrc src ∧ (s.openClause src).cl = s.cl ∧
      ∀ b, b ≠ R.CLS_STAT → (s.openClause src).reg b = s.reg b := by
  refine ⟨?_, ?_, rfl, fun b hb => ?_⟩
  · simp only [State.openClause]
    rw [get_put_apart _ _ _ _ (by decide), get_put_apart _ _ _ _ (by decide), get_put_same _ _ _ (by decide)]
    rfl
  · simp only [State.openClause]
    rw [get_put_apart _ _ _ _ (by decide), get_put_same _ _ _ (by decide), ownerOfSrc]
    split <;> rfl
  · simp only [State.openClause]
    rw [reg_put_ne _ _ _ hb, reg_put_ne _ _ _ hb, reg_put_ne _ _ _ hb]

theorem join_shows (s : State) (a : Nat) (v m : Word) :
    (∀ b, b ≠ R.CLS_STAT → (s.join a v m).reg b = s.reg b) ∧ (s.join a v m).get F.CLS_STAT_state = s.get F.CLS_STAT_state ∧
      (s.join a v m).get F.CLS_STAT_owner = s.get F.CLS_STAT_owner ∧
      (s.join a v m).get F.CLS_STAT_regs = (s.join a v m).cl.shadow.length % 65536 ∧
      (s.join a v m).shadow a = BitVec.ofNat 32 (normWord a ((s.shadow a &&& ~~~m) ||| (v &&& m)).toNat) ∧
      ∀ b, b ≠ a → b ≠ R.CLS_STAT → (s.join a v m).shadow b = s.shadow b := by
  have hreg (b : Nat) (hb : b ≠ R.CLS_STAT) : (s.join a v m).reg b = s.reg b := reg_put_ne _ _ _ hb
  refine ⟨hreg, get_put_apart _ _ _ _ (by decide), get_put_apart _ _ _ _ (by decide), get_put_same _ _ _ (by decide), ?_, fun b hb hc => ?_⟩
  · rw [State.shadow]
    simp only [State.join, put_cl, kvFind_kvPut_same, Option.getD_some]
  · rw [State.shadow, hreg b hc]
    simp only [State.join, put_cl, kvFind_kvPut_ne _ _ hb]
    rfl

/-- What a staged write leaves (R72, R73, R84). -/
theorem stage_shows {s : State} {src : Src} {a : Nat} (ha : a ≠ R.CLS_STAT)
    (hst : s.get F.CLS_STAT_state = 0 ∨ s.get F.CLS_STAT_state = 1 ∧ s.get F.CLS_STAT_owner = ownerOfSrc src) (v m : Word) :
    let t := s.stage src a v m
    t.reg a = s.reg a ∧ t.get F.CLS_STAT_state = 1 ∧ t.get F.CLS_STAT_owner = ownerOfSrc src ∧
      t.get F.CLS_STAT_regs = t.cl.shadow.length % 65536 ∧
      t.shadow a = BitVec.ofNat 32 (normWord a ((s.shadow a &&& ~~~m) ||| (v &&& m)).toNat) ∧
      ∀ b, b ≠ a → b ≠ R.CLS_STAT → t.shadow b = s.shadow b := by
  rcases hst with h | ⟨h, hown⟩
  · obtain ⟨ostate, oowner, ocl, oreg⟩ := openClause_opens s src
    obtain ⟨hreg, hstate, howner, hregs, hsame, hother⟩ := join_shows (s.openClause src) a v m
    have hsh (b : Nat) (hb : b ≠ R.CLS_STAT) : (s.openClause src).shadow b = s.shadow b := by rw [State.shadow, ocl, oreg b hb]; rfl
    rw [stage_eq, if_pos h]
    refine ⟨(hreg a ha).trans (oreg a ha), hstate.trans ostate, howner.trans oowner, hregs, ?_, fun b hb hc => (hother b hb hc).trans (hsh b hc)⟩
    rw [hsame, hsh a ha]
  · obtain ⟨hreg, hstate, howner, hregs, hsame, hother⟩ := join_shows s a v m
    rw [stage_eq, if_neg (by omega)]
    exact ⟨hreg a ha, hstate.trans h, howner.trans hown, hregs, hsame, hother⟩

/-- Settles O27: every check of R61 admits the write, which joins the clause. -/
theorem stagedWrite : Obligations.StagedWrite := by
  intro src a v r s hr h4 hs hrw hrwl hwo hw1c hro hl ho hh hc hlock hconf hres hst
  have hlt : a < 0x1F000 := by have := (regSpec_row hr).1; unfold pageOf at this; omega
  have hbars : s.clauseBars src = false := by
    rcases hst with h | ⟨h, hown⟩
    · simp [State.clauseBars, h]
    · simp [State.clauseBars, h, hown]
  have hx : exec (.stagedWrite src a v) s = .next (s.stage src a v (BitVec.ofNat 32 r.rws)) := by
    refine (exec_registerWrite hl hlt h4 v).trans ?_
    rw [writeReg_staged hr hs ⟨hrw, hrwl, hwo, hw1c, hro⟩ ho hh hc hlock hconf hres hbars]
  exact ⟨_, hx, State.stage_only .., stage_shows (staged_ne hr hs) hst v _⟩

end Sys2Proof.Machine

end

section
/-! Register words that a step leaves, by a test of their addresses: page headers have no part in footprints, so what stays in them is
said here. -/

set_option Elab.async false

namespace Sys2Proof.Machine

/-- The register words that `W` selects keep their values from `s` to `t`. -/
structure Keeps (W : Nat → Prop) (s t : State) : Prop where
  word : ∀ a, W a → t.reg a = s.reg a

variable {W : Nat → Prop} {s t u : State}

theorem Keeps.refl (W : Nat → Prop) (s : State) : Keeps W s s := ⟨fun _ _ => rfl⟩

theorem Keeps.comp (h : Keeps W s t) (k : Keeps W t u) : Keeps W s u :=
  ⟨fun a ha => (k.word a ha).trans (h.word a ha)⟩

theorem Keeps.ite {a b : State} {c : Prop} [Decidable c] (ha : Keeps W s a) (hb : Keeps W s b) : Keeps W s (if c then a else b) := by
  split <;> assumption

theorem Keeps.foldl {α : Type} {f : State → α → State} {l : List α} (h : Keeps W s t) (hf : ∀ u x, Keeps W u (f u x)) :
    Keeps W s (l.foldl f t) := by
  induction l generalizing t with
  | nil => exact h
  | cons x r ih => exact ih (h.comp (hf t x))

/-- A step after which the register file is the same. -/
theorem Keeps.same (h : Keeps W s t) (hr : u.regs = t.regs) : Keeps W s u :=
  ⟨fun a ha => (reg_congr hr a).trans (h.word a ha)⟩

theorem Keeps.setReg {a : Nat} {v : Word} (h : Keeps W s t) (ha : ¬W a) : Keeps W s (t.setReg a v) :=
  h.comp ⟨fun _ hb => reg_setReg_ne t v fun e => ha (e ▸ hb)⟩

theorem Keeps.put {f : Fld} {v : Nat} (h : Keeps W s t) (ha : ¬W f.addr) : Keeps W s (t.put f v) := h.setReg ha

theorem Keeps.flag {f : Fld} {b : Bool} (h : Keeps W s t) (ha : ¬W f.addr) : Keeps W s (t.flag f b) := h.setReg ha

theorem Keeps.inc {f : Fld} (h : Keeps W s t) (ha : ¬W f.addr) : Keeps W s (t.inc f) := h.setReg ha

theorem Keeps.event {p n : Nat} (h : Keeps W s t) (ha : ¬W (R.PIRQ_RAW p)) : Keeps W s (t.event p n) := h.setReg ha

theorem Keeps.eventIf {c : Bool} {p n : Nat} (h : Keeps W s t) (ha : ¬W (R.PIRQ_RAW p)) : Keeps W s (t.eventIf c p n) := by
  unfold State.eventIf; exact .ite (h.event ha) h

/-- A footprint leaves the words that lie outside it. -/
theorem Keeps.of {E : Nat} (h : Only E s t) (hE : ∀ a, W a → leaves E a = true) : Keeps W s t := ⟨fun a ha => h.word a (hE a ha)⟩

theorem Keeps.mono {V : Nat → Prop} (h : Keeps V s t) (hv : ∀ a, W a → V a) : Keeps W s t := ⟨fun a ha => h.word a (hv a ha)⟩

theorem Keeps.get {f : Fld} (h : Keeps W s t) (hf : W f.addr) : t.get f = s.get f := by simp only [State.get, h.word _ hf]

/-- The registers that the safety outputs write as they are driven (R383, R386). -/
def outputWord (a : Nat) : Prop := a = R.SIO_TCNT ∨ a = R.PIRQ_RAW 28 ∨ ∃ k, a = R.SIO_OST k

theorem dropTest_keeps (s : State) (k : Nat) : Keeps (fun a => ¬outputWord a) s (s.dropTest k) := by
  unfold State.dropTest
  refine .ite (.same (t := ((s.inc F.SIO_TCNT_discarded).event 28 4).put (F.SIO_OST_retry k) 1) ?_ (onOut_regs ..)) (.refl ..)
  exact .put (.event (.inc (.refl ..) fun h => h (.inl rfl)) fun h => h (.inr (.inl rfl))) fun h => h (.inr (.inr ⟨k, rfl⟩))

theorem driveOut_keeps (s : State) (k : Nat) (b : Bool) : Keeps (fun a => ¬outputWord a) s (s.driveOut k b) := by
  have hk : ¬¬outputWord (R.SIO_OST k) := fun h => h (.inr (.inr ⟨k, rfl⟩))
  have hd {f : SioOut → SioOut} : Keeps (fun a => ¬outputWord a) s ((s.flag (F.SIO_OST_drv k) b).onOut k f) :=
    .same (t := s.flag (F.SIO_OST_drv k) b) (.flag (.refl ..) hk) (onOut_regs ..)
  unfold State.driveOut
  exact .ite (.refl ..) (.ite (.put hd hk) hd)

/-- The safety outputs as they follow their conditions write their own words and the event of a discarded test. -/
theorem sioDrive_keeps (s : State) : Keeps (fun a => ¬outputWord a) s s.sioDrive := by
  unfold State.sioDrive
  exact .foldl (.refl ..) fun u k => .ite (driveOut_keeps ..) ((dropTest_keeps u k).comp (driveOut_keeps ..))

/-- The converter's shown state is two fields of ADC_STAT (R352). -/
theorem adcShow_keeps (s : State) : Keeps (· ≠ R.ADC_STAT) s s.adcShow := .flag (.flag (.refl ..) (fun h => h rfl)) fun h => h rfl

theorem balWritten_regs (s : State) (a : Nat) : (s.balWritten a).regs = s.regs := by
  unfold State.balWritten
  split <;> rfl

/-- A header register but for PIRQ_RAW is none of the words that the outputs write. -/
theorem header_not_outputWord (p : Nat) {k : Nat} (hk : k < 0x40) (h10 : k ≠ 0x10) : ¬outputWord (pageAddr p + k) := by
  have hoff := (header_split p hk).2
  rintro (h | h | ⟨j, h⟩)
  · exact absurd h (header_ne p hk)
  · rw [h] at hoff
    exact h10 (hoff.symm.trans rfl)
  · refine absurd h (header_ne p hk ?_)
    unfold R.SIO_OST
    omega

end Sys2Proof.Machine

end

section
/-! The SPI port (O41). -/

set_option Elab.async false

namespace Sys2Proof.Machine

/-- SPI_CS_N falls with nothing in progress: the oldest completed access is reported, else SYS_STAT (R137). -/
theorem spiFrameStart_idle {s : State} (hl : s.live = true) (hlow : s.spi.low = false) (hr : s.spi.running = none) (hw : s.spi.waiting = none) :
    exec .spiFrameStart s = .next (match s.spi.done with
      | a :: r => s.onSpi fun p => { p with low := true, discard := false, done := r, miso := s.misoFrame a.status a.seq a.res.toNat }
      | [] => s.onSpi fun p => { p with low := true, discard := false, miso := s.misoFrame 0 0 (s.peek R.SYS_STAT).toNat }) := by
  show execSpiFrameStart s = _
  rw [execSpiFrameStart, if_neg (by simp [hl, hlow]), hr, hw]
  rfl

/-- While an access waits or runs the frame says busy and will be discarded (R137). -/
theorem spiFrameStart_busy {s : State} {a : SpiAcc} (hl : s.live = true) (hlow : s.spi.low = false)
    (h : s.spi.running.or s.spi.waiting = some a) : exec .spiFrameStart s =
      .next (s.onSpi fun p => { p with low := true, discard := true, miso := s.misoFrame 0xE a.seq 0 }) := by
  show execSpiFrameStart s = _
  rw [execSpiFrameStart, if_neg (by simp [hl, hlow]), h]

/-- The access that a frame of `v` asks for (R135). -/
def spiAccess (v : Nat) : SpiAcc :=
  { op := bits v 62 2, seq := bits v 60 2, addr := bits v 40 20, data := BitVec.ofNat 32 (bits v 8 32) }

/-- The port after the rising edge of a frame, before its access is looked at. -/
def State.spiRisen (s : State) : State := s.onSpi fun p => { p with low := false, discard := false }

/-- SPI_CS_N rises after a frame that was on the port (R135 to R137). -/
theorem exec_spiFrameEnd {s : State} (hl : s.live = true) (hlow : s.spi.low = true) (n : Nat) (mosi : BitVec 64) :
    exec (.spiFrameEnd n mosi) s = .next
      (if ¬(n = 64 ∧ crc8 ((frameBytes mosi.toNat).take 7) = mosi.toNat % 256) then
        ((s.spiRisen.inc F.PKT_SPICNT_err).event 8 6).spiDone { spiAccess mosi.toNat with status := 0xD }
      else if s.spi.discard then s.spiRisen
      else if bits mosi.toNat 62 2 = 3 then (s.spiRisen.inc F.PKT_SPICNT_ok).spiDone { spiAccess mosi.toNat with status := 0xB }
      else s.spiRisen.onSpi fun p => { p with waiting := some (spiAccess mosi.toNat) }) := by
  show execSpiFrameEnd n mosi s = _
  rw [execSpiFrameEnd, if_neg (by simp [hl, hlow])]
  rfl

/-- An access that completes waits to be reported behind those before it (R137). -/
theorem spiDone_spi (s : State) (a : SpiAcc) : (s.spiDone a).spi.low = s.spi.low ∧ (s.spiDone a).spi.waiting = s.spi.waiting ∧
    ((s.spiDone a).spi.done.getLast?.map SpiAcc.status) = some a.status := by
  refine ⟨rfl, rfl, ?_⟩
  show ((s.spi.done ++ [a]).getLast?.map SpiAcc.status) = _
  rw [List.getLast?_concat]
  rfl

/-- The waiting access is taken up and counted (R137, log entry 28). -/
def State.spiTaken (s : State) : State := (s.inc F.PKT_SPICNT_ok).onSpi fun p => { p with waiting := none }

theorem spiTaken_only (s : State) : Only (P.spi ||| P.pgPkt) s s.spiTaken := .comp (.inc (.refl ..)) (State.onSpi_only ..)

/-- An access that is executed, where the device stays live (R137). -/
theorem spiRun_waiting {s t : State} {a b : SpiAcc} {op : Nat} {f : SpiAcc → State → State × SpiAcc} (hl : s.live = true)
    (hw : s.spi.waiting = some a) (ha : a.op = op) (hf : f a s.spiTaken = (t, b)) (ht : t.live = true) :
    s.spiRun op f = t.onSpi fun p => { p with running := some b } := by
  rw [State.spiRun, hw]
  simp only [hl, ha, and_self, if_true]
  rw [← State.spiTaken, hf]
  exact if_pos ht

theorem spiTaken_live {s : State} (hl : s.live = true) : s.spiTaken.live = true := by
  rw [State.live, (spiTaken_only s).modeEq]; exact hl

theorem spiTaken_counts (s : State) : s.spiTaken.get F.PKT_SPICNT_ok = s.plusOne F.PKT_SPICNT_ok := inc_get s _ (by decide)

/-- What a register reads from a source does not depend on the SPI port. -/
theorem readBy_onSpi (s : State) (f : Spi → Spi) (src : Src) (a : Nat) : (s.onSpi f).readBy src a = s.readBy src a := rfl

/-- A NOP access reads SYS_STAT (R137). -/
theorem spiNop_runs {s : State} {a : SpiAcc} (hl : s.live = true) (hw : s.spi.waiting = some a) (ha : a.op = 0) :
    exec .spiNop s = .next (s.spiTaken.onSpi fun p => { p with running := some { a with status := 0, res := s.peek R.SYS_STAT } }) := by
  have hpeek : s.spiTaken.peek R.SYS_STAT = s.peek R.SYS_STAT := by
    have hp (u : State) : u.peek R.SYS_STAT = (kvFind u.cl.frozen R.SYS_STAT).getD (u.reg R.SYS_STAT) := rfl
    rw [hp, hp, (spiTaken_only s).cl (by decide)]
    exact congrArg _ (reg_put_ne s _ _ (by decide))
  show execSpiNop s = _
  rw [execSpiNop, spiRun_waiting hl hw ha (by rw [hpeek]) (spiTaken_live hl)]

/-- A read access of an aligned register word (R58, R137). -/
theorem spiRead_runs {s : State} {a : SpiAcc} (hl : s.live = true) (hw : s.spi.waiting = some a) (ha : a.op = 1) (hlt : a.addr < 0x1F000)
    (h4 : a.addr % 4 = 0) : exec .spiRead s = .next ((s.spiTaken.readEffect a.addr).onSpi fun p =>
      { p with running := some { a with status := 0, res := (s.inc F.PKT_SPICNT_ok).readBy .spi a.addr } }) := by
  have hok : accessOk a.addr 4 = true := by simp [accessOk, hlt, h4]
  have hread : s.spiTaken.readWord .spi a.addr 4 = (s.spiTaken.readEffect a.addr, 0, (s.spiTaken.readBy .spi a.addr).toNat) := by
    rw [State.readWord, if_neg (by simp [hok]), if_pos hlt]
  have hres : BitVec.ofNat 32 (s.spiTaken.readBy .spi a.addr).toNat = (s.inc F.PKT_SPICNT_ok).readBy .spi a.addr := by
    rw [State.spiTaken, readBy_onSpi]
    exact (BitVec.ofNat_toNat 32 _).trans (BitVec.setWidth_eq _)
  have hlive : (s.spiTaken.readEffect a.addr).live = true := by
    rw [State.live, (State.readEffect_only ..).modeEq]
    exact spiTaken_live hl
  show execSpiRead s = _
  rw [execSpiRead, spiRun_waiting hl hw ha (by rw [hread]) hlive, hres]

/-- A write of PIRQ_EN changes no mode, the SPI port and no other header register but an interrupt record of its own page. -/
theorem afterWrite_pirqEn (s old : State) (src : Src) {p : Nat} (v : Word) : Only (P.sio ||| P.pgSio ||| P.bal ||| P.pgAdc) s (s.afterWrite old src (R.PIRQ_EN p) v) ∧
    (s.afterWrite old src (R.PIRQ_EN p) v).reg (R.PIRQ_EN p) = s.reg (R.PIRQ_EN p) := by
  rw [R.PIRQ_EN, afterWrite_header _ _ _ (by decide)]
  split
  · exact ⟨.mono (State.adcShow_only s), (adcShow_keeps s).word _ (header_ne p (by decide))⟩
  · split
    · split
      · exact ⟨.refl .., rfl⟩
      · exact ⟨.mono (State.balWritten_only ..), reg_congr (balWritten_regs ..) _⟩
    · split
      · exact ⟨.mono (State.sioDrive_only s), (sioDrive_keeps s).word _ (header_not_outputWord p (by decide) (by decide))⟩
      · exact ⟨.refl .., rfl⟩

/-- A write access of PIRQ_EN of a page that the SPI port owns (R65, R137). -/
theorem spiWrite_pirqEn {s : State} {a : SpiAcc} {p : Nat} (hl : s.live = true) (hw : s.spi.waiting = some a) (ha : a.op = 2) (hp : p < 31)
    (haddr : a.addr = R.PIRQ_EN p) (ho : s.owns .spi p = true) : ∃ t, exec .spiWrite s = .next t ∧ t.reg (R.PIRQ_EN p) = a.data ∧
      t.spi = { s.spi with waiting := none, running := some { a with status := 0, res := 0 } } := by
  have hown : s.spiTaken.owns .spi p = true := by
    have hb (x n : Nat) (hx : x = R.SYS_OWN0 ∨ x = R.SYS_OWN1) : s.spiTaken.bit x n = s.bit x n := by
      rw [State.bit, State.bit, (spiTaken_only s).word x (by rcases hx with rfl | rfl <;> decide)]
    rw [State.owns, hb _ _ (by split <;> simp)]
    exact ho
  have hlt : R.PIRQ_EN p < 0x1F000 := header_lt hp (by decide)
  have hok : accessOk (R.PIRQ_EN p) 4 = true := by
    have h4 : R.PIRQ_EN p % 4 = 0 := header_aligned p rfl
    simp [accessOk, hlt, h4]
  obtain ⟨honly, hreg⟩ := afterWrite_pirqEn (s.spiTaken.setReg (R.PIRQ_EN p) a.data) s.spiTaken .spi (p := p) a.data
  have hwrite : s.spiTaken.writeWord .spi a.addr 4 a.data.toNat =
      ((s.spiTaken.setReg (R.PIRQ_EN p) a.data).afterWrite s.spiTaken .spi (R.PIRQ_EN p) a.data, 0) := by
    rw [haddr, State.writeWord, if_neg (by simp [hok]), if_pos hlt, ← writeReg_pirqEn hp hown,
      BitVec.ofNat_toNat, BitVec.setWidth_eq]
  have hlive : ((s.spiTaken.setReg (R.PIRQ_EN p) a.data).afterWrite s.spiTaken .spi (R.PIRQ_EN p) a.data).live = true := by
    have hset : Only 0 s.spiTaken (s.spiTaken.setReg (R.PIRQ_EN p) a.data) := .setReg (.refl ..) covers_page
    rw [State.live, honly.modeEq, hset.modeEq]
    exact spiTaken_live hl
  refine ⟨_, congrArg Host.Outcome.next (spiRun_waiting hl hw ha (by rw [hwrite]) hlive), hreg.trans (reg_setReg_same ..), ?_⟩
  rw [State.onSpi, honly.spi (by decide)]
  rfl

/-- Settles O41: the edges of a frame, each operation of an access, and its completion. -/
theorem spiPort : Obligations.SpiPort := by
  intro s
  refine ⟨fun hl hlow hr hw => ⟨fun hd => ?_, fun a r hd => ?_⟩, fun a hl hlow h => spiFrameStart_busy hl hlow h,
    fun mosi hl hlow hdis hcrc => ?_, fun mosi hl hlow hdis => ⟨fun hcrc hop => ?_, fun hcrc hop => ?_, fun n hbad => ?_⟩,
    fun a hl hw => ⟨fun ha => ?_, fun ha hlt h4 => ?_, fun k ha haddr ho => ?_⟩, fun a hr => ?_⟩
  · rw [spiFrameStart_idle hl hlow hr hw, hd]
  · rw [spiFrameStart_idle hl hlow hr hw, hd]
  · rw [exec_spiFrameEnd hl hlow, if_neg (by simp [hcrc]), if_pos hdis]
    rfl
  · refine ⟨spiAccess mosi.toNat, rfl, rfl, rfl, rfl, ?_⟩
    rw [exec_spiFrameEnd hl hlow, if_neg (by simp [hcrc]), if_neg (by simp [hdis]), if_neg hop]
    rfl
  · have hx := exec_spiFrameEnd hl hlow 64 mosi
    rw [if_neg (by simp [hcrc]), if_neg (by simp [hdis]), if_pos hop] at hx
    exact ⟨_, hx, execSpiFrameEnd_only _ _ s hx, inc_get s _ (by decide), spiDone_spi ..⟩
  · have hx := exec_spiFrameEnd hl hlow n mosi
    rw [if_pos fun h => hbad.elim (fun hn => hn h.1) fun hc => hc h.2] at hx
    have herr : ((s.spiRisen.inc F.PKT_SPICNT_err).event 8 6).get F.PKT_SPICNT_err = s.plusOne F.PKT_SPICNT_err :=
      (event_get _ (by decide)).trans (inc_get s _ (by decide))
    exact ⟨_, hx, execSpiFrameEnd_only _ _ s hx, herr, spiDone_spi ..⟩
  · have hx := spiNop_runs hl hw ha
    exact ⟨_, hx, execSpiNop_only s hx, spiTaken_counts s, rfl⟩
  · have hx := spiRead_runs hl hw ha hlt h4
    refine ⟨_, hx, execSpiRead_only s hx, ?_⟩
    rw [State.onSpi, (State.readEffect_only ..).spi (by decide)]
    rfl
  · obtain ⟨t, hx, hreg, hspi⟩ := spiWrite_pirqEn hl hw ha k.isLt haddr ho
    exact ⟨t, hx, execSpiWrite_only s hx, hreg, hspi⟩
  · show execSpiAccessComplete s = _
    rw [execSpiAccessComplete, hr]
    rfl

end Sys2Proof.Machine

end

section
/-! PCTRL.freeze (O29): the words that a page shows do not depend on it. Each function that a reading goes through reads words off the
offset of PCTRL, which the discharger sees from the addresses of the fields it names. -/

set_option Elab.async false

namespace Sys2Proof.Machine

/-- From `s` to `t` register words change only, those of PCTRL, and no page is enabled or disabled. -/
structure OnAlike (s t : State) : Prop where
  regs : onlyRegs s t
  word : ∀ a, a % 0x1000 ≠ 8 → t.reg a = s.reg a
  en : ∀ p, t.get (F.PCTRL_en p) = s.get (F.PCTRL_en p)

theorem flag_freeze_alike (s : State) (p : Nat) (b : Bool) : OnAlike s (s.flag (F.PCTRL_freeze p) b) where
  regs := (Writes.flag (.refl [R.PCTRL p] s) (List.mem_singleton.mpr rfl)).regs
  word a ha := reg_put_ne _ _ _ (by rintro rfl; exact ha (header_split p (by decide)).2)
  en q := by
    by_cases h : q = p
    · subst h; exact get_put_beside _ _ _ _ _ _ _ (by decide)
    · exact get_put_ne _ _ (by simp only [F.PCTRL_en, F.PCTRL_freeze, R.PCTRL, pageAddr]; omega)

section

variable {s t : State} (h : OnAlike s t)
include h

theorem OnAlike.get {f : Fld} (hf : f.addr % 0x1000 ≠ 8) : t.get f = s.get f := by rw [State.get, h.word _ hf, State.get]

theorem OnAlike.on {f : Fld} (hf : f.addr % 0x1000 ≠ 8) : t.on f = s.on f := by rw [State.on, h.get hf, State.on]

theorem OnAlike.onEn (p : Nat) : t.on (F.PCTRL_en p) = s.on (F.PCTRL_en p) := by rw [State.on, h.en, State.on]

theorem OnAlike.regN {a : Nat} (ha : a % 0x1000 ≠ 8) : t.regN a = s.regN a := by rw [State.regN, h.word _ ha, State.regN]

theorem OnAlike.mode : t.mode = s.mode := mode_congr (h.get (by decide))

theorem OnAlike.live : t.live = s.live := by rw [State.live, h.mode, State.live]

theorem OnAlike.latched (k : Nat) : t.latched k = s.latched k := by rw [h.regs]; rfl

theorem OnAlike.presentIn (k : Nat) (f : Nat → Bool) : t.presentIn k f = s.presentIn k f := by rw [h.regs]; rfl

theorem OnAlike.stagedOn (p : Nat) : t.stagedOn p = s.stagedOn p := by rw [h.regs]; rfl

theorem OnAlike.maskBusy : t.maskBusy = s.maskBusy := by rw [h.regs]; rfl

theorem OnAlike.irq (p : Nat) : t.irq p = s.irq p := by
  have off (k : Nat) (hk : k < 0x40) (h8 : k ≠ 8) : (pageAddr p + k) % 0x1000 ≠ 8 := by rw [(header_split p hk).2]; exact h8
  rw [State.irq, R.PIRQ_RAW, R.PIRQ_EN, h.word _ (off 0x10 (by decide) (by decide)), h.word _ (off 0x14 (by decide) (by decide))]
  rfl

theorem OnAlike.locked (p : Nat) : t.locked p = s.locked p :=
  h.on (f := F.PLOCK_locked p) (by show (pageAddr p + 0x20) % 0x1000 ≠ 8; rw [(header_split p (by decide)).2]; decide)

theorem OnAlike.instOf (x : Nat) : t.instOf x = s.instOf x := by
  simp (disch := (simp only [F.TIL_MAP_en, F.TIL_MAP_index, R.TIL_MAP, tilAddr]; omega)) only [State.instOf, State.instances, h.on, h.get]

theorem OnAlike.place (x : Nat) : t.place x = s.place x := by
  have hfb : t.light.fb = s.light.fb ∧ ∀ o, t.fbByte o = s.fbByte o := by rw [h.regs]; exact ⟨rfl, fun _ => rfl⟩
  simp (disch := (simp only [F.TIL_MAP_chain, F.TIL_MAP_pos, R.TIL_MAP, tilAddr]; omega)) only
    [State.place, State.placeIn, h.instOf, h.get, hfb.1, hfb.2]

theorem OnAlike.balJudges (g : Nat) : t.balJudges g = s.balJudges g := by
  simp (disch := (simp only [F.BAL_CTRL_en, F.ADC_CFG_fmask, F.SPL_CTRL_en, R.BAL_CTRL, R.ADC_CFG, R.SPL_CTRL]; omega)) only
    [State.balJudges, h.on, h.get, h.onEn, h.mode]

/-- PSTAT of a page shows whether it is enabled, not whether it is frozen (R64). -/
theorem OnAlike.pstat (p : Nat) : t.pstat p = s.pstat p := by
  have hs : t.link.queue = s.link.queue ∧ t.spd = s.spd ∧ t.vid = s.vid ∧ t.sio = s.sio := by rw [h.regs]; exact ⟨rfl, rfl, rfl, rfl⟩
  obtain ⟨hq, hspd, hvid, hsio⟩ := hs
  have hbal : t.balJudges = s.balJudges := funext h.balJudges
  have hlat : t.latched = s.latched := funext h.latched
  have hblock : t.pageBlock p = s.pageBlock p := by
    unfold State.pageBlock State.anyFault
    dsimp only
    repeat' refine ite_congr rfl (fun _ => ?_) fun _ => ?_
    all_goals
      simp (disch := (
          simp only [F.ADC_STAT_cal_run, F.ADC_STAT_fast, F.ADC_STAT_rbusy, F.ASP_FLT_off, F.ASP_FST_fading, F.AXO_STAT_aligned, F.AXO_STAT_partner,
            F.CAL_CFG_byp, F.CHN_STAT_state, F.CMP_STAT_state, F.CRC_SKSTAT_state, F.LNK_ADAPT_frozen, F.LNK_EYESTAT_busy,
            F.LNK_STAT_state, F.PKT_POS_pos, F.PKT_VSTAT_open, F.PLC_PHASE_dark, F.PRF_LOW_pixels, F.SIO_INST_lat, F.SIO_OST_lat,
            F.SPD_CCVSTAT_cfg_ok, F.SPD_RXSTAT_synced, F.SUP_CNT0_open, F.SUP_CNT0_short, F.SUP_CNT1_sensefail, F.SUP_CNT1_stuck,
            F.VIN_STAT_back, F.VIN_STAT_front, R.ADC_STAT, R.ASP_FLT, R.ASP_FST, R.AXO_STAT, R.CAL_CFG, R.CHN_STAT, R.CMP_STAT,
            R.CRC_SKSTAT, R.LNK_ADAPT, R.LNK_EYESTAT, R.LNK_STAT, R.PKT_POS, R.PKT_VSTAT, R.PLC_PHASE, R.PRF_LOW, R.SIO_INST, R.SIO_OST,
            R.SPD_CCVSTAT, R.SPD_RXSTAT, R.SUP_CNT0, R.SUP_CNT1, R.SUP_STALE, R.VIN_STAT, R.WIN_STAT, aspAddr, chnAddr, lnkAddr]
          omega)) only [h.get, h.on, h.word, h.maskBusy, h.presentIn, h.instOf, hlat, hbal, hvid, hsio]
  have hbusy : t.pageBusy p = s.pageBusy p := by
    simp (disch := (
          simp only [F.ADC_STAT_cal_run, F.ADC_STAT_ibusy, F.ADC_STAT_rbusy, F.CLS_STAT_state, F.CMP_STAT_state, F.CRC_SKSTAT_ccv,
            F.CRC_SKSTAT_state, F.LNK_EYESTAT_busy, F.TIL_RACC_busy, R.ADC_STAT, R.CLS_STAT, R.CMP_STAT, R.CRC_SKSTAT, R.LNK_EYESTAT,
            R.TIL_RACC, lnkAddr, tilAddr]
          omega)) only [State.pageBusy, h.get, h.on, h.maskBusy, hq, hspd, hvid]
  rw [State.pstat, h.en, h.locked, h.stagedOn, hblock, hbusy, State.pstat]

theorem OnAlike.groupsShown : t.groupsShown = s.groupsShown := by
  simp (disch := (simp only [F.FLT_RCT_action, F.FLT_RCT_group, R.FLT_RCT]; omega)) only
    [State.groupsShown, State.groupsOff, h.mode, h.latched, h.get]

theorem OnAlike.actHigh : t.actHigh = s.actHigh := by
  have hact : t.actMode = s.actMode := by rw [State.actMode, h.mode, h.regs, State.actMode]
  simp (disch := (simp only [F.FLT_RCT_action, R.FLT_RCT]; omega)) only [State.actHigh, State.actionOf, hact, h.latched, h.get]

/-- What a register word reads does not depend on PCTRL but for its en (R63, R64). -/
theorem OnAlike.present {a : Nat} (ha : a % 0x1000 ≠ 8) : t.present a = s.present a := by
  have hs : t.link.queue = s.link.queue ∧ t.chain = s.chain ∧ t.fade = s.fade ∧ t.tile = s.tile ∧ t.ledgerCount = s.ledgerCount ∧
    t.sio = s.sio := by rw [h.regs]; exact ⟨rfl, rfl, rfl, rfl, rfl, rfl⟩
  obtain ⟨hq, hchain, hfade, htile, hledger, hsio⟩ := hs
  have hbal : t.balJudges = s.balJudges := funext h.balJudges
  have hlat : t.latched = s.latched := funext h.latched
  have hlock : t.locked = s.locked := funext h.locked
  have hdrive : t.driving = s.driving := by rw [State.driving, h.mode, State.driving]
  have hself : t.regN a = s.regN a := h.regN ha
  have hc : t.computed a = s.computed a := by
    unfold State.computed
    simp only [hdrive, hself]
    repeat' refine ite_congr rfl (fun _ => ?_) fun _ => ?_
    all_goals
      simp (disch := (
          simp only [F.ASP_CFG_def, F.ASP_FADE_fgrp, F.ASP_FLT_off, F.ASP_FST_fading, F.AXO_STAT_aligned, F.AXO_STAT_sync, F.CAL_TCFG_q0,
            F.CLS_STAT_state, R.CLS_STAT, F.CHN_STAT_lock, F.CHN_STAT_state, F.CRC_CFG_refout, F.CRC_CFG_w, F.FLT_RCT_action,
            F.PKT_TAGS_high, F.SIO_INST_lat, F.SIO_INST_val, F.SIO_OST_drv, F.SIO_OST_lat, F.SIO_OST_pulse, F.SIO_OST_rb,
            F.SYS_STAT_cfg_ok, R.ADC_DATA, R.ASP_CFG, R.ASP_FADE, R.ASP_FLT, R.ASP_FST, R.AXO_STAT, R.BAL_STAT, R.CAL_TCFG, R.CHN_STAT,
            R.CRC_CFG, R.CRC_VAL, R.CRC_XOUT, R.FLT_ACT, R.FLT_RCT, R.LNK_RATE, R.PKT_TAGS, R.SIO_INST, R.SIO_OST, R.SYS_STAT, aspAddr,
            chnAddr, lnkAddr]
          omega)) only [h.pstat, h.irq, h.get, h.on, h.regN, h.mode, h.presentIn, hlat, hbal, hlock, hsio, hq, hledger, h.maskBusy, State.pstage,
          State.irqSum, h.stagedOn, State.urgentCount, hchain, State.groupPending, hfade, State.defined, State.tidx, htile, h.live,
          State.tilePair, h.place, h.actHigh, h.groupsShown, State.axoReady, State.crcRes]
  rw [State.present, hc, h.word a ha, State.present]

end

end Sys2Proof.Machine

end

section
/-! The commands of PCTRL that leave the block alone, and PLOCK (R63, R66). -/

set_option Elab.async false

namespace Sys2Proof.Machine

/-- A table that took entries of a function. -/
theorem kvFind_puts {α : Type} (g : Nat → α) (as : List Nat) (l : List (Nat × α)) (a : Nat) :
    kvFind ((as.map fun a => (a, g a)).foldl (fun l e => kvPut l e.1 e.2) l) a = if a ∈ as then some (g a) else kvFind l a := by
  induction as generalizing l with
  | nil => rfl
  | cons b bs ih =>
    rw [List.map_cons, List.foldl_cons, ih]
    by_cases h : a = b
    · subst h; simp
    · simp [kvFind_kvPut_ne _ _ h, h]

/-- A one-bit field as it is tested. -/
theorem on_bit (s : State) (a n : Nat) : s.on ⟨a, n, 1⟩ = (s.reg a).getLsbD n := by
  have hb : s.bit a n = (s.get ⟨a, n, 1⟩ == 1) := bit_get s a n
  have hlt : s.get ⟨a, n, 1⟩ < 2 := ((s.reg a).extractLsb' n 1).isLt
  rw [State.bit] at hb
  rw [hb, State.on, Bool.eq_iff_iff]
  simp only [bne_iff_ne, beq_iff_eq]
  omega

/-- A write of PCTRL reaches its own rules (R63). -/
theorem regRow_pctrl {s : State} {src : Src} {p : Nat} (hl : s.live = true) (v : Word) :
    s.regRow src (R.PCTRL p) v = .next (s.writePctrl src p v).1 := by
  obtain ⟨hpage, hoff⟩ := header_split p (show 8 < 0x40 by decide)
  rw [State.regRow, if_pos hl, R.PCTRL, State.writeReg, if_pos hoff, hpage]

/-- A write of PCTRL that leaves en, where the page has one or is enabled, and asks for no reset acts on freeze and perr_clr alone (R63). -/
theorem writePctrl_light {s : State} {src : Src} {p : Nat} {v : Word} (ho : s.owns src p = true)
    (he : s.get (F.PCTRL_en p) = 1 ∨ enWritable p = true) (h0 : v.getLsbD 0 = s.on (F.PCTRL_en p)) (h1 : v.getLsbD 1 = false) :
    (s.writePctrl src p v).1 = s.pctrlLight p v := by
  have hro : ¬(enWritable p = false ∧ s.on (F.PCTRL_en p) = false) := by
    rintro ⟨h, hon⟩
    rcases he with he | he
    · simp [State.on, he] at hon
    · simp [he] at h
  unfold State.writePctrl
  simp only [h0, h1, ho]
  split
  · simp
  · simp [State.pctrlCheck, ho]

/-- perr_clr (R63, R68, R82). -/
theorem perrClear_writes (s : State) (p : Nat) : Writes (if p = 0 then [R.PERR p, R.SYS_WINERR] else [R.PERR p]) s (s.perrClear p) ∧
    (s.perrClear p).reg (R.PERR p) = 0 ∧ (p = 0 → (s.perrClear p).reg R.SYS_WINERR = 0) := by
  unfold State.perrClear
  dsimp only
  split
  · exact ⟨.setReg (.setReg (.refl ..) (by simp)) (by simp), (reg_setReg_ne _ _ (header_ne p (by decide))).trans (reg_setReg_same ..),
      fun _ => reg_setReg_same ..⟩
  · exact ⟨.setReg (.refl ..) (by simp), reg_setReg_same .., fun h => absurd h ‹_›⟩

/-- freeze (R63): the words that its page shows are held as they read, or shown again. -/
theorem freeze_holds (s : State) {p : Nat} (hp : p < 31) (b : Bool) : (s.freeze p b).get (F.PCTRL_freeze p) = b.toNat ∧
    (s.freeze p b).get (F.PCTRL_en p) = s.get (F.PCTRL_en p) ∧
    (b = true → ∀ a, pageOf a = p → roWord a = true → a % 4 = 0 → (s.freeze p b).peek a = s.present a) ∧
      (b = false → ∀ a, pageOf a = p → kvFind (s.freeze p b).cl.frozen a = none) := by
  have hrest (a : Nat) (ha : pageOf a = p) : kvFind (s.cl.frozen.filter fun e => pageOf e.1 != p) a = none := by
    rw [kvFind_filter _ (fun a => pageOf a != p)]; simp [ha]
  refine ⟨get_flag_same _ _ _ ⟨rfl, show 2 + 1 ≤ 32 by decide⟩, (flag_freeze_alike s p b).en p, fun hb a ha hro h4 => ?_, fun hb a ha => ?_⟩
  · subst hb
    have h8 : a % 0x1000 ≠ 8 := by
      intro h8
      have haddr : a = pageAddr p + 8 := by unfold pageAddr; unfold pageOf at ha; omega
      rw [haddr, roWord, regSpec_header hp (by decide) rfl] at hro
      simp at hro
    have hmem : a ∈ ((List.range 1024).map fun i => p * 0x1000 + 4 * i).filter roWord := by
      refine List.mem_filter.mpr ⟨List.mem_map.mpr ⟨a % 0x1000 / 4, List.mem_range.mpr (by omega), ?_⟩, hro⟩
      unfold pageOf at ha; omega
    have hheld : kvFind (s.freeze p true).cl.frozen a = some ((s.flag (F.PCTRL_freeze p) true).present a) := by
      unfold State.freeze
      simp only [if_true]
      rw [kvFind_puts (fun a => (s.flag (F.PCTRL_freeze p) true).present a), if_pos hmem]
    rw [State.peek, hheld, Option.getD_some, (flag_freeze_alike s p true).present h8]
  · subst hb
    exact hrest a ha

/-- A write of PLOCK (R66). -/
theorem regRow_plock {s : State} {src : Src} {p : Nat} (hp : p < 31) (hl : s.live = true) (ho : s.owns src p = true)
    (hm : s.mode ≠ .hold ∨ holdWritable p = true) :
    s.regRow src (R.PLOCK p) 0x1A7C = .next (if lockable p then s.put (F.PLOCK_locked p) 1 else s) := by
  obtain ⟨hpage, hoff⟩ := header_split p (show 0x20 < 0x40 by decide)
  have hopen : s.headerOpen p 0x20 := fun h => .inl (hm.resolve_left fun hn => hn h)
  rw [State.regRow, if_pos hl, R.PLOCK, writeReg_header (rw := 0) (w1c := 0) (wo := 0x1A7C) hp (by decide) (by decide)
    rfl (by decide) (by rw [State.touch]; simp [RegSpec.mixed, full]) (by decide) hopen, if_neg (by simp [ho]), writeFields_header (by decide)]
  have hcmd : s.command src (pageAddr p + 0x20) 0x1A7C = if lockable p then s.put (F.PLOCK_locked p) 1 else s := by
    simp [State.command, hoff, hpage]
  rw [← hcmd]
  rfl

end Sys2Proof.Machine

end

section
/-! PCTRL.srst (O29): what a page's block is left with. -/

set_option Elab.async false

namespace Sys2Proof.Machine

/-- A write of PCTRL with srst that its checks admit resets the page (R63, R456). -/
theorem writePctrl_srst {s : State} {src : Src} {p : Nat} {v : Word} (ho : s.owns src p = true) (he : enWritable p = true)
    (hm : s.mode = .configure ∨ s.mode = .hold ∧ holdWritable p = true) (hlock : s.locked p = false) (hconf : s.spd.conf = false)
    (h0 : v.getLsbD 0 = s.on (F.PCTRL_en p)) (h1 : v.getLsbD 1 = true) (h2 : v.getLsbD 2 = s.on (F.PCTRL_freeze p))
    (h3 : v.getLsbD 3 = false) : (s.writePctrl src p v).1 = s.pageReset p := by
  have hmode : s.mode ≠ .configure → s.mode = .hold := fun h => (hm.resolve_left h).1
  have hhold : ¬(s.mode = .hold ∧ holdWritable p = false) := by
    rintro ⟨h, hw⟩
    rcases hm with hm | hm
    · simp [h] at hm
    · simp [hm.2] at hw
  have hlight : s.pctrlLight p v = s := by simp only [State.pctrlLight, h2, h3, Bool.false_eq_true, if_false, if_true]
  have hcheck : s.pctrlCheck src p false true false = 0 := by
    simp only [State.pctrlCheck, hlock, ho, he, hconf]
    simpa using hmode
  unfold State.writePctrl
  dsimp only
  rw [if_neg hhold]
  simp only [h0, h1, h2, h3, he, bne_self_eq_false, Bool.and_false, Bool.or_false, hcheck]
  simp [hlight]

theorem setInst_regs (s : State) (cls inst : Nat) (i : FltInst) : (s.setInst cls inst i).regs = s.regs := rfl

/-- The absence of a condition leaves the registers. -/
theorem setCond_absent_regs (s : State) (cls inst : Nat) : (s.setCond cls inst false).regs = s.regs := by
  unfold State.setCond
  dsimp only
  split
  · rfl
  · rw [if_neg (by decide)]; rfl

/-- Conditions that end change their records only (R313). -/
theorem dropConds_ends (s : State) (cls n : Nat) : Only P.flt s (s.dropConds cls n) ∧ (s.dropConds cls n).regs = s.regs := by
  unfold State.dropConds
  refine ⟨.foldl (.refl ..) fun _ _ => setCond_absent .., ?_⟩
  generalize List.range n = l
  induction l generalizing s with
  | nil => rfl
  | cons i r ih => exact (ih _).trans (setCond_absent_regs ..)

/-- A lane that is up (R313, R315). -/
theorem markDown_up (s : State) (l : Nat) : Only (P.flt ||| P.link) s (s.markDown l false) ∧ (s.markDown l false).regs = s.regs := by
  unfold State.markDown
  exact ⟨.comp (.comp (.refl ..) (State.onLane_only ..)) (setCond_absent ..), (setCond_absent_regs ..).trans (onLane_regs ..)⟩

theorem toDetect_ends (s : State) (l : Nat) : Only (P.flt ||| P.link ||| P.pgLnk ||| P.pgPkt) s (s.toDetect l) := by
  unfold State.toDetect
  exact .ite (.comp (.refl ..) (State.setLane_only ..)) (.comp (.comp (.refl ..) (State.setLane_only ..)) (markDown_up ..).1)

/-- The reset of a block leaves what does not belong to blocks: no condition is raised by it (R63). -/
theorem blockReset_ends (s : State) (p : Nat) : Only (P.flt ||| P.adc ||| P.bal ||| P.spl ||| P.link ||| P.pair ||| P.out ||| P.sio |||
    P.clk ||| P.pgLnk ||| P.pgPkt ||| P.pgAdc ||| P.pgSio) s (s.blockReset p) := by
  unfold State.blockReset
  refine .ite ?_ (.ite ?_ (.ite ?_ (.ite ?_ (.ite ?_ (.ite ?_ (.refl ..))))))
  · exact .iteOn (.comp (.comp (.comp (.refl ..) (State.onLane_only ..)) (markDown_up ..).1) (toDetect_ends ..))
      (.comp (.refl ..) (State.rateReset_only ..))
  · exact .comp (.comp (.refl ..) (State.onAdc_only ..)) (State.adcShow_only ..)
  · exact .comp (.comp (.upd (.refl ..)) (State.balStart_only ..)) (dropConds_ends ..).1
  · exact .comp (.comp (.upd (.refl ..)) (dropConds_ends ..).1) (dropConds_ends ..).1
  · exact .comp (.upd (.refl ..)) (State.sioDrive_only ..)
  · exact .upd (.refl ..)

/-- A field of a word that is zero is put to zero. -/
theorem reg_put_zero {s : State} {f : Fld} (h : s.reg f.addr = 0) (a : Nat) : (s.put f 0).reg a = s.reg a := by
  rw [reg_put]
  split
  · rename_i ha
    rw [ha, h]
    simp [insBits]
  · rfl

/-- A converter that is idle and has no burst sequence shows nothing (R352). -/
theorem adcShow_idle {s : State} (h : s.reg R.ADC_STAT = 0) (hi : s.on F.ADC_CFG_ilv = false) (a : Nat) : s.adcShow.reg a = s.reg a := by
  have hfast : s.bursting = false := by simp [State.bursting, hi]
  have hbusy : s.on F.ADC_STAT_rbusy = false := by
    rw [State.on, State.get, show F.ADC_STAT_rbusy.addr = R.ADC_STAT from rfl, h]; decide
  have hz : (s.flag F.ADC_STAT_fast false).reg R.ADC_STAT = 0 := (reg_put_zero h _).trans h
  unfold State.adcShow
  rw [hfast, hbusy, Bool.false_and]
  exact (reg_put_zero hz a).trans (reg_put_zero h a)

/-- Safety outputs that nothing demands, tests or drives stay as they are (R383). -/
theorem sioDrive_idle {s : State} (h : s.sio = {}) (hd : ∀ k, s.on (F.SIO_OST_drv k) = false) : s.sioDrive = s := by
  have hk (k : Nat) : (if s.outDemand k then s.driveOut k (!s.on (F.SIO_OST_pulse k)) else s.outOff k) = s := by
    have hw : s.sioWord (9 + k) = 0x27100100 := by
      rw [State.sioWord, h, if_neg (by omega), if_neg (by omega)]
      rfl
    have hdem : s.outDemand k = false := by
      have hz : (getBits (0x27100100 : Word) 0 1 == 1) = false := rfl
      simp only [State.outDemand, hw, hz, Bool.and_false, Bool.false_and]
    have htest : (s.sioOut k).test = false := by
      rw [State.sioOut, h]
      simp [Array.getD]
    simp [hdem, State.outOff, State.dropTest, htest, State.driveOut, hd]
  unfold State.sioDrive
  generalize List.range 8 = l
  induction l with
  | nil => rfl
  | cons k r ih => rw [List.foldl_cons, hk, ih]

theorem dropFrameRows_regs (s : State) : s.dropFrameRows.regs = s.regs := by
  have h (u : State) (l : List Nat) : (l.foldl (fun t c => t.onChain c Chain.dropFrame) u).regs = u.regs := by
    induction l generalizing u with
    | nil => rfl
    | cons c r ih => exact (ih _).trans (onChain_regs ..)
  exact (h _ _).trans rfl

/-- The words of the pages that the loss of a confirmed configuration does not concern. -/
def farWord (a : Nat) : Prop := 24 ≤ pageOf a ∧ pageOf a ≠ 29

theorem not_farWord {a : Nat} (h : pageOf a < 24 ∨ pageOf a = 29 := by decide) : ¬farWord a := fun hf => by
  obtain ⟨hlo, hne⟩ := hf; omega

theorem dropPass_keeps (s : State) : Keeps farWord s s.dropPass := by
  have h : Keeps farWord s (((s.inc F.CMP_PASS_abandoned).event 11 1).put F.CMP_STAT_state 0) :=
    .put (.event (.inc (.refl ..) not_farWord) not_farWord) not_farWord
  have hv (u : State) (v : Video) : ({ u with vid := v } : State).regs = u.regs := rfl
  have hm (u : State) (l : List Nat) : (u.markRows l).dropFrameRows.regs = u.regs := (dropFrameRows_regs _).trans (hv ..)
  unfold State.dropPass
  exact .ite (.refl ..) (.same h ((hv ..).trans (hm ..)))

theorem cancelBack_keeps (s : State) : Keeps farWord s s.cancelBack := by
  have hm (u : State) : Keeps farWord u u.passAfresh.initOffsets.markAll :=
    .same (dropPass_keeps u) (by rw [markAll_regs, State.initOffsets, State.passAfresh])
  unfold State.cancelBack
  exact .ite (.comp (t := { s with light := { s.light with back := false, backDue := false } }) (.same (.refl ..) rfl) (hm _)) (.refl ..)

theorem ccvAbandon_keeps (s : State) : Keeps farWord s s.ccvAbandon := by
  have hoff : Keeps farWord s s.ccvOff := by
    have h : Keeps farWord s ((s.put F.CRC_SKSTAT_ccv 0).onSkink fun k => { k with ccv := 0, pos := 0 }) :=
      .same (t := s.put F.CRC_SKSTAT_ccv 0) (.put (.refl ..) not_farWord) rfl
    unfold State.ccvOff
    exact .ite (.put h not_farWord) h
  unfold State.ccvAbandon
  exact .ite (.event (.inc hoff not_farWord) not_farWord) (.refl ..)

theorem loseCfg_keeps (s : State) : Keeps farWord s s.loseCfg := by
  have h : Keeps farWord s (((s.put F.SYS_STAT_cfg_ok 0).put F.SPD_CCVSTAT_cfg_ok 0).event 9 6) :=
    .event (.put (.put (.refl ..) not_farWord) not_farWord) not_farWord
  unfold State.loseCfg
  exact .ite ((h.comp (cancelBack_keeps _)).comp (ccvAbandon_keeps _)) (.refl ..)

/-- The registers of a page stand at their reset values (R57). -/
def State.pageFresh (s : State) (p : Nat) : Prop := ∀ a, pageOf a = p → s.reg a = resetWord a

/-- Behind the lanes no block's reset moves a register of its page (R63). -/
theorem blockReset_fresh {s : State} {p : Nat} (hp : 24 ≤ p) (h : s.pageFresh p) : (s.blockReset p).pageFresh p := by
  have same {t : State} (hr : t.regs = s.regs) : t.pageFresh p := fun a ha => (reg_congr hr a).trans (h a ha)
  unfold State.blockReset
  rw [if_neg (by omega)]
  split
  · subst p
    intro a ha
    have hstat : s.reg R.ADC_STAT = 0 := h _ rfl
    have hilv : s.on F.ADC_CFG_ilv = false := by
      rw [State.on, State.get, show F.ADC_CFG_ilv.addr = R.ADC_CFG from rfl, h _ rfl]; decide
    exact (adcShow_idle (s := s.onAdc fun _ => {}) hstat hilv a).trans (h a ha)
  split
  · exact same ((dropConds_ends ..).2.trans rfl)
  split
  · exact same ((dropConds_ends ..).2.trans ((dropConds_ends ..).2.trans rfl))
  split
  · subst p
    have hd (k : Nat) : ({ s with sio := {} } : State).on (F.SIO_OST_drv k) = false := by
      have hk : ∀ j : Fin 8, getBits (resetWord (R.SIO_OST j)) 0 1 = 0 := by decide
      have hmod : R.SIO_OST k = R.SIO_OST (k % 8) := by simp [R.SIO_OST]
      have hreg : s.reg (R.SIO_OST k) = resetWord (R.SIO_OST k) := h _ (by unfold R.SIO_OST pageOf; omega)
      show s.on (F.SIO_OST_drv k) = false
      rw [State.on, State.get, show (F.SIO_OST_drv k).addr = R.SIO_OST k from rfl, hreg, hmod]
      exact bne_eq_false_iff_eq.mpr (hk ⟨k % 8, Nat.mod_lt _ (by decide)⟩)
    rw [sioDrive_idle rfl hd]
    exact same rfl
  split
  · exact same rfl
  · exact h

end Sys2Proof.Machine

end

section
/-! PCTRL.srst of a lane's page (R63): every register but those in which the lane shows that it starts anew. -/

set_option Elab.async false

namespace Sys2Proof.Machine

/-- The registers of lane `n`'s page but those in which it shows that it starts anew. -/
def stillWord (n a : Nat) : Prop := pageOf a = 4 + n ∧ a ∉ [R.PIRQ_RAW (4 + n), R.LNK_STAT n, R.LNK_RATE 0]

/-- The lane's registers stand at their reset values and no eye operation of it waits. -/
structure LaneFresh (n : Nat) (s : State) : Prop where
  word : ∀ a, stillWord n a → s.reg a = resetWord a
  eye : (s.lane n).eyeWait = false

theorem not_stillWord_page {n a : Nat} (h : pageOf a ≠ 4 + n) : ¬stillWord n a := fun hw => h hw.1

theorem not_stillWord_mem {n a : Nat} (h : a ∈ [R.PIRQ_RAW (4 + n), R.LNK_STAT n, R.LNK_RATE 0]) : ¬stillWord n a := fun hw => hw.2 h

theorem not_stillWord_stat (l n : Nat) (hl : l < 4) (hn : n < 4) : ¬stillWord n (R.LNK_STAT l) := by
  by_cases h : l = n
  · subst h; exact not_stillWord_mem (by simp)
  · exact not_stillWord_page (by unfold R.LNK_STAT lnkAddr pageOf; omega)

theorem not_stillWord_raw (p n : Nat) : ¬stillWord n (R.PIRQ_RAW p) := by
  by_cases h : p = 4 + n
  · subst h; exact not_stillWord_mem (by simp)
  · exact not_stillWord_page (by rw [R.PIRQ_RAW, (header_split p (by decide)).1]; exact h)

section

variable {n : Nat} {s t : State} (hn : n < 4) (h : LaneFresh n s)
include h

theorem LaneFresh.step (k : Keeps (stillWord n) s t) (hl : (t.lane n).eyeWait = (s.lane n).eyeWait) : LaneFresh n t :=
  ⟨fun a ha => (k.word a ha).trans (h.word a ha), hl.trans h.eye⟩

theorem LaneFresh.put {f : Fld} {v : Nat} (hf : ¬stillWord n f.addr) : LaneFresh n (s.put f v) := h.step (.put (.refl ..) hf) rfl

theorem LaneFresh.event (p k : Nat) : LaneFresh n (s.event p k) := h.step (.event (.refl ..) (not_stillWord_raw _ _)) rfl

theorem LaneFresh.same (hr : t.regs = s.regs) (hl : t.link.lanes = s.link.lanes) : LaneFresh n t :=
  h.step (.same (.refl ..) hr) (by rw [State.lane, hl, State.lane])

theorem LaneFresh.onLane {l : Nat} {f : Lane → Lane} (hf : ∀ x, (f x).eyeWait = x.eyeWait) : LaneFresh n (s.onLane l f) := by
  refine h.step (.same (.refl ..) (onLane_regs ..)) ?_
  by_cases hl : n = l
  · subst hl
    unfold State.onLane
    split
    · simp [State.lane, vecSet, *]
    · rfl
  · rw [lane_onLane_ne _ hl]

include hn

theorem LaneFresh.setLane {l : Nat} (hl : l < 4) (st : Nat) : LaneFresh n (s.setLane l st) := by
  have hpos : ¬stillWord n R.PKT_POS := not_stillWord_page (by rw [show pageOf R.PKT_POS = 8 from rfl]; omega)
  refine h.step ?_ (by rw [setLane_lane])
  unfold State.setLane State.showPos
  exact .flag (.flag (.put (.refl ..) (not_stillWord_stat l n hl hn)) hpos) hpos

/-- Of a lane that starts anew nothing is aborted (R103). -/
theorem LaneFresh.eyeAbort {l : Nat} (hl : l < 4) : LaneFresh n (s.eyeAbort l) := by
  unfold State.eyeAbort
  dsimp only
  by_cases hln : l = n
  · subst hln
    have hword {k : Nat} (hk : 0x60 ≤ k ∧ k < 0x80) : s.reg (lnkAddr l + k) = resetWord (lnkAddr l + k) := by
      refine h.word _ ⟨by unfold lnkAddr pageOf; omega, ?_⟩
      have h0 := header_split (4 + l) (show 0x10 < 0x40 by decide)
      simp only [List.mem_cons, List.not_mem_nil, or_false, R.PIRQ_RAW, R.LNK_STAT, R.LNK_RATE, lnkAddr, pageAddr]
      omega
    have hctl : s.reg (R.LNK_EYECTL l) = 0 := by
      have hz : ∀ j : Fin 4, resetWord (R.LNK_EYECTL j) = 0 := by decide
      exact (hword (k := 0x70) (by decide)).trans (hz ⟨l, hl⟩)
    have hbusy : (s.put (F.LNK_EYECTL_op l) 0).on (F.LNK_EYESTAT_busy l) = false := by
      have hz : ∀ j : Fin 4, getBits (resetWord (R.LNK_EYESTAT j)) 0 1 = 0 := by decide
      have hreg : (s.put (F.LNK_EYECTL_op l) 0).reg (R.LNK_EYESTAT l) = resetWord (R.LNK_EYESTAT l) :=
        (reg_put_zero hctl _).trans (hword (k := 0x74) (by decide))
      rw [State.on, State.get, show (F.LNK_EYESTAT_busy l).addr = R.LNK_EYESTAT l from rfl, hreg]
      exact bne_eq_false_iff_eq.mpr (hz ⟨l, hl⟩)
    rw [if_neg (by simp [hbusy, h.eye])]
    exact h.step ⟨fun a _ => reg_put_zero hctl a⟩ rfl
  · have hpage {k : Nat} (hk : k < 0x1000) : ¬stillWord n (lnkAddr l + k) :=
      not_stillWord_page (by unfold lnkAddr pageOf; omega)
    have hctl : LaneFresh n (s.put (F.LNK_EYECTL_op l) 0) := h.put (hpage (by decide))
    split
    · refine .event (.step (.put (.put (.put hctl (hpage (by decide))) (hpage (by decide))) (hpage (by decide)))
        (.same (.refl ..) (onLane_regs ..)) ?_) (4 + l) 7
      rw [lane_onLane_ne _ (Ne.symm hln)]
    · exact hctl

theorem LaneFresh.toExit {l : Nat} (hl : l < 4) (b : Bool) : LaneFresh n (s.toExit l b) := by
  unfold State.toExit
  have heye : LaneFresh n ((s.emit (.ordered l 6 eiosSet)).eyeAbort l) := .eyeAbort hn (h.same (t := s.emit (.ordered l 6 eiosSet)) rfl rfl) hl
  exact .setLane hn (.onLane heye fun _ => by rfl) hl 7

theorem LaneFresh.leaveActive {l : Nat} (hl : l < 4) (cause : Nat) : LaneFresh n (s.leaveActive l cause) := by
  have hovr : ¬stillWord n R.PKT_OVR := not_stillWord_page (by rw [show pageOf R.PKT_OVR = 8 from rfl]; omega)
  have hdrop {u : State} (hu : LaneFresh n u) : LaneFresh n u.dropReturns := by
    unfold State.dropReturns
    split
    · exact hu
    · exact ((hu.put hovr).event 8 5).same rfl rfl
  unfold State.leaveActive
  dsimp only
  split
  · refine hdrop (.toExit hn (.step (h.onLane ?_) (.event (.put (.refl ..) (not_stillWord_stat l n hl hn)) (not_stillWord_raw _ _)) rfl) hl false)
    exact fun _ => rfl
  · exact h

/-- Also where the reset of LNK0 starts a change of rate (R63, R88). -/
theorem LaneFresh.rateReset : LaneFresh n s.rateReset := by
  have hclk : ¬stillWord n R.CLK_STAT := not_stillWord_page (by rw [show pageOf R.CLK_STAT = 1 from rfl]; omega)
  have hrate : ¬stillWord n (R.LNK_RATE 0) := not_stillWord_mem (by simp)
  have hlane {u : State} (hu : LaneFresh n u) {l : Nat} (hl : l < 4) : LaneFresh n
      (((u.put (F.LNK_STAT_fails l) 0).onLane l fun ln => { ln with fresh := true }).eyeAbort l) := by
    have hput : LaneFresh n (u.put (F.LNK_STAT_fails l) 0) := hu.put (not_stillWord_stat l n hl hn)
    exact .eyeAbort hn (hput.onLane fun _ => by rfl) hl
  have hstart {u : State} (hu : LaneFresh n u) : LaneFresh n (u.startRate 0) := by
    unfold State.startRate
    refine List.foldlRecOn (motive := LaneFresh n) _ _ (.put ?_ hclk) fun v hv l hl => ?_
    · exact hu.same rfl rfl
    have hl4 := List.mem_range.mp hl
    dsimp only
    split
    · exact hlane hv hl4
    · exact .leaveActive hn (hlane hv hl4) hl4 5
    · exact .toExit hn (hlane hv hl4) hl4 false
  have hlink {u : State} (hu : LaneFresh n u) (k : Link) (hk : k.lanes = u.link.lanes) : LaneFresh n { u with link := k } := hu.same rfl hk
  have hwatch := hlink h { s.link with watch := false } rfl
  unfold State.rateReset
  dsimp only
  split
  · refine .put ?_ hrate
    exact hstart hwatch
  · split
    · exact hlink (hwatch.put (f := F.LNK_RATE_busy 0) (v := 1) hrate) _ rfl
    · exact hlink hwatch _ rfl

end

end Sys2Proof.Machine

end

section
/-! The commands of a page header (O29). -/

set_option Elab.async false

namespace Sys2Proof.Machine

theorem LaneFresh.markDown {n : Nat} {s : State} (h : LaneFresh n s) (l : Nat) : LaneFresh n (s.markDown l false) := by
  unfold State.markDown
  exact (h.onLane fun _ => by rfl).step (.same (.refl ..) (setCond_absent_regs ..))
    (by rw [lane_congr ((setCond_absent ..).link (by decide))])

/-- The reset of a lane's block leaves its registers but those in which the lane shows that it starts anew (R63, R95). -/
theorem blockReset_lane {s : State} {n : Nat} (hn : n < 4) (h : s.pageFresh (4 + n)) : LaneFresh n (s.blockReset (4 + n)) := by
  have hnew : LaneFresh n (s.onLane n fun _ => {}) :=
    ⟨fun a ha => (reg_congr (onLane_regs ..) a).trans (h a ha.1), by rw [lane_onLane _ hn]⟩
  have hdetect : LaneFresh n (((s.onLane n fun _ => {}).markDown n false).toDetect n) := by
    unfold State.toDetect
    split
    · exact .setLane hn (hnew.markDown n) hn 1
    · exact .markDown (.setLane hn (hnew.markDown n) hn 0) n
  unfold State.blockReset
  rw [if_pos (by omega), Nat.add_sub_cancel_left]
  dsimp only
  split
  · exact .rateReset hn hdetect
  · exact hdetect

/-- The page's registers before its block is reset: none holds a value of its own, and none is held (R63). -/
def State.pageCleared (s : State) (p : Nat) : State :=
  { s.pageOff p with regs := (s.pageOff p).regs.filter fun (e : Nat × Word) => pageOf e.1 != p,
                     cl := { (s.pageOff p).cl with frozen := (s.pageOff p).cl.frozen.filter fun e => pageOf e.1 != p } }

theorem pageReset_eq (s : State) (p : Nat) : s.pageReset p =
    if lockable p then ((s.pageCleared p).blockReset p).loseCfg else (s.pageCleared p).blockReset p := rfl

theorem pageCleared_fresh (s : State) (p : Nat) : (s.pageCleared p).pageFresh p := by
  intro a ha
  have h := kvFind_filter (s.pageOff p).regs (fun a => pageOf a != p) a
  rw [State.reg, State.pageCleared, h]
  simp [ha]

/-- After a soft reset the page shows every word (R63). -/
theorem pageReset_shows (s : State) (p a : Nat) (ha : pageOf a = p) : kvFind (s.pageReset p).cl.frozen a = none := by
  have h0 : kvFind (s.pageCleared p).cl.frozen a = none := by
    rw [State.pageCleared, kvFind_filter _ (fun a => pageOf a != p)]; simp [ha]
  have hblock : ((s.pageCleared p).blockReset p).cl = (s.pageCleared p).cl := (blockReset_ends ..).cl (by decide)
  rw [pageReset_eq]
  split
  · rw [(State.loseCfg_only _).cl (by decide), hblock, h0]
  · rw [hblock, h0]

/-- After a soft reset the registers of a page behind the lanes stand at their reset values (R63). -/
theorem pageReset_fresh (s : State) {p : Nat} (hp : 24 ≤ p) (h29 : p ≠ 29) : (s.pageReset p).pageFresh p := by
  have h := blockReset_fresh hp (pageCleared_fresh s p)
  rw [pageReset_eq]
  split
  · exact fun a ha => ((loseCfg_keeps _).word a (by rw [farWord, ha]; exact ⟨hp, h29⟩)).trans (h a ha)
  · exact h

theorem pageReset_pair (s : State) : (s.pageReset 30).pair = {} := by
  rw [pageReset_eq, if_pos (by decide), (State.loseCfg_only _).pair (by decide)]
  rfl

/-- A one-bit field is the truth value it is tested for. -/
theorem get_eq_on (s : State) (a n : Nat) : s.get ⟨a, n, 1⟩ = (s.on ⟨a, n, 1⟩).toNat := by
  have hlt : s.get ⟨a, n, 1⟩ < 2 := ((s.reg a).extractLsb' n 1).isLt
  rw [State.on]
  by_cases h : s.get ⟨a, n, 1⟩ = 0
  · rw [h]; rfl
  · rw [show s.get ⟨a, n, 1⟩ = 1 by omega]; rfl

/-- The bits of the value that PCTRL.freeze writes. -/
theorem freezeValue_bits (r : Word) (on : Bool) :
    let v := insBits (r &&& 1) 2 1 on.toNat
    v.getLsbD 0 = r.getLsbD 0 ∧ v.getLsbD 1 = false ∧ v.getLsbD 2 = on ∧ v.getLsbD 3 = false := by
  intro v
  simp only [v, getLsbD_insBits _ _ _ _ _ (show 0 < 32 by decide), getLsbD_insBits _ _ _ _ _ (show 1 < 32 by decide),
    getLsbD_insBits _ _ _ _ _ (show 2 < 32 by decide), getLsbD_insBits _ _ _ _ _ (show 3 < 32 by decide)]
  cases on <;> simp

/-- The bits of the values that perr_clr and srst write. -/
theorem keepValue_bits (r : Word) :
    let e := (r &&& 5) ||| 8
    let v := (r &&& 5) ||| 2
    (e.getLsbD 0 = r.getLsbD 0 ∧ e.getLsbD 1 = false ∧ e.getLsbD 2 = r.getLsbD 2 ∧ e.getLsbD 3 = true) ∧
      v.getLsbD 0 = r.getLsbD 0 ∧ v.getLsbD 1 = true ∧ v.getLsbD 2 = r.getLsbD 2 ∧ v.getLsbD 3 = false := by
  simp

/-- Settles O29: each command of a page header is a write of PCTRL or PLOCK. -/
theorem pageHeader : Obligations.PageHeader := by
  intro src p on s hl ho
  have hen (v : Word) (h : v.getLsbD 0 = (s.reg (R.PCTRL p)).getLsbD 0) : v.getLsbD 0 = s.on (F.PCTRL_en p) := h.trans (on_bit ..).symm
  refine ⟨fun he hne => ?_, fun he => ?_, fun hm => ⟨fun hlk => ?_, fun hlk => ?_⟩, fun he hm hlock hconf => ?_⟩
  · obtain ⟨h0, h1, h2, h3⟩ := freezeValue_bits (s.reg (R.PCTRL p)) on
    have hx : exec (.pctrlFreeze src p on) s = .next (s.freeze p on) := by
      refine (regRow_pctrl hl _).trans ?_
      rw [writePctrl_light ho he (hen _ h0) h1, State.pctrlLight, h2, h3, if_neg Bool.false_ne_true, if_neg]
      rintro rfl
      exact hne (get_eq_on ..)
    exact ⟨_, hx, State.freeze_only .., freeze_holds s p.isLt on⟩
  · obtain ⟨⟨h0, h1, h2, h3⟩, -⟩ := keepValue_bits (s.reg (R.PCTRL p))
    obtain ⟨hw, hperr, hwin⟩ := perrClear_writes s p
    have hx : exec (.pctrlPerrClr src p) s = .next (s.perrClear p) := by
      refine (regRow_pctrl hl _).trans ?_
      rw [writePctrl_light ho he (hen _ h0) h1, State.pctrlLight, h2, h3, if_pos rfl, if_pos]
      have hkeep : (s.perrClear p).reg (R.PCTRL p) = s.reg (R.PCTRL p) := hw.words _ (by
        have hwin : pageAddr p + 8 ≠ R.SYS_WINERR := header_ne p (by decide)
        split <;> simp [R.PCTRL, R.PERR, hwin])
      exact ((congrArg (BitVec.getLsbD · 2) hkeep.symm).trans (on_bit ..).symm)
    exact hw.puts hx ⟨hperr, hwin⟩
  · have hx := regRow_plock p.isLt hl ho hm
    rw [if_pos hlk] at hx
    have hput : Writes [R.PLOCK p] s (s.put (F.PLOCK_locked p) 1) := .put (.refl ..) (List.mem_singleton.mpr rfl)
    refine hput.puts hx ?_
    rw [State.locked, State.on, get_put_same _ _ _ (show 0 + 1 ≤ 32 by decide)]
    rfl
  · exact (regRow_plock p.isLt hl ho hm).trans (by rw [hlk]; rfl)
  · obtain ⟨-, h0, h1, h2, h3⟩ := keepValue_bits (s.reg (R.PCTRL p))
    have hx : exec (.pctrlSrst src p) s = .next (s.pageReset p) := by
      refine (regRow_pctrl hl _).trans ?_
      rw [writePctrl_srst ho he hm hlock hconf (hen _ h0) h1 (h2.trans (on_bit ..).symm) h3]
    refine ⟨_, hx, execPctrlSrst_only _ _ s hx, fun hlk => ?_, fun h30 => ?_, pageReset_shows s p, fun hp => ?_, fun hp a ha hmem => ?_⟩
    · rw [pageReset_eq, if_pos hlk]
      exact loseCfg_cfgOk _
    · rw [h30]
      exact pageReset_pair s
    · exact pageReset_fresh s hp (by rintro h; rw [h] at he; exact absurd he (by decide))
    · obtain ⟨n, hn, hpn⟩ : ∃ n, n < 4 ∧ p.val = 4 + n := by
        have h4 : 4 ≤ p.val := by
          by_contra h
          simp [enWritable, show ¬4 ≤ p.val from h, show ¬24 ≤ p.val by omega, show p.val ≠ 30 by omega] at he
        exact ⟨p - 4, by omega, by omega⟩
      have hlk : lockable p = false := by simp [lockable, hpn]; omega
      rw [pageReset_eq, hlk]
      rw [hpn] at ha hmem ⊢
      rw [Nat.add_sub_cancel_left] at hmem
      exact (blockReset_lane hn (pageCleared_fresh s _)).word a ⟨ha, hmem⟩

end Sys2Proof.Machine

end

section
/-! What an application of a clause leaves of the clauses and of the words that no other operation writes (R74, R75), as a relation of
states with a rule per operation. -/

set_option Elab.async false

namespace Sys2Proof.Machine

/-- The words of clauses, CLS_STAT apart, and staged words that only a clause writes. -/
def firmWords : List Nat := [R.CLS_APPLY, R.CLS_COUNT, R.CLS_ISTAT, R.VIN_RATE, R.PLC_PWM, R.SUP_CFG, R.PRF_CFG, R.BAL_CTRL, R.ADC_CFG,
  R.MSK_RECTLo 0, R.MSK_SYMLo 0, R.MSK_SYMHi 255]

/-- A step that leaves those words and the implicit clauses, and all of the clauses where no explicit one is open. -/
structure Firm (s t : State) : Prop where
  word : ∀ a ∈ firmWords, t.reg a = s.reg a
  closed : s.get F.CLS_STAT_state = 0 → t.reg R.CLS_STAT = s.reg R.CLS_STAT ∧ t.cl = s.cl
  implicit : t.cl.implicit = s.cl.implicit

section

variable {s t u : State}

theorem Firm.refl (s : State) : Firm s s := ⟨fun _ _ => rfl, fun _ => ⟨rfl, rfl⟩, rfl⟩

theorem Firm.comp (h : Firm s t) (k : Firm t u) : Firm s u := by
  refine ⟨fun a ha => (k.word a ha).trans (h.word a ha), fun hs => ?_, k.implicit.trans h.implicit⟩
  obtain ⟨hreg, hcl⟩ := h.closed hs
  have ht : t.get F.CLS_STAT_state = 0 := by rw [State.get, show F.CLS_STAT_state.addr = R.CLS_STAT from rfl, hreg]; exact hs
  obtain ⟨kreg, kcl⟩ := k.closed ht
  exact ⟨kreg.trans hreg, kcl.trans hcl⟩

theorem Firm.get {f : Fld} (h : Firm s t) (hf : f.addr ∈ firmWords) : t.get f = s.get f := by rw [State.get, h.word _ hf, State.get]

/-- A step whose footprint holds none of these parts. -/
theorem Firm.of {E : Nat} (h : Only E s t)
    (hE : (!E.testBit 8 && leaves E R.CLS_STAT && firmWords.all (leaves E)) = true := by decide) : Firm s t := by
  simp only [Bool.and_eq_true, Bool.not_eq_true', List.all_eq_true] at hE
  obtain ⟨⟨hc, hs⟩, hw⟩ := hE
  exact ⟨fun a ha => h.word a (hw a ha), fun _ => ⟨h.word _ hs, h.cl hc⟩, by rw [h.cl hc]⟩

theorem Firm.ite {a b : State} {c : Prop} [Decidable c] (ha : Firm s a) (hb : Firm s b) : Firm s (if c then a else b) := by
  split <;> assumption

theorem Firm.iteOn {a b : State} {c : Prop} [Decidable c] (hb : Firm s b) (ha : Firm b a) : Firm s (if c then a else b) :=
  .ite (hb.comp ha) hb

theorem Firm.iteOff {a b : State} {c : Prop} [Decidable c] (ha : Firm s a) (hb : Firm a b) : Firm s (if c then a else b) :=
  .ite ha (ha.comp hb)

theorem Firm.foldl {α : Type} {f : State → α → State} {l : List α} (h : Firm s t) (hf : ∀ u x, Firm u (f u x)) :
    Firm s (l.foldl f t) := by
  induction l generalizing t with
  | nil => exact h
  | cons x r ih => exact ih (h.comp (hf t x))

/-- A record update beside the register file and the clauses. -/
theorem Firm.upd (h : Firm s t) {pending' now' pstart' sram' ecc1' ecc2' otp' boot' isl' vid' fades' chains' tiles' light' flt' adc'
    bal' spl' sio' skink' link' spi' spd' pair' out' draws'} :
    Firm s ⟨pending', now', pstart', t.regs, sram', ecc1', ecc2', otp', boot', isl', t.cl, vid', fades', chains', tiles', light', flt',
      adc', bal', spl', sio', skink', link', spi', spd', pair', out', draws'⟩ := ⟨h.word, h.closed, h.implicit⟩

theorem Firm.setReg {a : Nat} {v : Word} (h : Firm s t) (ha : a ∉ R.CLS_STAT :: firmWords := by decide) : Firm s (t.setReg a v) := by
  obtain ⟨hne, hw⟩ := not_or.mp (mt List.mem_cons.mpr ha)
  exact h.comp ⟨fun b hb => reg_setReg_ne t v (by rintro rfl; exact hw hb), fun _ => ⟨reg_setReg_ne t v (Ne.symm hne), rfl⟩, rfl⟩

theorem Firm.put {f : Fld} {v : Nat} (h : Firm s t) (ha : f.addr ∉ R.CLS_STAT :: firmWords := by decide) : Firm s (t.put f v) := h.setReg ha

theorem Firm.flag {f : Fld} {b : Bool} (h : Firm s t) (ha : f.addr ∉ R.CLS_STAT :: firmWords := by decide) : Firm s (t.flag f b) := h.put ha

theorem Firm.inc {f : Fld} (h : Firm s t) (ha : f.addr ∉ R.CLS_STAT :: firmWords := by decide) : Firm s (t.inc f) := h.put ha

/-- The parts of the words that are not of the pages of `firmWords`. -/
abbrev P.firm : Nat := 288230376151711743 - P.cls - P.pgVin - P.pgMsk - P.pgPlc - P.pgSup - P.pgPrf - P.pgAdc - P.pgBal

/-- A register outside those pages is none of the words. -/
theorem notFirm {a : Nat} (hc : covers P.firm a = true) : a ∉ R.CLS_STAT :: firmWords :=
  fun ha => ne_of_leaves_covers (List.all_eq_true.mp (by decide : (R.CLS_STAT :: firmWords).all (leaves P.firm) = true) a ha) hc rfl

theorem Firm.event {p n : Nat} (h : Firm s t) : Firm s (t.event p n) := h.setReg (notFirm (covers_raw _ p))

theorem Firm.eventIf {c : Bool} {p n : Nat} (h : Firm s t) : Firm s (t.eventIf c p n) := by
  unfold State.eventIf; exact .ite h.event h

end

/-- An abort ends an open explicit clause and nothing else (R77). -/
theorem State.abortClause_firm (s : State) (sys : Bool) : Firm s (s.abortClause sys) := by
  unfold State.abortClause
  split
  · exact .refl ..
  · rename_i hs
    have hstat {t : State} (h : Keeps (· ∈ firmWords) s t) {f : Fld} {v : Nat} (hf : f.addr = R.CLS_STAT := by rfl) :
        Keeps (· ∈ firmWords) s (t.put f v) := h.put (by rw [hf]; decide)
    have hfive := hstat (f := F.CLS_STAT_fail) (v := 0) (hstat (f := F.CLS_STAT_regs) (v := 0) (hstat (f := F.CLS_STAT_when) (v := 0)
      (hstat (f := F.CLS_STAT_owner) (v := 0) (hstat (f := F.CLS_STAT_state) (v := 0) (.refl _ s)))))
    refine ⟨?_, fun h => absurd h hs, ?_⟩
    · have hraw : R.PIRQ_RAW 3 ∉ firmWords := by decide
      exact (Keeps.same (.ite ((hstat (f := F.CLS_STAT_sysabort) (v := 1) hfive).event hraw) hfive) rfl).word
    · dsimp only
      split <;> rfl

/-! The fault actions (R318 to R331) and what an application does (R75). -/

theorem State.showTiming_firm (s : State) (d p : Nat) : Firm s (s.showTiming d p) := by
  unfold State.showTiming
  exact .put (.put (.put (.put (.put (.put (.put (.put (.put (.put (.refl ..))))))))))

theorem State.leaveSelftest_firm (s : State) : Firm s s.leaveSelftest := by
  unfold State.leaveSelftest
  dsimp only
  refine .upd (.foldl (.comp (.foldl (.flag (.refl ..)) fun t l => ?_) (State.showTiming_firm ..)) fun t l => .of (State.laneEnable_only ..))
  exact .ite (.put (.refl ..) (notFirm covers_lnk)) (.refl ..)

theorem State.withdraw_firm (s : State) : Firm s s.withdraw := by
  unfold State.withdraw
  exact .comp (.comp (.put (.put (.refl ..))) (.of (State.chainsOff_only ..))) (.of (State.outputsOff_only ..))

theorem State.enterHold_firm (s : State) (code detail : Nat) : Firm s (s.enterHold code detail) := by
  unfold State.enterHold
  split
  · exact .put (.refl ..)
  · dsimp only
    have h0 : Firm s (if s.mode = .selftest then s.leaveSelftest else s) := .ite (State.leaveSelftest_firm s) (.refl ..)
    refine .comp (.upd ?_) (.of (State.evalPolicies_only ..))
    refine .comp (.comp (.comp (.comp (.comp (.comp (.comp ?_ (State.withdraw_firm ..)) (State.abortClause_firm ..))
      (.of (State.stopLight_only ..))) (.of (State.darkOff_only ..))) (.of (State.holdOtp_only ..))) (.of (State.clearFbInput_only ..)))
      (.of (State.ccvAbandon_only ..))
    exact .put (.put (.put (h0.comp (.of (State.ownSwap_only ..)))))

theorem State.enterFallback_firm (s : State) : Firm s s.enterFallback := by
  unfold State.enterFallback
  refine .ite (.refl ..) (.ite (State.enterHold_firm ..) ?_)
  exact .comp (.comp (.comp (.comp (.put (.of (State.passAfresh_only ..))) (.of (State.initOffsets_only ..))) (.of (State.markAll_only ..)))
    (.of (State.clearFbInput_only ..))) (.of (State.evalPolicies_only ..))

theorem State.fallbackAction_firm (s : State) (cls : Nat) : Firm s (s.fallbackAction cls) := by
  unfold State.fallbackAction
  exact .ite (.ite (.refl ..) (.comp (State.enterFallback_firm ..) (.of (State.modeTook_only ..)))) (.ite (.put (.refl ..)) (.refl ..))

theorem State.holdAction_firm (s : State) (cls : Nat) : Firm s (s.holdAction cls) := by
  unfold State.holdAction
  exact .ite (.ite (.refl ..) (.comp (.put (.put (.refl ..))) (.of (State.modeTook_only ..))))
    (.ite (State.enterHold_firm ..) (.comp (State.enterHold_firm ..) (.of (State.modeTook_only ..))))

theorem State.modeAction_firm (s : State) (cls act : Nat) : Firm s (s.modeAction cls act) := by
  have hhold := State.holdAction_firm s cls
  unfold State.modeAction
  split
  · exact State.fallbackAction_firm ..
  · exact hhold
  · exact hhold
  · exact hhold
  · exact hhold
  · exact .ite (.refl ..) hhold
  · exact .ite (.refl ..) hhold
  · exact .refl ..

theorem State.takeAction_firm (s : State) (cls inst : Nat) : Firm s (s.takeAction cls inst) := by
  unfold State.takeAction
  exact .comp (.comp (.comp (.comp (.event (.inc (.of (State.setInst_only ..)))) (.of (State.logFault_only ..))) (.of (State.updateOff_only ..)))
    (State.modeAction_firm ..)) (.of (State.sioDrive_only ..))

theorem State.raise_firm (s : State) (cls inst : Nat) : Firm s (s.raise cls inst) := by
  have hev : Firm s (s.eventIf (!(s.fltInst cls inst).event) 18 0) := .eventIf (.refl ..)
  unfold State.raise
  exact .ite (.refl ..) (.ite (hev.comp (.of (State.setInst_only ..))) (.iteOn (hev.comp (.of (State.setInst_only ..))) (State.takeAction_firm ..)))

theorem State.setCond_firm (s : State) (cls inst : Nat) (b : Bool) : Firm s (s.setCond cls inst b) := by
  unfold State.setCond
  exact .ite (.refl ..) (.ite (.iteOn (.event (.of (State.setInst_only ..))) (State.takeAction_firm ..)) (.of (State.setInst_only ..)))

theorem State.uncorrectable_firm (s : State) (word req : Nat) : Firm s (s.uncorrectable word req) := by
  unfold State.uncorrectable
  refine .comp (.ite ?_ (.comp (.put (.put (.put (.put ?_)))) (.of (State.draw_only ..)))) (State.raise_firm ..) <;>
    exact .event (.ite (.inc (.refl ..)) (.inc (.refl ..)))

theorem State.readWords_firm (s : State) (f : Nat → Bool) (req : Nat) : Firm s (s.readWords f req) := by
  unfold State.readWords
  exact .foldl (.foldl (.refl ..) fun t w => .event (.inc (.refl ..) (notFirm covers_arr))) fun t w => State.uncorrectable_firm ..

theorem State.refadeNow_firm (s : State) (a : Nat) : Firm s (s.refadeNow a) := by
  have hcurve : Firm s (s.curveReads a) := by
    unfold State.curveReads
    exact .ite (State.readWords_firm ..) (.refl ..)
  have hrefade : Firm s (s.refade a) := by
    unfold State.refade
    generalize s.curveReads a = u at hcurve
    dsimp only
    refine .ite (.iteOff ?_ (.of (State.markRows_only ..))) (.refl ..)
    exact .eventIf (.flag (.put hcurve (notFirm covers_asp)) (notFirm covers_asp))
  unfold State.refadeNow
  exact .ite hrefade (.refl ..)

theorem State.ctxFade_firm (s old : State) (a : Nat) (start : Bool) : Firm s (s.ctxFade old a start) := by
  unfold State.ctxFade
  dsimp only
  generalize hu : (if old.get (F.ASP_FADE_fgrp a) ≠ s.get (F.ASP_FADE_fgrp a) then s.dropGroup a else s) = u
  have h : Firm s u := hu ▸ .ite (.of (State.dropGroup_only ..)) (.refl ..)
  refine .ite (.put (.put (.comp (h.comp (.of (State.dropGroup_only ..))) (.of (State.onFade_only ..))) (notFirm covers_asp)) (notFirm covers_asp))
    (.iteOn ?_ (State.refadeNow_firm ..))
  exact .ite (.comp (h.comp (.of (State.onFade_only ..))) (.of (State.beginFade_only ..)))
    (.ite h (.comp (h.comp (.of (State.dropWaits_only ..))) (.of (State.startFade_only ..))))

theorem State.ctxChanged_firm (s old : State) (a : Nat) (start : Bool) : Firm s (s.ctxChanged old a start) := by
  have h := State.ctxFade_firm s old a start
  unfold State.ctxChanged
  exact .ite (.ite (.refl ..) h) (.comp (h.comp (.of (State.markRows_only ..))) (.of (State.markRows_only ..)))

theorem State.reconfigLane_firm (s : State) (l : Nat) : Firm s (s.reconfigLane l) := by
  have hset (t : State) (n : Nat) : Firm t (t.setLane l n) := .of (State.setLane_only ..)
  unfold State.reconfigLane
  split
  · unfold State.toDetect State.markDown
    exact .ite (hset ..) (.comp ((hset ..).comp (.of (State.onLane_only ..))) (State.setCond_firm ..))
  · exact .of (State.leaveActive_only ..)
  · exact .comp (.of (State.onLane_only ..)) (.of (State.showPos_only ..))
  · exact .comp (.of (State.leaveDown_only ..)) (.of (State.toExit_only ..))

theorem State.roleChanged_firm (s old : State) (l : Nat) : Firm s (s.roleChanged old l) := by
  unfold State.roleChanged
  exact .ite (.refl ..) (State.reconfigLane_firm ..)

theorem State.setD_firm (s : State) (d : Nat) : Firm s (s.setD d) := by
  unfold State.setD
  exact .ite (.refl ..) (.comp (.event (.comp (State.showTiming_firm ..) (.of (State.initOffsets_only ..)))) (.of (State.balStart_only ..)))

theorem State.maskApply_firm (s : State) (old : List Word) (start : Bool) : Firm s (s.maskApply old start) := by
  unfold State.maskApply
  dsimp only
  refine .iteOff (.iteOn (.comp (.comp (.iteOn ?_ ?_) (.of (State.onVid_only ..))) (.of (State.queueUrgent_only ..)))
    (.of (State.resendFrame_only ..))) (.upd (.refl ..))
  · exact .ite (.upd (.refl ..)) (.put (.refl ..))
  · exact .event (.inc (.refl ..))

/-- What follows an application (R75). -/
theorem State.applied_firm (s old : State) (ws : List (Nat × Word)) (start : Bool) : Firm s (s.applied old ws start) := by
  unfold State.applied
  dsimp only
  refine .comp (.comp ?_ (.of (State.updateOff_only ..))) (.of (State.sioDrive_only ..))
  refine .iteOn (.iteOn (.iteOn (.foldl (.iteOn (.iteOff (.foldl (.foldl ?_ ?_) ?_) ?_) ?_) ?_) ?_) ?_) (.of (State.loseCfg_only ..))
  · exact .ite (.of (State.markAll_only ..)) (.refl ..)
  · exact fun t a => State.ctxChanged_firm ..
  · exact fun t k => .of (State.symChanged_only ..)
  · exact State.maskApply_firm ..
  · exact .comp (.ite (State.setD_firm ..) (.refl ..)) (State.showTiming_firm ..)
  · exact fun t l => State.roleChanged_firm ..
  · exact .upd (.put (.refl ..))
  · unfold State.adcShow
    exact .flag (.flag (.refl ..))

end Sys2Proof.Machine

end

section
/-! The agreement rules read the words of pages 4 and above and the locks alone (R71, R78), which the
discharger sees from the addresses of the fields it names. -/

set_option Elab.async false

namespace Sys2Proof.Machine

/-- Two states with the same words from page 4 on. -/
def SameUpper (s t : State) : Prop := ∀ a, 0x4000 ≤ a → t.reg a = s.reg a

section

variable {s t : State} (h : SameUpper s t)
include h

theorem SameUpper.get {f : Fld} (hf : 0x4000 ≤ f.addr) : t.get f = s.get f := by rw [State.get, h _ hf, State.get]

theorem SameUpper.on {f : Fld} (hf : 0x4000 ≤ f.addr) : t.on f = s.on f := by rw [State.on, h.get hf, State.on]

theorem SameUpper.ruleTiles : t.ruleTiles = s.ruleTiles := by
  funext c
  simp (disch := (simp only [F.CHN_CTRL_en, F.CHN_CTRL_tiles, R.CHN_CTRL, chnAddr]; omega)) only [State.ruleTiles, h.on, h.get]

theorem SameUpper.instances : t.instances = s.instances := by
  simp (disch := (simp only [F.TIL_MAP_en, R.TIL_MAP, tilAddr]; omega)) only [State.instances, h.on]

theorem SameUpper.naming : t.naming = s.naming := by
  funext c q
  simp (disch := (simp only [F.TIL_MAP_chain, F.TIL_MAP_pos, R.TIL_MAP, tilAddr]; omega)) only [State.naming, h.instances, h.get]

theorem SameUpper.defined : t.defined = s.defined := by
  simp (disch := (simp only [F.ASP_CFG_def, R.ASP_CFG, aspAddr]; omega)) only [State.defined, h.on]

theorem SameUpper.rulesChain : t.rulesChain = s.rulesChain := by
  have hrule3 : t.rule3 = s.rule3 := by
    simp (disch := (simp only [F.TIL_MAP_en, F.TIL_MAP_chain, F.TIL_MAP_pos, R.TIL_MAP, tilAddr]; omega)) only
      [State.rule3, h.ruleTiles, h.naming, h.on, h.get]
  simp (disch := (
      simp only [F.CHN_CTRL_en, F.TIL_MAP_index, F.TIL_MAP_rail, F.SPL_CTRL_en, F.PLC_PWM_div, F.VIN_RATE_max_hz, F.PRF_CFG_interval,
        F.SUP_CFG_count, R.CHN_CTRL, R.TIL_MAP, R.SPL_CTRL, R.PLC_PWM, R.VIN_RATE, R.PRF_CFG, R.SUP_CFG, chnAddr, tilAddr]
      omega)) only [State.rulesChain, hrule3, h.ruleTiles, h.instances, h.on, h.get]

theorem SameUpper.rulesAspect : t.rulesAspect = s.rulesAspect := by
  have hgroup : t.groupAspects = s.groupAspects := by
    funext g
    simp (disch := (simp only [F.ASP_CFG_group, R.ASP_CFG, aspAddr]; omega)) only [State.groupAspects, h.defined, h.get]
  have hlo (k : Nat) : t.reg (R.MSK_RECTLo k) = s.reg (R.MSK_RECTLo k) := h _ (by unfold R.MSK_RECTLo; omega)
  have hhi (k : Nat) : t.reg (R.MSK_RECTHi k) = s.reg (R.MSK_RECTHi k) := h _ (by unfold R.MSK_RECTHi; omega)
  simp (disch := (
      simp only [F.ASP_CFG_policy, F.ASP_CFG_class, F.ASP_CFG_count_n, F.ASP_MEMB_kind, F.ASP_MEMB_base, F.ASP_MEMB_len, F.FLT_RCT_action,
        F.FLT_RCT_group, R.ASP_CFG, R.ASP_MEMB, R.FLT_RCT, aspAddr]
      omega)) only [State.rulesAspect, hgroup, h.defined, hlo, hhi, h.get]

theorem SameUpper.rulesIo : t.rulesIo = s.rulesIo := by
  simp (disch := (
      simp only [F.SIO_INCFG_en, F.SIO_INCFG_disc, F.SIO_INCFG_tested, F.SIO_INCFG_sa, F.SIO_INCFG_sb, F.SIO_OCFG_test, F.SIO_OCFG_width,
        F.BAL_CTRL_en, F.ADC_CFG_ilv, F.AXO_CFG_pair, F.LNK_ROLE_role, R.SIO_INCFG, R.SIO_OCFG, R.BAL_CTRL, R.ADC_CFG, R.AXO_CFG, R.LNK_ROLE,
        lnkAddr]
      omega)) only [State.rulesIo, h.on, h.get]

end

/-- Two lists of new words that differ in words of CLS_STAT alone, which no clause gives a value. -/
def SameWords (ws ws' : List (Nat × Word)) : Prop :=
  List.Forall₂ (fun e e' => e = e' ∨ e.1 = R.CLS_STAT ∧ e'.1 = R.CLS_STAT) ws ws'

theorem SameWords.refl (ws : List (Nat × Word)) : SameWords ws ws := List.forall₂_same.mpr fun _ _ => .inl rfl

theorem takeWords_upper {s t : State} {ws ws' : List (Nat × Word)} (h : SameUpper s t) (hw : SameWords ws ws') :
    SameUpper (s.takeWords ws) (t.takeWords ws') := by
  unfold State.takeWords
  induction hw generalizing s t with
  | nil => exact h
  | @cons e e' _ _ he _ ih =>
    refine ih ?_
    dsimp only
    rcases he with rfl | ⟨he, he'⟩
    · split
      · intro a ha
        rw [reg_setReg, reg_setReg, h a ha]
      · exact h
    · rw [he, he', if_neg (by decide), if_neg (by decide)]
      exact h

theorem rule0_congr {s t : State} {ws ws' : List (Nat × Word)} (h : ∀ a, a ≠ R.CLS_STAT → t.reg a = s.reg a) (hw : SameWords ws ws') :
    t.rule0 ws' = s.rule0 ws := by
  have hlock (p : Nat) : t.locked p = s.locked p := by
    have hp : R.PLOCK p ≠ R.CLS_STAT := header_ne p (by decide)
    rw [State.locked, State.on, State.get, show (F.PLOCK_locked p).addr = R.PLOCK p from rfl, h _ hp]
    rfl
  have hmask : rwsMask R.CLS_STAT = 0 := by decide
  have hany (p : Nat) : (ws'.any fun e => pageOf e.1 == p && (e.2 ^^^ t.reg e.1) &&& rwsMask e.1 != 0) =
      ws.any fun e => pageOf e.1 == p && (e.2 ^^^ s.reg e.1) &&& rwsMask e.1 != 0 := by
    unfold SameWords at hw
    induction hw with
    | nil => rfl
    | @cons e e' _ _ he _ ih =>
      rw [List.any_cons, List.any_cons, ih]
      congr 1
      by_cases hc : e.1 = R.CLS_STAT
      · have hc' : e'.1 = R.CLS_STAT := by rcases he with rfl | ⟨-, he'⟩ <;> assumption
        rw [hc, hc', hmask]
        simp
      · obtain rfl : e = e' := he.resolve_right fun hh => hc hh.1
        rw [h _ hc]
  simp only [State.rule0, hlock, hany]

/-- The agreement rules do not depend on CLS_STAT. -/
theorem agree_congr {s t : State} {ws ws' : List (Nat × Word)} (h : ∀ a, a ≠ R.CLS_STAT → t.reg a = s.reg a) (hw : SameWords ws ws') :
    t.agree ws' = s.agree ws := by
  have hup : SameUpper (s.takeWords ws) (t.takeWords ws') := takeWords_upper (fun a ha => h a (by rintro rfl; exact absurd ha (by decide))) hw
  unfold State.agree
  dsimp only
  rw [rule0_congr h hw, hup.rulesChain, hup.rulesAspect, hup.rulesIo]

/-- The words of the explicit clause do not depend on the state of the clause (R72). -/
theorem clauseWords_congr {s t : State} (h : ∀ a, a ≠ R.CLS_STAT → t.reg a = s.reg a) (hs : t.cl.shadow = s.cl.shadow) :
    SameWords s.clauseWords t.clauseWords := by
  unfold SameWords State.clauseWords
  rw [hs, List.forall₂_map_left_iff, List.forall₂_map_right_iff, List.forall₂_same]
  intro e _
  by_cases hc : e.1 = R.CLS_STAT
  · exact .inr ⟨hc, hc⟩
  · exact .inl (by rw [h _ hc])

end Sys2Proof.Machine

end

section
/-! What the ends of a clause leave (R72 to R77, R83 to R85). -/

set_option Elab.async false

namespace Sys2Proof.Machine

theorem get_inc_apart (s : State) (f g : Fld) (h : f.apart g = true) : (s.inc f).get g = s.get g := get_put_apart _ _ _ _ h

/-- A failed check (R73, R85). -/
theorem clauseFail_shows (s : State) (e : Nat × Nat) (phase : Nat) :
    let t := s.clauseFail e phase
    t.get F.CLS_STAT_state = 1 ∧ t.get F.CLS_STAT_fail = 1 ∧ t.get F.CLS_FAIL_rule = e.1 % 2 ^ 8 ∧ t.get F.CLS_FAIL_inst = e.2 % 2 ^ 16 ∧
      t.get F.CLS_FAIL_phase = phase % 2 ^ 2 ∧ t.get F.CLS_COUNT_failed = s.plusOne F.CLS_COUNT_failed ∧
      t.cl = { s.cl with due := none } := by
  have hget (u : State) (c : Clauses) (f : Fld) : ({ u with cl := c } : State).get f = u.get f := rfl
  have hcount (u : State) : (u.inc F.CLS_COUNT_failed).get F.CLS_COUNT_failed = u.plusOne F.CLS_COUNT_failed := inc_get u _ (by decide)
  unfold State.clauseFail
  simp (disch := decide) only [hget, event_get, get_put_apart, get_inc_apart, get_put_same, hcount, State.plusOne, true_and]
  exact ⟨rfl, rfl, rfl, rfl, rfl, rfl⟩

/-- An abort of an open clause (R77). -/
theorem abortClause_shows {s : State} (hs : s.get F.CLS_STAT_state ≠ 0) (sys : Bool) :
    let t := s.abortClause sys
    t.get F.CLS_STAT_state = 0 ∧ t.get F.CLS_STAT_owner = 0 ∧ t.get F.CLS_STAT_regs = 0 ∧ (sys = true → t.get F.CLS_STAT_sysabort = 1) ∧
      t.cl = { s.cl with shadow := [], due := none } := by
  have hget (u : State) (c : Clauses) (f : Fld) : ({ u with cl := c } : State).get f = u.get f := rfl
  unfold State.abortClause
  rw [if_neg hs]
  cases sys <;> simp (disch := decide) only [hget, event_get, get_put_apart, get_put_same, if_true, Bool.false_eq_true, if_false, forall_const,
    false_imp_iff, true_and]
  · exact ⟨rfl, rfl, rfl, rfl⟩
  · exact ⟨rfl, rfl, rfl, rfl, rfl⟩

/-- The explicit clause as its application takes it up (R73). -/
def State.closeClause (s : State) : State :=
  let s := ((s.setRegN R.CLS_APPLY s.pnow).inc F.CLS_COUNT_applied).event 3 0
  let s := (((s.put F.CLS_STAT_state 0).put F.CLS_STAT_owner 0).put F.CLS_STAT_when 0).put F.CLS_STAT_regs 0
  { s with cl := { s.cl with shadow := [], due := none } }

theorem applyClause_eq (s : State) (start : Bool) : s.applyClause start = match s.agree s.clauseWords with
    | some e => s.clauseFail e 2
    | none => s.closeClause.applyWords s.clauseWords start := by
  unfold State.applyClause
  rfl

theorem closeClause_shows (s : State) :
    let t := s.closeClause
    t.get F.CLS_STAT_state = 0 ∧ t.get F.CLS_STAT_owner = 0 ∧ t.get F.CLS_STAT_regs = 0 ∧ t.reg R.CLS_APPLY = s.reg R.CLS_PNOW ∧
      t.get F.CLS_COUNT_applied = s.plusOne F.CLS_COUNT_applied ∧ t.cl = { s.cl with shadow := [], due := none } := by
  have hget (u : State) (c : Clauses) (f : Fld) : ({ u with cl := c } : State).get f = u.get f := rfl
  have hset (u : State) (v : Nat) : (u.setRegN R.CLS_APPLY v).get F.CLS_COUNT_applied = u.get F.CLS_COUNT_applied := by
    rw [State.get, State.setRegN, reg_setReg_ne _ _ (by decide), State.get]
  have hcount (u : State) : (u.inc F.CLS_COUNT_applied).get F.CLS_COUNT_applied = u.plusOne F.CLS_COUNT_applied := inc_get u _ (by decide)
  have hreg (u : State) (c : Clauses) : ({ u with cl := c } : State).reg R.CLS_APPLY = u.reg R.CLS_APPLY := rfl
  have hev (u : State) : (u.event 3 0).reg R.CLS_APPLY = u.reg R.CLS_APPLY := reg_setReg_ne _ _ (by decide)
  have hinc (u : State) : (u.inc F.CLS_COUNT_applied).reg R.CLS_APPLY = u.reg R.CLS_APPLY := reg_setReg_ne _ _ (by decide)
  have happly (u : State) : (u.setRegN R.CLS_APPLY s.pnow).reg R.CLS_APPLY = s.reg R.CLS_PNOW :=
    (reg_setReg_same ..).trans ((BitVec.ofNat_toNat 32 _).trans (BitVec.setWidth_eq _))
  unfold State.closeClause
  simp (disch := decide) only [hget, hreg, event_get, hev, hinc, happly, get_put_apart, get_put_same, reg_put_ne, hcount, State.plusOne,
    hset, true_and]
  exact ⟨rfl, rfl, rfl, rfl⟩

/-- Words below page 4 take no value from a clause (R72). -/
theorem takeWords_lower (s : State) (ws : List (Nat × Word)) {a : Nat} (ha : a < 0x4000) : (s.takeWords ws).reg a = s.reg a := by
  unfold State.takeWords
  induction ws generalizing s with
  | nil => rfl
  | cons e r ih =>
    rw [List.foldl_cons, ih]
    split
    · exact reg_setReg_ne _ _ (by omega)
    · rfl

/-- What an application leaves of the clauses, where no explicit one is open (R74, R75). -/
theorem applyWords_shows {s : State} (hs : s.get F.CLS_STAT_state = 0) (ws : List (Nat × Word)) (start : Bool) :
    let t := s.applyWords ws start
    t.cl = s.cl ∧ t.reg R.CLS_STAT = s.reg R.CLS_STAT ∧ t.reg R.CLS_APPLY = s.reg R.CLS_APPLY ∧ t.reg R.CLS_COUNT = s.reg R.CLS_COUNT := by
  have hfirm : Firm (s.takeWords ws) (s.applyWords ws start) := State.applied_firm ..
  have hlow {a : Nat} (ha : a < 0x4000) := takeWords_lower s ws ha
  obtain ⟨hstat, hcl⟩ := hfirm.closed (by rw [State.get, show F.CLS_STAT_state.addr = R.CLS_STAT from rfl, hlow (by decide)]; exact hs)
  exact ⟨hcl.trans ((State.takeWords_only s ws).cl (by decide)), hstat.trans (hlow (by decide)),
    (hfirm.word _ (by decide)).trans (hlow (by decide)), (hfirm.word _ (by decide)).trans (hlow (by decide))⟩

/-- The value that an application of one word gives it (R74). -/
theorem applyWords_value (s : State) {a : Nat} (w : Word) (start : Bool) (ha : a ∈ firmWords) (h4 : 0x4000 ≤ a) :
    (s.applyWords [(a, w)] start).reg a = w := by
  have hfirm : Firm (s.takeWords [(a, w)]) (s.applyWords [(a, w)] start) := State.applied_firm ..
  rw [hfirm.word a ha, State.takeWords, List.foldl_cons, List.foldl_nil, if_pos h4, reg_setReg_same]

/-- The application of an explicit clause that agrees (R73, R74). -/
theorem applyClause_shows {s : State} (ha : s.agree s.clauseWords = none) (start : Bool) :
    let t := s.applyClause start
    t.get F.CLS_STAT_state = 0 ∧ t.get F.CLS_STAT_owner = 0 ∧ t.get F.CLS_STAT_regs = 0 ∧ t.reg R.CLS_APPLY = s.reg R.CLS_PNOW ∧
      t.get F.CLS_COUNT_applied = s.plusOne F.CLS_COUNT_applied ∧ t.cl = { s.cl with shadow := [], due := none } := by
  obtain ⟨hstate, howner, hregs, happly, hcount, hcl⟩ := closeClause_shows s
  obtain ⟨kcl, kstat, kapply, kcount⟩ := applyWords_shows hstate s.clauseWords start
  have hstat {f : Fld} (hf : f.addr = R.CLS_STAT) : (s.closeClause.applyWords s.clauseWords start).get f = s.closeClause.get f := by
    rw [State.get, hf, kstat, ← hf, State.get]
  have hcnt {f : Fld} (hf : f.addr = R.CLS_COUNT) : (s.closeClause.applyWords s.clauseWords start).get f = s.closeClause.get f := by
    rw [State.get, hf, kcount, ← hf, State.get]
  intro t
  have ht : t = s.closeClause.applyWords s.clauseWords start := by
    show s.applyClause start = _
    rw [applyClause_eq, ha]
  rw [ht]
  exact ⟨(hstat rfl).trans hstate, (hstat rfl).trans howner, (hstat rfl).trans hregs, kapply.trans happly, (hcnt rfl).trans hcount,
    kcl.trans hcl⟩

end Sys2Proof.Machine

end

section
/-! Implicit clauses (R76, R77, R83, R85). -/

set_option Elab.async false

namespace Sys2Proof.Machine

theorem State.groupChange_firm (s : State) (a : Nat) : Firm s (s.groupChange a) := by
  have hend : Firm s (s.endGroup a) := .of (State.endGroup_only ..)
  unfold State.groupChange
  split
  · refine .ite (.ite (.eventIf hend) (.ite hend (.eventIf (.comp (.comp (.comp ?_ (.of (State.dropWaits_only ..)))
      (.of (State.startFade_only ..))) (State.refadeNow_firm ..))))) (.refl ..)
    exact .comp (.flag hend (notFirm covers_asp)) (.of (State.markRows_only ..))
  · exact .refl ..

theorem State.groupBefore_firm (s : State) (n a : Nat) : Firm s (s.groupBefore n a) := by
  unfold State.groupBefore
  split
  · exact .ite (State.groupChange_firm ..) (.refl ..)
  · exact .refl ..

/-- The queue of implicit clauses without one of them. -/
def State.unqueue (s : State) (c : ImpClause) : State := { s with cl := { s.cl with implicit := s.cl.implicit.erase c } }

/-- The state in which an implicit clause is applied: the group changes of its aspects that arrived before it have taken place (R207). -/
def State.groupsFirst (s : State) (c : ImpClause) : State :=
  (List.range 160).foldl (fun t a => if c.words.any fun e => e.1 == R.ASP_CTL a then t.groupBefore c.nth a else t) (s.unqueue c)

theorem takeImplicit_eq (s : State) (c : ImpClause) : s.takeImplicit c = (s.groupsFirst c).applyImplicit c := rfl

theorem groupsFirst_firm (s : State) (c : ImpClause) : Firm (s.unqueue c) (s.groupsFirst c) :=
  .foldl (.refl ..) fun _ _ => .ite (State.groupBefore_firm ..) (.refl ..)

/-- The application of an implicit clause leaves the queue (R76). -/
theorem applyImplicit_implicit (s : State) (c : ImpClause) : (s.applyImplicit c).cl.implicit = s.cl.implicit := by
  have hfirm : Firm (s.takeWords c.words) (s.applyWords c.words true) := State.applied_firm ..
  have hwords : (s.applyWords c.words true).cl.implicit = s.cl.implicit := by
    rw [hfirm.implicit, (State.takeWords_only s c.words).cl (by decide)]
  have hfail (u : State) (k : Nat) (e : Nat × Nat) : (u.implicitFail k e).cl = u.cl := (State.implicitFail_only ..).cl (by decide)
  unfold State.applyImplicit
  split
  · rw [hfail]
  · split
    · rw [hfail, (State.draw_only s).cl (by decide)]
    · exact hwords

/-- A clause leaves the queue as it is taken (R76). -/
theorem takeImplicit_queue (s : State) (c : ImpClause) : (s.takeImplicit c).cl.implicit = s.cl.implicit.erase c := by
  rw [takeImplicit_eq, applyImplicit_implicit, (groupsFirst_firm s c).implicit]
  rfl

/-- Without a pending group change of its aspects nothing comes before it. -/
theorem groupsFirst_none {s : State} {c : ImpClause} (h : ∀ (a : Fin 160) w, (R.ASP_CTL a, w) ∈ c.words → (s.fade a).group = none) :
    s.groupsFirst c = s.unqueue c := by
  have hstep : ∀ a ∈ List.range 160, (if c.words.any fun e => e.1 == R.ASP_CTL a then (s.unqueue c).groupBefore c.nth a else s.unqueue c) =
      s.unqueue c := by
    intro a ha
    split
    · rename_i hany
      obtain ⟨⟨b, w⟩, hmem, hb⟩ := List.any_eq_true.mp hany
      obtain rfl : b = R.ASP_CTL a := by simpa using hb
      have hg : ((s.unqueue c).fade a).group = none := h ⟨a, List.mem_range.mp ha⟩ w hmem
      rw [State.groupBefore, hg]
    · rfl
  have hfix (l : List Nat) (hl : ∀ a ∈ l, a ∈ List.range 160) :
      l.foldl (fun t a => if c.words.any fun e => e.1 == R.ASP_CTL a then t.groupBefore c.nth a else t) (s.unqueue c) = s.unqueue c := by
    induction l with
    | nil => rfl
    | cons a r ih =>
      rw [List.foldl_cons, hstep a (hl a List.mem_cons_self)]
      exact ih fun b hb => hl b (List.mem_cons_of_mem _ hb)
  exact hfix _ fun _ => id

/-- What a discarded clause shows (R76, R85). -/
theorem implicitFail_shows (s : State) (kind : Nat) (e : Nat × Nat) :
    let t := s.implicitFail kind e
    t.get F.CLS_ISTAT_rule = e.1 % 256 ∧ t.get F.CLS_ISTAT_inst = e.2 % 256 ∧ t.get F.CLS_ISTAT_count = s.plusOne F.CLS_ISTAT_count ∧
      t.bit (R.PIRQ_RAW 3) 3 = true ∧ t.sram = s.sram := by
  have hcount (u : State) : (u.inc F.CLS_ISTAT_count).get F.CLS_ISTAT_count = u.plusOne F.CLS_ISTAT_count := inc_get u _ (by decide)
  refine ⟨?_, ?_, ?_, event_same _ (by decide), rfl⟩ <;>
    simp (disch := decide) only [State.implicitFail, event_get, get_put_apart, get_inc_apart, get_put_same, hcount, State.plusOne] <;> rfl

/-- The application of an implicit clause whose aspects have no group change pending (R76). -/
theorem takeImplicit_outcome {s : State} {c : ImpClause}
    (h : ∀ (a : Fin 160) w, (R.ASP_CTL a, w) ∈ c.words → (s.fade a).group = none) :
    (∀ e, s.agree c.words = some e → s.takeImplicit c = (s.unqueue c).implicitFail c.kind e) ∧
      (s.agree c.words = none → c.kind ≠ 3 → s.takeImplicit c = (s.unqueue c).applyWords c.words true) := by
  have ha : (s.unqueue c).agree c.words = s.agree c.words := agree_congr (fun _ _ => rfl) (.refl _)
  rw [takeImplicit_eq, groupsFirst_none h]
  unfold State.applyImplicit
  rw [ha]
  refine ⟨fun e he => by rw [he], fun hn hk => ?_⟩
  rw [hn]
  exact if_neg fun h3 => hk h3.1

end Sys2Proof.Machine

end

section
/-! Explicit and implicit clauses (O57). -/

set_option Elab.async false

namespace Sys2Proof.Machine

/-- A commit that the clause's owner makes with the key (R73, R84). -/
theorem exec_clauseCommit {s : State} {src : Src} {val : Word} (hm : s.mayCommand src 3) (hk : getBits val 16 16 = 0xC1A5)
    (hs : s.get F.CLS_STAT_state = 1) (ho : s.get F.CLS_STAT_owner = ownerOfSrc src) : exec (.clauseCommit src val) s =
      .next ((((s.put F.CLS_STAT_state 2).put F.CLS_STAT_when (getBits val 0 2)).put F.CLS_STAT_late 0).put F.CLS_STAT_fail 0) := by
  obtain ⟨hl, hhold, hown⟩ := hm
  have hmode (t : Touch) : s.modeBars R.CLS_COMMIT val t = false := by
    have hn : s.mode ≠ .hold := fun h => absurd (hhold h) (by decide)
    simp [State.modeBars, hn, show pageOf R.CLS_COMMIT = 3 from rfl, show R.CLS_COMMIT ≠ R.PLC_PWM by decide,
      show R.CLS_COMMIT ≠ R.LNK_RATE 0 by decide, show R.CLS_COMMIT ≠ R.AXO_CTRL by decide]
  have hsrc : s.sourceBars src R.CLS_COMMIT val = false := by
    have hasp : aspCtlAt R.CLS_COMMIT = none := by decide
    simp [State.sourceBars, hasp, show R.CLS_COMMIT ≠ R.SYS_MODEREQ by decide, show R.CLS_COMMIT ≠ R.SYS_RESET by decide,
      show R.CLS_COMMIT ≠ R.SYS_ACK by decide, show R.CLS_COMMIT ≠ R.AXO_CTRL by decide, show R.CLS_COMMIT ≠ R.ASP_FGRP by decide]
  have hcommit : s.commitBars src val = false := by simp [State.commitBars, hk, hs, ho]
  show s.regRow src R.CLS_COMMIT val = _
  rw [State.regRow, if_pos hl, writeReg_wo (r := _) rfl (by decide) (hmode _) hsrc hown (by rw [hcommit, Bool.and_false])]
  rfl

/-- CLS_ABORT (R77). -/
theorem exec_clauseAbort {s : State} {src : Src} (hm : s.mayCommand src 3) : exec (.clauseAbort src) s = .next (s.abortWrite src) :=
  regRow_openAt (by decide) hm

/-- The clause as a check that holds arms it (R74). -/
def State.armClause (s : State) (due : Due) : State := { s.put F.CLS_STAT_state 3 with cl := { s.cl with due := some due } }

theorem armClause_reg (s : State) (due : Due) {a : Nat} (h : a ≠ R.CLS_STAT) : (s.armClause due).reg a = s.reg a := reg_put_ne s _ _ h

/-- The point of application does not depend on the state of the clause (R74). -/
theorem pointOf_put (s : State) (v choice target : Nat) : (s.put F.CLS_STAT_state v).pointOf choice target = s.pointOf choice target := by
  have hmode : (s.put F.CLS_STAT_state v).mode = s.mode := mode_congr (get_put_apart _ _ _ _ (by decide))
  have hlight : (s.put F.CLS_STAT_state v).lightMode = s.lightMode := by rw [State.lightMode, hmode, State.lightMode]
  have hpnow : (s.put F.CLS_STAT_state v).pnow = s.pnow := congrArg BitVec.toNat (reg_put_ne s _ _ (by decide))
  have hcyc : (s.put F.CLS_STAT_state v).periodCycles = s.periodCycles := congrArg (5000 * ·) (get_put_apart _ _ _ _ (by decide))
  have hnext : (s.put F.CLS_STAT_state v).nextStart = s.nextStart := by
    rw [State.nextStart, State.periodAfter, hcyc, hpnow]; rfl
  have huntil : (s.put F.CLS_STAT_state v).until target = s.until target := by rw [State.until, hcyc, hpnow]; rfl
  unfold State.pointOf
  rw [hlight, hpnow, hnext, huntil]

/-- A check of a commit that holds arms the clause, or applies it at once (R73, R74). -/
theorem exec_checkDone_agrees {s : State} {due : Due} {late : Bool} (hs : s.get F.CLS_STAT_state = 2) (ha : s.agree s.clauseWords = none)
    (hp : s.pointOf (s.get F.CLS_STAT_when) (s.regN R.CLS_PTGT) = (due, late)) : exec .clauseCheckDone s =
      .next (if due = .now ∧ s.mode ≠ .mirror then (s.armClause due).applyClause false
        else if late then ((s.armClause due).put F.CLS_STAT_late 1).event 3 2 else s.armClause due) := by
  have hwhen : (s.put F.CLS_STAT_state 3).get F.CLS_STAT_when = s.get F.CLS_STAT_when := get_put_apart _ _ _ _ (by decide)
  have htgt : (s.put F.CLS_STAT_state 3).regN R.CLS_PTGT = s.regN R.CLS_PTGT := congrArg BitVec.toNat (reg_put_ne s _ _ (by decide))
  have hmode : (s.armClause due).mode = s.mode := mode_congr (get_put_apart s _ _ _ (by decide))
  show execClauseCheckDone s = _
  rw [execClauseCheckDone, if_pos hs, ha]
  dsimp only
  rw [pointOf_put, hwhen, htgt, hp, ← hmode]
  rfl

theorem exec_checkDone_fails {s : State} {e : Nat × Nat} (hs : s.get F.CLS_STAT_state = 2) (he : s.agree s.clauseWords = some e) :
    exec .clauseCheckDone s = .next (s.clauseFail e 1) := by
  show execClauseCheckDone s = _
  rw [execClauseCheckDone, if_pos hs, he]

/-- The armed clause as it falls due (R73, R74). -/
theorem exec_clauseApply {s : State} {d : Due} (hd : s.cl.due = some d) (hs : s.get F.CLS_STAT_state = 3) (hdue : s.dueNow d = true)
    (hm : s.mode ≠ .mirror) : exec .clauseApply s = .next (s.applyClause true) := by
  show execClauseApply s = _
  rw [execClauseApply, hd]
  exact congrArg _ (if_pos ⟨hs, hdue, hm⟩)

/-- Settles O57: each end of a clause by what it leaves. -/
theorem clauses : Obligations.Clauses := by
  refine ⟨fun s => ⟨fun src val hm hk hs ho => ?_, fun hs => ⟨fun e he => ?_, fun due late ha hp hd => ?_, fun ha hw hm => ?_⟩,
    fun d hd hs hdue hm ha => ?_, fun d e hd hs hdue hm he => ?_, fun src hm hs => ⟨fun hsrc => ?_, fun hne ho => ?_⟩,
    fun ho hs hlanes => ?_⟩, fun s c hc hm => ⟨fun hdue => ?_, fun hnot => ?_⟩⟩
  · have hw : Writes [R.CLS_STAT] s ((((s.put F.CLS_STAT_state 2).put F.CLS_STAT_when (getBits val 0 2)).put F.CLS_STAT_late 0).put
        F.CLS_STAT_fail 0) := by
      have hm : R.CLS_STAT ∈ [R.CLS_STAT] := List.mem_singleton.mpr rfl
      exact .put (.put (.put (.put (.refl ..) hm) hm) hm) hm
    refine hw.puts (exec_clauseCommit hm hk hs ho) ?_
    simp (disch := decide) only [get_put_apart, get_put_same, and_true]
    exact ⟨rfl, Nat.mod_eq_of_lt (val.extractLsb' 0 2).isLt, rfl, rfl⟩
  · obtain ⟨hstate, hfail, hrule, hinst, hphase, hcount, hcl⟩ := clauseFail_shows s e 1
    exact ⟨_, exec_checkDone_fails hs he, State.clauseFail_only .., hstate, hfail, hrule, hinst, hphase, hcount, hcl⟩
  · have hx := exec_checkDone_agrees hs ha hp
    rw [if_neg fun h => hd.elim (fun hn => hn h.1) h.2] at hx
    have harm : Only (P.cl ||| P.cls) s (s.armClause due) := .upd (.put (.refl ..))
    have hstate : (s.armClause due).get F.CLS_STAT_state = 3 := get_put_same s _ _ (by decide)
    cases late with
    | true =>
      refine ⟨_, hx, .event (.put harm), ?_, rfl, fun _ => ?_⟩
      · simpa (disch := decide) only [if_true, event_get, get_put_apart] using hstate
      · simp (disch := decide) only [if_true, event_get, get_put_same]
        rfl
    | false => exact ⟨_, hx, harm, hstate, rfl, fun h => absurd h Bool.false_ne_true⟩
  · have hp : s.pointOf (s.get F.CLS_STAT_when) (s.regN R.CLS_PTGT) = (.now, false) := by rw [hw]; rfl
    have hx := exec_checkDone_agrees hs ha hp
    rw [if_pos ⟨rfl, hm⟩] at hx
    have hreg : ∀ a, a ≠ R.CLS_STAT → (s.armClause .now).reg a = s.reg a := fun a h => armClause_reg s .now h
    have ha' : (s.armClause .now).agree (s.armClause .now).clauseWords = none := (agree_congr hreg (clauseWords_congr hreg rfl)).trans ha
    obtain ⟨hstate, -, -, happly, hcount, hcl⟩ := applyClause_shows ha' false
    refine ⟨_, hx, (execClauseCheckDone_only s hx).mono, hstate, happly.trans (hreg _ (by decide)), ?_, hcount.trans ?_⟩
    · rw [hcl]
    · rw [State.plusOne, State.get, hreg _ (by decide)]; rfl
  · have hx := exec_clauseApply hd hs hdue hm
    obtain ⟨hstate, howner, hregs, happly, hcount, hcl⟩ := applyClause_shows ha true
    refine ⟨_, hx, execClauseApply_only s hx, hstate, howner, hregs, happly, hcount, ?_, ?_, fun a w hw hmem => ?_⟩
    · rw [hcl]
    · rw [hcl]
    · have hlist : ∀ b ∈ [R.VIN_RATE, R.PLC_PWM, R.SUP_CFG, R.PRF_CFG, R.BAL_CTRL, R.ADC_CFG], b ∈ firmWords ∧ 0x4000 ≤ b := by decide
      obtain ⟨hfirm, h4⟩ := hlist a hmem
      rw [applyClause_eq, ha, hw]
      exact applyWords_value _ w true hfirm h4
  · have hx := exec_clauseApply hd hs hdue hm
    rw [applyClause_eq, he] at hx
    obtain ⟨hstate, hfail, hrule, hinst, hphase, hcount, hcl⟩ := clauseFail_shows s e 2
    exact ⟨_, hx, State.clauseFail_only .., hstate, hfail, hrule, hinst, hphase, hcount, hcl⟩
  · have hx := exec_clauseAbort hm
    rw [State.abortWrite, if_pos hsrc] at hx
    obtain ⟨hstate, howner, hregs, -, hcl⟩ := abortClause_shows hs false
    exact ⟨_, hx, execClauseAbort_only _ s hx, hstate, howner, hregs, hcl⟩
  · have hx := exec_clauseAbort hm
    rwa [State.abortWrite, if_neg (not_or.mpr ⟨hne, ho⟩)] at hx
  · have hall : (List.range 4).all (fun l => !s.active l) = true := by
      rw [List.all_eq_true]
      intro l hl
      rw [hlanes ⟨l, List.mem_range.mp hl⟩, Bool.not_false]
    have hx : exec .clauseLaneLossAbort s = .next (s.abortClause true) := by
      show execClauseLaneLossAbort s = _
      rw [execClauseLaneLossAbort, if_pos ⟨ho, hall⟩]
    obtain ⟨hstate, howner, -, hsys, hcl⟩ := abortClause_shows hs true
    exact ⟨_, hx, execClauseLaneLossAbort_only s hx, hstate, howner, hsys rfl, hcl⟩
  · obtain ⟨d, hd, hs, hnow⟩ := hdue
    have hexp : s.explicitDue = true := by simp [State.explicitDue, hd, hs, hnow]
    show execImplicitClauseApply s = _
    rw [execImplicitClauseApply, hc]
    exact congrArg _ (if_pos (.inr hexp))
  · have hexp : s.explicitDue = false := by
      rcases hnot with h | h | ⟨d, hd, hnow⟩
      · simp [State.explicitDue, h]
      · simp [State.explicitDue, h]
      · simp [State.explicitDue, hd, hnow]
    have hx : exec .implicitClauseApply s = .next (s.takeImplicit c) := by
      show execImplicitClauseApply s = _
      rw [execImplicitClauseApply, hc]
      exact congrArg _ (if_neg (by simp [hm, hexp]))
    refine ⟨_, hx, execImplicitClauseApply_only s hx, takeImplicit_queue s c, fun hg => ?_⟩
    obtain ⟨hfail, happly⟩ := takeImplicit_outcome hg
    refine ⟨fun e he => ?_, fun ha hk => ?_⟩
    · rw [hfail e he]
      exact implicitFail_shows (s.unqueue c) c.kind e
    · rw [happly ha hk]
      have hfirm : Firm ((s.unqueue c).takeWords c.words) ((s.unqueue c).applyWords c.words true) := State.applied_firm ..
      refine ⟨?_, fun a w hw hmem => ?_⟩
      · rw [hfirm.get (by decide), State.get, takeWords_lower _ _ (by decide)]
        rfl
      · have hlist : ∀ b ∈ [R.MSK_RECTLo 0, R.MSK_SYMLo 0, R.MSK_SYMHi 255], b ∈ firmWords ∧ 0x4000 ≤ b := by decide
        obtain ⟨hf, h4⟩ := hlist a hmem
        rw [hw]
        exact applyWords_value _ w true hf h4

end Sys2Proof.Machine

end

section
/-! The fields of a lane's page, the records of the lanes, and the ways in which a lane ends its training and leaves ACTIVE (O18). -/

set_option Elab.async false

namespace Sys2Proof.Machine

/-- Two fields of a lane's page in different words, or apart in one word. -/
theorem apart_lnk {f g : Fld} {n k lo w k' lo' w' : Nat} (hf : f = ⟨lnkAddr n + k, lo, w⟩) (hg : g = ⟨lnkAddr n + k', lo', w'⟩)
    (h : (k != k' || Nat.ble (lo + w) lo' || Nat.ble (lo' + w') lo) = true) : f.apart g = true := by
  subst hf hg
  simp only [Bool.or_eq_true, bne_iff_ne, Nat.ble_eq] at h
  simp only [Fld.apart, Bool.or_eq_true, bne_iff_ne, decide_eq_true_eq]
  omega

/-- A field of a lane's page lies past the page's header: no event is written there, nor a part outside the page. -/
theorem notRaw_fld {f : Fld} {n k lo w : Nat} (hf : f = ⟨lnkAddr n + k, lo, w⟩) (h : (k % 0x1000 != 0x10) = true) :
    f.addr % 0x1000 ≠ 0x10 := by
  subst hf
  exact notRaw_lnk (bne_iff_ne.mp h)

theorem leaves_fld {E : Nat} {f : Fld} {n k lo w : Nat} (hf : f = ⟨lnkAddr n + k, lo, w⟩)
    (h : (Nat.ble 0x40 k && Nat.blt k 0x1000 && !E.testBit 36) = true) : leaves E f.addr = true := by
  subst hf
  simp only [Bool.and_eq_true, Nat.ble_eq, Nat.blt_eq, Bool.not_eq_true'] at h
  exact leaves_lnk h

/-- What a change of one lane leaves in every record. -/
theorem lane_onLane_part {α : Type} (g : Lane → α) (s : State) (l k : Nat) (f : Lane → Lane) (hf : ∀ a, g (f a) = g a) :
    g ((s.onLane l f).lane k) = g (s.lane k) := by
  by_cases h : k = l
  · subst h
    by_cases hk : k < 4
    · rw [lane_onLane s hk, hf]
    · rw [State.onLane, dif_neg hk]
  · rw [lane_onLane_ne s h]

@[simp] theorem dropReturns_lane (s : State) (k : Nat) : s.dropReturns.lane k = s.lane k := by
  unfold State.dropReturns; split <;> rfl

/-- A lane fails in POLL or CAPS (R93, R95). -/
theorem trainFail_shows (s : State) {l : Nat} (hl : l < 4) {reason : Nat} (hr : reason < 16) :
    (s.trainFail l reason).laneState l = 7 ∧ (s.trainFail l reason).get (F.LNK_STAT_freason l) = reason ∧
      (s.trainFail l reason).get (F.LNK_STAT_fails l) = min 16 (s.get (F.LNK_STAT_fails l) + 1) ∧
      ((s.trainFail l reason).lane l).failed = true ∧ (s.trainFail l reason).out = .ordered l 6 eiosSet :: s.out := by
  unfold State.trainFail
  dsimp only
  obtain ⟨hstate, hfailed, hout, hkeeps⟩ := toExit_leaves _ hl true
  refine ⟨hstate, (hkeeps 12 4 (by decide)).trans ?_, (hkeeps 3 5 (by decide)).trans ?_, hfailed, hout⟩
  · simp (disch := first | exact apart_lnk rfl rfl rfl | exact notRaw_fld rfl rfl) only [event_get, get_inc_apart]
    exact (get_put_same _ (F.LNK_STAT_freason l) _ (show 12 + 4 ≤ 32 by decide)).trans (Nat.mod_eq_of_lt hr)
  · simp (disch := first | exact apart_lnk rfl rfl rfl | exact notRaw_fld rfl rfl) only [event_get, get_inc_apart, get_put_apart]
    refine (get_put_same _ (F.LNK_STAT_fails l) _ (show 3 + 5 ≤ 32 by decide)).trans (Nat.mod_eq_of_lt ?_)
    exact Nat.lt_of_le_of_lt (Nat.min_le_left ..) (show 16 < 32 by decide)

/-- A lane leaves ACTIVE with a cause (R96). -/
theorem leaveActive_shows {s : State} {l : Nat} (hl : l < 4) (ha : s.laneState l = 4) {cause : Nat} (hc : cause < 8) :
    (s.leaveActive l cause).laneState l = 7 ∧ (s.leaveActive l cause).get (F.LNK_STAT_xreason l) = cause ∧
      (∀ lo w, 3 ≤ lo → lo + w ≤ 16 ∨ 19 ≤ lo →
        (s.leaveActive l cause).get ⟨R.LNK_STAT l, lo, w⟩ = s.get ⟨R.LNK_STAT l, lo, w⟩) ∧
      ((s.leaveActive l cause).lane l).failed = false ∧ (s.leaveActive l cause).out = .ordered l 6 eiosSet :: s.out := by
  have hact : s.active l = true := beq_iff_eq.mpr ha
  have hdrop (u : State) (lo w : Nat) : u.dropReturns.get ⟨R.LNK_STAT l, lo, w⟩ = u.get ⟨R.LNK_STAT l, lo, w⟩ :=
    (State.dropReturns_only u).get leaves_lnk
  unfold State.leaveActive
  rw [if_pos hact]
  dsimp only
  obtain ⟨hstate, hfailed, hout, hkeeps⟩ := toExit_leaves
    (((s.onLane l fun a => { a with eqKept := s.eqNow l }).put (F.LNK_STAT_xreason l) cause).event (4 + l) 1) hl false
  refine ⟨(hdrop _ 0 3).trans hstate, ((hdrop _ 16 3).trans (hkeeps 16 3 (by decide))).trans ?_, fun lo w h3 h => ?_,
    (congrArg Lane.failed (dropReturns_lane ..)).trans hfailed, ((State.dropReturns_only _).out (by decide)).trans ?_⟩
  · rw [event_get _ notRaw_lnk]
    exact (get_put_same _ (F.LNK_STAT_xreason l) _ (show 16 + 3 ≤ 32 by decide)).trans (Nat.mod_eq_of_lt hc)
  · rw [hdrop, hkeeps lo w h3, event_get _ notRaw_lnk, F.LNK_STAT_xreason, get_put_beside _ _ _ _ _ _ _ (by omega), onLane_get]
  · rw [hout, event_out, put_out, onLane_out]

/-- The commands by which a lane fails in POLL or CAPS. -/
theorem exec_trainFail {c : Instr} {l : Fin 4} {reason : Nat} {s : State}
    (h : (c = .pollTimeout l ∧ s.laneState l = 2 ∧ reason = 1) ∨ (c = .capsTimeout l ∧ s.laneState l = 3 ∧ reason = 2) ∨
      (c = .electricalIdle l ∧ (s.laneState l = 2 ∧ s.on (F.LNK_STAT_sym_lock l) = true ∨ s.laneState l = 3) ∧ reason = 7)) :
    exec c s = .next (s.trainFail l reason) := by
  rcases h with ⟨rfl, hs, rfl⟩ | ⟨rfl, hs, rfl⟩ | ⟨rfl, ⟨hs, hlock⟩ | hs, rfl⟩
  · show execPollTimeout l s = _
    rw [execPollTimeout, if_pos hs]
  · show execCapsTimeout l s = _
    rw [execCapsTimeout, if_pos hs]
  · show execElectricalIdle l s = _
    simp only [execElectricalIdle, hs, hlock, if_true]
  · show execElectricalIdle l s = _
    simp only [execElectricalIdle, hs]

/-- The commands by which a lane leaves ACTIVE on its own link's account. -/
theorem exec_leaveActive {c : Instr} {l : Fin 4} {src : Src} {cause : Nat} {s : State} (ha : s.laneState l = 4)
    (h : (c = .electricalIdle l ∧ cause = 1) ∨ (c = .errorBucketFull l ∧ 256 ≤ (s.lane l).bucket ∧ cause = 2) ∨
      (c = .eiosReceive l ∧ cause = 3) ∨ (c = .lnkRetrain src l ∧ s.mayCommand src (4 + l) ∧ cause = 4)) :
    exec c s = .next (s.leaveActive l cause) := by
  rcases h with ⟨rfl, rfl⟩ | ⟨rfl, hb, rfl⟩ | ⟨rfl, rfl⟩ | ⟨rfl, hm, rfl⟩
  · show execElectricalIdle l s = _
    simp only [execElectricalIdle, ha]
  · show execErrorBucketFull l s = _
    rw [execErrorBucketFull, if_pos hb]
  · rfl
  · exact regRow_lnkCtrl hm

/-- Settles O18: a failure and a departure each enter EXIT, which keeps the counts and reasons that were written before it. -/
theorem laneEnds : Obligations.LaneEnds := by
  refine ⟨fun c l reason s h => ?_, fun c l src cause s ha h => ?_⟩
  · have hr : reason < 16 := by rcases h with ⟨-, -, rfl⟩ | ⟨-, -, rfl⟩ | ⟨-, -, rfl⟩ <;> decide
    exact ⟨_, exec_trainFail h, State.trainFail_only .., trainFail_shows s l.isLt hr⟩
  · have hc : cause < 8 := by rcases h with ⟨-, rfl⟩ | ⟨-, -, rfl⟩ | ⟨-, rfl⟩ | ⟨-, -, rfl⟩ <;> decide
    obtain ⟨hstate, hreason, hkeeps, hfailed, hout⟩ := leaveActive_shows l.isLt ha hc
    exact ⟨_, exec_leaveActive ha h, State.leaveActive_only .., hstate, hreason, hkeeps 3 5 (by decide) (.inl (by decide)), hfailed, hout⟩

end Sys2Proof.Machine

end

section
/-! How a lane trains (O19): the equaliser values kept beside the page take any number, their fields do not. -/

set_option Elab.async false

namespace Sys2Proof.Machine

/-- The CTLE setting in use fits its field (R101). -/
theorem eqNow_ctle_lt (s : State) (l : Nat) : (s.eqNow l).1 < 16 := get_lt s (F.LNK_ADAPT_ctle l)

/-- Lane 0 in DETECT, with a CTLE setting of 16 kept from when it last left ACTIVE. -/
def keptTooHigh : State :=
  (State.reset.put (F.LNK_STAT_state 0) 1).onLane 0 fun a => { a with fresh := false, eqKept := (16, 0, 0, 0) }

theorem keptTooHigh_detect : keptTooHigh.laneState 0 = 1 :=
  (onLane_laneState ..).trans (get_put_same _ (F.LNK_STAT_state 0) 1 (by decide))

theorem keptTooHigh_kept : (keptTooHigh.lane 0).fresh = false ∧ (keptTooHigh.lane 0).eqKept = (16, 0, 0, 0) := by
  rw [keptTooHigh, lane_onLane _ (by decide)]
  exact ⟨rfl, rfl⟩

/-- Refutes O19: from the state `keptTooHigh` the probe finds a far end, and the statement asks that the CTLE setting in use then be the
kept 16, which the 4 bits of LNK_ADAPT.ctle do not hold. -/
theorem not_laneTrains : ¬ Obligations.LaneTrains := by
  rintro ⟨htrain, -⟩
  obtain ⟨hprobe, -⟩ := htrain 0 keptTooHigh
  obtain ⟨t, -, -, -, -, -, -, -, heq, -⟩ := hprobe keptTooHigh_detect
  obtain ⟨hfresh, hkept⟩ := keptTooHigh_kept
  have hctle : (t.eqNow 0).1 = 16 := by
    have h : t.eqNow 0 = (16, 0, 0, 0) := heq.trans (by simp only [Fin.val_zero, hfresh, hkept]; rfl)
    rw [h]
  exact absurd (eqNow_ctle_lt t 0) (by omega)

end Sys2Proof.Machine

end

section
/-! The clear commands (O31): each is one list of words and fields that become zero. -/

set_option Elab.async false

namespace Sys2Proof.Machine

/-- Words that become zero (R63). -/
theorem reg_zeroRegs (s : State) (bs : List Nat) (a : Nat) : (s.zeroRegs bs).reg a = if a ∈ bs then 0 else s.reg a := by
  unfold State.zeroRegs
  induction bs generalizing s with
  | nil => simp
  | cons b r ih =>
    rw [List.foldl_cons, ih, reg_setReg]
    by_cases hb : a = b <;> simp [hb]

theorem reg_zeroRegs_mem (s : State) {bs : List Nat} {a : Nat} (h : a ∈ bs) : (s.zeroRegs bs).reg a = 0 :=
  (reg_zeroRegs s bs a).trans (if_pos h)

theorem get_zeroRegs_ne (s : State) {bs : List Nat} {f : Fld} (h : f.addr ∉ bs) : (s.zeroRegs bs).get f = s.get f := by
  rw [State.get, reg_zeroRegs, if_neg h, State.get]

theorem Writes.zeroRegs {as bs : List Nat} {s t : State} (h : Writes as s t) (hb : ∀ b ∈ bs, b ∈ as) : Writes as s (t.zeroRegs bs) := by
  unfold State.zeroRegs
  induction bs generalizing t with
  | nil => exact h
  | cons b r ih => exact ih (h.setReg (hb b (by simp))) fun x hx => hb x (by simp [hx])

theorem Writes.foldl {α : Type} {as : List Nat} {s t : State} {f : State → α → State} {l : List α} (h : Writes as s t)
    (hf : ∀ u, ∀ x ∈ l, Writes as s u → Writes as s (f u x)) : Writes as s (l.foldl f t) :=
  List.foldlRecOn (motive := Writes as s) l f h fun u hu x hx => hf u x hx hu

section

variable {src : Src} {s : State}

/-- LNK_CTRL.clrcnt (R109). -/
theorem lnkClrcnt_clears (l : Fin 4) (hm : s.mayCommand src (4 + l)) :
    Puts (.lnkClrcnt src l) s [R.LNK_ERRCNT l, R.LNK_EBCNT l, R.LNK_TRCNT l, R.LNK_FWDDROP l] fun t =>
      t.reg (R.LNK_ERRCNT l) = 0 ∧ t.reg (R.LNK_EBCNT l) = 0 ∧ t.reg (R.LNK_TRCNT l) = 0 ∧ t.reg (R.LNK_FWDDROP l) = 0 := by
  have hx : exec (.lnkClrcnt src l) s = .next (s.zeroRegs [R.LNK_ERRCNT l, R.LNK_EBCNT l, R.LNK_TRCNT l, R.LNK_FWDDROP l]) :=
    regRow_lnkCtrl hm
  exact ((Writes.refl ..).zeroRegs fun _ h => h).puts hx ⟨reg_zeroRegs_mem _ (by simp), reg_zeroRegs_mem _ (by simp),
    reg_zeroRegs_mem _ (by simp), reg_zeroRegs_mem _ (by simp)⟩

/-- CMP_CTRL.clrcnt (R192). -/
theorem cmpClrcnt_clears (hm : s.mayCommand src 11) :
    Puts (.cmpClrcnt src) s [R.CMP_PASS, R.CMP_WAIT, R.CMP_SCRPASS, R.CMP_ECCCNT 0, R.CMP_ECCCNT 1, R.CMP_ECCCNT 2, R.CMP_ECCCNT 3,
      R.CMP_UECNT] fun t => t.reg R.CMP_PASS = 0 ∧ t.reg R.CMP_SCRPASS = 0 ∧ (∀ k < 4, t.reg (R.CMP_ECCCNT k) = 0) ∧
        t.reg R.CMP_UECNT = 0 ∧ t.get ⟨R.CMP_WAIT, 16, 16⟩ = 0 ∧ t.get ⟨R.CMP_WAIT, 0, 16⟩ = s.get ⟨R.CMP_WAIT, 0, 16⟩ := by
  have hx : exec (.cmpClrcnt src) s = .next ((s.zeroRegs [R.CMP_PASS, R.CMP_SCRPASS, R.CMP_ECCCNT 0, R.CMP_ECCCNT 1, R.CMP_ECCCNT 2,
    R.CMP_ECCCNT 3, R.CMP_UECNT]).put ⟨R.CMP_WAIT, 16, 16⟩ 0) := regRow_openAt (by decide) hm
  have hzero {a : Nat} (ha : a ≠ R.CMP_WAIT) (h : a ∈ [R.CMP_PASS, R.CMP_SCRPASS, R.CMP_ECCCNT 0, R.CMP_ECCCNT 1, R.CMP_ECCCNT 2,
      R.CMP_ECCCNT 3, R.CMP_UECNT]) : ((s.zeroRegs [R.CMP_PASS, R.CMP_SCRPASS, R.CMP_ECCCNT 0, R.CMP_ECCCNT 1, R.CMP_ECCCNT 2,
      R.CMP_ECCCNT 3, R.CMP_UECNT]).put ⟨R.CMP_WAIT, 16, 16⟩ 0).reg a = 0 := (reg_put_ne _ _ _ ha).trans (reg_zeroRegs_mem _ h)
  have hecc : ∀ k < 4, R.CMP_ECCCNT k ≠ R.CMP_WAIT ∧ R.CMP_ECCCNT k ∈ [R.CMP_PASS, R.CMP_SCRPASS, R.CMP_ECCCNT 0, R.CMP_ECCCNT 1,
      R.CMP_ECCCNT 2, R.CMP_ECCCNT 3, R.CMP_UECNT] := by decide
  refine (((Writes.refl ..).zeroRegs (by decide)).put (by decide)).puts hx ⟨hzero (by decide) (by decide), hzero (by decide) (by decide),
    fun k hk => hzero (hecc k hk).1 (hecc k hk).2, hzero (by decide) (by decide), get_put_same _ _ _ (by decide), ?_⟩
  rw [get_put_beside _ _ _ _ _ _ _ (by decide), get_zeroRegs_ne _ (by decide)]

/-- CHN_GCTRL.clrcnt (R275) as one list of words. -/
theorem chnClear_eq (s : State) :
    s.chnClear = s.zeroRegs ((List.range 20).flatMap fun c => [R.CHN_ERR c, R.CHN_RETX c, R.CHN_SENSE c]) := by
  unfold State.chnClear State.zeroRegs
  rw [List.foldl_flatMap]

theorem chnClrcnt_clears (hm : s.mayCommand src 20) :
    Puts (.chnClrcnt src) s ((List.range 20).flatMap fun c => [R.CHN_ERR c, R.CHN_RETX c, R.CHN_SENSE c]) fun t =>
      ∀ c : Fin 20, t.reg (R.CHN_ERR c) = 0 ∧ t.reg (R.CHN_RETX c) = 0 ∧ t.reg (R.CHN_SENSE c) = 0 := by
  have hx : exec (.chnClrcnt src) s = .next s.chnClear := regRow_openAt (by decide) hm
  rw [chnClear_eq] at hx
  refine ((Writes.refl ..).zeroRegs fun _ h => h).puts hx fun c => ?_
  have hmem {a : Nat} (h : a ∈ [R.CHN_ERR c, R.CHN_RETX c, R.CHN_SENSE c]) :
      a ∈ (List.range 20).flatMap fun c => [R.CHN_ERR c, R.CHN_RETX c, R.CHN_SENSE c] :=
    List.mem_flatMap.mpr ⟨c, List.mem_range.mpr c.isLt, h⟩
  exact ⟨reg_zeroRegs_mem _ (hmem (by simp)), reg_zeroRegs_mem _ (hmem (by simp)), reg_zeroRegs_mem _ (hmem (by simp))⟩

/-- PRF_CTRL.clrcnt (R309). -/
theorem prfClrcnt_clears (hm : s.mayCommand src 19) : Puts (.prfClrcnt src) s [R.PRF_CNT, R.PRF_REPL, R.PRF_LOW] fun t =>
    t.reg R.PRF_CNT = 0 ∧ t.reg R.PRF_REPL = 0 ∧ t.get F.PRF_LOW_frames = 0 ∧ t.get F.PRF_LOW_pixels = s.get F.PRF_LOW_pixels := by
  have hx : exec (.prfClrcnt src) s = .next ((s.zeroRegs [R.PRF_CNT, R.PRF_REPL]).put F.PRF_LOW_frames 0) :=
    regRow_openAt (by decide) hm
  refine (((Writes.refl ..).zeroRegs (by decide)).put (by decide)).puts hx ⟨?_, ?_, get_put_same _ _ _ (by decide), ?_⟩
  · rw [reg_put_ne _ _ _ (by decide), reg_zeroRegs_mem _ (by decide)]
  · rw [reg_put_ne _ _ _ (by decide), reg_zeroRegs_mem _ (by decide)]
  · rw [get_put_apart _ _ _ _ (by decide), get_zeroRegs_ne _ (by decide)]

/-- FLT_CTRL.clrcnt (R329). -/
theorem fltClrcnt_clears (hm : s.mayCommand src 18) : Puts (.fltClrcnt src) s [R.FLT_CNT, R.FLT_LOGPTR] fun t =>
    t.reg R.FLT_CNT = 0 ∧ t.get F.FLT_LOGPTR_written = 0 ∧ t.get F.FLT_LOGPTR_next = s.get F.FLT_LOGPTR_next := by
  have hx : exec (.fltClrcnt src) s = .next ((s.setReg R.FLT_CNT 0).put F.FLT_LOGPTR_written 0) := regRow_openAt (by decide) hm
  refine (((Writes.refl ..).setReg (by decide)).put (by decide)).puts hx ⟨?_, get_put_same _ _ _ (by decide), ?_⟩
  · rw [reg_put_ne _ _ _ (by decide), reg_setReg_same]
  · rw [get_put_apart _ _ _ _ (by decide), get_setReg_ne _ _ (by decide)]

/-- The words of the fault log (R332). -/
def logWords : List Nat := (List.range 16).flatMap fun k => [R.FLT_LOGLo k, R.FLT_LOGHi k]

theorem foldl_logWords (s : State) :
    (List.range 16).foldl (fun t k => t.zeroRegs [R.FLT_LOGLo k, R.FLT_LOGHi k]) s = s.zeroRegs logWords := by
  unfold State.zeroRegs logWords
  rw [List.foldl_flatMap]

theorem logClear_reg (s : State) (a : Nat) :
    s.logClear.reg a = if a = R.FLT_LOGPTR then 0 else if a ∈ logWords then 0 else s.reg a := by
  have hregs : s.logClear.regs = ((s.zeroRegs logWords).setReg R.FLT_LOGPTR 0).regs := by
    rw [State.logClear, foldl_logWords]
  rw [reg_congr hregs, reg_setReg, reg_zeroRegs]

theorem logClear_flt (s : State) : s.logClear.flt = { s.flt with unread := [] } := by
  have hflt : (s.zeroRegs logWords).flt = s.flt := ((Only.refl P.pgFlt s).zeroRegs (by decide)).flt (by decide)
  unfold State.logClear
  dsimp only
  rw [foldl_logWords, hflt]

/-- FLT_CTRL.logclr (R329, R332). -/
theorem fltLogclr_clears (hm : s.mayCommand src 18) : Does (.fltLogclr src) s (P.flt ||| P.pgFlt) fun t =>
    t.flt = { s.flt with unread := [] } ∧ t.reg R.FLT_LOGPTR = 0 ∧ t.reg R.FLT_CNT = s.reg R.FLT_CNT ∧
      ∀ k : Fin 16, t.reg (R.FLT_LOGLo k) = 0 ∧ t.reg (R.FLT_LOGHi k) = 0 := by
  have hx : exec (.fltLogclr src) s = .next s.logClear := regRow_openAt (by decide) hm
  have hlog : ∀ k : Fin 16, R.FLT_LOGLo k ∈ logWords ∧ R.FLT_LOGHi k ∈ logWords := by decide
  have hother : R.FLT_CNT ≠ R.FLT_LOGPTR ∧ R.FLT_CNT ∉ logWords := by decide
  refine ⟨_, hx, State.logClear_only s, logClear_flt s, ?_, ?_, fun k => And.intro ?_ ?_⟩
  · rw [logClear_reg, if_pos rfl]
  · rw [logClear_reg, if_neg hother.1, if_neg hother.2]
  · rw [logClear_reg, if_pos (hlog k).1, ite_self]
  · rw [logClear_reg, if_pos (hlog k).2, ite_self]

/-- ADC_CTRL.clrcnt (R351). -/
theorem adcClrcnt_clears (hm : s.mayCommand src 24) : Puts (.adcClrcnt src) s [R.ADC_CNT, R.ADC_RNG, R.ADC_BURST, R.ADC_CALSTAT] fun t =>
    t.reg R.ADC_CNT = 0 ∧ t.reg R.ADC_RNG = 0 ∧ t.reg R.ADC_BURST = 0 ∧ t.get F.ADC_CALSTAT_done = 0 ∧
      t.get F.ADC_CALSTAT_result = s.get F.ADC_CALSTAT_result ∧ t.get F.ADC_CALSTAT_aband = s.get F.ADC_CALSTAT_aband := by
  have hx : exec (.adcClrcnt src) s = .next ((s.zeroRegs [R.ADC_CNT, R.ADC_RNG, R.ADC_BURST]).put F.ADC_CALSTAT_done 0) :=
    regRow_openAt (by decide) hm
  refine (((Writes.refl ..).zeroRegs (by decide)).put (by decide)).puts hx ⟨?_, ?_, ?_, get_put_same _ _ _ (by decide), ?_, ?_⟩
  · rw [reg_put_ne _ _ _ (by decide), reg_zeroRegs_mem _ (by decide)]
  · rw [reg_put_ne _ _ _ (by decide), reg_zeroRegs_mem _ (by decide)]
  · rw [reg_put_ne _ _ _ (by decide), reg_zeroRegs_mem _ (by decide)]
  · rw [get_put_apart _ _ _ _ (by decide), get_zeroRegs_ne _ (by decide)]
  · rw [get_put_apart _ _ _ _ (by decide), get_zeroRegs_ne _ (by decide)]

/-- WIN_CTRL.clrcnt (R354): each comparator's count of exits lies beside its last value. -/
theorem winClrcnt_clears (hm : s.mayCommand src 25) : Puts (.winClrcnt src) s ((List.range 16).map R.WIN_LAST) fun t => ∀ k : Fin 16,
    t.get (F.WIN_LAST_exits k) = 0 ∧ t.get (F.WIN_LAST_value k) = s.get (F.WIN_LAST_value k) := by
  have hx : exec (.winClrcnt src) s = .next ((List.range 16).foldl (fun t k => t.put (F.WIN_LAST_exits k) 0) s) :=
    regRow_openAt (by decide) hm
  have hw : Writes ((List.range 16).map R.WIN_LAST) s ((List.range 16).foldl (fun t k => t.put (F.WIN_LAST_exits k) 0) s) :=
    (Writes.refl ..).foldl fun u k hk h => h.put (List.mem_map_of_mem hk)
  refine hw.puts hx fun k => And.intro ?_ ?_
  · refine foldl_brings (Q := fun u : State => u.get (F.WIN_LAST_exits k) = 0) s (List.mem_range.mpr k.isLt)
      (fun u => get_put_same u (F.WIN_LAST_exits k) 0 (show 16 + 16 ≤ 32 by decide)) fun u j hu => ?_
    by_cases hj : R.WIN_LAST j = R.WIN_LAST k
    · rw [show F.WIN_LAST_exits k = F.WIN_LAST_exits j by rw [F.WIN_LAST_exits, ← hj, F.WIN_LAST_exits]]
      exact get_put_same u (F.WIN_LAST_exits j) 0 (show 16 + 16 ≤ 32 by decide)
    · rw [get_put_ne u 0 hj]
      exact hu
  · refine List.foldlRecOn (motive := fun u : State => u.get (F.WIN_LAST_value k) = s.get (F.WIN_LAST_value k)) _ _ rfl fun u hu j _ => ?_
    rw [get_put_apart u _ _ 0 ?_, hu]
    by_cases hj : R.WIN_LAST j = R.WIN_LAST k
    · exact Fld.apart_bits (.inr (show Nat.ble (0 + 16) 16 = true by decide))
    · exact Fld.apart_addr hj

/-- AXO_CTRL.clrcnt (R435). -/
theorem axoClrcnt_clears (hm : s.mayCommand src 30) :
    Puts (.axoClrcnt src) s [R.AXO_DIV, R.AXO_DIVCAP, R.AXO_CNT, R.AXO_TKCNT, R.AXO_PSYNC, R.AXO_HB] fun t =>
      t.reg R.AXO_DIV = 0 ∧ t.reg R.AXO_DIVCAP = 0 ∧ t.reg R.AXO_CNT = 0 ∧ t.get ⟨R.AXO_TKCNT, 0, 16⟩ = 0 ∧
        t.get ⟨R.AXO_TKCNT, 16, 16⟩ = s.get ⟨R.AXO_TKCNT, 16, 16⟩ ∧ t.get ⟨R.AXO_PSYNC, 16, 16⟩ = 0 ∧
        t.get ⟨R.AXO_PSYNC, 0, 16⟩ = s.get ⟨R.AXO_PSYNC, 0, 16⟩ ∧ t.get F.AXO_HB_missed = 0 ∧
        t.get F.AXO_HB_hseq = s.get F.AXO_HB_hseq := by
  have hx : exec (.axoClrcnt src) s = .next ((((s.zeroRegs [R.AXO_DIV, R.AXO_DIVCAP, R.AXO_CNT]).put ⟨R.AXO_TKCNT, 0, 16⟩ 0).put
      ⟨R.AXO_PSYNC, 16, 16⟩ 0).put F.AXO_HB_missed 0) :=
    regRow_axoCtrl hm fun h => absurd h (by decide)
  refine (((((Writes.refl ..).zeroRegs (by decide)).put (by decide)).put (by decide)).put (by decide)).puts hx
    ⟨?_, ?_, ?_, ?_, ?_, ?_, ?_, get_put_same _ _ _ (by decide), ?_⟩ <;>
    simp (disch := decide) only [reg_put_ne, reg_zeroRegs_mem, get_put_apart, get_put_same, get_zeroRegs_ne, Nat.zero_mod]

/-- SPD_CTRL.clrcnt (R160). -/
theorem spdClrcnt_clears (hm : s.mayCommand src 9) :
    Puts (.spdClrcnt src) s [R.SPD_DISC, R.SPD_LOST, R.SPD_CCVSTAT, R.SPD_RXSTAT] fun t => t.reg R.SPD_DISC = 0 ∧ t.reg R.SPD_LOST = 0 ∧
      t.get F.SPD_CCVSTAT_count = 0 ∧ t.get F.SPD_CCVSTAT_state = s.get F.SPD_CCVSTAT_state ∧
      t.get F.SPD_CCVSTAT_reason = s.get F.SPD_CCVSTAT_reason ∧ t.get F.SPD_RXSTAT_miss = 0 ∧
      t.get F.SPD_RXSTAT_synced = s.get F.SPD_RXSTAT_synced ∧ t.get F.SPD_RXSTAT_last = s.get F.SPD_RXSTAT_last := by
  have hx : exec (.spdClrcnt src) s =
      .next (((s.zeroRegs [R.SPD_DISC, R.SPD_LOST]).put F.SPD_CCVSTAT_count 0).put F.SPD_RXSTAT_miss 0) := regRow_openAt (by decide) hm
  refine ((((Writes.refl ..).zeroRegs (by decide)).put (by decide)).put (by decide)).puts hx ⟨?_, ?_, ?_, ?_, ?_, ?_, ?_, ?_⟩ <;>
    simp (disch := decide) only [reg_put_ne, reg_zeroRegs_mem, get_put_apart, get_put_same, get_zeroRegs_ne, Nat.zero_mod]

/-- SPD_CTRL.resync (R147, R160). -/
theorem spdResync_unsyncs (hm : s.mayCommand src 9) : Puts (.spdResync src) s [R.SPD_RXSTAT] fun t => t.get F.SPD_RXSTAT_synced = 0 ∧
    t.get F.SPD_RXSTAT_miss = s.get F.SPD_RXSTAT_miss ∧ t.get F.SPD_RXSTAT_last = s.get F.SPD_RXSTAT_last := by
  have hx : exec (.spdResync src) s = .next (s.put F.SPD_RXSTAT_synced 0) := regRow_openAt (by decide) hm
  exact ((Writes.refl ..).put (by decide)).puts hx
    ⟨get_put_same _ _ _ (by decide), get_put_apart _ _ _ _ (by decide), get_put_apart _ _ _ _ (by decide)⟩

end

/-- Settles O31: each command writes the words and fields of its own list. -/
theorem countersClearApart : Obligations.CountersClearApart := fun _ _ =>
  ⟨lnkClrcnt_clears, cmpClrcnt_clears, chnClrcnt_clears, prfClrcnt_clears, fun hm => ⟨fltClrcnt_clears hm, fltLogclr_clears hm⟩,
    adcClrcnt_clears, winClrcnt_clears, axoClrcnt_clears, fun hm => ⟨spdClrcnt_clears hm, spdResync_unsyncs hm⟩⟩

end Sys2Proof.Machine

end

section
/-! The entry into ACTIVE, and words that are written in turn (R93, R95, R111). -/

set_option Elab.async false

namespace Sys2Proof.Machine

/-- Words at different addresses that are written one after the other. -/
theorem foldl_setRegN_reg (s : State) (A v : Nat → Nat) {n k : Nat} (hk : k < n) (hA : ∀ i < n, A i = A k → i = k) :
    ((List.range n).foldl (fun t i => t.setRegN (A i) (v i)) s).reg (A k) = BitVec.ofNat 32 (v k) :=
  foldl_once (fun u => u.reg (A k)) (fun _ => BitVec.ofNat 32 (v k)) s (List.mem_range.mpr hk) List.nodup_range
    (fun u => reg_setReg_same u _ _) fun u i hi hne => reg_setReg_ne u _ fun he => hne (hA i (List.mem_range.mp hi) he.symm)

theorem foldl_setRegN_reg_ne (s : State) (A v : Nat → Nat) (n : Nat) {a : Nat} (h : ∀ i, a ≠ A i) :
    ((List.range n).foldl (fun t i => t.setRegN (A i) (v i)) s).reg a = s.reg a :=
  List.foldlRecOn (motive := fun u : State => u.reg a = s.reg a) _ _ rfl fun _ hu i _ => (reg_setReg_ne _ _ (h i)).trans hu

/-- A lane marked down, or no longer. -/
theorem markDown_lane (s : State) {l : Nat} (hl : l < 4) (b : Bool) : (s.markDown l b).lane l = { s.lane l with down := b } := by
  unfold State.markDown
  rw [lane_congr ((setCond_act _ _ _ _).link (by decide)), lane_onLane _ hl]

/-- The entry into ACTIVE: the counts and the event, then the record and the mark of the lane, then its state code (R93, R95). -/
def State.countActive (s : State) (l : Nat) : State := ((s.put (F.LNK_STAT_fails l) 0).inc (F.LNK_TRCNT_act l)).event (4 + l) 0

/-- A change of rate need not be taken back once a lane of the host path is ACTIVE (R89). -/
def State.unwatch (s : State) (l : Nat) : State := if s.hostPath l then { s with link := { s.link with watch := false } } else s

theorem unwatch_regs (s : State) (l : Nat) : (s.unwatch l).regs = s.regs := by unfold State.unwatch; split <;> rfl

theorem unwatch_lane (s : State) (l k : Nat) : (s.unwatch l).lane k = s.lane k := by unfold State.unwatch; split <;> rfl

theorem toActive_eq (s : State) (l : Nat) : ∃ f : Lane → Lane, (∀ a, (f a).bucket = 0) ∧
    s.toActive l = ((((s.countActive l).onLane l f).markDown l false).setLane l 4).unwatch l := by
  refine ⟨_, fun _ => ?_, rfl⟩
  rfl

/-- A word that the entry into ACTIVE leaves. -/
theorem setLane_reg (s : State) (l st : Nat) {a : Nat} (ha : leaves P.pgPkt a = true) (hs : a ≠ R.LNK_STAT l) :
    (s.setLane l st).reg a = s.reg a := by
  unfold State.setLane
  rw [(State.showPos_only _).word a ha, reg_put_ne _ _ _ hs]

theorem toActive_reg (s : State) (l : Nat) {a : Nat} (ha : leaves P.pgPkt a = true) (hs : a ≠ R.LNK_STAT l) :
    (s.toActive l).reg a = (s.countActive l).reg a := by
  obtain ⟨f, -, he⟩ := toActive_eq s l
  rw [he, reg_congr (unwatch_regs ..), setLane_reg _ _ _ ha hs, reg_congr (markDown_up _ l).2, reg_congr (onLane_regs ..)]

theorem toActive_get (s : State) (l : Nat) {f : Fld} (ha : leaves P.pgPkt f.addr = true) (hb : (F.LNK_STAT_state l).apart f = true) :
    (s.toActive l).get f = (s.countActive l).get f := by
  obtain ⟨g, -, he⟩ := toActive_eq s l
  rw [he, get_congr (unwatch_regs ..), setLane_get _ _ _ ha hb, get_congr (markDown_up _ l).2, onLane_get]

theorem toActive_state (s : State) (l : Nat) : (s.toActive l).laneState l = 4 := by
  obtain ⟨g, -, he⟩ := toActive_eq s l
  rw [he, State.laneState, get_congr (unwatch_regs ..)]
  exact laneState_setLane_active ..

theorem toActive_bucket (s : State) {l : Nat} (hl : l < 4) : ((s.toActive l).lane l).bucket = 0 := by
  obtain ⟨g, hg, he⟩ := toActive_eq s l
  rw [he, unwatch_lane, setLane_lane, markDown_lane _ hl, lane_onLane _ hl, hg]

theorem toActive_shows (s : State) {l : Nat} (hl : l < 4) :
    (s.toActive l).laneState l = 4 ∧ (s.toActive l).get (F.LNK_STAT_fails l) = 0 ∧
      (s.toActive l).get (F.LNK_TRCNT_act l) = s.plusOne (F.LNK_TRCNT_act l) ∧ ((s.toActive l).lane l).bucket = 0 ∧
      (s.toActive l).get (F.LNK_STAT_end l) = s.get (F.LNK_STAT_end l) ∧
      ∀ k, (s.toActive l).reg (R.LNK_CAPRX l k) = s.reg (R.LNK_CAPRX l k) := by
  have hact : (s.put (F.LNK_STAT_fails l) 0).get (F.LNK_TRCNT_act l) = s.get (F.LNK_TRCNT_act l) :=
    get_put_apart _ _ _ _ (apart_lnk rfl rfl rfl)
  refine ⟨toActive_state s l, ?_, ?_, toActive_bucket s hl, ?_, fun k => ?_⟩
  · simp (disch := first | exact leaves_fld rfl rfl | exact apart_lnk rfl rfl rfl | exact notRaw_fld rfl rfl) only
      [toActive_get, State.countActive, event_get, get_inc_apart]
    exact get_put_same _ (F.LNK_STAT_fails l) 0 (show 3 + 5 ≤ 32 by decide)
  · simp (disch := first | exact leaves_fld rfl rfl | exact apart_lnk rfl rfl rfl | exact notRaw_fld rfl rfl) only
      [toActive_get, State.countActive, event_get]
    rw [inc_get _ (F.LNK_TRCNT_act l) (show 0 + 16 ≤ 32 by decide), State.plusOne, hact, State.plusOne]
  · simp (disch := first | exact leaves_fld rfl rfl | exact apart_lnk rfl rfl rfl | exact notRaw_fld rfl rfl) only
      [toActive_get, State.countActive, event_get, get_inc_apart, get_put_apart]
  · have hk : R.LNK_CAPRX l k = lnkAddr l + (0x54 + 4 * (k % 3)) := by rw [R.LNK_CAPRX, Nat.add_assoc]
    have hleaves : leaves P.pgPkt (R.LNK_CAPRX l k) = true := by rw [hk]; exact leaves_lnk ⟨⟨by omega, by omega⟩, by decide⟩
    have hstat : R.LNK_CAPRX l k ≠ R.LNK_STAT l := by rw [hk, R.LNK_STAT]; omega
    have htr : R.LNK_CAPRX l k ≠ R.LNK_TRCNT l := by rw [hk, R.LNK_TRCNT]; omega
    rw [toActive_reg s l hleaves hstat, State.countActive, (event_sets _ _ (by decide)).2.2 _
      (ne_of_leaves_covers hleaves (covers_raw _ _)), State.inc, State.incBy, reg_put_ne _ _ _ htr, reg_put_ne _ _ _ hstat]

end Sys2Proof.Machine

end

section
/-! Capability sets (O45). -/

set_option Elab.async false

namespace Sys2Proof.Machine

/-- The record of a lane after a capability set that came in, valid or not (R90, R94, R96). -/
def Lane.heard (a : Lane) (bs : List Byte) (ok : Bool) : Lane :=
  (({ a with lfsr := 0xFFFF, capSent := if 0 < a.capSent || ok then a.capSent + 1 else 0 } : Lane).goodSet (capSet bs)).feed 20 0

/-- A capability set comes in and one goes out (R94). -/
def State.hearCap (s : State) (l : Nat) (bs : List Byte) (ok : Bool) : State := (s.onLane l fun a => a.heard bs ok).sendCap l

/-- The count of the valid sets with seen that were alike (R94). -/
def Lane.matched (a : Lane) (bs : List Byte) (seen : Bool) : Lane :=
  { a with capN := if !seen then 0 else if a.capLast = bs then a.capN + 1 else 1, capLast := if seen then bs else [] }

/-- LNK_CAPRX0 to LNK_CAPRX2 take a capability set (R94). -/
def State.keepCap (s : State) (l : Nat) (bs : List Byte) : State :=
  (List.range 3).foldl (fun t k => t.setRegN (R.LNK_CAPRX l k) (leNat ((bs.drop (4 * k)).take 4))) s

section

variable {l : Fin 4} {set : Vector Byte 16} {bs : List Byte} {s : State} (h3 : s.laneState l = 3) (hbs : bs = set.toList)
include h3 hbs

theorem exec_capSet_invalid (h : ¬ (crcLink (bs.take 12) = leNat (bs.drop 12) ∧ (bs.getD 0 0).toNat = 1)) :
    exec (.capSetReceive l set) s = .next (s.hearCap l bs false) := by
  subst hbs
  have hok : (crcLink (set.toList.take 12) == leNat (set.toList.drop 12) && (set.toList.getD 0 0).toNat == 1) = false := by
    rw [Bool.eq_false_iff]
    simpa using h
  show execCapSetReceive l set s = _
  unfold execCapSetReceive
  simp only [h3, hok, if_true, Bool.not_false]
  rfl

theorem exec_capSet_valid (h : crcLink (bs.take 12) = leNat (bs.drop 12) ∧ (bs.getD 0 0).toNat = 1) :
    exec (.capSetReceive l set) s = .next (
      let b := fun i => (bs.getD i 0).toNat
      let u := (s.hearCap l bs true).comparePair b
      match u.capCheck l b with
      | .inl reason => u.trainFail l reason
      | .inr e =>
        let v := u.onLane l fun a => a.matched bs (bits (b 8) 2 1 == 1)
        if 4 ≤ (v.lane l).capN ∧ 8 ≤ (v.lane l).capSent then ((v.keepCap l bs).put (F.LNK_STAT_end l) e).toActive l else v) := by
  subst hbs
  have hok : (crcLink (set.toList.take 12) == leNat (set.toList.drop 12) && (set.toList.getD 0 0).toNat == 1) = true := by
    simpa using h
  show execCapSetReceive l set s = _
  unfold execCapSetReceive
  simp only [h3, hok, if_true, Bool.not_true]
  rfl

end

/-- Two states agree in what a lane's own capability set and its check of a far end's are made of (R94). -/
structure CapAlike (l : Nat) (s t : State) : Prop where
  word : ∀ a, a ≠ R.AXO_STAT → t.reg a = s.reg a
  rate : t.link.rate = s.link.rate
  scr : (t.lane l).scrOff = (s.lane l).scrOff
  up : (t.lane l).hostUp = (s.lane l).hostUp

theorem CapAlike.trans {l : Nat} {s t u : State} (h : CapAlike l s t) (k : CapAlike l t u) : CapAlike l s u :=
  ⟨fun a ha => (k.word a ha).trans (h.word a ha), k.rate.trans h.rate, k.scr.trans h.scr, k.up.trans h.up⟩

section

variable {l : Nat} {s t : State} (h : CapAlike l s t)
include h

theorem CapAlike.get {f : Fld} (hf : f.addr ≠ R.AXO_STAT) : t.get f = s.get f := by rw [State.get, h.word _ hf, State.get]

theorem CapAlike.role (n : Nat) {f : Fld} (hf : f.addr = R.LNK_ROLE n) : t.get f = s.get f :=
  h.get (by rw [hf]; unfold R.LNK_ROLE lnkAddr R.AXO_STAT; omega)

theorem CapAlike.bonded (k : Nat) : t.bonded k = s.bonded k := by
  rw [State.bonded, State.on, h.role (lowerLane k) rfl, State.bonded, State.on]

theorem CapAlike.capByte2 : t.capByte2 l = s.capByte2 l := by
  rw [State.capByte2, h.bonded, h.scr, h.rate, State.capByte2]

theorem CapAlike.capEnd : t.capEnd l = s.capEnd l := by
  have hlane : t.roleLane l = s.roleLane l := by rw [State.roleLane, h.bonded, State.roleLane]
  have hrole : t.laneRole l = s.laneRole l := by rw [State.laneRole, hlane, h.role (s.roleLane l) rfl, State.laneRole]
  rw [State.capEnd, hrole, hlane, h.role (s.roleLane l) rfl, State.capEnd]

theorem CapAlike.id0 : t.regN R.SYS_ID0 = s.regN R.SYS_ID0 := congrArg BitVec.toNat (h.word _ (by decide))

theorem CapAlike.capCheck (b : Nat → Nat) : t.capCheck l b = s.capCheck l b := by
  unfold State.capCheck
  rw [h.capByte2, h.capEnd, h.up, h.id0]

theorem CapAlike.capOwn (hn : 0 < (t.lane l).capSent ↔ 0 < (s.lane l).capSent) : t.capOwn l = s.capOwn l := by
  unfold State.capOwn
  rw [h.get (f := F.AXO_CFG_pair) (by decide), h.get (f := F.SYS_STAT_role_pin) (by decide), h.capByte2, h.capEnd, h.up, h.id0,
    if_congr hn rfl rfl]

end

theorem capAlike_onLane (s : State) (l : Nat) (f : Lane → Lane) (hs : ∀ a, (f a).scrOff = a.scrOff) (hu : ∀ a, (f a).hostUp = a.hostUp) :
    CapAlike l s (s.onLane l f) where
  word a _ := reg_congr (onLane_regs ..) a
  rate := by unfold State.onLane; split <;> rfl
  scr := lane_onLane_part Lane.scrOff s l l f hs
  up := lane_onLane_part Lane.hostUp s l l f hu

theorem capAlike_comparePair (s : State) (l : Nat) (b : Nat → Nat) : CapAlike l s (s.comparePair b) := by
  have hlink : (s.comparePair b).link = s.link := (State.comparePair_only s b).link (by decide)
  refine ⟨fun a ha => ?_, by rw [hlink], by rw [lane_congr hlink], by rw [lane_congr hlink]⟩
  unfold State.comparePair
  split
  · exact reg_put_ne _ _ _ ha
  · rfl

/-- One set out, and the record of the lane, after a set in. -/
theorem hearCap_shows (s : State) (l : Fin 4) (bs : List Byte) (ok : Bool) :
    (s.hearCap l bs ok).regs = s.regs ∧ CapAlike l s (s.hearCap l bs ok) ∧
      ((s.hearCap l bs ok).lane l).capN = (s.lane l).capN ∧ ((s.hearCap l bs ok).lane l).capLast = (s.lane l).capLast ∧
      ((s.hearCap l bs ok).lane l).capSent = (if 0 < (s.lane l).capSent || ok then (s.lane l).capSent + 1 else 0) ∧
      (s.hearCap l bs ok).out = .ordered l 3 (capSet ((s.hearCap l bs ok).capOwn l)) :: s.out := by
  have hlane : (s.hearCap l bs ok).lane l = { (s.lane l).heard bs ok with txLfsr := 0xFFFF } := by
    rw [State.hearCap, State.sendCap, emit_lane, lane_onLane_fin, lane_onLane_fin]
  have hsent (u : State) : CapAlike l u (u.sendCap l) := by
    obtain ⟨hw, hr, hsc, hu⟩ := capAlike_onLane u l (fun a => { a with txLfsr := 0xFFFF }) (fun _ => rfl) (fun _ => rfl)
    exact ⟨hw, hr, hsc, hu⟩
  have hheard : CapAlike l s (s.onLane l fun a => a.heard bs ok) := capAlike_onLane _ _ _ (fun _ => rfl) (fun _ => rfl)
  refine ⟨?_, hheard.trans (hsent _), by rw [hlane]; rfl, by rw [hlane]; rfl, by rw [hlane]; rfl, ?_⟩
  · rw [State.hearCap, State.sendCap, emit_regs, onLane_regs, onLane_regs]
  · have hown : (s.hearCap l bs ok).capOwn l = (s.onLane l fun a => a.heard bs ok).capOwn l := by
      refine (hsent _).capOwn ?_
      rw [← State.hearCap, hlane, lane_onLane_fin]
    rw [hown, State.hearCap, State.sendCap, emit_out, onLane_out, onLane_out]

theorem hearCap_only (s : State) (l : Nat) (bs : List Byte) (ok : Bool) : Only (P.link ||| P.out) s (s.hearCap l bs ok) :=
  .comp (.comp (.refl ..) (State.onLane_only ..)) (State.sendCap_only ..)

/-- The reasons for which a capability set fails the check, and the ends to which one resolves (R94, R95). -/
theorem resolveEnd_range {host myUp theirUp : Bool} {mine theirs myId theirId e : Nat}
    (h : resolveEnd host mine theirs myUp theirUp myId theirId = some e) : e < 4 := by
  unfold resolveEnd at h
  grind

theorem capCheck_range (s : State) (l : Nat) (b : Nat → Nat) :
    (∀ r, s.capCheck l b = .inl r → r < 16) ∧ ∀ e, s.capCheck l b = .inr e → e < 4 := by
  unfold State.capCheck
  dsimp only
  split
  · exact ⟨fun r h => by cases h; decide, fun e h => by cases h⟩
  split
  · exact ⟨fun r h => by cases h; decide, fun e h => by cases h⟩
  split
  · exact ⟨fun r h => by cases h; decide, fun e h => by cases h⟩
  split
  · exact ⟨fun r h => by cases h; decide, fun e h => by cases h⟩
  split
  · next he => exact ⟨fun r h => (nomatch h), fun e h => Sum.inr.inj h ▸ resolveEnd_range he⟩
  · exact ⟨fun r h => by cases h; decide, fun e h => by cases h⟩

/-- A valid set has been answered and its pair setting compared (R94, R436). -/
def State.tookCap (s : State) (l : Nat) (bs : List Byte) : State := (s.hearCap l bs true).comparePair fun i => (bs.getD i 0).toNat

theorem tookCap_only (s : State) (l : Nat) (bs : List Byte) : Only (P.link ||| P.out ||| P.pgAxo) s (s.tookCap l bs) :=
  .comp (hearCap_only ..).mono (State.comparePair_only ..)

theorem tookCap_alike (s : State) (l : Fin 4) (bs : List Byte) : CapAlike l s (s.tookCap l bs) :=
  (hearCap_shows s l bs true).2.1.trans (capAlike_comparePair ..)

theorem tookCap_lane (s : State) (l : Nat) (bs : List Byte) : (s.tookCap l bs).lane l = (s.hearCap l bs true).lane l :=
  lane_congr ((State.comparePair_only ..).link (by decide)) l

theorem tookCap_out (s : State) (l : Nat) (bs : List Byte) : (s.tookCap l bs).out = (s.hearCap l bs true).out :=
  (State.comparePair_only ..).out (by decide)

theorem tookCap_cfgmis (s : State) (l : Fin 4) (bs : List Byte) : (s.tookCap l bs).get F.AXO_STAT_cfgmis =
    if (bs.getD 1 0).toNat = 1 ∧ bits (bs.getD 8 0).toNat 0 1 ≠ s.get F.AXO_CFG_pair then 1 else s.get F.AXO_STAT_cfgmis := by
  have hregs := (hearCap_shows s l bs true).1
  unfold State.tookCap State.comparePair
  rw [get_congr hregs F.AXO_CFG_pair]
  split
  · exact get_put_same _ _ _ (by decide)
  · exact get_congr hregs _

/-- The state that holds the count of a valid set (R94). -/
def State.countCap (s : State) (l : Nat) (bs : List Byte) : State :=
  (s.tookCap l bs).onLane l fun a => a.matched bs (bits (bs.getD 8 0).toNat 2 1 == 1)

theorem countCap_only (s : State) (l : Nat) (bs : List Byte) : Only (P.link ||| P.out ||| P.pgAxo) s (s.countCap l bs) :=
  .comp (tookCap_only ..) (State.onLane_only ..)

theorem countCap_lane (s : State) (l : Fin 4) (bs : List Byte) :
    ((s.countCap l bs).lane l).capN = (if bits (bs.getD 8 0).toNat 2 1 = 1 then
        (if (s.lane l).capLast = bs then (s.lane l).capN + 1 else 1) else 0) ∧
      ((s.countCap l bs).lane l).capLast = (if bits (bs.getD 8 0).toNat 2 1 = 1 then bs else []) ∧
      ((s.countCap l bs).lane l).capSent = (s.lane l).capSent + 1 := by
  obtain ⟨-, -, hn, hlast, hsent, -⟩ := hearCap_shows s l bs true
  rw [State.countCap, lane_onLane_fin, tookCap_lane]
  refine ⟨?_, ?_, ?_⟩
  · show (if (!(bits (bs.getD 8 0).toNat 2 1 == 1)) = true then _ else _) = _
    rw [hn, hlast]
    split <;> simp_all
  · show (if (bits (bs.getD 8 0).toNat 2 1 == 1) = true then _ else _) = _
    simp only [beq_iff_eq]
  · show ((s.hearCap l bs true).lane l).capSent = _
    rw [hsent, Bool.or_true, if_pos rfl]

/-- The set that went out is the lane's own, as it stands after the count. -/
theorem countCap_out (s : State) (l : Fin 4) (bs : List Byte) :
    (s.countCap l bs).out = .ordered l 3 (capSet ((s.countCap l bs).capOwn l)) :: s.out := by
  obtain ⟨-, -, -, -, hsent, hout⟩ := hearCap_shows s l bs true
  have halike : CapAlike l (s.hearCap l bs true) (s.countCap l bs) :=
    (capAlike_comparePair ..).trans (capAlike_onLane _ _ _ (fun _ => rfl) fun _ => rfl)
  have hown : (s.countCap l bs).capOwn l = (s.hearCap l bs true).capOwn l := by
    refine halike.capOwn ?_
    rw [(countCap_lane s l bs).2.2, hsent, Bool.or_true, if_pos rfl]
  rw [hown, State.countCap, onLane_out, tookCap_out, hout]

section

variable {l : Fin 4} {set : Vector Byte 16} {bs : List Byte} {s : State} (h3 : s.laneState l = 3) (hbs : bs = set.toList)
  (hv : crcLink (bs.take 12) = leNat (bs.drop 12) ∧ (bs.getD 0 0).toNat = 1)
include h3 hbs hv

theorem exec_capSet_fails {reason : Nat} (hc : s.capCheck l (fun i => (bs.getD i 0).toNat) = .inl reason) :
    exec (.capSetReceive l set) s = .next ((s.tookCap l bs).trainFail l reason) := by
  have hu : (s.tookCap l bs).capCheck l (fun i => (bs.getD i 0).toNat) = .inl reason := ((tookCap_alike s l bs).capCheck _).trans hc
  rw [State.tookCap] at hu
  rw [exec_capSet_valid h3 hbs hv]
  simp only [hu]
  rfl

theorem exec_capSet_counts {e : Nat} (hc : s.capCheck l (fun i => (bs.getD i 0).toNat) = .inr e) :
    exec (.capSetReceive l set) s = .next (if 4 ≤ ((s.countCap l bs).lane l).capN ∧ 8 ≤ ((s.countCap l bs).lane l).capSent then
      (((s.countCap l bs).keepCap l bs).put (F.LNK_STAT_end l) e).toActive l else s.countCap l bs) := by
  have hu : (s.tookCap l bs).capCheck l (fun i => (bs.getD i 0).toNat) = .inr e := ((tookCap_alike s l bs).capCheck _).trans hc
  rw [State.tookCap] at hu
  rw [exec_capSet_valid h3 hbs hv]
  simp only [hu]
  rfl

end

/-- LNK_CAPRX0 to LNK_CAPRX2 hold the set and no other word changes (R94). -/
theorem keepCap_shows (s : State) (l : Nat) (bs : List Byte) :
    (∀ k : Fin 3, (s.keepCap l bs).reg (R.LNK_CAPRX l k) = BitVec.ofNat 32 (leNat ((bs.drop (4 * k)).take 4))) ∧
      ∀ a, (∀ k, a ≠ R.LNK_CAPRX l k) → (s.keepCap l bs).reg a = s.reg a := by
  refine ⟨fun k => foldl_setRegN_reg s (R.LNK_CAPRX l) (fun i => leNat ((bs.drop (4 * i)).take 4)) k.isLt fun i hi he => ?_,
    fun a ha => foldl_setRegN_reg_ne s (R.LNK_CAPRX l) _ 3 ha⟩
  have hk := k.isLt
  rw [R.LNK_CAPRX, R.LNK_CAPRX] at he
  omega

theorem keepCap_get (s : State) (l : Nat) (bs : List Byte) {k lo w : Nat} (hk : k < 0x54 ∨ 0x60 ≤ k) :
    (s.keepCap l bs).get ⟨lnkAddr l + k, lo, w⟩ = s.get ⟨lnkAddr l + k, lo, w⟩ := by
  have hreg : (s.keepCap l bs).reg (lnkAddr l + k) = s.reg (lnkAddr l + k) :=
    (keepCap_shows s l bs).2 _ fun j => by rw [R.LNK_CAPRX]; omega
  rw [State.get, hreg, State.get]

/-- Settles O45: the set is answered, then checked, counted and, the fourth time, accepted. -/
theorem laneAgrees : Obligations.LaneAgrees := by
  intro l set bs s h3 hbs
  dsimp only
  refine ⟨fun hv => ?_, fun reason hv hc => ?_, fun e hv hc hseen hlast hn hsent => ?_, fun e n hv hc hn hless => ?_⟩
  · obtain ⟨hregs, -, hn, hlast, -, hout⟩ := hearCap_shows s l bs false
    exact ⟨_, exec_capSet_invalid h3 hbs hv, hearCap_only .., (get_congr hregs _).trans h3, hn, hlast, hout⟩
  · obtain ⟨hstate, hreason, hfails, -, hout⟩ := trainFail_shows (s.tookCap l bs) l.isLt ((capCheck_range s l _).1 reason hc)
    obtain ⟨-, -, -, -, -, hset⟩ := hearCap_shows s l bs true
    refine ⟨_, exec_capSet_fails h3 hbs hv hc, .comp (tookCap_only ..).mono (State.trainFail_only ..), hstate, hreason, hfails.trans ?_,
      capSet ((s.hearCap l bs true).capOwn l), hout.trans ?_⟩
    · rw [(tookCap_only s l bs).get leaves_lnk]
    · rw [tookCap_out, hset]
  · obtain ⟨hcn, -, hcs⟩ := countCap_lane s l bs
    have hx := exec_capSet_counts h3 hbs hv hc
    rw [hcn, hcs, if_pos hseen, if_pos hlast, if_pos ⟨by omega, by omega⟩] at hx
    obtain ⟨hstate, hfails, hact, hbucket, hend, hcap⟩ := toActive_shows (((s.countCap l bs).keepCap l bs).put (F.LNK_STAT_end l) e) l.isLt
    refine ⟨_, hx, execCapSetReceive_only l set s hx, hstate, hend.trans ?_, hfails, hact.trans ?_, hbucket, fun k => (hcap k).trans ?_⟩
    · exact (get_put_same _ (F.LNK_STAT_end l) e (show 20 + 2 ≤ 32 by decide)).trans
        (Nat.mod_eq_of_lt ((capCheck_range s l _).2 e hc))
    · have hkeep : ((s.countCap l bs).keepCap l bs).get (F.LNK_TRCNT_act l) = (s.countCap l bs).get (F.LNK_TRCNT_act l) :=
        keepCap_get _ _ _ (.inr (by decide))
      have hput : (((s.countCap l bs).keepCap l bs).put (F.LNK_STAT_end l) e).get (F.LNK_TRCNT_act l) =
          ((s.countCap l bs).keepCap l bs).get (F.LNK_TRCNT_act l) := get_put_apart _ _ _ _ (apart_lnk rfl rfl rfl)
      rw [State.plusOne, hput, hkeep, (countCap_only s l bs).get leaves_lnk, State.plusOne]
    · rw [reg_put_ne _ _ _ (by rw [R.LNK_CAPRX]; show _ ≠ lnkAddr l + 0x50; omega)]
      exact (keepCap_shows ..).1 k
  · obtain ⟨hcn, hcl, hcs⟩ := countCap_lane s l bs
    have hx := exec_capSet_counts h3 hbs hv hc
    rw [hcn, hcs, ← hn, if_neg (by omega)] at hx
    refine ⟨_, hx, countCap_only .., ?_, ?_, hcn.trans hn.symm, hcl, hcs, countCap_out ..⟩
    · rw [State.laneState, (countCap_only s l bs).get leaves_lnk]; exact h3
    · rw [State.countCap, onLane_get, tookCap_cfgmis]

end Sys2Proof.Machine

end

section
/-! What a step at one lane leaves of the register file (R87, R93, R96). -/

set_option Elab.async false

namespace Sys2Proof.Machine

/-- A word in which the state machine of lane `l` shows nothing: not its state nor its eye operation, no event, not the host position and
not the count of dropped returns. -/
def besideLane (l a : Nat) : Prop :=
  (a ≠ R.LNK_STAT l ∧ a ≠ R.LNK_EYECTL l ∧ a ≠ R.LNK_EYESTAT l) ∧ (a ≠ R.PKT_POS ∧ a ≠ R.PKT_OVR) ∧ a % 0x1000 ≠ 0x10

theorem not_besideLane_stat (l : Nat) : ¬besideLane l (R.LNK_STAT l) := fun h => h.1.1 rfl

theorem not_besideLane_eyeCtl (l : Nat) : ¬besideLane l (R.LNK_EYECTL l) := fun h => h.1.2.1 rfl

theorem not_besideLane_eyeStat (l : Nat) : ¬besideLane l (R.LNK_EYESTAT l) := fun h => h.1.2.2 rfl

theorem not_besideLane_pos (l : Nat) : ¬besideLane l R.PKT_POS := fun h => h.2.1.1 rfl

theorem not_besideLane_ovr (l : Nat) : ¬besideLane l R.PKT_OVR := fun h => h.2.1.2 rfl

theorem not_besideLane_raw (l p : Nat) : ¬besideLane l (R.PIRQ_RAW p) := fun h => h.2.2 (by rw [R.PIRQ_RAW, pageAddr]; omega)

theorem setLane_beside (s : State) (l st : Nat) : Keeps (besideLane l) s (s.setLane l st) :=
  .flag (.flag (.put (.refl ..) (not_besideLane_stat l)) (not_besideLane_pos l)) (not_besideLane_pos l)

theorem eyeAbort_beside (s : State) (l : Nat) : Keeps (besideLane l) s (s.eyeAbort l) := by
  unfold State.eyeAbort
  dsimp only
  refine .comp (.put (.refl ..) (not_besideLane_eyeCtl l)) (.ite ?_ (.refl ..))
  refine .event (.same (.put (.put (.put (.refl ..) ?_) ?_) ?_) (onLane_regs ..)) (not_besideLane_raw _ _) <;> exact not_besideLane_eyeStat l

theorem toExit_beside (s : State) (l : Nat) (failed : Bool) : Keeps (besideLane l) s (s.toExit l failed) := by
  have habort : Keeps (besideLane l) s ((s.emit (.ordered l 6 eiosSet)).eyeAbort l) :=
    .comp (.same (.refl ..) (emit_regs ..)) (eyeAbort_beside ..)
  unfold State.toExit
  dsimp only
  exact .comp (.same habort (onLane_regs ..)) (setLane_beside ..)

theorem dropReturns_beside (s : State) (l : Nat) : Keeps (besideLane l) s s.dropReturns := by
  unfold State.dropReturns
  refine .ite (.refl ..) (.same (t := (s.incBy F.PKT_OVR_ret s.link.ret.length).event 8 5) ?_ rfl)
  exact .event (.put (.refl ..) (not_besideLane_ovr l)) (not_besideLane_raw _ _)

theorem leaveActive_beside (s : State) (l cause : Nat) : Keeps (besideLane l) s (s.leaveActive l cause) := by
  have hreason {u : State} : Keeps (besideLane l) u (u.put (F.LNK_STAT_xreason l) cause) := .put (.refl ..) (not_besideLane_stat l)
  unfold State.leaveActive
  dsimp only
  exact .ite (.comp (.comp (.event (.comp (.same (.refl ..) (onLane_regs ..)) hreason) (not_besideLane_raw _ _)) (toExit_beside ..))
    (dropReturns_beside ..)) (.refl ..)

/-- A word of lane `n`'s page past the page's header. -/
def laneWord (n a : Nat) : Prop := ∃ k, a = lnkAddr n + k ∧ 0x40 ≤ k ∧ k < 0x1000

theorem not_laneWord_raw (p n : Nat) : ¬laneWord n (R.PIRQ_RAW p) := by
  rintro ⟨k, hk, h40, h1000⟩
  simp only [R.PIRQ_RAW, pageAddr, lnkAddr] at hk
  omega

/-- The page of another lane holds other words. -/
theorem not_laneWord_other {l n : Nat} (hl : l < 4) (hn : n < 4) (hne : l ≠ n) {k : Nat} (hk : k < 0x1000) : ¬laneWord n (lnkAddr l + k) := by
  rintro ⟨j, hj, -, hj'⟩
  simp only [lnkAddr, Nat.mod_eq_of_lt hl, Nat.mod_eq_of_lt hn] at hj
  omega

theorem laneWord.beside {l n a : Nat} (hl : l < 4) (hn : n < 4) (hne : l ≠ n) (ha : laneWord n a) : besideLane l a := by
  have hother {k : Nat} (hk : k < 0x1000) : a ≠ lnkAddr l + k := fun h => not_laneWord_other hl hn hne hk (h ▸ ha)
  obtain ⟨k, rfl, h40, h1000⟩ := ha
  refine ⟨⟨hother (by decide), hother (by decide), hother (by decide)⟩, ⟨?_, ?_⟩, ?_⟩
  · simp only [lnkAddr, Nat.mod_eq_of_lt hn]; show _ ≠ 0x8048; omega
  · simp only [lnkAddr, Nat.mod_eq_of_lt hn]; show _ ≠ 0x8054; omega
  · simp only [lnkAddr, Nat.mod_eq_of_lt hn]; omega

/-- A field of a lane's page that a step leaves. -/
theorem Keeps.laneGet {n k lo w : Nat} {f : Fld} {s t : State} (h : Keeps (laneWord n) s t) (hf : f = ⟨lnkAddr n + k, lo, w⟩)
    (hk : (Nat.ble 0x40 k && Nat.blt k 0x1000) = true) : t.get f = s.get f := by
  subst hf
  simp only [Bool.and_eq_true, Nat.ble_eq, Nat.blt_eq] at hk
  exact h.get ⟨k, rfl, hk⟩

/-- What a step at one lane leaves of another lane's page. -/
theorem Keeps.ofBeside {l n : Nat} {s t : State} (h : Keeps (besideLane l) s t) (hl : l < 4) (hn : n < 4) (hne : l ≠ n) :
    Keeps (laneWord n) s t := h.mono fun _ ha => ha.beside hl hn hne

end Sys2Proof.Machine

end

section
/-! Skip sets, BND sets and the elastic buffer (O46). -/

set_option Elab.async false

namespace Sys2Proof.Machine

/-- A lane's record after a skip set or BND set that it sent (R92, R97). -/
def Lane.sentSet (a : Lane) (bnd : Bool) : Lane :=
  { a with sets := a.sets + 1, bndSent := a.bndSent || bnd, txLfsr := if bnd then 0xFFFF else a.txLfsr }

/-- The same set leaves on the lanes of a list (R99). -/
def State.setOn (s : State) (on : List Nat) (bnd : Bool) (o : Nat → Out) : State :=
  on.foldl (fun t k => (t.onLane k fun a => a.sentSet bnd).emit (o k)) s

theorem setOn_out (s : State) (on : List Nat) (bnd : Bool) (o : Nat → Out) : (s.setOn on bnd o).out = (on.map o).reverse ++ s.out := by
  induction on generalizing s with
  | nil => rfl
  | cons k r ih =>
    show (State.setOn _ r bnd o).out = _
    rw [ih, emit_out, onLane_out, List.map_cons, List.reverse_cons, List.append_assoc, List.singleton_append]

theorem setOn_regs (s : State) (on : List Nat) (bnd : Bool) (o : Nat → Out) : (s.setOn on bnd o).regs = s.regs :=
  List.foldlRecOn (motive := fun u : State => u.regs = s.regs) on _ rfl fun _ hu _ _ => (onLane_regs ..).trans hu

theorem setOn_only (s : State) (on : List Nat) (bnd : Bool) (o : Nat → Out) : Only (P.link ||| P.out) s (s.setOn on bnd o) :=
  .foldl (.refl ..) fun _ _ => .comp (.comp (.refl ..) (State.onLane_only ..)) (State.emit_only ..)

theorem setOn_lane (s : State) {on : List Nat} (hn : on.Nodup) (bnd : Bool) (o : Nat → Out) {k : Nat} (hk : k ∈ on) (h4 : k < 4) :
    (s.setOn on bnd o).lane k = (s.lane k).sentSet bnd :=
  foldl_once (fun u => u.lane k) (fun a => a.sentSet bnd) s hk hn (fun u => lane_onLane u h4 _)
    fun u _ _ hne => lane_onLane_ne u (Ne.symm hne) _

/-- A packet that leaves changes no record but in the transmit scrambler, and only adds to what was sent (R92). -/
theorem sendWord_part {α : Type} (g : Lane → α) (hg : ∀ (a : Lane) f, g { a with txLfsr := f } = g a) (s : State) (l : Nat)
    (w : List (Bool × Nat)) (k : Nat) : g ((s.sendWord l w).lane k) = g (s.lane k) := by
  unfold State.sendWord
  split
  · rfl
  · exact lane_onLane_part g s l k _ fun a => hg a _

theorem sendPacket_part {α : Type} (g : Lane → α) (hg : ∀ (a : Lane) f, g { a with txLfsr := f } = g a) (s : State) (l typ hdr : Nat)
    (body : List Byte) (k : Nat) : g ((s.sendPacket l typ hdr body).lane k) = g (s.lane k) := by
  unfold State.sendPacket
  dsimp only
  rw [emit_lane]
  exact List.foldlRecOn (motive := fun u : State => g (u.lane k) = g (s.lane k)) _ _ rfl
    fun u hu e _ => (sendWord_part g hg u _ e.1 k).trans hu

theorem sendWord_out (s : State) (l : Nat) (w : List (Bool × Nat)) : ∃ os, (s.sendWord l w).out = os ++ s.out := by
  unfold State.sendWord
  split
  · exact ⟨[_], rfl⟩
  · exact ⟨[_], congrArg (List.cons _) (onLane_out ..)⟩

/-- Steps that each only add to what was sent. -/
theorem foldl_out {α : Type} {f : State → α → State} (hf : ∀ u x, ∃ os, (f u x).out = os ++ u.out) (xs : List α) (s : State) :
    ∃ os, (xs.foldl f s).out = os ++ s.out :=
  List.foldlRecOn (motive := fun u : State => ∃ os, u.out = os ++ s.out) xs f ⟨[], rfl⟩ fun u hu x _ => by
    obtain ⟨os, hos⟩ := hu
    obtain ⟨ps, hps⟩ := hf u x
    exact ⟨ps ++ os, by rw [hps, hos, List.append_assoc]⟩

theorem sendPacket_out (s : State) (l typ hdr : Nat) (body : List Byte) : ∃ os, (s.sendPacket l typ hdr body).out = os ++ s.out := by
  obtain ⟨os, hos⟩ := foldl_out (fun (t : State) (e : List (Bool × Nat) × Nat) => sendWord_out t
    ((s.txLanes l).getD (e.2 % max 1 (s.txLanes l).length) l) e.1) (wordsOf (packetSyms typ hdr body)).zipIdx s
  exact ⟨.packet l typ hdr body :: os, congrArg (List.cons _) hos⟩

/-- The packets stored for the host link leave the store where the link is that of the host path (R117). -/
def State.takeStored (s : State) (host : Bool) : State := if host then { s with link := { s.link with ret := [] } } else s

theorem takeStored_lane (s : State) (host : Bool) (k : Nat) : (s.takeStored host).lane k = s.lane k := by
  unfold State.takeStored; split <;> rfl

theorem takeStored_out (s : State) (host : Bool) : (s.takeStored host).out = s.out := by
  unfold State.takeStored; split <;> rfl

/-- The packets of a link that wait leave it: none waits then (R100). -/
theorem flushLink_eq (s : State) (l : Nat) : ∃ (es : List (Nat × Nat × List Byte)) (host : Bool),
    s.flushLink l = es.foldl (fun t e => t.sendPacket l e.1 e.2.1 e.2.2)
      ((s.onLane (s.linkLow l) fun a => { a with txWait := [] }).takeStored host) := ⟨_, _, rfl⟩

theorem flushLink_out (s : State) (l : Nat) : ∃ os, (s.flushLink l).out = os ++ s.out := by
  obtain ⟨es, host, he⟩ := flushLink_eq s l
  obtain ⟨os, hos⟩ := foldl_out (fun t (e : Nat × Nat × List Byte) => sendPacket_out t l e.1 e.2.1 e.2.2) es
    ((s.onLane (s.linkLow l) fun a => { a with txWait := [] }).takeStored host)
  exact ⟨os, by rw [he, hos, takeStored_out, onLane_out]⟩

theorem flushLink_lane {α : Type} (g : Lane → α) (hg : ∀ (a : Lane) f, g { a with txLfsr := f } = g a) (s : State) (l k : Nat) :
    g ((s.flushLink l).lane k) = g ((s.onLane (s.linkLow l) fun a => { a with txWait := [] }).lane k) := by
  obtain ⟨es, host, he⟩ := flushLink_eq s l
  rw [he]
  exact List.foldlRecOn (motive := fun v : State => g (v.lane k) = _) es _ (congrArg g (takeStored_lane ..))
    fun v hv e _ => (sendPacket_part g hg v l _ _ _ k).trans hv

theorem bonded_of_regs {s t : State} (h : ∀ n, t.get (F.LNK_ROLE_bond n) = s.get (F.LNK_ROLE_bond n)) (l : Nat) : t.bonded l = s.bonded l := by
  rw [State.bonded, State.on, h, State.bonded, State.on]

theorem linkLow_of_regs {s t : State} (h : ∀ n, t.get (F.LNK_ROLE_bond n) = s.get (F.LNK_ROLE_bond n)) (l : Nat) : t.linkLow l = s.linkLow l := by
  rw [State.linkLow, bonded_of_regs h, State.linkLow]

theorem linkLow_lt (s : State) (l : Fin 4) : s.linkLow l < 4 := by
  have hl := l.isLt
  unfold State.linkLow lowerLane
  split <;> omega

theorem linkLanes_nodup (s : State) (l : Nat) : (s.linkLanes l).Nodup := by
  unfold State.linkLanes
  split <;> simp

theorem linkLanes_lt (s : State) (l : Fin 4) {k : Nat} (hk : k ∈ s.linkLanes l) : k < 4 := by
  have hl := l.isLt
  unfold State.linkLanes lowerLane at hk
  split at hk
  · simp only [List.mem_cons, List.not_mem_nil, or_false] at hk
    omega
  · exact List.mem_singleton.mp hk ▸ hl

theorem txMask_lt (s : State) (l : Nat) : s.txMask l < 4 := by
  unfold State.txMask
  grind

end Sys2Proof.Machine

end

section
/-! What the commands of skip sets, BND sets and the elastic buffer do (O46). -/

set_option Elab.async false

namespace Sys2Proof.Machine

/-- A width in force follows a mask (R99, R100). -/
def State.showWidth (s : State) (f : Fld) (low m : Nat) : State :=
  if low % 2 = 0 ∧ s.get f ≠ m then (s.put f m).event (4 + low) 8 else s

theorem showWidth_link (s : State) (f : Fld) (low m : Nat) : (s.showWidth f low m).link = s.link := by unfold State.showWidth; split <;> rfl

theorem showWidth_out (s : State) (f : Fld) (low m : Nat) : (s.showWidth f low m).out = s.out := by unfold State.showWidth; split <;> rfl

theorem showWidth_same (s : State) {f : Fld} {n k lo low m : Nat} (hf : f = ⟨lnkAddr n + k, lo, 2⟩)
    (h : (Nat.ble (lo + 2) 32 && Nat.ble 0x40 k && Nat.blt k 0x1000) = true) (hm : m < 4) (hlow : low % 2 = 0) :
    (s.showWidth f low m).get f = m := by
  simp only [Bool.and_eq_true, Nat.ble_eq, Nat.blt_eq] at h
  obtain ⟨⟨h32, h40⟩, h1000⟩ := h
  subst hf
  unfold State.showWidth
  split
  · rw [(Keeps.event (.refl ..) (not_laneWord_raw _ n) : Keeps (laneWord n) _ _).get ⟨k, rfl, h40, h1000⟩,
      get_put_same _ _ _ (show lo + 2 ≤ 32 from h32)]
    exact Nat.mod_eq_of_lt hm
  · next hn => exact Decidable.byContradiction fun hne => hn ⟨hlow, hne⟩

theorem showWidth_apart (s : State) {f g : Fld} {low m : Nat} (ha : f.apart g = true) (hr : g.addr % 0x1000 ≠ 0x10) :
    (s.showWidth f low m).get g = s.get g := by
  unfold State.showWidth
  split
  · rw [event_get _ hr, get_put_apart _ _ _ _ ha]
  · rfl

theorem sendSet_skip (s : State) (l : Nat) :
    s.sendSet l false = s.setOn ((s.linkLanes l).filter s.active) false fun k => .ordered k 4 skipSet := rfl

/-- The number of a link's next BND set (R100). -/
def Lane.numbered (a : Lane) (n : Nat) : Lane := { a with bndSeq := n }

/-- The BND set that a link sends is numbered and its width shown, then the packets that waited leave (R99, R100). -/
def State.numberBnd (s : State) (l : Nat) : State :=
  ((s.setOn ((s.linkLanes l).filter s.active) true fun k => .ordered k 5 (bndSet (s.txMask l) (s.lane (s.linkLow l)).bndSeq)).onLane
    (s.linkLow l) fun a => a.numbered (((s.lane (s.linkLow l)).bndSeq + 1) % 256)).showWidth (F.LNK_STAT_txw (s.linkLow l))
      (s.linkLow l) (s.txMask l)

theorem Lane.numbered_sets (n : Nat) (a : Lane) : (a.numbered n).sets = a.sets := rfl

theorem Lane.numbered_bndSent (n : Nat) (a : Lane) : (a.numbered n).bndSent = a.bndSent := rfl

theorem sendSet_bnd (s : State) (l : Nat) : s.sendSet l true = (s.numberBnd l).flushLink l := rfl

theorem numberBnd_role (s : State) (l n : Nat) : (s.numberBnd l).get (F.LNK_ROLE_bond n) = s.get (F.LNK_ROLE_bond n) := by
  have hr : (F.LNK_ROLE_bond n).addr % 0x1000 ≠ 0x10 := notRaw_fld (n := n) (k := 0x40) rfl rfl
  have ha : (F.LNK_STAT_txw (s.linkLow l)).apart (F.LNK_ROLE_bond n) = true :=
    Fld.apart_addr (by show lnkAddr _ + 0x50 ≠ lnkAddr _ + 0x40; unfold lnkAddr; omega)
  rw [State.numberBnd, showWidth_apart _ ha hr, onLane_get, get_congr (setOn_regs ..)]

theorem numberBnd_low (s : State) (l : Nat) : (s.numberBnd l).linkLow l = s.linkLow l := linkLow_of_regs (numberBnd_role s l) l

theorem numberBnd_out (s : State) (l : Nat) : (s.numberBnd l).out = (((s.linkLanes l).filter s.active).map fun k =>
    Out.ordered k 5 (bndSet (s.txMask l) (s.lane (s.linkLow l)).bndSeq)).reverse ++ s.out := by
  rw [State.numberBnd, showWidth_out, onLane_out, setOn_out]

theorem on_nodup (s : State) (l : Nat) : ((s.linkLanes l).filter s.active).Nodup := (linkLanes_nodup s l).filter _

theorem on_lt (s : State) (l : Fin 4) {k : Nat} (hk : k ∈ (s.linkLanes l).filter s.active) : k < 4 :=
  linkLanes_lt s l (List.mem_of_mem_filter hk)

theorem numberBnd_lane (s : State) (l : Fin 4) {k : Nat} (hk : k ∈ (s.linkLanes l).filter s.active) :
    ((s.numberBnd l).lane k).sets = (s.lane k).sets + 1 ∧ ((s.numberBnd l).lane k).bndSent = true := by
  have hk4 := on_lt s l hk
  have hset := setOn_lane s (on_nodup s l) true (fun k => .ordered k 5 (bndSet (s.txMask l) (s.lane (s.linkLow l)).bndSeq)) hk hk4
  unfold State.numberBnd
  rw [lane_congr (showWidth_link ..), lane_onLane_part Lane.sets _ _ _ _ (Lane.numbered_sets _),
    lane_onLane_part Lane.bndSent _ _ _ _ (Lane.numbered_bndSent _), hset]
  exact ⟨rfl, Bool.or_true _⟩

theorem numberBnd_seq (s : State) (l : Fin 4) :
    ((s.numberBnd l).lane (s.linkLow l)).bndSeq = ((s.lane (s.linkLow l)).bndSeq + 1) % 256 := by
  unfold State.numberBnd
  rw [lane_congr (showWidth_link ..), lane_onLane _ (linkLow_lt s l)]
  rfl

theorem exec_skipSetSend_training {l : Fin 4} {s : State} (h : s.laneState l = 2 ∨ s.laneState l = 3) :
    exec (.skipSetSend l) s = .next (s.emit (.ordered l 4 skipSet)) := by
  show execSkipSetSend l s = _
  unfold execSkipSetSend
  rcases h with h | h <;> simp only [h]

theorem exec_skipSetSend_active {l : Fin 4} {s : State} {on : List Nat} {bnd : Prop} (hon : on = (s.linkLanes l).filter s.active)
    (hhead : on.head? = some l.val)
    (hb : bnd ↔ ((s.lane l).sets + 1) % 16 = 0 ∨ s.linkLow l % 2 = 0 ∧ s.get (F.LNK_STAT_txw (s.linkLow l)) ≠ s.txMask l ∨
      ∃ k ∈ on, (s.lane k).bndSent = false) :
    ∃ b : Bool, (b = true ↔ bnd) ∧ exec (.skipSetSend l) s = .next (s.sendSet l b) := by
  have hfind : (s.linkLanes l).find? s.active = some l.val := by rw [← List.head?_filter, ← hon, hhead]
  have hact : s.active l = true := List.find?_some hfind
  have h4 : s.laneState l = 4 := beq_iff_eq.mp hact
  refine ⟨((s.lane l).sets + 1) % 16 == 0 || (s.linkLow l % 2 == 0 && s.get (F.LNK_STAT_txw (s.linkLow l)) != s.txMask l) ||
    !on.all fun k => (s.lane k).bndSent, ?_, ?_⟩
  · rw [hb]
    simp [or_assoc]
  · show execSkipSetSend l s = _
    unfold execSkipSetSend
    simp only [h4, hfind, if_true, ← hon]

/-- Plain symbols are seen by the loops and counters (R101, R102). -/
theorem Lane.feed_plain (a : Lane) (p : Nat) : ∃ pn dn, a.feed p 0 = { a with plainN := pn, dataN := dn } := by
  unfold Lane.feed
  split
  · exact ⟨a.plainN, a.dataN, rfl⟩
  · exact ⟨_, _, rfl⟩

theorem incBy_get (s : State) (f : Fld) (n : Nat) (h : f.lo + f.w ≤ 32) : (s.incBy f n).get f = min (s.get f + n) (2 ^ f.w - 1) := by
  rw [State.incBy, get_put_same _ _ _ h]
  exact Nat.mod_eq_of_lt (Nat.lt_of_le_of_lt (Nat.min_le_right ..) (Nat.sub_lt (Nat.two_pow_pos _) Nat.one_pos))

/-- A lane's record after a skip set that came in (R90, R96, R98). -/
def Lane.heardSkip (a : Lane) (x : SkipRx) (plain : Nat) : Lane :=
  (({ a with fill := driftFill a.fill x.drift } : Lane).goodSet (comSym :: List.replicate x.skps (true, 0x1C))).feed plain 0

theorem Lane.heardSkip_shows (a : Lane) (x : SkipRx) (plain : Nat) :
    (a.heardSkip x plain).fill = driftFill a.fill x.drift ∧ (a.heardSkip x plain).recenter = a.recenter ∧
      (a.heardSkip x plain).bucket = a.bucket - max 1 ((x.skps + 1) / 4) := by
  obtain ⟨pn, dn, he⟩ := Lane.feed_plain
    (({ a with fill := driftFill a.fill x.drift } : Lane).goodSet (comSym :: List.replicate x.skps (true, 0x1C))) plain
  rw [Lane.heardSkip, he]
  refine ⟨rfl, rfl, ?_⟩
  show a.bucket - max 1 ((comSym :: List.replicate x.skps (true, 0x1C)).length / 4) = _
  rw [List.length_cons, List.length_replicate]

/-- The state after a skip set came in, before the correction (R98). -/
def State.hearSkip (s : State) (x : SkipRx) : State :=
  s.onLane x.lane fun a => a.heardSkip x (if (s.lane (s.linkLow x.lane)).rxOpen then 0 else x.skps + 1)

/-- Whether both lanes of a bonded link are corrected together (R98, R99). -/
def State.bondPair (s : State) (l : Nat) : Bool := s.bonded l && s.active (lowerLane l) && s.active (lowerLane l + 1)

theorem exec_skipSetReceive {x : SkipRx} {s : State} (h2 : 2 ≤ s.laneState x.lane) (h4 : s.laneState x.lane ≤ 4) :
    exec (.skipSetReceive x) s = .next (
      let u := s.hearSkip x
      let p := skipFix (u.lane x.lane).fill x.skps
      if u.bondPair x.lane && x.lane.val != lowerLane x.lane then u
      else if u.bondPair x.lane then (u.fixFill x.lane p.1 p.2).fixFill (x.lane + 1) p.1 p.2 else u.fixFill x.lane p.1 p.2) := by
  show execSkipSetReceive x s = _
  rw [execSkipSetReceive, if_pos ⟨h2, h4⟩]
  rfl

/-- A lane's fill is corrected (R98). -/
theorem fixFill_shows (s : State) {l : Nat} (hl : l < 4) (del ins : Nat) :
    ((s.fixFill l del ins).lane l).bucket = (s.lane l).bucket ∧
      ((s.lane l).recenter = true → ((s.fixFill l del ins).lane l).fill = 12 ∧ ((s.fixFill l del ins).lane l).recenter = false) ∧
      ((s.lane l).recenter = false → ((s.fixFill l del ins).lane l).fill = (s.lane l).fill + ins - del ∧
        (s.fixFill l del ins).get (F.LNK_EBCNT_del l) = min (s.get (F.LNK_EBCNT_del l) + del) 255 ∧
        (s.fixFill l del ins).get (F.LNK_EBCNT_ins l) = min (s.get (F.LNK_EBCNT_ins l) + ins) 255) := by
  unfold State.fixFill
  split
  · next hr =>
    rw [lane_onLane _ hl]
    exact ⟨rfl, fun _ => ⟨rfl, rfl⟩, fun h => by rw [hr] at h; cases h⟩
  · next hr =>
    have hdel : ((s.incBy (F.LNK_EBCNT_del l) del).incBy (F.LNK_EBCNT_ins l) ins).get (F.LNK_EBCNT_del l) =
        (s.incBy (F.LNK_EBCNT_del l) del).get (F.LNK_EBCNT_del l) := get_put_apart _ _ _ _ (apart_lnk rfl rfl rfl)
    have hins : (s.incBy (F.LNK_EBCNT_del l) del).get (F.LNK_EBCNT_ins l) = s.get (F.LNK_EBCNT_ins l) :=
      get_put_apart _ _ _ _ (apart_lnk rfl rfl rfl)
    rw [lane_onLane _ hl, onLane_get, onLane_get, hdel, incBy_get _ (F.LNK_EBCNT_del l) _ (show 8 + 8 ≤ 32 by decide),
      incBy_get _ (F.LNK_EBCNT_ins l) _ (show 0 + 8 ≤ 32 by decide), hins]
    exact ⟨rfl, fun h => absurd h hr, fun _ => ⟨rfl, rfl, rfl⟩⟩

theorem fixFill_lane_ne (s : State) {l k : Nat} (hk : k ≠ l) (del ins : Nat) : (s.fixFill l del ins).lane k = s.lane k := by
  unfold State.fixFill
  split
  · exact lane_onLane_ne _ hk _
  · rw [lane_onLane_ne _ hk, incBy_lane, incBy_lane]

theorem fixFill_other {l n : Nat} (hl : l < 4) (hn : n < 4) (hne : l ≠ n) (s : State) (del ins : Nat) :
    Keeps (laneWord n) s (s.fixFill l del ins) := by
  have hinc {u : State} {f : Fld} {lo m : Nat} (hf : f = ⟨lnkAddr l + 0x68, lo, 8⟩) : Keeps (laneWord n) u (u.incBy f m) :=
    .put (.refl ..) (hf ▸ not_laneWord_other hl hn hne (by decide))
  unfold State.fixFill
  exact .ite (.same (.refl ..) (onLane_regs ..)) (.same (.comp (hinc rfl) (hinc rfl)) (onLane_regs ..))

/-- The correction follows from the fill and the length of the set (R98). -/
theorem skipFix_eq (fill skps : Nat) : skipFix fill skps =
    (min (if 18 < fill then 2 else if 14 < fill then 1 else 0) (skps - 1), if fill < 6 then 2 else if fill < 10 then 1 else 0) := by
  unfold skipFix
  grind

theorem hearSkip_lane (s : State) (x : SkipRx) : ((s.hearSkip x).lane x.lane).fill = driftFill (s.lane x.lane).fill x.drift ∧
    ((s.hearSkip x).lane x.lane).recenter = (s.lane x.lane).recenter ∧
    ((s.hearSkip x).lane x.lane).bucket = (s.lane x.lane).bucket - max 1 ((x.skps + 1) / 4) := by
  rw [State.hearSkip, lane_onLane_fin]
  exact Lane.heardSkip_shows ..

theorem hearSkip_get (s : State) (x : SkipRx) (f : Fld) : (s.hearSkip x).get f = s.get f := onLane_get ..

theorem hearSkip_bondPair (s : State) (x : SkipRx) (l : Nat) : (s.hearSkip x).bondPair l = s.bondPair l := by
  have hstate (k : Nat) : (s.hearSkip x).laneState k = s.laneState k := hearSkip_get ..
  rw [State.bondPair, bonded_of_regs (fun n => hearSkip_get s x _), State.active, State.active, hstate, hstate]
  rfl

/-- A BND set comes in: the descrambler is reset, and its words are without errors (R90, R92, R96). -/
def Lane.heardBnd (a : Lane) (mask seq plain : Nat) : Lane := (({ a with lfsr := 0xFFFF } : Lane).goodSet (bndSet mask seq)).feed plain 0

theorem Lane.heardBnd_shows (a : Lane) (mask seq plain : Nat) :
    (a.heardBnd mask seq plain).lfsr = 0xFFFF ∧ (a.heardBnd mask seq plain).bucket = a.bucket - 1 := by
  obtain ⟨pn, dn, he⟩ := Lane.feed_plain (({ a with lfsr := 0xFFFF } : Lane).goodSet (bndSet mask seq)) plain
  rw [Lane.heardBnd, he]
  refine ⟨rfl, ?_⟩
  show a.bucket - max 1 (4 / 4) = a.bucket - 1
  rfl

/-- The state after a BND set came in and its mask was shown (R99, R100). -/
def State.hearBnd (s : State) (l : Fin 4) (mask seq : Nat) : State :=
  (s.onLane l fun a => a.heardBnd mask seq (if (s.lane (s.linkLow l)).rxOpen then 0 else 4)).showWidth (F.LNK_STAT_rxw (s.linkLow l))
    (s.linkLow l) mask

theorem exec_bndSetReceive {l : Fin 4} {s : State} (mask : BitVec 2) (seq : Byte) (skew : Nat) (ha : s.active l = true) :
    exec (.bndSetReceive l mask seq skew) s = .next (
      if (s.hearBnd l mask.toNat seq.toNat).bonded l ∧ 8 < skew then
        (s.hearBnd l mask.toNat seq.toNat).leaveActive (lowerLane l + 1) 7
      else s.hearBnd l mask.toNat seq.toNat) := by
  show execBndSetReceive l mask seq skew s = _
  rw [execBndSetReceive, if_pos ha]
  rfl

theorem hearBnd_lane (s : State) (l : Fin 4) (mask seq : Nat) : ((s.hearBnd l mask seq).lane l).lfsr = 0xFFFF ∧
    ((s.hearBnd l mask seq).lane l).bucket = (s.lane l).bucket - 1 := by
  rw [State.hearBnd, lane_congr (showWidth_link ..), lane_onLane_fin]
  exact Lane.heardBnd_shows ..

theorem hearBnd_get (s : State) (l : Fin 4) (mask seq : Nat) {f : Fld} (ha : (F.LNK_STAT_rxw (s.linkLow l)).apart f = true)
    (hr : f.addr % 0x1000 ≠ 0x10) : (s.hearBnd l mask seq).get f = s.get f := by
  rw [State.hearBnd, showWidth_apart _ ha hr, onLane_get]

theorem hearBnd_bonded (s : State) (l : Fin 4) (mask seq k : Nat) : (s.hearBnd l mask seq).bonded k = s.bonded k :=
  bonded_of_regs (fun n => hearBnd_get s l mask seq
    (Fld.apart_addr (by show lnkAddr _ + 0x50 ≠ lnkAddr _ + 0x40; unfold lnkAddr; omega)) (notRaw_fld (n := n) (k := 0x40) rfl rfl)) k

theorem hearBnd_state (s : State) (l : Fin 4) (mask seq k : Nat) : (s.hearBnd l mask seq).laneState k = s.laneState k := by
  exact hearBnd_get s l mask seq (Fld.apart_bits (.inr rfl)) (notRaw_fld (n := k) (k := 0x50) rfl rfl)

/-- A lane that leaves ACTIVE keeps its descrambler. -/
theorem eyeAbort_lfsr (s : State) (l k : Nat) : ((s.eyeAbort l).lane k).lfsr = (s.lane k).lfsr := by
  unfold State.eyeAbort
  dsimp only
  split
  · exact lane_onLane_part Lane.lfsr _ _ _ _ fun _ => rfl
  · rfl

theorem toExit_lfsr (s : State) (l k : Nat) (failed : Bool) : ((s.toExit l failed).lane k).lfsr = (s.lane k).lfsr := by
  unfold State.toExit
  dsimp only
  rw [setLane_lane]
  refine (lane_onLane_part Lane.lfsr _ _ _ _ ?_).trans ?_
  · exact fun _ => rfl
  · rw [eyeAbort_lfsr, emit_lane]

theorem leaveActive_lfsr (s : State) (l k cause : Nat) : ((s.leaveActive l cause).lane k).lfsr = (s.lane k).lfsr := by
  unfold State.leaveActive
  split
  · dsimp only
    rw [dropReturns_lane, toExit_lfsr]
    exact lane_onLane_part Lane.lfsr _ _ _ _ fun _ => rfl
  · rfl

/-- The counts and events of an elastic buffer that ran over: one code error (R98, R112). -/
def State.countOverflow (s : State) (l : Nat) : State :=
  (((s.inc (F.LNK_EBCNT_ovf l)).event (4 + l) 5).inc (F.LNK_ERRCNT_code l)).event (4 + l) 6

theorem countOverflow_get (s : State) (l : Nat) {f : Fld} (ho : (F.LNK_EBCNT_ovf l).apart f = true) (hc : (F.LNK_ERRCNT_code l).apart f = true)
    (hr : f.addr % 0x1000 ≠ 0x10) : (s.countOverflow l).get f = s.get f := by
  rw [State.countOverflow, event_get _ hr, get_inc_apart _ _ _ hc, event_get _ hr, get_inc_apart _ _ _ ho]

theorem countOverflow_counts (s : State) (l : Nat) : (s.countOverflow l).get (F.LNK_EBCNT_ovf l) = s.plusOne (F.LNK_EBCNT_ovf l) ∧
    (s.countOverflow l).get (F.LNK_ERRCNT_code l) = s.plusOne (F.LNK_ERRCNT_code l) := by
  have hovf : (F.LNK_EBCNT_ovf l).addr % 0x1000 ≠ 0x10 := notRaw_fld (n := l) (k := 0x68) rfl rfl
  have hcode : (F.LNK_ERRCNT_code l).addr % 0x1000 ≠ 0x10 := notRaw_fld (n := l) (k := 0x64) rfl rfl
  have hkeep : ((s.inc (F.LNK_EBCNT_ovf l)).event (4 + l) 5).get (F.LNK_ERRCNT_code l) = s.get (F.LNK_ERRCNT_code l) :=
    (event_get _ hcode).trans (get_inc_apart _ _ _ (apart_lnk rfl rfl rfl))
  unfold State.countOverflow
  rw [event_get _ hovf, event_get _ hcode, inc_get _ (F.LNK_ERRCNT_code l) (show 0 + 16 ≤ 32 by decide),
    get_inc_apart _ _ _ (apart_lnk rfl rfl rfl : (F.LNK_ERRCNT_code l).apart (F.LNK_EBCNT_ovf l) = true), event_get _ hovf,
    inc_get _ (F.LNK_EBCNT_ovf l) (show 16 + 8 ≤ 32 by decide), State.plusOne, State.plusOne, hkeep, State.plusOne]
  exact ⟨rfl, rfl⟩

/-- The lane's record after it: the bucket, and that the buffer is to be centred (R96, R98). -/
def State.overflowed (s : State) (l : Nat) : State :=
  ((s.countOverflow l).onLane l fun a => { a with bucket := a.bucket + 64 }).onLane l fun a => { a with recenter := true }

theorem overflowed_get (s : State) (l : Nat) (f : Fld) : (s.overflowed l).get f = (s.countOverflow l).get f := by
  rw [State.overflowed, onLane_get, onLane_get]

theorem overflowed_low (s : State) (l k : Nat) : (s.overflowed l).linkLow k = s.linkLow k :=
  linkLow_of_regs (fun n => (overflowed_get ..).trans (countOverflow_get s l
    (Fld.apart_addr (by show lnkAddr _ + 0x68 ≠ lnkAddr _ + 0x40; unfold lnkAddr; omega))
    (Fld.apart_addr (by show lnkAddr _ + 0x64 ≠ lnkAddr _ + 0x40; unfold lnkAddr; omega)) (notRaw_fld (n := n) (k := 0x40) rfl rfl))) k

theorem overflowed_lane (s : State) (l : Fin 4) :
    ((s.overflowed l).lane l).bucket = (s.lane l).bucket + 64 ∧ ((s.overflowed l).lane l).recenter = true := by
  rw [State.overflowed, lane_onLane_fin, lane_onLane_fin]
  exact ⟨rfl, rfl⟩

/-- The packet that the link was receiving is spoilt (R96). -/
def Lane.spoilt (a : Lane) : Lane := { a with rxBad := true }

theorem Lane.spoilt_shows (a : Lane) : a.spoilt.bucket = a.bucket ∧ a.spoilt.recenter = a.recenter ∧ a.spoilt.rxBad = true := ⟨rfl, rfl, rfl⟩

theorem exec_ebOverflow {l : Fin 4} {s : State} (h2 : 2 ≤ s.laneState l) (h4 : s.laneState l ≤ 4) :
    exec (.ebOverflow l) s = .next ((s.overflowed l).onLane (s.linkLow l) Lane.spoilt) := by
  show execEbOverflow l s = _
  rw [execEbOverflow, if_pos ⟨h2, h4⟩, ← overflowed_low s l l]
  rfl

end Sys2Proof.Machine

end

section
/-! Rate matching, part by part (O46). -/

set_option Elab.async false

namespace Sys2Proof.Machine

/-- The skip set that is no BND set. -/
theorem skipSet_sends (s : State) (l : Fin 4) :
    Only (P.link ||| P.out) s (s.sendSet l false) ∧
      (∀ k ∈ (s.linkLanes l).filter s.active, ((s.sendSet l false).lane k).sets = (s.lane k).sets + 1) ∧
      (s.sendSet l false).out = (((s.linkLanes l).filter s.active).map fun k => Out.ordered k 4 skipSet).reverse ++ s.out := by
  rw [sendSet_skip]
  exact ⟨setOn_only .., fun k hk => by rw [setOn_lane s (on_nodup s l) _ _ hk (on_lt s l hk), Lane.sentSet], setOn_out ..⟩

/-- The BND set: its number, its width, and the packets that waited for it. -/
theorem bndSet_sends (s : State) (l : Fin 4) :
    (∀ k ∈ (s.linkLanes l).filter s.active,
        ((s.sendSet l true).lane k).sets = (s.lane k).sets + 1 ∧ ((s.sendSet l true).lane k).bndSent = true) ∧
      ((s.sendSet l true).lane (s.linkLow l)).bndSeq = ((s.lane (s.linkLow l)).bndSeq + 1) % 256 ∧
      (s.linkLow l % 2 = 0 → (s.sendSet l true).get (F.LNK_STAT_txw (s.linkLow l)) = s.txMask l) ∧
      ((s.sendSet l true).lane (s.linkLow l)).txWait = [] ∧ ∃ packets, (s.sendSet l true).out = packets ++
        (((s.linkLanes l).filter s.active).map fun k => Out.ordered k 5 (bndSet (s.txMask l) (s.lane (s.linkLow l)).bndSeq)).reverse ++ s.out := by
  have hkeeps {α : Type} (g : Lane → α) (hf : ∀ (a : Lane) f, g { a with txLfsr := f } = g a)
      (hw : ∀ a : Lane, g { a with txWait := [] } = g a) (k : Nat) : g (((s.numberBnd l).flushLink l).lane k) = g ((s.numberBnd l).lane k) :=
    (flushLink_lane g hf ..).trans (lane_onLane_part g _ _ _ _ hw)
  rw [sendSet_bnd]
  refine ⟨fun k hk => ?_, ?_, fun hlow => ?_, ?_, ?_⟩
  · obtain ⟨hsets, hsent⟩ := numberBnd_lane s l hk
    exact ⟨(hkeeps Lane.sets (fun _ _ => rfl) (fun _ => rfl) k).trans hsets, (hkeeps Lane.bndSent (fun _ _ => rfl) (fun _ => rfl) k).trans hsent⟩
  · exact (hkeeps Lane.bndSeq (fun _ _ => rfl) (fun _ => rfl) _).trans (numberBnd_seq s l)
  · rw [(State.flushLink_only _ _).get leaves_lnk, State.numberBnd]
    exact showWidth_same _ rfl rfl (txMask_lt s l) hlow
  · refine (flushLink_lane Lane.txWait (fun _ _ => rfl) ..).trans ?_
    rw [numberBnd_low, lane_onLane _ (linkLow_lt s l)]
  · obtain ⟨os, hos⟩ := flushLink_out (s.numberBnd l) l
    exact ⟨os, by rw [hos, numberBnd_out, List.append_assoc]⟩

/-- A skip set that comes in, corrected by the lower lane's fill on a bonded link. -/
theorem skipSet_corrects {s : State} (l : Fin 4) (skps : Nat) (drift : Int) (h2 : 2 ≤ s.laneState l) (h4 : s.laneState l ≤ 4)
    {fill : Nat} (hfill : (fill : Int) = max 0 (min 24 ((s.lane l).fill + drift))) {del ins : Nat} (hfix : skipFix fill skps = (del, ins)) :
    Does (.skipSetReceive ⟨l, skps, drift⟩) s (P.link ||| P.pgLnk) fun t =>
      (t.lane l).bucket = (s.lane l).bucket - max 1 ((skps + 1) / 4) ∧
      (¬ s.bondPair l = true ∨ l.val = lowerLane l → (s.lane l).recenter = true → (t.lane l).fill = 12 ∧ (t.lane l).recenter = false) ∧
      (¬ s.bondPair l = true ∨ l.val = lowerLane l → (s.lane l).recenter = false → (t.lane l).fill = fill + ins - del ∧
        t.get (F.LNK_EBCNT_del l) = min (s.get (F.LNK_EBCNT_del l) + del) 255 ∧
        t.get (F.LNK_EBCNT_ins l) = min (s.get (F.LNK_EBCNT_ins l) + ins) 255) ∧
      (s.bondPair l = true → l.val = lowerLane l → (s.lane (l + 1)).recenter = false →
        (t.lane (l + 1)).fill = (s.lane (l + 1)).fill + ins - del) ∧
      (s.bondPair l = true → l.val ≠ lowerLane l → (t.lane l).fill = fill ∧ (t.lane l).recenter = (s.lane l).recenter) := by
  obtain ⟨hf, hr, hb⟩ := hearSkip_lane s ⟨l, skps, drift⟩
  have hd : driftFill (s.lane l).fill drift = fill := by
    rw [driftFill, ← hfill, Int.toNat_natCast]
  rw [hd] at hf
  have hx := exec_skipSetReceive (x := ⟨l, skps, drift⟩) h2 h4
  simp only [hearSkip_bondPair, hf, hfix] at hx
  refine ⟨_, hx, execSkipSetReceive_only _ _ hx, ?_⟩
  have hself {t : State} (hl : t.lane l = ((s.hearSkip ⟨l, skps, drift⟩).fixFill l del ins).lane l)
      (hk : Keeps (laneWord l) ((s.hearSkip ⟨l, skps, drift⟩).fixFill l del ins) t) :
      (t.lane l).bucket = (s.lane l).bucket - max 1 ((skps + 1) / 4) ∧
        ((s.lane l).recenter = true → (t.lane l).fill = 12 ∧ (t.lane l).recenter = false) ∧
        ((s.lane l).recenter = false → (t.lane l).fill = fill + ins - del ∧
          t.get (F.LNK_EBCNT_del l) = min (s.get (F.LNK_EBCNT_del l) + del) 255 ∧
          t.get (F.LNK_EBCNT_ins l) = min (s.get (F.LNK_EBCNT_ins l) + ins) 255) := by
    obtain ⟨hvb, hvr, hvn⟩ := fixFill_shows (s.hearSkip ⟨l, skps, drift⟩) l.isLt del ins
    rw [hr] at hvr hvn
    rw [hf, hearSkip_get, hearSkip_get] at hvn
    rw [hl, hk.laneGet (f := F.LNK_EBCNT_del l) (k := 0x68) rfl rfl, hk.laneGet (f := F.LNK_EBCNT_ins l) (k := 0x68) rfl rfl]
    exact ⟨hvb.trans hb, hvr, hvn⟩
  by_cases hp : s.bondPair l = true
  · by_cases hlow : l.val = lowerLane l
    · have hl4 : l.val + 1 < 4 := by unfold lowerLane at hlow; omega
      have hne : (l.val + 1) ≠ l.val := Nat.succ_ne_self _
      have hnext : ((s.hearSkip ⟨l, skps, drift⟩).fixFill l del ins).lane (l + 1) = s.lane (l + 1) :=
        (fixFill_lane_ne _ hne _ _).trans (lane_onLane_ne _ hne _)
      obtain ⟨hbucket, hcentred, hfixed⟩ := hself (fixFill_lane_ne _ hne.symm del ins) (fixFill_other hl4 l.isLt hne _ del ins)
      obtain ⟨-, -, hn⟩ := fixFill_shows ((s.hearSkip ⟨l, skps, drift⟩).fixFill l del ins) hl4 del ins
      rw [hnext] at hn
      simp only [hp, ← hlow, bne_self_eq_false, Bool.and_false, Bool.false_eq_true, if_false, if_true]
      exact ⟨hbucket, fun _ => hcentred, fun _ => hfixed, fun _ _ h => (hn h).1, fun _ h => absurd rfl h⟩
    · simp only [hp, Bool.true_and, bne_iff_ne.mpr hlow, if_true]
      exact ⟨hb, fun h => h.elim (absurd trivial) fun h => absurd h hlow, fun h => h.elim (absurd trivial) fun h => absurd h hlow,
        fun _ h => absurd h hlow, fun _ _ => ⟨hf, hr⟩⟩
  · obtain ⟨hbucket, hcentred, hfixed⟩ := hself rfl (.refl ..)
    simp only [hp, Bool.false_and, Bool.false_eq_true, if_false]
    exact ⟨hbucket, fun _ => hcentred, fun _ => hfixed, fun h => h.elim, fun h => h.elim⟩

/-- A BND set that comes in, with its skew. -/
theorem bndSet_hears {s : State} (l : Fin 4) (mask : BitVec 2) (seq : Byte) (skew : Nat) (ha : s.active l = true) :
    Does (.bndSetReceive l mask seq skew) s (P.link ||| P.out ||| P.pgLnk ||| P.pgPkt) fun t =>
      (t.lane l).lfsr = 0xFFFF ∧ (s.linkLow l % 2 = 0 → t.get (F.LNK_STAT_rxw (s.linkLow l)) = mask.toNat) ∧
      (s.bonded l = false ∨ skew ≤ 8 → t.laneState l = 4 ∧ t.out = s.out ∧ (t.lane l).bucket = (s.lane l).bucket - 1) ∧
      (s.bonded l = true → 8 < skew → s.active (lowerLane l + 1) = true →
        t.laneState (lowerLane l + 1) = 7 ∧ t.get (F.LNK_STAT_xreason (lowerLane l + 1)) = 7) := by
  obtain ⟨hlfsr, hbucket⟩ := hearBnd_lane s l mask.toNat seq.toNat
  have hrxw (hlow : s.linkLow l % 2 = 0) : (s.hearBnd l mask.toNat seq.toNat).get (F.LNK_STAT_rxw (s.linkLow l)) = mask.toNat :=
    showWidth_same _ rfl rfl mask.isLt hlow
  have hx := exec_bndSetReceive mask seq skew ha
  simp only [hearBnd_bonded] at hx
  refine ⟨_, hx, execBndSetReceive_only _ _ _ _ _ hx, ?_⟩
  by_cases h : s.bonded l = true ∧ 8 < skew
  · obtain ⟨hbond, hskew⟩ := h
    have hl4 : lowerLane l + 1 < 4 := by have := l.isLt; unfold lowerLane; omega
    have hlow : s.linkLow l = lowerLane l := by rw [State.linkLow, if_pos hbond]
    rw [if_pos ⟨hbond, hskew⟩]
    refine ⟨(leaveActive_lfsr ..).trans hlfsr, fun he => ?_, fun hn => ?_, fun _ _ hup => ?_⟩
    · have hother := (leaveActive_beside (s.hearBnd l mask.toNat seq.toNat) (lowerLane l + 1) 7).ofBeside hl4 (linkLow_lt s l)
        (by rw [hlow]; exact Nat.succ_ne_self _)
      exact (hother.laneGet rfl rfl).trans (hrxw he)
    · rw [hbond] at hn
      exact absurd hn (by simp; omega)
    · obtain ⟨hstate, hreason, -⟩ := leaveActive_shows hl4 ((hearBnd_state ..).trans (beq_iff_eq.mp hup)) (show 7 < 8 by decide)
      exact ⟨hstate, hreason⟩
  · rw [if_neg h]
    refine ⟨hlfsr, hrxw, fun _ => ⟨(hearBnd_state ..).trans (beq_iff_eq.mp ha), ?_, hbucket⟩, fun hb hs => absurd ⟨hb, hs⟩ h⟩
    rw [State.hearBnd, showWidth_out, onLane_out]

/-- The elastic buffer runs over: one code error. -/
theorem ebOverflow_shows {s : State} (l : Fin 4) (h2 : 2 ≤ s.laneState l) (h4 : s.laneState l ≤ 4) :
    Does (.ebOverflow l) s (P.link ||| P.pgLnk) fun t =>
      t.get (F.LNK_EBCNT_ovf l) = s.plusOne (F.LNK_EBCNT_ovf l) ∧ t.get (F.LNK_ERRCNT_code l) = s.plusOne (F.LNK_ERRCNT_code l) ∧
        (t.lane l).bucket = (s.lane l).bucket + 64 ∧ (t.lane l).recenter = true ∧ (t.lane (s.linkLow l)).rxBad = true ∧
        t.laneState l = s.laneState l := by
  have hx := exec_ebOverflow h2 h4
  obtain ⟨hovf, hcode⟩ := countOverflow_counts s l
  obtain ⟨hbucket, hcentre⟩ := overflowed_lane s l
  have hget (f : Fld) : ((s.overflowed l).onLane (s.linkLow l) Lane.spoilt).get f = (s.countOverflow l).get f :=
    (onLane_get ..).trans (overflowed_get ..)
  refine ⟨_, hx, execEbOverflow_only _ _ hx, (hget _).trans hovf, (hget _).trans hcode, ?_, ?_, ?_, (hget _).trans ?_⟩
  · exact (lane_onLane_part Lane.bucket _ _ _ _ fun a => a.spoilt_shows.1).trans hbucket
  · exact (lane_onLane_part Lane.recenter _ _ _ _ fun a => a.spoilt_shows.2.1).trans hcentre
  · exact (congrArg Lane.rxBad (lane_onLane _ (linkLow_lt s l) _)).trans (Lane.spoilt_shows _).2.2
  · exact countOverflow_get s l (apart_lnk rfl rfl rfl) (apart_lnk rfl rfl rfl) (notRaw_fld (n := l) (k := 0x50) rfl rfl)

/-- Settles O46: the parts for skip sets sent and received, BND sets sent and received, and the elastic buffer. -/
theorem rateMatching : Obligations.RateMatching := by
  intro l s low hlow
  have hl : low = s.linkLow l := hlow
  subst hl
  refine ⟨exec_skipSetSend_training, fun on bnd hon hhead hbnd => ?_, fun skps drift pair fill del ins h2 h4 hpair hfill hdel hins => ?_,
    fun mask seq skew => bndSet_hears l mask seq skew, ebOverflow_shows l⟩
  · obtain ⟨b, hb, hx⟩ := exec_skipSetSend_active hon hhead hbnd
    subst hon
    refine ⟨fun hn => ?_, fun hy => ?_⟩
    · obtain rfl : b = false := Bool.eq_false_iff.mpr fun h => hn (hb.mp h)
      exact ⟨_, hx, skipSet_sends s l⟩
    · obtain rfl : b = true := hb.mpr hy
      exact ⟨_, hx, execSkipSetSend_only _ _ hx, bndSet_sends s l⟩
  · have hpe : pair ↔ s.bondPair l = true := hpair.trans (by simp only [State.bondPair, Bool.and_eq_true, and_assoc])
    have hle (hp : s.bondPair l = true) : s.linkLow l = lowerLane l := by
      simp only [State.bondPair, Bool.and_eq_true] at hp
      rw [State.linkLow, if_pos hp.1.1]
    have hone (h : ¬ pair ∨ l.val = s.linkLow l) : ¬ s.bondPair l = true ∨ l.val = lowerLane l := by
      by_cases hp : s.bondPair l = true
      · exact .inr ((h.resolve_left fun hn => hn (hpe.mpr hp)).trans (hle hp))
      · exact .inl hp
    have hfix : skipFix fill skps = (del, ins) := by rw [skipFix_eq, hdel, hins]
    obtain ⟨t, hx, honly, hbucket, hcentred, hfixed, hnext, hupper⟩ := skipSet_corrects l skps drift h2 h4 hfill hfix
    exact ⟨t, hx, honly, hbucket, fun h => hcentred (hone h), fun h => hfixed (hone h),
      fun hp he => hnext (hpe.mp hp) (he.trans (hle (hpe.mp hp))), fun hp he => hupper (hpe.mp hp) fun h => he (h.trans (hle (hpe.mp hp)).symm)⟩

end Sys2Proof.Machine

end

section
/-! A write of a word whose writable fields are RW fields of the link pages, and the fields of the word that then stands there (R59, R456). -/

set_option Elab.async false

namespace Sys2Proof.Machine

/-- A word whose only writable fields are RW, with no case of its own in the write path. -/
def rwWord (a : Nat) (r : RegSpec) : Bool :=
  a % 0x1000 != 8 && !reservedEntry a && (crcSlot a).isNone && (raccAt a).isNone && (aspCtlAt a).isNone && r.rw != 0 && r.rwl == 0 &&
    r.rws == 0 && r.wo == 0 && r.w1c == 0 && a != R.CLS_PTGT && a != R.CLS_COMMIT && a != R.AXO_CTRL && a != R.ASP_FGRP &&
    a != R.SYS_MODEREQ && a != R.SYS_RESET && a != R.SYS_ACK && a != R.SPD_RXID && a != R.SYS_WINBASE

/-- The RW fields that a write changes (R456). -/
def State.changes (s : State) (a : Nat) (r : RegSpec) (v : Word) : Word :=
  if r.mixed then (v ^^^ s.reg a) &&& BitVec.ofNat 32 r.rw else BitVec.ofNat 32 r.rw

/-- The word that a write leaves: its RW fields, as they read back (R59). -/
def State.written (s : State) (a : Nat) (r : RegSpec) (v : Word) : Word :=
  BitVec.ofNat 32 (normWord a ((s.reg a &&& ~~~BitVec.ofNat 32 r.rw) ||| (v &&& BitVec.ofNat 32 r.rw)).toNat)

/-- A write of such a word that every check admits (R61). -/
theorem regRow_rw {s : State} {src : Src} {a : Nat} {v : Word} {r : RegSpec} (hr : regSpec a = some r) (hw : rwWord a r = true)
    (hm : s.mayCommand src (pageOf a)) (hrate : a = R.LNK_RATE 0 → s.mode = .configure ∨ s.mode = .hold) :
    s.regRow src a v = .next (if s.changes a r v = 0 then s.writeSame src a else (s.setReg a (s.written a r v)).afterWrite s src a v) := by
  simp only [rwWord, Bool.and_eq_true, bne_iff_ne, Bool.not_eq_true', beq_iff_eq, Option.isNone_iff_eq_none, ne_eq] at hw
  obtain ⟨⟨⟨⟨⟨⟨⟨⟨⟨⟨⟨⟨⟨⟨⟨⟨⟨⟨h8, hres⟩, hcrc⟩, hracc⟩, hasp⟩, hrw⟩, hrwl⟩, hrws⟩, hwo⟩, hw1c⟩, hpt⟩, hcm⟩, hax⟩, hfg⟩, h1⟩, h2⟩, h3⟩,
    hid⟩, hwin⟩ := hw
  obtain ⟨hl, hh, ho⟩ := hm
  have hread : readOnly r a = false := by simp [readOnly, hcrc, hrwl, hrws, hwo, hw1c, hrw]
  have ht : s.touch src r a v = ⟨s.changes a r v, 0, 0, 0, 0⟩ := by
    unfold State.touch State.changes State.held
    by_cases hmix : r.mixed = true <;> simp [hmix, hwin, hrwl, hrws, hwo, hw1c]
  have hmode : s.modeBars a v ⟨s.changes a r v, 0, 0, 0, 0⟩ = false := by
    have hhold : (s.mode == .hold && !holdWritable (pageOf a)) = false := by
      by_cases h : s.mode = .hold
      · simp [h, hh h]
      · simp [h]
    have hlr : (s.mode != .configure && s.mode != .hold && a == R.LNK_RATE 0) = false := by
      by_cases h : a = R.LNK_RATE 0
      · rcases hrate h with h' | h' <;> simp [h']
      · simp [h]
    unfold State.modeBars
    dsimp only
    simp [hhold, hlr, hax]
  have hsrc : s.sourceBars src a v = false := by simp [State.sourceBars, hasp, hfg, hax, h1, h2, h3]
  have hcheck : s.writeCheck src a v ⟨s.changes a r v, 0, 0, 0, 0⟩ = 0 := by
    simp only [State.writeCheck, hmode, hsrc, ho, hracc]
    simp [hpt, hcm]
  have hsame (w : Word) : (s.reg a &&& ~~~0) ||| (w &&& 0) = s.reg a := by simp; exact BitVec.and_allOnes
  have hfields (hne : s.changes a r v ≠ 0) : s.writeFields src r a v ⟨s.changes a r v, 0, 0, 0, 0⟩ =
      (s.setReg a (s.written a r v)).afterWrite s src a v := by
    have hne' : s.changes a r v ≠ 0#32 := hne
    simp only [State.writeFields, hcrc, hsame, changesSet_same, hrwl, Nat.or_zero, State.held, State.written]
    simp [hne', hid, hwin]
  have hnone : (⟨s.changes a r v, 0, 0, 0, 0⟩ : Touch).none = decide (s.changes a r v = 0) := by
    simp [Touch.none, beq_eq_decide]
  rw [State.regRow, if_pos hl, State.writeReg, if_neg h8]
  simp only [hr, hres, hread, ht, hnone, hcheck, Bool.false_eq_true, if_false, if_true, decide_eq_true_eq]
  by_cases hz : s.changes a r v = 0
  · rw [if_pos hz, if_pos hz]
  · rw [if_neg hz, if_neg hz, hfields hz]

end Sys2Proof.Machine

end

section
/-! Fields of words that are merged and read back (R59). -/

set_option Elab.async false

namespace Sys2Proof.Machine

theorem getBits_toNat (x : Word) (lo w : Nat) : getBits x lo w = bits x.toNat lo w := by
  simp [getBits, bits, BitVec.extractLsb'_toNat, Nat.shiftRight_eq_div_pow]

theorem getBits_ofNat (n lo w : Nat) (h : lo + w ≤ 32) : getBits (BitVec.ofNat 32 n) lo w = bits n lo w := by
  rw [getBits_toNat, BitVec.toNat_ofNat, bits, bits, show 32 = lo + (32 - lo) by omega, Nat.pow_add, Nat.mod_mul_right_div_self,
    Nat.mod_mod_of_dvd _ (pow_dvd_pow 2 (by omega))]

/-- A field that a mask covers has the new value after a merge, one that it leaves the old. -/
theorem getBits_merge_in {x v m : Word} {lo w : Nat} (h : getBits m lo w = 2 ^ w - 1) :
    getBits ((x &&& ~~~m) ||| (v &&& m)) lo w = getBits v lo w := by
  have hm : m.extractLsb' lo w = BitVec.allOnes w := BitVec.eq_of_toNat_eq (by rw [BitVec.toNat_allOnes]; exact h)
  have hb (i : Nat) (hi : i < w) : m.getLsbD (lo + i) = true := by
    have := congrArg (fun b => b.getLsbD i) hm
    simpa [hi] using this
  refine congrArg BitVec.toNat (BitVec.eq_of_getLsbD_eq fun i hi => ?_)
  have hlt : lo + i < 32 := BitVec.lt_of_getLsbD (hb i hi)
  simp [hi, hb i hi]

theorem getBits_merge_out {x v m : Word} {lo w : Nat} (h : getBits m lo w = 0) (hw : lo + w ≤ 32) :
    getBits ((x &&& ~~~m) ||| (v &&& m)) lo w = getBits x lo w := by
  have hm : m.extractLsb' lo w = 0#w := BitVec.eq_of_toNat_eq (h.trans (by simp))
  have hb (i : Nat) (hi : i < w) : m.getLsbD (lo + i) = false := by
    have := congrArg (fun b => b.getLsbD i) hm
    simpa [hi] using this
  refine congrArg BitVec.toNat (BitVec.eq_of_getLsbD_eq fun i hi => ?_)
  have hlt : lo + i < 32 := by omega
  have hbit : m[lo + i] = false := by rw [← BitVec.getLsbD_eq_getElem, hb i hi]
  simp [hi, hlt, hbit]

/-- A word of a link page reads back as its own rules say. -/
theorem normWord_lnk {n k : Nat} {r : RegSpec} (hk : k < 0x1000) (hr : regSpec (lnkAddr n + k) = some r) (v : Nat) :
    normWord (lnkAddr n + k) v = r.norms.foldl (fun x m => m.apply x) v := by
  have h1 : lnkAddr n + k ≠ 0x70 := by unfold lnkAddr; omega
  have h2 : lnkAddr n + k ≠ 0x104 := by unfold lnkAddr; omega
  have hp : pageOf (lnkAddr n + k) ≠ 18 := by unfold lnkAddr pageOf; omega
  unfold normWord
  rw [hr]
  simp [h1, h2, hp]

end Sys2Proof.Machine

end

section
/-! The change of link rate (O47). -/

set_option Elab.async false

namespace Sys2Proof.Machine

/-- LNK_RATE of LNK0 beside what it shows. -/
theorem rateWord : ∃ r, regSpec (R.LNK_RATE 0) = some r ∧ rwWord (R.LNK_RATE 0) r = true ∧ r.mixed = true ∧ r.rw = 7 ∧
    r.norms = [.above 0 3 5 4] := ⟨_, rfl, by decide, by decide, rfl, rfl⟩

/-- The rate that a write asks for: a reserved one is read as 4 (R89). -/
def askedRate (v : Word) : Nat := if 5 ≤ v.toNat % 8 then 4 else v.toNat % 8

theorem getBits_rate (v : Word) : getBits v 0 3 = v.toNat % 8 := by
  rw [getBits_toNat, bits, Nat.pow_zero, Nat.div_one]
  rfl

/-- A write names the rate field's own value where it changes nothing of it. -/
theorem rate_changes (s : State) (v : Word) {r : RegSpec} (hmix : r.mixed = true) (hrw : r.rw = 7) :
    s.changes (R.LNK_RATE 0) r v = 0 ↔ v.toNat % 8 = s.get (F.LNK_RATE_rate 0) := by
  have hget : s.get (F.LNK_RATE_rate 0) = (s.reg (R.LNK_RATE 0)).toNat % 8 := getBits_rate _
  have hmod : ((v ^^^ s.reg (R.LNK_RATE 0)) &&& BitVec.ofNat 32 7).toNat = v.toNat % 8 ^^^ (s.reg (R.LNK_RATE 0)).toNat % 8 := by
    rw [BitVec.toNat_and, BitVec.toNat_xor, show (BitVec.ofNat 32 7).toNat = 2 ^ 3 - 1 from rfl, Nat.and_two_pow_sub_one_eq_mod,
      Nat.xor_mod_two_pow]
  rw [State.changes, if_pos hmix, hrw, hget, ← Nat.xor_eq_zero_iff, ← hmod]
  exact ⟨fun h => by rw [h]; rfl, fun h => BitVec.eq_of_toNat_eq (by rw [h]; rfl)⟩

/-- The word that stands in LNK_RATE after a write: the rate that it asks for; the other bits stay. -/
theorem rate_written (s : State) (v : Word) {r : RegSpec} (hr : regSpec (R.LNK_RATE 0) = some r) (hrw : r.rw = 7)
    (hn : r.norms = [.above 0 3 5 4]) :
    getBits (s.written (R.LNK_RATE 0) r v) 0 3 = askedRate v ∧
      getBits (s.written (R.LNK_RATE 0) r v) 3 29 = getBits (s.reg (R.LNK_RATE 0)) 3 29 := by
  have hin : getBits ((s.reg (R.LNK_RATE 0) &&& ~~~BitVec.ofNat 32 7) ||| (v &&& BitVec.ofNat 32 7)) 0 3 = v.toNat % 8 :=
    (getBits_merge_in (by decide)).trans (getBits_rate v)
  have hout : getBits ((s.reg (R.LNK_RATE 0) &&& ~~~BitVec.ofNat 32 7) ||| (v &&& BitVec.ofNat 32 7)) 3 29 = getBits (s.reg (R.LNK_RATE 0)) 3 29 :=
    getBits_merge_out (by decide) (by decide)
  have hnorm (n : Nat) : normWord (R.LNK_RATE 0) n = Norm.apply (.above 0 3 5 4) n := by
    rw [show R.LNK_RATE 0 = lnkAddr 0 + 0x44 from rfl, normWord_lnk (by decide) hr, hn]
    rfl
  rw [getBits_toNat] at hin hout
  rw [State.written, hrw, hnorm, getBits_ofNat _ _ _ (by decide), getBits_ofNat _ _ _ (by decide), ← hout, askedRate, ← hin]
  generalize ((s.reg (R.LNK_RATE 0) &&& ~~~BitVec.ofNat 32 7) ||| (v &&& BitVec.ofNat 32 7)).toNat = n
  rw [Norm.apply]
  by_cases h : 5 ≤ bits n 0 3
  · rw [if_pos h, if_pos h]
    simp only [bits]
    omega
  · rw [if_neg h, if_neg h]
    exact ⟨rfl, rfl⟩

/-- The state of the change of rate moves on (R89). -/
def State.setChange (s : State) (n : Nat) : State := { s with link := { s.link with change := n } }

theorem setChange_same {s : State} {n : Nat} (h : s.link.change = n) : s.link = { s.link with change := n } := by rw [← h]

/-- What a new rate schedules (R89). -/
theorem rateWritten_eq (s : State) :
    (s.link.change = 0 → s.rateWritten = if s.get (F.LNK_RATE_rate 0) = s.link.rate then s else (s.put (F.LNK_RATE_busy 0) 1).setChange 1) ∧
      (s.link.change = 1 → s.rateWritten = if s.get (F.LNK_RATE_rate 0) = s.link.rate then (s.put (F.LNK_RATE_busy 0) 0).setChange 0 else s) ∧
      (2 ≤ s.link.change → s.rateWritten = s.setChange (if s.get (F.LNK_RATE_rate 0) = s.link.rate then 2 else 3)) := by
  unfold State.rateWritten
  refine ⟨fun h => ?_, fun h => ?_, fun h => ?_⟩
  · simp only [h, beq_iff_eq]
    rfl
  · simp only [h, beq_iff_eq]
    rfl
  · obtain ⟨n, hn⟩ := Nat.exists_eq_add_of_le' h
    simp only [hn, beq_iff_eq]
    rfl

theorem rateWritten_shows (s : State) :
    s.rateWritten.get (F.LNK_RATE_rate 0) = s.get (F.LNK_RATE_rate 0) ∧
      s.rateWritten.get (F.LNK_RATE_reverted 0) = s.get (F.LNK_RATE_reverted 0) ∧
      s.rateWritten.link = { s.link with change :=
        if s.link.change ≤ 1 then (if s.get (F.LNK_RATE_rate 0) = s.link.rate then 0 else 1)
        else (if s.get (F.LNK_RATE_rate 0) = s.link.rate then 2 else 3) } ∧
      (s.link.change = 0 → s.get (F.LNK_RATE_rate 0) ≠ s.link.rate → s.rateWritten.get (F.LNK_RATE_busy 0) = 1) ∧
      (s.link.change = 1 → s.get (F.LNK_RATE_rate 0) = s.link.rate → s.rateWritten.get (F.LNK_RATE_busy 0) = 0) := by
  have hrate (v : Nat) : (s.put (F.LNK_RATE_busy 0) v).get (F.LNK_RATE_rate 0) = s.get (F.LNK_RATE_rate 0) := get_put_apart _ _ _ _ (by decide)
  have hrev (v : Nat) : (s.put (F.LNK_RATE_busy 0) v).get (F.LNK_RATE_reverted 0) = s.get (F.LNK_RATE_reverted 0) :=
    get_put_apart _ _ _ _ (by decide)
  have hbusy (v : Nat) : (s.put (F.LNK_RATE_busy 0) v).get (F.LNK_RATE_busy 0) = v % 2 ^ 1 := get_put_same _ _ _ (by decide)
  obtain ⟨hidle, hwaits, hlocks⟩ := rateWritten_eq s
  rcases (by omega : s.link.change = 0 ∨ s.link.change = 1 ∨ 2 ≤ s.link.change) with h | h | h
  · rw [hidle h, if_pos (by omega : s.link.change ≤ 1)]
    split
    · next hs => exact ⟨rfl, rfl, setChange_same h, fun _ hn => absurd hs hn, fun h1 => by omega⟩
    · exact ⟨hrate 1, hrev 1, rfl, fun _ _ => hbusy 1, fun h1 => by omega⟩
  · rw [hwaits h, if_pos (by omega : s.link.change ≤ 1)]
    split
    · exact ⟨hrate 0, hrev 0, rfl, fun h0 => by omega, fun _ _ => hbusy 0⟩
    · next hs => exact ⟨rfl, rfl, setChange_same h, fun h0 => by omega, fun _ he => absurd he hs⟩
  · rw [hlocks h, if_neg (by omega : ¬ s.link.change ≤ 1)]
    exact ⟨rfl, rfl, rfl, fun h0 => by omega, fun h1 => by omega⟩

/-- A write of LNK_RATE that asks for another rate, and one that asks for the rate that stands there (R89, R109). -/
theorem exec_rateChange {s : State} {src : Src} {v : Word} (hm : s.mayCommand src 4) (hmode : s.mode = .configure ∨ s.mode = .hold) :
    ∃ w : Word, getBits w 0 3 = askedRate v ∧ exec (.rateChange src v) s = .next (if v.toNat % 8 = s.get (F.LNK_RATE_rate 0) then
      s.put (F.LNK_RATE_reverted 0) 0 else ((s.setReg (R.LNK_RATE 0) w).put (F.LNK_RATE_reverted 0) 0).rateWritten) := by
  obtain ⟨r, hr, hw, hmix, hrw, hn⟩ := rateWord
  obtain ⟨-, -, hown⟩ := id hm
  refine ⟨_, (rate_written s v hr hrw hn).1, ?_⟩
  have hsame : s.writeSame src (R.LNK_RATE 0) = s.put (F.LNK_RATE_reverted 0) 0 := by
    unfold State.writeSame
    rw [show crcSlot (R.LNK_RATE 0) = none by decide, Option.any_none, if_neg Bool.false_ne_true, if_pos ⟨rfl, hmode, hown⟩]
  show s.regRow src (R.LNK_RATE 0) v = _
  rw [regRow_rw hr hw hm fun _ => hmode, hsame, if_congr (rate_changes s v hmix hrw) rfl rfl]
  rfl

/-- A write of another rate. -/
theorem rateChange_schedules {s : State} {src : Src} {v : Word} (hm : s.mayCommand src 4) (hmode : s.mode = .configure ∨ s.mode = .hold)
    (hv : v.toNat % 8 ≠ s.get (F.LNK_RATE_rate 0)) : Does (.rateChange src v) s (P.link ||| P.pgLnk) fun t =>
      t.get (F.LNK_RATE_rate 0) = askedRate v ∧ t.get (F.LNK_RATE_reverted 0) = 0 ∧
        t.link = { s.link with change :=
          if s.link.change ≤ 1 then (if askedRate v = s.link.rate then 0 else 1) else if askedRate v = s.link.rate then 2 else 3 } ∧
        (s.link.change = 0 → askedRate v ≠ s.link.rate → t.get (F.LNK_RATE_busy 0) = 1) ∧
        (s.link.change = 1 → askedRate v = s.link.rate → t.get (F.LNK_RATE_busy 0) = 0) := by
  obtain ⟨w, hw, hx⟩ := exec_rateChange (v := v) hm hmode
  rw [if_neg hv] at hx
  have hrate : ((s.setReg (R.LNK_RATE 0) w).put (F.LNK_RATE_reverted 0) 0).get (F.LNK_RATE_rate 0) = askedRate v := by
    rw [get_put_apart _ _ _ _ (by decide), State.get, show (F.LNK_RATE_rate 0).addr = R.LNK_RATE 0 from rfl, reg_setReg_same]
    exact hw
  have hrev : ((s.setReg (R.LNK_RATE 0) w).put (F.LNK_RATE_reverted 0) 0).get (F.LNK_RATE_reverted 0) = 0 := get_put_same _ _ _ (by decide)
  have hfoot : Only (P.link ||| P.pgLnk) s ((s.setReg (R.LNK_RATE 0) w).put (F.LNK_RATE_reverted 0) 0) := .put (.setReg (.refl ..))
  obtain ⟨h1, h2, h3, h4, h5⟩ := rateWritten_shows ((s.setReg (R.LNK_RATE 0) w).put (F.LNK_RATE_reverted 0) 0)
  rw [hrate] at h1 h3 h4 h5
  exact ⟨_, hx, hfoot.comp (State.rateWritten_only _), h1, h2.trans hrev, h3, h4, h5⟩

end Sys2Proof.Machine

end

section
/-! What the lanes do when the rate changes, and after the lane PLL has relocked (O47). -/

set_option Elab.async false

namespace Sys2Proof.Machine

/-- The part of the link's record that no lane's own steps touch: all but the lanes and the stored packets. -/
def LinkKept (s t : State) : Prop := ∃ ls ps, t.link = { s.link with lanes := ls, ret := ps }

theorem LinkKept.refl (s : State) : LinkKept s s := ⟨_, _, rfl⟩

theorem LinkKept.trans {s t u : State} (h : LinkKept s t) (k : LinkKept t u) : LinkKept s u := by
  obtain ⟨ls, ps, h⟩ := h
  obtain ⟨ms, qs, k⟩ := k
  exact ⟨ms, qs, by rw [k, h]⟩

theorem LinkKept.same {s t u : State} (h : LinkKept s t) (k : u.link = t.link) : LinkKept s u := by rwa [LinkKept, k]

theorem LinkKept.put {s t : State} (h : LinkKept s t) (f : Fld) (v : Nat) : LinkKept s (t.put f v) := h

theorem LinkKept.event {s t : State} (h : LinkKept s t) (p n : Nat) : LinkKept s (t.event p n) := h

theorem LinkKept.onLane {s t : State} (h : LinkKept s t) (l : Nat) (f : Lane → Lane) : LinkKept s (t.onLane l f) := by
  refine h.trans ?_
  unfold State.onLane
  split
  · exact ⟨_, _, rfl⟩
  · exact .refl _

theorem LinkKept.shows {s t : State} (h : LinkKept s t) : t.link.rate = s.link.rate ∧ t.link.oldRate = s.link.oldRate ∧
    t.link.change = s.link.change ∧ t.link.watch = s.link.watch := by
  obtain ⟨ls, ps, h⟩ := h
  rw [h]
  exact ⟨rfl, rfl, rfl, rfl⟩

theorem setLane_linkKept (s : State) (l st : Nat) : LinkKept s (s.setLane l st) := .same (.refl s) ((State.setLane_only ..).link (by decide))

theorem eyeAbort_linkKept (s : State) (l : Nat) : LinkKept s (s.eyeAbort l) := by
  unfold State.eyeAbort
  dsimp only
  split
  · exact .event (.onLane (.put (.put (.put (.put (.refl s) ..) ..) ..) ..) l _) ..
  · exact .put (.refl s) ..

theorem toExit_linkKept (s : State) (l : Nat) (failed : Bool) : LinkKept s (s.toExit l failed) :=
  .trans (.onLane (.trans (.same (.refl s) rfl) (eyeAbort_linkKept (s.emit (.ordered l 6 eiosSet)) l)) l _) (setLane_linkKept ..)

theorem dropReturns_linkKept (s : State) : LinkKept s s.dropReturns := by
  unfold State.dropReturns
  split
  · exact .refl s
  · exact ⟨_, _, rfl⟩

theorem leaveActive_linkKept (s : State) (l cause : Nat) : LinkKept s (s.leaveActive l cause) := by
  unfold State.leaveActive
  split
  · exact .trans (.trans (.event (.put (.onLane (.refl s) l _) ..) ..) (toExit_linkKept ..)) (dropReturns_linkKept _)
  · exact .refl s

theorem markDown_linkKept (s : State) (l : Nat) (b : Bool) : LinkKept s (s.markDown l b) :=
  .same (.onLane (.refl s) l _) ((setCond_act _ _ _ _).link (by decide))

theorem toDetect_linkKept (s : State) (l : Nat) : LinkKept s (s.toDetect l) := by
  unfold State.toDetect
  split
  · exact setLane_linkKept ..
  · exact .trans (setLane_linkKept ..) (markDown_linkKept ..)

/-- A step for each lane in turn. -/
theorem LinkKept.foldl {f : State → Nat → State} (hf : ∀ u l, LinkKept u (f u l)) (ls : List Nat) (s : State) : LinkKept s (ls.foldl f s) :=
  List.foldlRecOn (motive := fun u : State => LinkKept s u) ls f (.refl s) fun u hu l _ => hu.trans (hf u l)

/-- A lane that starts anew at another rate: no failure counts, and no eye operation runs (R89, R95, R103). -/
def State.rateFresh (s : State) (l : Nat) : State := ((s.put (F.LNK_STAT_fails l) 0).onLane l fun a => { a with fresh := true }).eyeAbort l

/-- A lane leaves its state for a new rate (R89). -/
def State.rateLeave (s : State) (l : Nat) : State :=
  match (s.rateFresh l).laneState l with
  | 0 => s.rateFresh l
  | 4 => (s.rateFresh l).leaveActive l 5
  | _ => (s.rateFresh l).toExit l false

/-- The PLL loses its lock for a new rate (R89). -/
def State.unlockPll (s : State) (r : Nat) : State :=
  ({ s with link := { s.link with change := 2, oldRate := s.link.rate, rate := r, unjudged := 3 } } : State).put F.CLK_STAT_ltx_lock 0

theorem startRate_eq (s : State) (r : Nat) : s.startRate r = (List.range 4).foldl State.rateLeave (s.unlockPll r) := rfl

theorem rateFresh_stat (s : State) (l : Nat) : (s.rateFresh l).get (F.LNK_STAT_fails l) = 0 ∧ (s.rateFresh l).laneState l = s.laneState l ∧
    (s.rateFresh l).get (F.LNK_STAT_xreason l) = s.get (F.LNK_STAT_xreason l) := by
  have hstat (lo w : Nat) : (s.rateFresh l).get ⟨R.LNK_STAT l, lo, w⟩ = (s.put (F.LNK_STAT_fails l) 0).get ⟨R.LNK_STAT l, lo, w⟩ :=
    (eyeAbort_stat ..).trans (onLane_get ..)
  exact ⟨(hstat 3 5).trans (get_put_same _ (F.LNK_STAT_fails l) 0 (show 3 + 5 ≤ 32 by decide)),
    (hstat 0 3).trans (get_put_beside _ _ _ _ _ _ _ (.inl (by decide))), (hstat 16 3).trans (get_put_beside _ _ _ _ _ _ _ (.inr (by decide)))⟩

theorem rateFresh_beside (s : State) (l : Nat) : Keeps (besideLane l) s (s.rateFresh l) :=
  .comp (.same (.put (.refl ..) (not_besideLane_stat l)) (onLane_regs ..)) (eyeAbort_beside ..)

theorem rateFresh_linkKept (s : State) (l : Nat) : LinkKept s (s.rateFresh l) :=
  .trans (.onLane (.put (.refl s) ..) l _) (eyeAbort_linkKept ..)

theorem rateLeave_eq (s : State) (l : Nat) : s.rateLeave l = match s.laneState l with
    | 0 => s.rateFresh l
    | 4 => (s.rateFresh l).leaveActive l 5
    | _ => (s.rateFresh l).toExit l false := by
  obtain ⟨-, hstate, -⟩ := rateFresh_stat s l
  rw [← hstate]
  rfl

theorem rateLeave_beside (s : State) (l : Nat) : Keeps (besideLane l) s (s.rateLeave l) := by
  rw [rateLeave_eq]
  refine (rateFresh_beside s l).comp ?_
  split
  · exact .refl ..
  · exact leaveActive_beside ..
  · exact toExit_beside ..

theorem rateLeave_linkKept (s : State) (l : Nat) : LinkKept s (s.rateLeave l) := by
  rw [rateLeave_eq]
  refine (rateFresh_linkKept s l).trans ?_
  split
  · exact .refl _
  · exact leaveActive_linkKept ..
  · exact toExit_linkKept ..

/-- A lane's state, its failures and the reason for which it left ACTIVE. -/
def State.laneShown (s : State) (l : Nat) : Nat × Nat × Nat := (s.laneState l, s.get (F.LNK_STAT_fails l), s.get (F.LNK_STAT_xreason l))

/-- What a change of rate makes of them (R89, R93, R96). -/
def rateShown (e : Nat × Nat × Nat) : Nat × Nat × Nat := (if e.1 = 0 then 0 else 7, 0, if e.1 = 4 then 5 else e.2.2)

theorem rateLeave_shown (s : State) {l : Nat} (hl : l < 4) : (s.rateLeave l).laneShown l = rateShown (s.laneShown l) := by
  obtain ⟨hfails, hstate, hreason⟩ := rateFresh_stat s l
  rw [rateLeave_eq]
  unfold State.laneShown rateShown
  split
  · next h => rw [hstate, hfails, hreason, h]; rfl
  · next h =>
    obtain ⟨h7, h5, hkeep, -⟩ := leaveActive_shows hl (hstate.trans h) (show 5 < 8 by decide)
    rw [h7, h5, show F.LNK_STAT_fails l = ⟨R.LNK_STAT l, 3, 5⟩ from rfl, hkeep 3 5 (by decide) (.inl (by decide)), h]
    exact congrArg (fun n => (7, n, 5)) hfails
  · next h0 h4 =>
    obtain ⟨h7, -, -, hkeep⟩ := toExit_leaves (s.rateFresh l) hl false
    rw [if_neg h0, if_neg h4, h7]
    exact congrArg₂ (fun m n => (7, m, n)) ((hkeep 3 5 (by decide)).trans hfails) ((hkeep 16 3 (by decide)).trans hreason)

theorem laneShown_of {s t : State} {n : Nat} (h : Keeps (laneWord n) s t) : t.laneShown n = s.laneShown n := by
  unfold State.laneShown State.laneState
  rw [h.laneGet (f := F.LNK_STAT_state n) (k := 0x50) rfl rfl, h.laneGet (f := F.LNK_STAT_fails n) (k := 0x50) rfl rfl,
    h.laneGet (f := F.LNK_STAT_xreason n) (k := 0x50) rfl rfl]

end Sys2Proof.Machine

end

section
/-! The change of rate starts, the lane PLL relocks, and the old rate comes back (O47). -/

set_option Elab.async false

namespace Sys2Proof.Machine

theorem Keeps.foldlBeside {W : Nat → Prop} {f : State → Nat → State} (hf : ∀ u l, Keeps (besideLane l) u (f u l))
    (hW : ∀ l a, W a → besideLane l a) (ls : List Nat) (s : State) : Keeps W s (ls.foldl f s) :=
  .foldl (.refl ..) fun u l => (hf u l).mono (hW l)

/-- LNK_RATE shows no lane. -/
theorem besideLane_rate (l a : Nat) (h : a = R.LNK_RATE 0) : besideLane l a := by
  subst h
  simp only [besideLane, R.LNK_RATE, R.LNK_STAT, R.LNK_EYECTL, R.LNK_EYESTAT, R.PKT_POS, R.PKT_OVR, lnkAddr]
  omega

/-- The roles and the enables show no lane. -/
theorem besideLane_role (l a : Nat) (h : a % 0x1000 = 0x40 ∨ a % 0x1000 = 8) : besideLane l a := by
  simp only [besideLane, R.LNK_STAT, R.LNK_EYECTL, R.LNK_EYESTAT, R.PKT_POS, R.PKT_OVR, lnkAddr]
  omega

theorem unlockPll_get (s : State) (r : Nat) {f : Fld} (h : R.CLK_STAT ≠ f.addr) : (s.unlockPll r).get f = s.get f :=
  get_put_ne _ _ h

theorem laneStat_ne_clk (l k : Nat) : R.CLK_STAT ≠ lnkAddr l + k := by unfold R.CLK_STAT lnkAddr; omega

theorem unlockPll_shown (s : State) (r l : Nat) : (s.unlockPll r).laneShown l = s.laneShown l := by
  unfold State.laneShown State.laneState
  rw [unlockPll_get s r (f := F.LNK_STAT_state l) (laneStat_ne_clk l 0x50), unlockPll_get s r (f := F.LNK_STAT_fails l) (laneStat_ne_clk l 0x50),
    unlockPll_get s r (f := F.LNK_STAT_xreason l) (laneStat_ne_clk l 0x50)]

theorem startRate_shown (s : State) (r : Nat) (l : Fin 4) : (s.startRate r).laneShown l = rateShown (s.laneShown l) := by
  rw [startRate_eq, ← unlockPll_shown s r l]
  exact foldl_once (fun u => u.laneShown l) rateShown _ (List.mem_range.mpr l.isLt) List.nodup_range (fun u => rateLeave_shown u l.isLt)
    fun u d hd hne => laneShown_of ((rateLeave_beside u d).ofBeside (List.mem_range.mp hd) l.isLt hne)

theorem startRate_link (s : State) (r : Nat) : (s.startRate r).link.rate = r ∧ (s.startRate r).link.oldRate = s.link.rate ∧
    (s.startRate r).link.change = 2 ∧ (s.startRate r).link.watch = s.link.watch := by
  rw [startRate_eq]
  exact (LinkKept.foldl rateLeave_linkKept (List.range 4) (s.unlockPll r)).shows

theorem startRate_rate (s : State) (r lo w : Nat) : (s.startRate r).get ⟨R.LNK_RATE 0, lo, w⟩ = s.get ⟨R.LNK_RATE 0, lo, w⟩ := by
  have hkeep : Keeps (· = R.LNK_RATE 0) (s.unlockPll r) ((List.range 4).foldl State.rateLeave (s.unlockPll r)) :=
    .foldlBeside rateLeave_beside besideLane_rate ..
  rw [startRate_eq, hkeep.get rfl]
  exact unlockPll_get s r (show R.CLK_STAT ≠ R.LNK_RATE 0 by decide)

theorem rateLeave_only (s : State) (l : Nat) : Only (P.link ||| P.out ||| P.pgLnk ||| P.pgPkt) s (s.rateLeave l) := by
  have hfresh : Only (P.link ||| P.out ||| P.pgLnk ||| P.pgPkt) s (s.rateFresh l) :=
    .comp (.comp (.put (.refl ..) covers_lnk) (State.onLane_only ..)) (State.eyeAbort_only ..)
  rw [rateLeave_eq]
  split
  · exact hfresh
  · exact hfresh.comp (State.leaveActive_only ..)
  · exact hfresh.comp (State.toExit_only ..)

theorem startRate_lock (s : State) (r : Nat) : (s.startRate r).get F.CLK_STAT_ltx_lock = 0 := by
  have hfold : Only (P.link ||| P.out ||| P.pgLnk ||| P.pgPkt) (s.unlockPll r) ((List.range 4).foldl State.rateLeave (s.unlockPll r)) :=
    .foldl (.refl ..) rateLeave_only
  rw [startRate_eq, hfold.get]
  exact get_put_same _ F.CLK_STAT_ltx_lock 0 (by decide)

/-- Whether a change of rate may still be taken back (R89). -/
def State.watchRate (s : State) (b : Bool) : State := { s with link := { s.link with watch := b } }

theorem watchRate_shows (s : State) (b : Bool) : (s.watchRate b).link.rate = s.link.rate ∧ (s.watchRate b).link.oldRate = s.link.oldRate ∧
    (s.watchRate b).link.change = s.link.change ∧ (s.watchRate b).link.watch = b := ⟨rfl, rfl, rfl, rfl⟩

theorem watchRate_get (s : State) (b : Bool) (f : Fld) : (s.watchRate b).get f = s.get f := rfl

theorem exec_rateChangeStart {s : State} (h : s.link.change = 1) :
    exec .rateChangeStart s = .next ((s.startRate (s.get (F.LNK_RATE_rate 0))).watchRate true) := by
  show execRateChangeStart s = _
  rw [execRateChangeStart, if_pos (.inl h)]
  dsimp only [State.watchRate]

/-- LNK_RATE shows that the old rate comes back (R89). -/
def State.showRevert (s : State) : State :=
  (((s.put (F.LNK_RATE_rate 0) s.link.oldRate).put (F.LNK_RATE_reverted 0) 1).put (F.LNK_RATE_busy 0) 1).event 4 9

theorem showRevert_shows (s : State) : s.showRevert.get (F.LNK_RATE_rate 0) = s.link.oldRate % 8 ∧
    s.showRevert.get (F.LNK_RATE_reverted 0) = 1 ∧ s.showRevert.get (F.LNK_RATE_busy 0) = 1 := by
  have hrev (u : State) : (u.put (F.LNK_RATE_reverted 0) 1).get (F.LNK_RATE_rate 0) = u.get (F.LNK_RATE_rate 0) := get_put_apart _ _ _ _ (by decide)
  have hbusy (u : State) : (u.put (F.LNK_RATE_busy 0) 1).get (F.LNK_RATE_rate 0) = u.get (F.LNK_RATE_rate 0) := get_put_apart _ _ _ _ (by decide)
  have hboth (u : State) : (u.put (F.LNK_RATE_busy 0) 1).get (F.LNK_RATE_reverted 0) = u.get (F.LNK_RATE_reverted 0) :=
    get_put_apart _ _ _ _ (by decide)
  unfold State.showRevert
  rw [event_get (f := F.LNK_RATE_rate 0) _ (by decide), event_get (f := F.LNK_RATE_reverted 0) _ (by decide),
    event_get (f := F.LNK_RATE_busy 0) _ (by decide), hbusy, hrev, hboth]
  exact ⟨get_put_same _ (F.LNK_RATE_rate 0) _ (by decide), get_put_same _ (F.LNK_RATE_reverted 0) 1 (by decide),
    get_put_same _ (F.LNK_RATE_busy 0) 1 (by decide)⟩

theorem exec_rateRevert {s : State} (hw : s.link.watch = true) (hc : s.link.change = 0) :
    exec .rateRevert s = .next ((s.showRevert.startRate s.link.oldRate).watchRate false) := by
  show execRateRevert s = _
  rw [execRateRevert, if_pos ⟨hw, hc⟩]
  dsimp only [State.showRevert, State.watchRate]

/-- The scheduled change starts. -/
theorem rateChange_starts {s : State} (h : s.link.change = 1) :
    Does .rateChangeStart s (P.link ||| P.out ||| P.clk ||| P.pgLnk ||| P.pgPkt) fun t =>
      t.link.rate = s.get (F.LNK_RATE_rate 0) ∧ t.link.oldRate = s.link.rate ∧ t.link.change = 2 ∧ t.link.watch = true ∧
        t.get F.CLK_STAT_ltx_lock = 0 ∧ ∀ l : Fin 4, t.get (F.LNK_STAT_fails l) = 0 ∧ (s.laneState l = 0 → t.laneState l = 0) ∧
          (s.laneState l ≠ 0 → t.laneState l = 7) ∧ (s.laneState l = 4 → t.get (F.LNK_STAT_xreason l) = 5) := by
  have hx := exec_rateChangeStart h
  obtain ⟨hrate, hold, hchange, -⟩ := startRate_link s (s.get (F.LNK_RATE_rate 0))
  obtain ⟨hr, ho, hc, hw⟩ := watchRate_shows (s.startRate (s.get (F.LNK_RATE_rate 0))) true
  refine ⟨_, hx, execRateChangeStart_only s hx, hr.trans hrate, ho.trans hold, hc.trans hchange, hw, ?_, fun l => ?_⟩
  · rw [watchRate_get, startRate_lock]
  have hshown := startRate_shown s (s.get (F.LNK_RATE_rate 0)) l
  simp only [State.laneShown, rateShown, Prod.mk.injEq] at hshown
  obtain ⟨hstate, hfails, hreason⟩ := hshown
  have hsame : ((s.startRate (s.get (F.LNK_RATE_rate 0))).watchRate true).laneState l = _ := watchRate_get ..
  rw [hsame, watchRate_get, watchRate_get]
  exact ⟨hfails, fun h0 => hstate.trans (if_pos h0), fun h0 => hstate.trans (if_neg h0), fun h4 => hreason.trans (if_pos h4)⟩

/-- The old rate comes back. -/
theorem rate_reverts {s : State} (hw : s.link.watch = true) (hc : s.link.change = 0) :
    Does .rateRevert s (P.link ||| P.out ||| P.clk ||| P.pgLnk ||| P.pgPkt) fun t =>
      t.get (F.LNK_RATE_rate 0) = s.link.oldRate % 8 ∧ t.get (F.LNK_RATE_reverted 0) = 1 ∧ t.get (F.LNK_RATE_busy 0) = 1 ∧
        t.link.rate = s.link.oldRate ∧ t.link.change = 2 ∧ t.link.watch = false := by
  have hx := exec_rateRevert hw hc
  obtain ⟨hrate, -, hchange, -⟩ := startRate_link s.showRevert s.link.oldRate
  have hget (lo w : Nat) := startRate_rate s.showRevert s.link.oldRate lo w
  obtain ⟨hr, -, hc', hw'⟩ := watchRate_shows (s.showRevert.startRate s.link.oldRate) false
  obtain ⟨h1, h2, h3⟩ := showRevert_shows s
  exact ⟨_, hx, execRateRevert_only s hx, (watchRate_get ..).trans ((hget 0 3).trans h1), (watchRate_get ..).trans ((hget 8 1).trans h2),
    (watchRate_get ..).trans ((hget 9 1).trans h3), hr.trans hrate, hc'.trans hchange, hw'⟩

/-- A lane that waited in EXIT trains again (R93). -/
def State.relockLane (s : State) (l : Nat) : State := if s.laneState l = 7 then s.toDetect l else s

/-- The PLL has its lock, and the next change follows where one was written meanwhile (R89). -/
def State.lockPll (s : State) (again : Bool) : State :=
  let u := (s.flag (F.LNK_RATE_busy 0) again).put F.CLK_STAT_ltx_lock 1
  { u with link := { u.link with change := again.toNat, unjudged := 3 } }

theorem lockPll_get (s : State) (again : Bool) (f : Fld) :
    (s.lockPll again).get f = ((s.flag (F.LNK_RATE_busy 0) again).put F.CLK_STAT_ltx_lock 1).get f := rfl

/-- Whether a lane may train stands in the roles and the enables. -/
theorem laneOn_words {s t : State} (hr : ∀ n, t.reg (R.LNK_ROLE n) = s.reg (R.LNK_ROLE n)) (hp : ∀ p, t.reg (R.PCTRL p) = s.reg (R.PCTRL p))
    (l : Nat) : t.laneOn l = s.laneOn l := by
  have hrole (n lo w : Nat) : t.get ⟨R.LNK_ROLE n, lo, w⟩ = s.get ⟨R.LNK_ROLE n, lo, w⟩ := by rw [State.get, hr, State.get]
  have hbond : t.bonded l = s.bonded l := bonded_of_regs (fun n => hrole n 8 1) l
  have hlane : t.roleLane l = s.roleLane l := by rw [State.roleLane, hbond, State.roleLane]
  have hen : t.on (F.PCTRL_en (4 + l)) = s.on (F.PCTRL_en (4 + l)) := by
    rw [State.on, State.get, show (F.PCTRL_en (4 + l)).addr = R.PCTRL (4 + l) from rfl, hp]
    rfl
  have hlr : t.laneRole l = s.laneRole l := by
    rw [State.laneRole, hlane]
    exact hrole ..
  rw [State.laneOn, hlr, hen, State.laneOn]

theorem exec_lanePllRelock {s : State} (h : 2 ≤ s.link.change) :
    exec .lanePllRelock s = .next ((List.range 4).foldl State.relockLane (s.lockPll (s.link.change == 3))) :=
  congrArg Host.Outcome.next (if_pos h)

theorem toDetect_beside (s : State) (l : Nat) : Keeps (besideLane l) s (s.toDetect l) := by
  unfold State.toDetect
  exact .ite (setLane_beside ..) (.same (setLane_beside s l 0) (markDown_up _ l).2)

theorem relockLane_beside (s : State) (l : Nat) : Keeps (besideLane l) s (s.relockLane l) := .ite (toDetect_beside ..) (.refl ..)

theorem relockLane_linkKept (s : State) (l : Nat) : LinkKept s (s.relockLane l) := by
  unfold State.relockLane
  split
  · exact toDetect_linkKept ..
  · exact .refl s

theorem relockLane_only (s : State) (l : Nat) : Only (P.flt ||| P.link ||| P.pgLnk ||| P.pgPkt) s (s.relockLane l) :=
  .ite (toDetect_ends ..) (.refl ..)

/-- A lane's state and whether it may train. -/
def State.laneReady (s : State) (l : Nat) : Nat × Bool := (s.laneState l, s.laneOn l)

/-- What the relock makes of them (R89, R93). -/
def relockReady (e : Nat × Bool) : Nat × Bool := (if e.1 = 7 then (if e.2 then 1 else 0) else e.1, e.2)

theorem laneOn_beside {s t : State} {l : Nat} (h : Keeps (besideLane l) s t) (k : Nat) : t.laneOn k = s.laneOn k :=
  laneOn_congr (fun a ha => h.word a (besideLane_role l a ha)) k

theorem relockLane_ready (s : State) (l : Nat) : (s.relockLane l).laneReady l = relockReady (s.laneReady l) := by
  have hon := laneOn_beside (relockLane_beside s l) l
  unfold State.laneReady relockReady
  rw [hon]
  refine congrArg (·, s.laneOn l) ?_
  unfold State.relockLane
  by_cases h7 : s.laneState l = 7
  · rw [if_pos h7, if_pos h7]
    by_cases ho : s.laneOn l = true
    · rw [toDetect_state s l ho, if_pos ho]
    · rw [State.toDetect, if_neg ho, if_neg ho, markDown_state, laneState_setLane _ _ (by decide)]
  · rw [if_neg h7, if_neg h7]

theorem relock_ready (s : State) (l : Fin 4) : ((List.range 4).foldl State.relockLane s).laneReady l = relockReady (s.laneReady l) :=
  foldl_once (fun u => u.laneReady l) relockReady s (List.mem_range.mpr l.isLt) List.nodup_range (fun u => relockLane_ready u l)
    fun u d hd hne => by
      have hb := relockLane_beside u d
      unfold State.laneReady State.laneState
      rw [laneOn_beside hb l, (hb.ofBeside (List.mem_range.mp hd) l.isLt hne).laneGet (f := F.LNK_STAT_state l) (k := 0x50) rfl rfl]

/-- The lane PLL has relocked. -/
theorem pll_relocks {s : State} (h : 2 ≤ s.link.change) : Does .lanePllRelock s (P.fault ||| P.link ||| P.pgPkt) fun t =>
    t.get (F.LNK_RATE_busy 0) = (if s.link.change = 3 then 1 else 0) ∧ t.get F.CLK_STAT_ltx_lock = 1 ∧
      t.link.change = (if s.link.change = 3 then 1 else 0) ∧
      ∀ l : Fin 4, s.laneState l = 7 → t.laneState l = if s.laneOn l then 1 else 0 := by
  have hx := exec_lanePllRelock h
  have hbit : (s.link.change == 3).toNat = if s.link.change = 3 then 1 else 0 := by
    by_cases h3 : s.link.change = 3
    · rw [if_pos h3, h3]; rfl
    · rw [if_neg h3, beq_false_of_ne h3]; rfl
  have hreg {a : Nat} (hb : a ≠ R.LNK_RATE 0) (hc : a ≠ R.CLK_STAT) : (s.lockPll (s.link.change == 3)).reg a = s.reg a :=
    (reg_put_ne _ _ _ hc).trans (reg_put_ne _ _ _ hb)
  obtain ⟨-, -, hchange, -⟩ := (LinkKept.foldl relockLane_linkKept (List.range 4) (s.lockPll (s.link.change == 3))).shows
  refine ⟨_, hx, execLanePllRelock_only s hx, ?_, ?_, hchange.trans hbit, fun l h7 => ?_⟩
  · have hkeep : Keeps (· = R.LNK_RATE 0) (s.lockPll (s.link.change == 3)) _ := .foldlBeside relockLane_beside besideLane_rate (List.range 4) _
    rw [hkeep.get rfl, ← hbit, lockPll_get]
    have hne : F.CLK_STAT_ltx_lock.addr ≠ (F.LNK_RATE_busy 0).addr := by decide
    refine (get_put_ne (s.flag (F.LNK_RATE_busy 0) (s.link.change == 3)) 1 hne).trans ?_
    exact get_flag_same _ _ _ (by decide)
  · have hfold : Only (P.flt ||| P.link ||| P.pgLnk ||| P.pgPkt) (s.lockPll (s.link.change == 3)) _ :=
      .foldl (l := List.range 4) (.refl ..) relockLane_only
    rw [hfold.get, lockPll_get]
    exact get_put_same _ F.CLK_STAT_ltx_lock 1 (by decide)
  · have hstart : (s.lockPll (s.link.change == 3)).laneReady l = (7, s.laneOn l) := by
      have hstat : (s.lockPll (s.link.change == 3)).reg (R.LNK_STAT l) = s.reg (R.LNK_STAT l) := by
        simp only [R.LNK_STAT] at hreg ⊢
        exact hreg (by rw [R.LNK_RATE, lnkAddr, lnkAddr]; omega) (laneStat_ne_clk l _).symm
      have hon : (s.lockPll (s.link.change == 3)).laneOn l = s.laneOn l := by
        refine laneOn_words (fun n => hreg ?_ (laneStat_ne_clk n _).symm) (fun p => hreg ?_ ?_) l
        · rw [R.LNK_ROLE, R.LNK_RATE, lnkAddr, lnkAddr]; omega
        · rw [R.PCTRL, R.LNK_RATE, pageAddr, lnkAddr]; omega
        · rw [R.PCTRL, R.CLK_STAT, pageAddr]; omega
      rw [State.laneReady, hon, ← h7, State.laneState, State.get, show (F.LNK_STAT_state l).addr = R.LNK_STAT l from rfl, hstat]
      rfl
    have hready := relock_ready (s.lockPll (s.link.change == 3)) l
    rw [hstart] at hready
    exact congrArg Prod.fst hready

/-- Settles O47: each step of the lanes leaves LNK_RATE and the other lanes' pages, so that the four in turn act as one. -/
theorem rateChanges : Obligations.RateChanges := fun s =>
  ⟨fun src val r hr hm hmode => by
    subst hr
    refine ⟨fun hv => rateChange_schedules hm hmode hv, fun hv => ?_⟩
    obtain ⟨w, -, hx⟩ := exec_rateChange (v := val) hm hmode
    rw [hx, if_pos hv], rateChange_starts, pll_relocks, rate_reverts⟩

end Sys2Proof.Machine

end

section
/-! The equaliser of a lane (O48). -/

set_option Elab.async false

namespace Sys2Proof.Machine

theorem signed_range (v : Nat) : -32 ≤ signed 6 v ∧ signed 6 v ≤ 31 := by
  unfold signed
  split <;> omega

theorem signed_unsigned {a : Int} (h : -32 ≤ a ∧ a ≤ 31) : signed 6 (unsigned 6 a % 2 ^ 6) = a := by
  unfold signed unsigned
  split <;> omega

theorem moved_range (m : Move) {v lo hi : Int} (h : lo ≤ v ∧ v ≤ hi) : lo ≤ moved m v lo hi ∧ moved m v lo hi ≤ hi := by
  unfold moved
  split <;> omega

/-- The four fields of LNK_ADAPT that the loops move hold what they are set to (R101, R110). -/
theorem setEq_eqNow (s : State) (l : Nat) {c : Nat} {a b d : Int} (hc : c < 16) (ha : -32 ≤ a ∧ a ≤ 31) (hb : -32 ≤ b ∧ b ≤ 31)
    (hd : -32 ≤ d ∧ d ≤ 31) : (s.setEq l c a b d).eqNow l = (c, a, b, d) := by
  have hctle : (s.setEq l c a b d).get (F.LNK_ADAPT_ctle l) = c := by
    unfold State.setEq
    simp (disch := exact apart_lnk rfl rfl rfl) only [get_put_apart]
    exact (get_put_same _ (F.LNK_ADAPT_ctle l) c (show 0 + 4 ≤ 32 by decide)).trans (Nat.mod_eq_of_lt hc)
  have h1 : (s.setEq l c a b d).get (F.LNK_ADAPT_h1 l) = unsigned 6 a % 2 ^ 6 := by
    unfold State.setEq
    simp (disch := exact apart_lnk rfl rfl rfl) only [get_put_apart]
    exact get_put_same _ (F.LNK_ADAPT_h1 l) _ (show 4 + 6 ≤ 32 by decide)
  have h2 : (s.setEq l c a b d).get (F.LNK_ADAPT_h2 l) = unsigned 6 b % 2 ^ 6 := by
    unfold State.setEq
    simp (disch := exact apart_lnk rfl rfl rfl) only [get_put_apart]
    exact get_put_same _ (F.LNK_ADAPT_h2 l) _ (show 10 + 6 ≤ 32 by decide)
  have h3 : (s.setEq l c a b d).get (F.LNK_ADAPT_h3 l) = unsigned 6 d % 2 ^ 6 := get_put_same _ (F.LNK_ADAPT_h3 l) _ (show 16 + 6 ≤ 32 by decide)
  rw [State.eqNow, hctle, h1, h2, h3, signed_unsigned ha, signed_unsigned hb, signed_unsigned hd]

theorem conv_eqNow (s : State) (l : Nat) : (s.put (F.LNK_ADAPT_conv l) 1).eqNow l = s.eqNow l := by
  unfold State.eqNow
  simp (disch := exact apart_lnk rfl rfl rfl) only [get_put_apart]

theorem setEq_conv (s : State) (l c : Nat) (a b d : Int) : (s.setEq l c a b d).get (F.LNK_ADAPT_conv l) = s.get (F.LNK_ADAPT_conv l) := by
  unfold State.setEq
  simp (disch := exact apart_lnk rfl rfl rfl) only [get_put_apart]

theorem setEq_keeps (s : State) (l c : Nat) (a b d : Int) : Keeps (· ≠ R.LNK_ADAPT l) s (s.setEq l c a b d) :=
  .put (.put (.put (.put (.refl ..) fun h => h rfl) fun h => h rfl) fun h => h rfl) fun h => h rfl

/-- The equaliser values that a lane has had, after one update more (R101). -/
def Lane.updated (a : Lane) (v w : Nat × Int × Int × Int) : Lane :=
  { a with eqHist := (w :: (if a.eqHist = [] then [v] else a.eqHist)).take 65, fed := 0 }

/-- The state after the loops moved a lane's equaliser (R101). -/
def State.moveEq (s : State) (l : Nat) (w : Nat × Int × Int × Int) : State :=
  (s.setEq l w.1 w.2.1 w.2.2.1 w.2.2.2).onLane l fun a => a.updated (s.eqNow l) w

theorem moveEq_get (s : State) (l : Nat) (w : Nat × Int × Int × Int) (f : Fld) :
    (s.moveEq l w).get f = (s.setEq l w.1 w.2.1 w.2.2.1 w.2.2.2).get f := onLane_get ..

theorem moveEq_eqNow (s : State) (l : Nat) {c : Nat} {a b d : Int} (hc : c < 16) (ha : -32 ≤ a ∧ a ≤ 31) (hb : -32 ≤ b ∧ b ≤ 31)
    (hd : -32 ≤ d ∧ d ≤ 31) : (s.moveEq l (c, a, b, d)).eqNow l = (c, a, b, d) := by
  rw [State.eqNow, moveEq_get, moveEq_get, moveEq_get, moveEq_get]
  exact setEq_eqNow s l hc ha hb hd

/-- A one-bit field that is set reads 1. -/
theorem on_iff (s : State) (a n : Nat) : s.on ⟨a, n, 1⟩ = true ↔ s.get ⟨a, n, 1⟩ = 1 := by
  rw [get_eq_on]
  cases s.on ⟨a, n, 1⟩ <;> simp

/-- An update that is due (R101, R104). -/
theorem exec_adaptUpdate {l : Fin 4} {s : State} {ctle m1 m2 m3 : Move} {c : Nat} (hstate : 2 ≤ s.laneState l ∧ s.laneState l ≤ 4)
    (hfrozen : s.get (F.LNK_ADAPT_frozen l) = 0) (hfed : (if s.get (F.LNK_ADAPT_readapt l) = 1 then 32 else 256) ≤ (s.lane l).fed)
    (hc : (c : Int) = moved ctle (s.eqNow l).1 0 15) : exec (.adaptUpdate l ctle m1 m2 m3) s = .next (
      let u := s.moveEq l (c, moved m1 (s.eqNow l).2.1 (-32) 31, moved m2 (s.eqNow l).2.2.1 (-32) 31, moved m3 (s.eqNow l).2.2.2 (-32) 31)
      if converged (u.lane l).eqHist then u.put (F.LNK_ADAPT_conv l) 1 else u) := by
  have hon : s.on (F.LNK_ADAPT_readapt l) = true ↔ s.get (F.LNK_ADAPT_readapt l) = 1 := on_iff ..
  have hdue : s.adaptDue l = true := by
    unfold State.adaptDue
    rw [if_congr hon rfl rfl, State.on, hfrozen]
    simp [hstate, hfed]
  have hcn : (moved ctle (s.eqNow l).1 0 15).toNat = c := by rw [← hc, Int.toNat_natCast]
  show execAdaptUpdate l ctle m1 m2 m3 s = _
  rw [execAdaptUpdate, if_pos hdue]
  dsimp only
  rw [hcn]
  rfl

theorem adapt_updates {l : Fin 4} {s : State} {ctle m1 m2 m3 : Move} {c : Nat} {h1 h2 h3 : Int} (hlo : 2 ≤ s.laneState l)
    (hhi : s.laneState l ≤ 4) (hfrozen : s.get (F.LNK_ADAPT_frozen l) = 0)
    (hfed : (if s.get (F.LNK_ADAPT_readapt l) = 1 then 32 else 256) ≤ (s.lane l).fed) (hc : (c : Int) = moved ctle (s.eqNow l).1 0 15)
    (e1 : h1 = moved m1 (s.eqNow l).2.1 (-32) 31) (e2 : h2 = moved m2 (s.eqNow l).2.2.1 (-32) 31)
    (e3 : h3 = moved m3 (s.eqNow l).2.2.2 (-32) 31) :
    Does (.adaptUpdate l ctle m1 m2 m3) s (P.link ||| P.pgLnk) fun t => t.eqNow l = (c, h1, h2, h3) ∧ (t.lane l).fed = 0 ∧
      regsBut [R.LNK_ADAPT l] s t ∧ t.get (F.LNK_ADAPT_conv l) = if converged (t.lane l).eqHist then 1 else s.get (F.LNK_ADAPT_conv l) := by
  have hx := exec_adaptUpdate (m1 := m1) (m2 := m2) (m3 := m3) ⟨hlo, hhi⟩ hfrozen hfed hc
  rw [← e1, ← e2, ← e3] at hx
  have hctle : (0 : Int) ≤ (s.eqNow l).1 ∧ ((s.eqNow l).1 : Int) ≤ 15 := by
    have : (s.eqNow l).1 < 2 ^ 4 := get_lt s (F.LNK_ADAPT_ctle l)
    omega
  have hcr := moved_range ctle hctle
  have hnow := moveEq_eqNow s l (c := c) (by omega) (e1 ▸ moved_range m1 (signed_range _)) (e2 ▸ moved_range m2 (signed_range _))
    (e3 ▸ moved_range m3 (signed_range _))
  have hfed0 : ((s.moveEq l (c, h1, h2, h3)).lane l).fed = 0 := congrArg Lane.fed (lane_onLane_fin ..)
  have hkeep : Keeps (· ≠ R.LNK_ADAPT l) s (s.moveEq l (c, h1, h2, h3)) := .same (setEq_keeps ..) (onLane_regs ..)
  refine ⟨_, hx, execAdaptUpdate_only _ _ _ _ _ _ hx, ?_⟩
  dsimp only
  split
  · next hconv =>
    refine ⟨(conv_eqNow ..).trans hnow, hfed0, fun a ha => ?_, ?_⟩
    · have hne : a ≠ R.LNK_ADAPT l := fun h => ha (by rw [h]; exact List.mem_singleton.mpr rfl)
      exact (reg_put_ne _ _ _ hne).trans (hkeep.word a hne)
    · rw [put_lane, if_pos hconv]
      exact get_put_same _ (F.LNK_ADAPT_conv l) 1 (show 22 + 1 ≤ 32 by decide)
  · next hconv =>
    refine ⟨hnow, hfed0, fun a ha => hkeep.word a fun h => ha (by rw [h]; exact List.mem_singleton.mpr rfl), ?_⟩
    rw [moveEq_get, setEq_conv]

/-- What LNK_ADAPT and LNK_EYESTAT show of a frozen equaliser (R102, R103). -/
theorem showFrozen_shows (s : State) (l : Nat) :
    (s.showFrozen l).get (F.LNK_ADAPT_frozen l) = ((s.lane l).iced || s.on (F.LNK_CFG_adapt_hold l)).toNat ∧
      (s.showFrozen l).get (F.LNK_EYESTAT_wait l) = (((s.lane l).iced || s.on (F.LNK_CFG_adapt_hold l)) && s.on (F.LNK_EYESTAT_busy l)).toNat ∧
      regsBut [R.LNK_ADAPT l, R.LNK_EYESTAT l] s (s.showFrozen l) := by
  unfold State.showFrozen
  refine ⟨?_, get_flag_same _ (F.LNK_EYESTAT_wait l) _ (by exact ⟨rfl, show 1 + 1 ≤ 32 by decide⟩), fun a ha => ?_⟩
  · refine (get_put_apart _ _ _ _ (apart_lnk rfl rfl rfl)).trans ?_
    exact get_flag_same _ (F.LNK_ADAPT_frozen l) _ (by exact ⟨rfl, show 23 + 1 ≤ 32 by decide⟩)
  · simp only [List.mem_cons, List.not_mem_nil, or_false, not_or] at ha
    exact (reg_put_ne _ _ _ ha.2).trans (reg_put_ne _ _ _ ha.1)

theorem adapt_freezes {l : Fin 4} {s : State} (h : 256 ≤ (s.lane l).plainN) : Does (.adaptFreeze l) s (P.link ||| P.pgLnk) fun t =>
    t.get (F.LNK_ADAPT_frozen l) = 1 ∧ t.get (F.LNK_EYESTAT_wait l) = s.get (F.LNK_EYESTAT_busy l) ∧
      regsBut [R.LNK_ADAPT l, R.LNK_EYESTAT l] s t := by
  have hx : exec (.adaptFreeze l) s = _ := congrArg Host.Outcome.next (if_pos h)
  refine ⟨_, hx, execAdaptFreeze_only _ _ hx, ?_⟩
  obtain ⟨hfrozen, hwait, hregs⟩ := showFrozen_shows (s.onLane l fun a => { a with iced := true, dataN := 0 }) l
  rw [lane_onLane_fin] at hfrozen hwait
  refine ⟨hfrozen.trans ?_, hwait.trans ?_, fun a ha => (hregs a ha).trans (reg_congr (onLane_regs ..) a)⟩
  · rw [Bool.true_or]; rfl
  · rw [Bool.true_or, Bool.true_and, State.on, onLane_get]
    exact (get_eq_on ..).symm

theorem adapt_resumes {l : Fin 4} {s : State} (h : 64 ≤ (s.lane l).dataN) : Does (.adaptResume l) s (P.link ||| P.pgLnk) fun t =>
    t.get (F.LNK_ADAPT_frozen l) = s.get (F.LNK_CFG_adapt_hold l) ∧ (t.lane l).iced = false ∧
      (s.get (F.LNK_CFG_adapt_hold l) = 0 → t.get (F.LNK_EYESTAT_wait l) = 0) ∧ regsBut [R.LNK_ADAPT l, R.LNK_EYESTAT l] s t := by
  have hx : exec (.adaptResume l) s = _ := congrArg Host.Outcome.next (if_pos h)
  refine ⟨_, hx, execAdaptResume_only _ _ hx, ?_⟩
  obtain ⟨hfrozen, hwait, hregs⟩ := showFrozen_shows (s.onLane l fun a => { a with iced := false }) l
  have hhold : (s.onLane l fun a => { a with iced := false }).on (F.LNK_CFG_adapt_hold l) = s.on (F.LNK_CFG_adapt_hold l) := by
    rw [State.on, onLane_get, State.on]
  rw [lane_onLane_fin, hhold, Bool.false_or] at hfrozen hwait
  refine ⟨hfrozen.trans (get_eq_on ..).symm, congrArg Lane.iced (lane_onLane_fin s l _), fun h0 => hwait.trans ?_,
    fun a ha => (hregs a ha).trans (reg_congr (onLane_regs ..) a)⟩
  rw [State.on, h0]
  rfl

end Sys2Proof.Machine

end

section
/-! Margin checks and the eye monitor of a lane (O48). -/

set_option Elab.async false

namespace Sys2Proof.Machine

theorem lnkAddr_ne {n k j : Nat} (h : k ≠ j) : lnkAddr n + k ≠ lnkAddr n + j := fun he => h (Nat.add_left_cancel he)

theorem lnkAddr_ne_raw {n k p : Nat} (h : 0x40 ≤ k ∧ k < 0x1000 := by decide) : lnkAddr n + k ≠ R.PIRQ_RAW p :=
  fun he => not_laneWord_raw p n ⟨k, he.symm, h⟩

/-- An eye operation starts: LNK_EYESTAT shows that it runs, or waits where adaptation is frozen (R103). -/
theorem eyeBegin_shows (s : State) {l : Nat} (hl : l < 4) :
    (s.eyeBegin l).get (F.LNK_EYESTAT_busy l) = 1 ∧ (s.eyeBegin l).get (F.LNK_EYESTAT_done l) = 0 ∧
      (s.eyeBegin l).get (F.LNK_EYESTAT_aborted l) = 0 ∧ (s.eyeBegin l).get (F.LNK_EYESTAT_wait l) = s.get (F.LNK_ADAPT_frozen l) ∧
      ((s.eyeBegin l).lane l).eyeWait = false ∧ ((s.eyeBegin l).lane l).margin = (s.lane l).margin := by
  unfold State.eyeBegin
  dsimp only
  refine ⟨?_, ?_, ?_, ?_, ?_, ?_⟩
  · simp (disch := exact apart_lnk rfl rfl rfl) only [onLane_get, get_put_apart]
    exact get_put_same _ (F.LNK_EYESTAT_busy l) 1 (show 0 + 1 ≤ 32 by decide)
  · simp (disch := exact apart_lnk rfl rfl rfl) only [onLane_get, get_put_apart]
    exact get_put_same _ (F.LNK_EYESTAT_done l) 0 (show 2 + 1 ≤ 32 by decide)
  · simp (disch := exact apart_lnk rfl rfl rfl) only [onLane_get, get_put_apart]
    exact get_put_same _ (F.LNK_EYESTAT_aborted l) 0 (show 3 + 1 ≤ 32 by decide)
  · simp (disch := exact apart_lnk rfl rfl rfl) only [onLane_get, get_put_apart]
    exact (get_put_same _ (F.LNK_EYESTAT_wait l) _ (show 1 + 1 ≤ 32 by decide)).trans (Nat.mod_eq_of_lt (get_lt s (F.LNK_ADAPT_frozen l)))
  · rw [lane_onLane _ hl]
  · rw [lane_onLane _ hl]; rfl

theorem eyeBegin_keeps (s : State) (l : Nat) : Keeps (· ≠ R.LNK_EYESTAT l) s (s.eyeBegin l) :=
  .same (.put (.put (.put (.put (.refl ..) fun h => h rfl) fun h => h rfl) fun h => h rfl) fun h => h rfl) (onLane_regs ..)

/-- A running eye operation, or one that waits, is aborted (R103, R109). -/
theorem eyeAbort_shows (s : State) {l : Nat} (hl : l < 4) (h : s.get (F.LNK_EYESTAT_busy l) = 1 ∨ (s.lane l).eyeWait = true) :
    (s.eyeAbort l).get (F.LNK_EYECTL_op l) = 0 ∧ (s.eyeAbort l).get (F.LNK_EYESTAT_busy l) = 0 ∧
      (s.eyeAbort l).get (F.LNK_EYESTAT_aborted l) = 1 ∧ ((s.eyeAbort l).lane l).eyeWait = false := by
  have hbusy : (s.put (F.LNK_EYECTL_op l) 0).get (F.LNK_EYESTAT_busy l) = s.get (F.LNK_EYESTAT_busy l) :=
    get_put_apart _ _ _ _ (apart_lnk rfl rfl rfl)
  have hruns : (s.put (F.LNK_EYECTL_op l) 0).on (F.LNK_EYESTAT_busy l) = true ∨ ((s.put (F.LNK_EYECTL_op l) 0).lane l).eyeWait = true :=
    h.imp (fun h1 => (on_iff ..).mpr (hbusy.trans h1)) id
  unfold State.eyeAbort
  dsimp only
  rw [if_pos hruns]
  refine ⟨?_, ?_, ?_, congrArg Lane.eyeWait (lane_onLane _ hl _)⟩
  · simp (disch := first | exact apart_lnk rfl rfl rfl | exact notRaw_fld rfl rfl) only [event_get, onLane_get, get_put_apart]
    exact get_put_same _ (F.LNK_EYECTL_op l) 0 (show 0 + 2 ≤ 32 by decide)
  · simp (disch := first | exact apart_lnk rfl rfl rfl | exact notRaw_fld rfl rfl) only [event_get, onLane_get, get_put_apart]
    exact get_put_same _ (F.LNK_EYESTAT_busy l) 0 (show 0 + 1 ≤ 32 by decide)
  · rw [event_get (f := F.LNK_EYESTAT_aborted l) _ (notRaw_fld rfl rfl), onLane_get]
    exact get_put_same _ (F.LNK_EYESTAT_aborted l) 1 (show 3 + 1 ≤ 32 by decide)

/-- The result of a margin check is noted (R104, R111). -/
def State.noteMargin (s : State) (l w h : Nat) : State :=
  (((s.onLane l fun a => { a with margin := false }).put (F.LNK_EYEMRG_width l) w).put (F.LNK_EYEMRG_height l) h).put (F.LNK_EYEMRG_valid l) 1

/-- Whether a margin lies below its threshold (R104). -/
def State.marginLow (s : State) (l w h : Nat) : Bool := w < s.get (F.LNK_EYETHR_width l) || h < s.get (F.LNK_EYETHR_height l)

/-- A low margin is an event, and starts a re-adaptation where LNK_CFG.readapt asks for it (R104). -/
def State.answerMargin (s : State) (l : Nat) (low : Bool) : State :=
  if low && (s.eventIf low (4 + l) 4).on (F.LNK_CFG_readapt l) then (s.eventIf low (4 + l) 4).readapt l else s.eventIf low (4 + l) 4

/-- An eye operation that waited for the margin check starts (R103). -/
def State.resumeEye (s : State) (l : Nat) : State := if (s.lane l).eyeWait then s.eyeBegin l else s

theorem noteMargin_keeps (s : State) (l w h : Nat) : Keeps (· ≠ R.LNK_EYEMRG l) s (s.noteMargin l w h) :=
  .put (.put (.put (.same (.refl ..) (onLane_regs ..)) fun h => h rfl) fun h => h rfl) fun h => h rfl

theorem exec_marginCheckDone {l : Fin 4} {s : State} (w h : BitVec 7) (hm : (s.lane l).margin = true) :
    exec (.marginCheckDone l w h) s =
      .next (((s.noteMargin l w.toNat h.toNat).answerMargin l (s.marginLow l w.toNat h.toNat)).resumeEye l) := by
  have hk := noteMargin_keeps s l w.toNat h.toNat
  have hlow : (s.noteMargin l w.toNat h.toNat).marginLow l w.toNat h.toNat = s.marginLow l w.toNat h.toNat := by
    unfold State.marginLow
    rw [hk.get (f := F.LNK_EYETHR_width l) (lnkAddr_ne (by decide)), hk.get (f := F.LNK_EYETHR_height l) (lnkAddr_ne (by decide))]
  rw [← hlow]
  show execMarginCheckDone l w h s = _
  rw [execMarginCheckDone, if_pos hm]
  rfl

theorem noteMargin_shows (s : State) (l : Fin 4) (w h : BitVec 7) :
    (s.noteMargin l w.toNat h.toNat).get (F.LNK_EYEMRG_width l) = w.toNat ∧
      (s.noteMargin l w.toNat h.toNat).get (F.LNK_EYEMRG_height l) = h.toNat ∧
      (s.noteMargin l w.toNat h.toNat).get (F.LNK_EYEMRG_valid l) = 1 ∧ ((s.noteMargin l w.toNat h.toNat).lane l).margin = false ∧
      ((s.noteMargin l w.toNat h.toNat).lane l).eyeWait = (s.lane l).eyeWait := by
  unfold State.noteMargin
  refine ⟨?_, ?_, get_put_same _ (F.LNK_EYEMRG_valid l) 1 (show 15 + 1 ≤ 32 by decide), congrArg Lane.margin (lane_onLane_fin ..),
    lane_onLane_part Lane.eyeWait s l l _ fun _ => rfl⟩
  · simp (disch := exact apart_lnk rfl rfl rfl) only [get_put_apart]
    exact (get_put_same _ (F.LNK_EYEMRG_width l) _ (show 0 + 7 ≤ 32 by decide)).trans (Nat.mod_eq_of_lt w.isLt)
  · simp (disch := exact apart_lnk rfl rfl rfl) only [get_put_apart]
    exact (get_put_same _ (F.LNK_EYEMRG_height l) _ (show 8 + 7 ≤ 32 by decide)).trans (Nat.mod_eq_of_lt h.isLt)

theorem answerMargin_keeps (s : State) (l : Nat) (low : Bool) :
    Keeps (fun a => a ≠ R.LNK_ADAPT l ∧ a ≠ R.PIRQ_RAW (4 + l)) s (s.answerMargin l low) := by
  have hev : Keeps (fun a => a ≠ R.LNK_ADAPT l ∧ a ≠ R.PIRQ_RAW (4 + l)) s (s.eventIf low (4 + l) 4) := .eventIf (.refl ..) fun h => h.2 rfl
  exact .ite (.put (.same hev (onLane_regs ..)) fun h => h.1 rfl) hev

theorem answerMargin_lane (s : State) (l : Fin 4) (low : Bool) : ((s.answerMargin l low).lane l).margin = (s.lane l).margin ∧
    ((s.answerMargin l low).lane l).eyeWait = (s.lane l).eyeWait := by
  have hev : (s.eventIf low (4 + l) 4).lane l = s.lane l := by unfold State.eventIf; split <;> rfl
  unfold State.answerMargin
  split
  · unfold State.readapt
    rw [put_lane, lane_onLane_fin, hev]
    exact ⟨rfl, rfl⟩
  · rw [hev]
    exact ⟨rfl, rfl⟩

theorem answerMargin_low (s : State) (l : Nat) : (s.answerMargin l true).bit (R.PIRQ_RAW (4 + l)) 4 = true ∧
    (s.get (F.LNK_CFG_readapt l) = 1 → (s.answerMargin l true).get (F.LNK_ADAPT_readapt l) = 1) := by
  have hev : s.eventIf true (4 + l) 4 = s.event (4 + l) 4 := if_pos rfl
  have hbit := event_same s (p := 4 + l) (n := 4) (by decide)
  have hon : (s.event (4 + l) 4).on (F.LNK_CFG_readapt l) = true ↔ s.get (F.LNK_CFG_readapt l) = 1 := by
    refine (on_iff ..).trans (Eq.congr_left ?_)
    exact event_get (f := F.LNK_CFG_readapt l) _ (notRaw_fld rfl rfl)
  unfold State.answerMargin
  rw [hev, Bool.true_and]
  split
  · refine ⟨?_, fun _ => get_put_same _ (F.LNK_ADAPT_readapt l) 1 (show 24 + 1 ≤ 32 by decide)⟩
    rw [State.readapt, State.bit, reg_put_ne _ _ _ (lnkAddr_ne_raw (k := 0x60)).symm, reg_congr (onLane_regs ..)]
    exact hbit
  · next hn => exact ⟨hbit, fun h => absurd (hon.mpr h) hn⟩

theorem resumeEye_keeps (s : State) (l : Nat) : Keeps (· ≠ R.LNK_EYESTAT l) s (s.resumeEye l) := .ite (eyeBegin_keeps ..) (.refl ..)

theorem margin_ends {l : Fin 4} {s : State} (w h : BitVec 7) (hm : (s.lane l).margin = true) :
    Does (.marginCheckDone l w h) s (P.link ||| P.pgLnk) fun t =>
      t.get (F.LNK_EYEMRG_width l) = w.toNat ∧ t.get (F.LNK_EYEMRG_height l) = h.toNat ∧ t.get (F.LNK_EYEMRG_valid l) = 1 ∧
        (t.lane l).margin = false ∧
        (w.toNat < s.get (F.LNK_EYETHR_width l) ∨ h.toNat < s.get (F.LNK_EYETHR_height l) →
          t.bit (R.PIRQ_RAW (4 + l)) 4 = true ∧ (s.get (F.LNK_CFG_readapt l) = 1 → t.get (F.LNK_ADAPT_readapt l) = 1)) ∧
        ((s.lane l).eyeWait = true → t.get (F.LNK_EYESTAT_busy l) = 1 ∧ (t.lane l).eyeWait = false) := by
  have hx := exec_marginCheckDone w h hm
  refine ⟨_, hx, execMarginCheckDone_only _ _ _ _ hx, ?_⟩
  obtain ⟨hwidth, hheight, hvalid, hoff, hwait⟩ := noteMargin_shows s l w h
  obtain ⟨hmargin, heye⟩ := answerMargin_lane (s.noteMargin l w.toNat h.toNat) l (s.marginLow l w.toNat h.toNat)
  obtain ⟨hbusy, -, -, -, hwaits, hmar⟩ :=
    eyeBegin_shows ((s.noteMargin l w.toNat h.toNat).answerMargin l (s.marginLow l w.toNat h.toNat)) l.isLt
  have ha := answerMargin_keeps (s.noteMargin l w.toNat h.toNat) l (s.marginLow l w.toNat h.toNat)
  have hr := resumeEye_keeps ((s.noteMargin l w.toNat h.toNat).answerMargin l (s.marginLow l w.toNat h.toNat)) l
  have hmrg {f : Fld} (hf : f.addr = R.LNK_EYEMRG l) :
      (((s.noteMargin l w.toNat h.toNat).answerMargin l (s.marginLow l w.toNat h.toNat)).resumeEye l).get f =
        (s.noteMargin l w.toNat h.toNat).get f := by
    rw [hr.get (by rw [hf]; exact lnkAddr_ne (by decide)), ha.get (by rw [hf]; exact ⟨lnkAddr_ne (by decide), lnkAddr_ne_raw⟩)]
  refine ⟨(hmrg rfl).trans hwidth, (hmrg rfl).trans hheight, (hmrg rfl).trans hvalid, ?_, fun hl => ?_, fun he => ?_⟩
  · unfold State.resumeEye
    split
    · exact hmar.trans (hmargin.trans hoff)
    · exact hmargin.trans hoff
  · have hlow : s.marginLow l w.toNat h.toNat = true := by simpa [State.marginLow] using hl
    rw [hlow] at hr ⊢
    obtain ⟨hbit, hread⟩ := answerMargin_low (s.noteMargin l w.toNat h.toNat) l
    rw [State.bit, hr.word _ (lnkAddr_ne_raw (k := 0x74)).symm, hr.get (f := F.LNK_ADAPT_readapt l) (lnkAddr_ne (by decide))]
    exact ⟨hbit, fun hc => hread (((noteMargin_keeps ..).get (lnkAddr_ne (by decide))).trans hc)⟩
  · unfold State.resumeEye
    rw [if_pos (heye.trans (hwait.trans he))]
    exact ⟨hbusy, hwaits⟩

end Sys2Proof.Machine

end

section
/-! Operations of the eye monitor: a write of LNK_EYECTL, and the end of an operation (O48). -/

set_option Elab.async false

namespace Sys2Proof.Machine

/-- A field rule that replaces one value leaves the other bits. -/
theorem eyeNorm_op (v : Nat) : bits (Norm.apply (.eq 0 2 3 0) v) 0 2 = (if bits v 0 2 = 3 then 0 else bits v 0 2) ∧
    bits (Norm.apply (.eq 0 2 3 0) v) 8 24 = bits v 8 24 := by
  rw [Norm.apply]
  by_cases h : bits v 0 2 = 3
  · rw [if_pos h, if_pos h]
    simp only [bits, Nat.reducePow] at h ⊢
    omega
  · rw [if_neg h, if_neg h]
    exact ⟨rfl, rfl⟩

theorem eyeNorm_volt (v : Nat) : bits (Norm.apply (.eq 16 7 64 65) v) 16 7 = (if bits v 16 7 = 64 then 65 else bits v 16 7) ∧
    bits (Norm.apply (.eq 16 7 64 65) v) 0 16 = bits v 0 16 ∧ bits (Norm.apply (.eq 16 7 64 65) v) 24 8 = bits v 24 8 := by
  rw [Norm.apply]
  by_cases h : bits v 16 7 = 64
  · rw [if_pos h, if_pos h]
    simp only [bits, Nat.reducePow] at h ⊢
    omega
  · rw [if_neg h, if_neg h]
    exact ⟨rfl, rfl, rfl⟩

theorem eyeNorm_dwell (v : Nat) : bits (Norm.apply (.eq 24 4 15 14) v) 24 4 = min 14 (bits v 24 4) ∧
    bits (Norm.apply (.eq 24 4 15 14) v) 0 24 = bits v 0 24 ∧ bits (Norm.apply (.eq 24 4 15 14) v) 28 4 = bits v 28 4 := by
  rw [Norm.apply]
  by_cases h : bits v 24 4 = 15
  · rw [if_pos h]
    simp only [bits, Nat.reducePow] at h ⊢
    omega
  · rw [if_neg h]
    have hlt : bits v 24 4 < 16 := Nat.mod_lt _ (by decide)
    exact ⟨by omega, rfl, rfl⟩

/-- A part of a field follows from the field. -/
theorem bits_part {x y lo w lo' w' : Nat} (h : bits x lo w = bits y lo w) (hlo : lo ≤ lo') (hw : lo' + w' ≤ lo + w) :
    bits x lo' w' = bits y lo' w' := by
  have key (n : Nat) : bits n lo' w' = bits (bits n lo w) (lo' - lo) w' := by
    refine Nat.eq_of_testBit_eq fun i => ?_
    simp only [bits, Nat.testBit_mod_two_pow, Nat.testBit_div_two_pow]
    by_cases hi : i < w'
    · rw [show i + (lo' - lo) + lo = i + lo' by omega]
      simp [hi, show i + (lo' - lo) < w by omega]
    · simp [hi]
  rw [key x, h, ← key y]

/-- LNK_EYECTL beside what it shows. -/
theorem eyeCtlWord (l : Fin 4) : ∃ r, regSpec (R.LNK_EYECTL l) = some r ∧ rwWord (R.LNK_EYECTL l) r = true ∧ r.mixed = false ∧
    r.rw = 0xFF7F3F03 ∧ r.norms = [.eq 0 2 3 0, .eq 16 7 64 65, .eq 24 4 15 14] := by
  fin_cases l <;> exact ⟨_, rfl, by decide, by decide, rfl, rfl⟩

/-- What a write of LNK_EYECTL does beside holding its value (R103). -/
theorem afterWrite_eyeCtl (s old : State) (src : Src) (l : Fin 4) (v : Word) :
    s.afterWrite old src (R.LNK_EYECTL l) v = s.eyeStart l (s.get (F.LNK_EYECTL_op l)) (old.on (F.LNK_EYESTAT_busy l)) := by
  fin_cases l <;> rfl

/-- The fields of LNK_EYECTL after a write of `v` (R103, R111). -/
theorem eyeCtl_written (s : State) {l : Fin 4} (v : Word) {r : RegSpec} (hr : regSpec (R.LNK_EYECTL l) = some r) (hrw : r.rw = 0xFF7F3F03)
    (hn : r.norms = [.eq 0 2 3 0, .eq 16 7 64 65, .eq 24 4 15 14]) (hop : getBits v 0 2 ≠ 3) :
    getBits (s.written (R.LNK_EYECTL l) r v) 0 2 = getBits v 0 2 ∧ getBits (s.written (R.LNK_EYECTL l) r v) 8 6 = getBits v 8 6 ∧
      getBits (s.written (R.LNK_EYECTL l) r v) 24 4 = min 14 (getBits v 24 4) ∧
      getBits (s.written (R.LNK_EYECTL l) r v) 28 4 = getBits v 28 4 ∧
      getBits (s.written (R.LNK_EYECTL l) r v) 16 7 = (if getBits v 16 7 = 64 then 65 else getBits v 16 7) := by
  have hin {lo w : Nat} (h : getBits (BitVec.ofNat 32 0xFF7F3F03) lo w = 2 ^ w - 1) :
      bits ((s.reg (R.LNK_EYECTL l) &&& ~~~BitVec.ofNat 32 0xFF7F3F03) ||| (v &&& BitVec.ofNat 32 0xFF7F3F03)).toNat lo w = getBits v lo w := by
    rw [← getBits_toNat, getBits_merge_in h]
  have hnorm (n : Nat) : normWord (R.LNK_EYECTL l) n =
      Norm.apply (.eq 24 4 15 14) (Norm.apply (.eq 16 7 64 65) (Norm.apply (.eq 0 2 3 0) n)) := by
    rw [R.LNK_EYECTL, normWord_lnk (by decide) hr, hn]
    rfl
  have h0 := hin (lo := 0) (w := 2) (by decide)
  have h8 := hin (lo := 8) (w := 6) (by decide)
  have h24 := hin (lo := 24) (w := 4) (by decide)
  have h28 := hin (lo := 28) (w := 4) (by decide)
  have h16 := hin (lo := 16) (w := 7) (by decide)
  rw [State.written, hrw, hnorm, getBits_ofNat _ _ _ (by decide), getBits_ofNat _ _ _ (by decide), getBits_ofNat _ _ _ (by decide),
    getBits_ofNat _ _ _ (by decide), getBits_ofNat _ _ _ (by decide)]
  generalize ((s.reg (R.LNK_EYECTL l) &&& ~~~BitVec.ofNat 32 0xFF7F3F03) ||| (v &&& BitVec.ofNat 32 0xFF7F3F03)).toNat = n at *
  obtain ⟨o1, o2⟩ := eyeNorm_op n
  obtain ⟨v1, v2, v3⟩ := eyeNorm_volt (Norm.apply (.eq 0 2 3 0) n)
  obtain ⟨d1, d2, d3⟩ := eyeNorm_dwell (Norm.apply (.eq 16 7 64 65) (Norm.apply (.eq 0 2 3 0) n))
  refine ⟨?_, ?_, ?_, ?_, ?_⟩
  · rw [bits_part d2 (by decide) (by decide), bits_part v2 (by decide) (by decide), o1, h0, if_neg hop]
  · rw [bits_part d2 (by decide) (by decide), bits_part v2 (by decide) (by decide), bits_part o2 (by decide) (by decide), h8]
  · rw [d1, bits_part v3 (by decide) (by decide), bits_part o2 (by decide) (by decide), h24]
  · rw [d3, bits_part v3 (by decide) (by decide), bits_part o2 (by decide) (by decide), h28]
  · rw [bits_part d2 (by decide) (by decide), v1, bits_part o2 (by decide) (by decide), h16]

/-- LNK_EYECTL holds an operation as `val` asks for it (R103, R111). -/
def EyeAsked (l : Nat) (val : Word) (op : Nat) (t : State) : Prop :=
  t.get (F.LNK_EYECTL_op l) = op ∧ t.get (F.LNK_EYECTL_phase l) = getBits val 8 6 ∧
    t.get (F.LNK_EYECTL_dwell l) = min 14 (getBits val 24 4) ∧ t.get (F.LNK_EYECTL_maxerr l) = getBits val 28 4 ∧
    t.get (F.LNK_EYECTL_volt l) = (if getBits val 16 7 = 64 then 65 else getBits val 16 7)

theorem EyeAsked.keep {l : Nat} {val : Word} {op : Nat} {s t : State} (h : EyeAsked l val op s)
    (hk : t.reg (R.LNK_EYECTL l) = s.reg (R.LNK_EYECTL l)) : EyeAsked l val op t := by
  have hget (lo w : Nat) : t.get ⟨R.LNK_EYECTL l, lo, w⟩ = s.get ⟨R.LNK_EYECTL l, lo, w⟩ := by rw [State.get, hk, State.get]
  obtain ⟨h1, h2, h3, h4, h5⟩ := h
  exact ⟨(hget 0 2).trans h1, (hget 8 6).trans h2, (hget 24 4).trans h3, (hget 28 4).trans h4, (hget 16 7).trans h5⟩

/-- A write of LNK_EYECTL with an operation: the word as it reads back, and what it starts (R103, R111). -/
theorem regRow_eyeCtl {s : State} {src : Src} {l : Fin 4} (val : Word) {op : Nat} (hop : op < 3) (hm : s.mayCommand src (4 + l)) :
    ∃ w : Word, EyeAsked l val op (s.setReg (R.LNK_EYECTL l) w) ∧ s.regRow src (R.LNK_EYECTL l) (insBits val 0 2 op) =
      .next ((s.setReg (R.LNK_EYECTL l) w).eyeStart l op (s.on (F.LNK_EYESTAT_busy l))) := by
  obtain ⟨r, hr, hw, hmix, hrw, hn⟩ := eyeCtlWord l
  have h02 : getBits (insBits val 0 2 op) 0 2 = op := (getBits_insBits_same _ _ (by decide)).trans (Nat.mod_eq_of_lt (by omega))
  have happ {lo w : Nat} (h : 2 ≤ lo) : getBits (insBits val 0 2 op) lo w = getBits val lo w := getBits_insBits_ne _ _ (.inr h)
  have hpage : pageOf (R.LNK_EYECTL l) = 4 + l := by have := l.isLt; simp only [R.LNK_EYECTL, lnkAddr, pageOf]; omega
  obtain ⟨f1, f2, f3, f4, f5⟩ := eyeCtl_written s (insBits val 0 2 op) hr hrw hn (by rw [h02]; omega)
  rw [h02] at f1
  rw [happ (by decide)] at f2 f3 f4 f5
  have hget (lo w : Nat) : (s.setReg (R.LNK_EYECTL l) (s.written (R.LNK_EYECTL l) r (insBits val 0 2 op))).get ⟨R.LNK_EYECTL l, lo, w⟩ =
      getBits (s.written (R.LNK_EYECTL l) r (insBits val 0 2 op)) lo w := by rw [State.get, reg_setReg_same]
  have hset : EyeAsked l val op (s.setReg (R.LNK_EYECTL l) (s.written (R.LNK_EYECTL l) r (insBits val 0 2 op))) :=
    ⟨(hget 0 2).trans f1, (hget 8 6).trans f2, (hget 24 4).trans f3, (hget 28 4).trans f4, (hget 16 7).trans f5⟩
  have hchanges : ¬ s.changes (R.LNK_EYECTL l) r (insBits val 0 2 op) = 0 := by
    rw [State.changes, if_neg (by rw [hmix]; exact Bool.false_ne_true), hrw]
    decide
  have hrate : R.LNK_EYECTL l = R.LNK_RATE 0 → s.mode = .configure ∨ s.mode = .hold := fun h => by
    simp only [R.LNK_EYECTL, R.LNK_RATE, lnkAddr] at h
    omega
  refine ⟨_, hset, ?_⟩
  rw [regRow_rw hr hw (hpage ▸ hm) hrate, if_neg hchanges, afterWrite_eyeCtl, hset.1]

end Sys2Proof.Machine

end

section
/-! Operations of the eye monitor start, end and are aborted (O48). -/

set_option Elab.async false

namespace Sys2Proof.Machine

/-- An eye operation waits for a margin check (R103). -/
def State.eyeQueue (s : State) (l : Nat) : State :=
  ((s.put (F.LNK_EYESTAT_done l) 0).put (F.LNK_EYESTAT_aborted l) 0).onLane l fun a => { a with eyeWait := true }

theorem eyeQueue_shows (s : State) {l : Nat} (hl : l < 4) :
    (s.eyeQueue l).get (F.LNK_EYESTAT_busy l) = s.get (F.LNK_EYESTAT_busy l) ∧ (s.eyeQueue l).get (F.LNK_EYESTAT_done l) = 0 ∧
      (s.eyeQueue l).get (F.LNK_EYESTAT_aborted l) = 0 ∧ ((s.eyeQueue l).lane l).eyeWait = true := by
  unfold State.eyeQueue
  refine ⟨?_, ?_, ?_, congrArg Lane.eyeWait (lane_onLane _ hl _)⟩
  · simp (disch := exact apart_lnk rfl rfl rfl) only [onLane_get, get_put_apart]
  · simp (disch := exact apart_lnk rfl rfl rfl) only [onLane_get, get_put_apart]
    exact get_put_same _ (F.LNK_EYESTAT_done l) 0 (show 2 + 1 ≤ 32 by decide)
  · rw [onLane_get]
    exact get_put_same _ (F.LNK_EYESTAT_aborted l) 0 (show 3 + 1 ≤ 32 by decide)

theorem eyeQueue_keeps (s : State) (l : Nat) : Keeps (· ≠ R.LNK_EYESTAT l) s (s.eyeQueue l) :=
  .same (.put (.put (.refl ..) fun h => h rfl) fun h => h rfl) (onLane_regs ..)

/-- A write of an operation while none runs or waits starts it, or lets it wait for a margin check (R103). -/
theorem eyeStart_idle {s : State} {l op : Nat} (hw : (s.lane l).eyeWait = false) (hop : op ≠ 0) :
    s.eyeStart l op false = if (s.lane l).margin then s.eyeQueue l else s.eyeBegin l := by
  rw [State.eyeStart, if_neg (by simp [hw]), if_neg hop]
  rfl

/-- While one runs or waits, the write aborts it. -/
theorem eyeStart_busy {s : State} {l op : Nat} {was : Bool} (h : was = true ∨ (s.lane l).eyeWait = true) : s.eyeStart l op was = s.eyeAbort l :=
  if_pos h

theorem eyeStart_keeps_ctl {s : State} {l op : Nat} (hw : (s.lane l).eyeWait = false) (hop : op ≠ 0) :
    (s.eyeStart l op false).reg (R.LNK_EYECTL l) = s.reg (R.LNK_EYECTL l) := by
  have hne : R.LNK_EYECTL l ≠ R.LNK_EYESTAT l := lnkAddr_ne (by decide)
  rw [eyeStart_idle hw hop]
  split
  · exact (eyeQueue_keeps ..).word _ hne
  · exact (eyeBegin_keeps ..).word _ hne

/-- What a started operation shows, where none ran before (R103). -/
def EyeStarted (l : Nat) (s t : State) : Prop :=
  t.get (F.LNK_EYESTAT_done l) = 0 ∧ t.get (F.LNK_EYESTAT_aborted l) = 0 ∧
    ((s.lane l).margin = false → t.get (F.LNK_EYESTAT_busy l) = 1 ∧ t.get (F.LNK_EYESTAT_wait l) = s.get (F.LNK_ADAPT_frozen l)) ∧
    ((s.lane l).margin = true → t.get (F.LNK_EYESTAT_busy l) = 0 ∧ (t.lane l).eyeWait = true)

theorem eyeStart_started {s : State} {l op : Nat} (hl : l < 4) (hb : s.get (F.LNK_EYESTAT_busy l) = 0) (hw : (s.lane l).eyeWait = false)
    (hop : op ≠ 0) : EyeStarted l s (s.eyeStart l op false) := by
  obtain ⟨bbusy, bdone, baborted, bwait, -, -⟩ := eyeBegin_shows s hl
  obtain ⟨qbusy, qdone, qaborted, qwaits⟩ := eyeQueue_shows s hl
  rw [eyeStart_idle hw hop, EyeStarted]
  split
  · next hm => exact ⟨qdone, qaborted, fun h => absurd (hm.symm.trans h) (by decide), fun _ => ⟨qbusy.trans hb, qwaits⟩⟩
  · next hm => exact ⟨bdone, baborted, fun _ => ⟨bbusy, bwait⟩, fun h => absurd h hm⟩

/-- What an aborted operation shows (R103, R109). -/
def EyeAborted (l : Nat) (t : State) : Prop :=
  t.get (F.LNK_EYECTL_op l) = 0 ∧ t.get (F.LNK_EYESTAT_busy l) = 0 ∧ t.get (F.LNK_EYESTAT_aborted l) = 1 ∧ (t.lane l).eyeWait = false

section

variable {s : State} {src : Src} {l : Fin 4} (val : Word) {op : Nat} (hm : s.mayCommand src (4 + l)) {c : Instr}
  (hc : ∀ u, exec c u = u.regRow src (R.LNK_EYECTL l) (insBits val 0 2 op))
include hm hc

/-- An operation written while none runs. -/
theorem eyeWrite_starts (hop : 0 < op ∧ op < 3) (hb : s.get (F.LNK_EYESTAT_busy l) = 0) (hw : (s.lane l).eyeWait = false) :
    Does c s (P.link ||| P.pgLnk) fun t => EyeAsked l val op t ∧ EyeStarted l s t := by
  obtain ⟨h0, h3⟩ := hop
  obtain ⟨w, hasked, hx⟩ := regRow_eyeCtl val h3 hm
  have hoff : s.on (F.LNK_EYESTAT_busy l) = false := by rw [State.on, hb]; rfl
  have hget {f : Fld} (hf : f.addr ≠ R.LNK_EYECTL l) : (s.setReg (R.LNK_EYECTL l) w).get f = s.get f := get_setReg_ne _ _ hf
  rw [hoff] at hx
  have hfoot : Only (P.link ||| P.pgLnk) s (s.setReg (R.LNK_EYECTL l) w) := .setReg (.refl ..) covers_lnk
  refine ⟨_, (hc s).trans hx, hfoot.comp (State.eyeStart_only ..), hasked.keep (eyeStart_keeps_ctl hw (Nat.ne_of_gt h0)), ?_⟩
  obtain ⟨hdone, haborted, hbegins, hqueues⟩ := eyeStart_started (s := s.setReg (R.LNK_EYECTL l) w) l.isLt
    ((hget (lnkAddr_ne (by decide))).trans hb) hw (Nat.ne_of_gt h0)
  rw [hget (f := F.LNK_ADAPT_frozen l) (lnkAddr_ne (by decide))] at hbegins
  exact ⟨hdone, haborted, hbegins, hqueues⟩

/-- An operation written while one runs or waits. -/
theorem eyeWrite_aborts (hop : op < 3) (h : s.get (F.LNK_EYESTAT_busy l) = 1 ∨ (s.lane l).eyeWait = true) :
    Does c s (P.link ||| P.pgLnk) (EyeAborted l) := by
  obtain ⟨w, -, hx⟩ := regRow_eyeCtl val hop hm
  have hfoot : Only (P.link ||| P.pgLnk) s (s.setReg (R.LNK_EYECTL l) w) := .setReg (.refl ..) covers_lnk
  have hbusy : (s.setReg (R.LNK_EYECTL l) w).get (F.LNK_EYESTAT_busy l) = s.get (F.LNK_EYESTAT_busy l) :=
    get_setReg_ne _ _ (lnkAddr_ne (by decide))
  have hwas : s.on (F.LNK_EYESTAT_busy l) = true ∨ ((s.setReg (R.LNK_EYECTL l) w).lane l).eyeWait = true := h.imp (on_iff ..).mpr id
  rw [eyeStart_busy hwas] at hx
  exact ⟨_, (hc s).trans hx, hfoot.comp (State.eyeAbort_only ..), eyeAbort_shows _ l.isLt (h.imp hbusy.trans id)⟩

end

/-- LNK_CTRL.eye_abort (R109). -/
theorem eyeAbort_aborts {s : State} {src : Src} {l : Fin 4} (hm : s.mayCommand src (4 + l))
    (h : s.get (F.LNK_EYESTAT_busy l) = 1 ∨ (s.lane l).eyeWait = true) : Does (.lnkEyeAbort src l) s (P.link ||| P.pgLnk) (EyeAborted l) :=
  ⟨_, regRow_lnkCtrl hm, State.eyeAbort_only .., eyeAbort_shows s l.isLt h⟩

/-- The maps of a scan (R103, R111). -/
def State.eyeMap (s : State) (l n : Nat) (r : EyeRes) : State :=
  (List.range 64).foldl (fun t k => t.setRegN (R.LNK_EYEMAP l k) (eyeWord n (r.up.getD k []) (r.down.getD k []))) s

/-- The maps after an operation: only a scan makes them (R103, R111). -/
def State.eyeMapped (s : State) (l : Nat) (r : EyeRes) : State :=
  if s.get (F.LNK_EYECTL_op l) = 2 then s.eyeMap l (s.get (F.LNK_EYECTL_maxerr l)) r else s

/-- The end of an operation as LNK_EYESTAT and LNK_EYECTL show it (R103, R111). -/
def State.eyeEnd (s : State) (l errs : Nat) : State :=
  (((((s.put (F.LNK_EYESTAT_errs l) (min errs 65535)).put (F.LNK_EYECTL_op l) 0).put (F.LNK_EYESTAT_busy l) 0).put
    (F.LNK_EYESTAT_wait l) 0).put (F.LNK_EYESTAT_done l) 1).event (4 + l) 7

theorem exec_eyeOpComplete {l : Fin 4} (r : EyeRes) {s : State} (h : s.get (F.LNK_EYESTAT_busy l) = 1) :
    exec (.eyeOpComplete l r) s = .next ((s.eyeMapped l r).eyeEnd l r.errs) :=
  congrArg Host.Outcome.next (if_pos ((on_iff ..).mpr h))

theorem eyeEnd_shows (s : State) (l errs : Nat) :
    (s.eyeEnd l errs).get (F.LNK_EYESTAT_errs l) = min errs 65535 ∧ (s.eyeEnd l errs).get (F.LNK_EYESTAT_busy l) = 0 ∧
      (s.eyeEnd l errs).get (F.LNK_EYESTAT_done l) = 1 ∧ (s.eyeEnd l errs).get (F.LNK_EYECTL_op l) = 0 := by
  unfold State.eyeEnd
  refine ⟨?_, ?_, ?_, ?_⟩
  · simp (disch := first | exact apart_lnk rfl rfl rfl | exact notRaw_fld rfl rfl) only [event_get, get_put_apart]
    exact (get_put_same _ (F.LNK_EYESTAT_errs l) _ (show 16 + 16 ≤ 32 by decide)).trans
      (Nat.mod_eq_of_lt (Nat.lt_of_le_of_lt (Nat.min_le_right ..) (show 65535 < 2 ^ 16 by decide)))
  · simp (disch := first | exact apart_lnk rfl rfl rfl | exact notRaw_fld rfl rfl) only [event_get, get_put_apart]
    exact get_put_same _ (F.LNK_EYESTAT_busy l) 0 (show 0 + 1 ≤ 32 by decide)
  · rw [event_get (f := F.LNK_EYESTAT_done l) _ (notRaw_fld rfl rfl)]
    exact get_put_same _ (F.LNK_EYESTAT_done l) 1 (show 2 + 1 ≤ 32 by decide)
  · simp (disch := first | exact apart_lnk rfl rfl rfl | exact notRaw_fld rfl rfl) only [event_get, get_put_apart]
    exact get_put_same _ (F.LNK_EYECTL_op l) 0 (show 0 + 2 ≤ 32 by decide)

theorem eyeMapAddr (l k : Nat) : ∃ j, R.LNK_EYEMAP l k = lnkAddr l + j ∧ 0x100 ≤ j ∧ j < 0x200 :=
  ⟨0x100 + 4 * (k % 64), by rw [R.LNK_EYEMAP, Nat.add_assoc], by omega, by omega⟩

theorem eyeEnd_map (s : State) (l errs k : Nat) : (s.eyeEnd l errs).reg (R.LNK_EYEMAP l k) = s.reg (R.LNK_EYEMAP l k) := by
  obtain ⟨j, hj, hlo, hhi⟩ := eyeMapAddr l k
  have hne {i : Nat} (hi : i < 0x100) : R.LNK_EYEMAP l k ≠ lnkAddr l + i := by rw [hj]; exact lnkAddr_ne (by omega)
  have hraw : R.LNK_EYEMAP l k ≠ R.PIRQ_RAW (4 + l) := by rw [hj]; exact lnkAddr_ne_raw ⟨by omega, by omega⟩
  have hkeep : Keeps (· = R.LNK_EYEMAP l k) s (s.eyeEnd l errs) :=
    .event (.put (.put (.put (.put (.put (.refl ..) fun h => hne (i := 0x74) (by decide) h.symm) fun h => hne (i := 0x70) (by decide) h.symm)
      fun h => hne (i := 0x74) (by decide) h.symm) fun h => hne (i := 0x74) (by decide) h.symm) fun h => hne (i := 0x74) (by decide) h.symm)
      fun h => hraw h.symm
  exact hkeep.word _ rfl

theorem eyeMap_reg (s : State) (l n : Nat) (r : EyeRes) (k : Fin 64) :
    (s.eyeMap l n r).reg (R.LNK_EYEMAP l k) = BitVec.ofNat 32 (eyeWord n (r.up.getD k []) (r.down.getD k [])) :=
  foldl_setRegN_reg s (R.LNK_EYEMAP l) (fun i => eyeWord n (r.up.getD i []) (r.down.getD i [])) k.isLt fun i hi he => by
    have hk := k.isLt
    rw [R.LNK_EYEMAP, R.LNK_EYEMAP] at he
    omega

/-- The word of a phase whose code 0 passes: open, with the highest and the lowest passing code (R103, R111). -/
theorem eyeWord_open {n z : Nat} (ps down : List Nat) (h : z ≤ n) :
    bits (eyeWord n (z :: ps) down) 15 1 = 1 ∧ bits (eyeWord n (z :: ps) down) 0 6 = passing n ps ∧
      bits (eyeWord n (z :: ps) down) 8 6 = passing n down := by
  have hp : passing n ps ≤ 63 := Nat.min_le_left ..
  have hd : passing n down ≤ 63 := Nat.min_le_left ..
  rw [eyeWord, if_pos h]
  simp only [bits, Nat.reducePow]
  omega

theorem eyeWord_shut {n z : Nat} (ps down : List Nat) (h : n < z) : eyeWord n (z :: ps) down = 0 := if_neg (Nat.not_le.mpr h)

/-- An operation ends. -/
theorem eye_ends (l : Fin 4) (r : EyeRes) (s : State) (h : s.get (F.LNK_EYESTAT_busy l) = 1) : Does (.eyeOpComplete l r) s P.pgLnk fun t =>
    t.get (F.LNK_EYESTAT_errs l) = min r.errs 65535 ∧ t.get (F.LNK_EYESTAT_busy l) = 0 ∧ t.get (F.LNK_EYESTAT_done l) = 1 ∧
      t.get (F.LNK_EYECTL_op l) = 0 ∧
      (s.get (F.LNK_EYECTL_op l) ≠ 2 → ∀ k : Fin 64, t.reg (R.LNK_EYEMAP l k) = s.reg (R.LNK_EYEMAP l k)) ∧
      (∀ (k : Fin 64) (n z : Nat) (ps : List Nat), s.get (F.LNK_EYECTL_op l) = 2 → n = s.get (F.LNK_EYECTL_maxerr l) →
        r.up.getD k [] = z :: ps →
        (n < z → t.reg (R.LNK_EYEMAP l k) = 0) ∧
        (z ≤ n → t.get (F.LNK_EYEMAP_open l k) = 1 ∧
          t.get (F.LNK_EYEMAP_top l k) = min 63 (ps.takeWhile fun x => x ≤ n).length ∧
          t.get (F.LNK_EYEMAP_bottom l k) = min 63 ((r.down.getD k []).takeWhile fun x => x ≤ n).length)) := by
  have hx := exec_eyeOpComplete r h
  obtain ⟨herrs, hbusy, hdone, hop⟩ := eyeEnd_shows (s.eyeMapped l r) l r.errs
  refine ⟨_, hx, execEyeOpComplete_only _ _ _ hx, herrs, hbusy, hdone, hop, fun hne k => ?_, fun k n z ps h2 hn hup => ?_⟩
  · rw [eyeEnd_map, State.eyeMapped, if_neg hne]
  · have hreg : ((s.eyeMapped l r).eyeEnd l r.errs).reg (R.LNK_EYEMAP l k) =
        BitVec.ofNat 32 (eyeWord n (z :: ps) (r.down.getD k [])) := by
      rw [eyeEnd_map, State.eyeMapped, if_pos h2, eyeMap_reg, ← hn, hup]
    refine ⟨fun hz => by rw [hreg, eyeWord_shut _ _ hz]; rfl, fun hz => ?_⟩
    obtain ⟨hopen, htop, hbottom⟩ := eyeWord_open ps (r.down.getD k []) hz
    have hfld (lo w : Nat) (hw : lo + w ≤ 32) :
        ((s.eyeMapped l r).eyeEnd l r.errs).get ⟨R.LNK_EYEMAP l k, lo, w⟩ =
          bits (eyeWord n (z :: ps) (r.down.getD k [])) lo w := by rw [State.get, hreg, getBits_ofNat _ _ _ hw]
    exact ⟨(hfld 15 1 (by decide)).trans hopen, (hfld 0 6 (by decide)).trans htop, (hfld 8 6 (by decide)).trans hbottom⟩

/-- Settles O48: the equaliser's commands move their own words; an operation of the eye monitor starts, waits, ends or is aborted. -/
theorem equaliserAndEye : Obligations.EqualiserAndEye := by
  refine ⟨fun l s => ⟨fun ctle m1 m2 m3 c h1 h2 h3 hlo hhi hfrozen hfed hc e1 e2 e3 => adapt_updates hlo hhi hfrozen hfed hc e1 e2 e3,
      adapt_freezes, adapt_resumes, fun src hm => regRow_lnkCtrl hm, fun h => congrArg Host.Outcome.next (if_pos h), fun ha hmon => ?_,
      fun w h hm => margin_ends w h hm⟩,
    fun l src val s hm => ⟨fun hb hw =>
        ⟨eyeWrite_starts val hm (fun _ => rfl) (by decide) hb hw, eyeWrite_starts val hm (fun _ => rfl) (by decide) hb hw⟩,
      fun h => ⟨eyeAbort_aborts hm h, eyeWrite_aborts val hm (fun _ => rfl) (by decide) h,
        eyeWrite_aborts val hm (fun _ => rfl) (by decide) h⟩⟩,
    eye_ends⟩
  have hon : s.on (F.LNK_CFG_mon l) = true := (on_iff ..).mpr hmon
  exact congrArg Host.Outcome.next (if_pos ⟨ha, hon⟩)

end Sys2Proof.Machine

end

section
/-! The clear commands whose counters fill their words (O30). -/

set_option Elab.async false

namespace Sys2Proof.Machine

/-- A command that zeroes a list of words clears them and changes nothing else (R63). -/
theorem zeroRegs_clears {c : Instr} {s : State} {as : List Nat} (hx : exec c s = .next (s.zeroRegs as)) :
    Puts c s as fun t => ∀ a ∈ as, t.reg a = 0 :=
  ((Writes.refl as s).zeroRegs fun _ h => h).puts hx fun _ => reg_zeroRegs_mem s

/-- Settles O30: each command zeroes the counter words of its page, by the open WO word that carries it. -/
theorem countersClear : Obligations.CountersClear := by
  intro c src p as s hm h
  apply zeroRegs_clears
  rcases h with ⟨rfl, rfl, rfl⟩ | ⟨rfl, rfl, rfl⟩ | ⟨rfl, rfl, rfl⟩ | ⟨rfl, rfl, rfl⟩ | ⟨rfl, rfl, rfl⟩ | ⟨rfl, rfl, rfl⟩ |
    ⟨rfl, rfl, rfl⟩ | ⟨rfl, rfl, rfl⟩ | ⟨rfl, rfl, rfl⟩ | ⟨rfl, rfl, rfl⟩ | ⟨rfl, rfl, rfl⟩ <;>
    exact regRow_openAt (by decide) hm

end Sys2Proof.Machine

end

section
/-! Packets from the host that arrive whole (R113 to R116). -/

set_option Elab.async false

namespace Sys2Proof.Machine

/-- A packet that passes the checks on arrival goes on and leaves the state as it is (R115). -/
theorem pktArrives_admitted {s : State} {l typ lo hi : Nat} {p : Pkt} (h : s.admits l typ lo hi p) :
    s.pktArrives l typ lo hi p = (s, true) := by
  obtain ⟨hlive, hactive, hhost, heop, hlen, hlo, hhi, hcrc, hbad, hpos⟩ := h
  have hwhole : s.pktWhole l typ p = (s, true) := by
    rw [State.pktWhole, if_neg (by simp [heop, hlen]), if_neg (by simp [State.crcOk, hcrc, hbad])]
  rw [State.pktArrives, if_neg (by simp [hlive, hactive]), hwhole]
  show (if true = false then (s, false) else if p.hdr.getLsbD (s.get F.PKT_POS_pos) = false then (s, false)
    else if s.hostPath l = false ∨ p.len.toNat < lo ∨ hi < p.len.toNat then (s.pktMalf F.PKT_MALF_malf, false) else (s, true)) = (s, true)
  rw [if_neg (by decide), if_neg (by simp [hpos]), if_neg (by simp [hhost]; omega)]

/-- The bytes of a packet's field fill no more than its width. -/
theorem leNat_lt (bs : List Byte) : leNat bs < 256 ^ bs.length := by
  induction bs with
  | nil => decide
  | cons b bs ih =>
    have := b.isLt
    rw [leNat, List.length_cons, Nat.pow_succ]
    omega

theorem bodyLe_lt (p : Pkt) (o n : Nat) : bodyLe p o n < 256 ^ n :=
  (leNat_lt _).trans_le (Nat.pow_le_pow_right (by decide) (List.length_take_le ..))

end Sys2Proof.Machine

end

section
/-! Video packets that reach the video path (O42). -/

set_option Elab.async false

namespace Sys2Proof.Machine

/-- Numbers read from bytes that two states agree in. -/
theorem le_congr {s t : State} {a n : Nat} (h : ∀ i < n, t.byte (a + i) = s.byte (a + i)) : t.le a n = s.le a n := by
  unfold State.le memLe memBytes
  exact congrArg leNat (List.map_congr_left fun i hi => h i (List.mem_range.mp hi))

/-- Numbers of two bytes stored at places apart: each reads back, no other byte changes, nor anything but the SRAM (R126, R186). -/
theorem pixels_stored (A v : Nat → Nat) {n : Nat} (hA : ∀ i < n, ∀ j < n, i ≠ j → A i + 2 ≤ A j ∨ A j + 2 ≤ A i) {s : State}
    (hs : s.sram.wf = true) (h1 : s.ecc1 = []) (h2 : s.ecc2 = []) :
    let t := (List.range n).foldl (fun u k => (u.readRange (A k) 2 1).setLe (A k) 2 (v k)) s
    (∃ m, t = { s with sram := m } ∧ Memory.wf m = true) ∧ (∀ k < n, t.le (A k) 2 = v k % 2 ^ 16) ∧
      ∀ a, (∀ k < n, a < A k ∨ A k + 2 ≤ a) → t.byte a = s.byte a := by
  induction n with
  | zero => exact ⟨⟨_, rfl, hs⟩, fun k hk => absurd hk (Nat.not_lt_zero k), fun _ _ => rfl⟩
  | succ n ih =>
    obtain ⟨⟨m, hm, hwf⟩, hle, hbyte⟩ := ih fun i hi j hj => hA i (by omega) j (by omega)
    rw [List.range_succ, List.foldl_append, List.foldl_cons, List.foldl_nil]
    generalize (List.range n).foldl (fun u k => (u.readRange (A k) 2 1).setLe (A k) 2 (v k)) s = u at hm hle hbyte
    have hu : u.sram.wf = true ∧ u.ecc1 = [] ∧ u.ecc2 = [] := by rw [hm]; exact ⟨hwf, h1, h2⟩
    rw [State.readRange, readWords_clean hu.2.1 hu.2.2]
    obtain ⟨hsame, hother⟩ := setLe_reads hu.1 hu.2.1 hu.2.2 (A n) 2 (v n)
    refine ⟨⟨memPutBytes u.sram (A n) (leBytes 2 (v n)), ?_, memWf_memPutBytes hu.1⟩, fun k hk => ?_, fun a ha => ?_⟩
    · rw [setLe_clean hu.2.1 hu.2.2, hm]
    · rcases Nat.lt_succ_iff_lt_or_eq.mp hk with hk | rfl
      · have hapart := hA k (by omega) n (by omega) (by omega)
        exact (le_congr fun i hi => hother _ (by omega)).trans (hle k hk)
      · exact hsame
    · exact (hother a (ha n (by omega))).trans (hbyte a fun k hk => ha k (by omega))

/-- The video words of two pixels of a line lie apart (R22). -/
theorem videoAddr_apart (b y : Nat) {x x' : Nat} (h : x ≠ x') : videoAddr b (pixOf x y) + 2 ≤ videoAddr b (pixOf x' y) ∨
    videoAddr b (pixOf x' y) + 2 ≤ videoAddr b (pixOf x y) := by
  unfold videoAddr pixOf tileOf idxOf
  omega

/-- A line writes its pixels into the back buffer (R126, R163). -/
theorem writeLine_writes {s : State} (hs : s.sram.wf = true) (h1 : s.ecc1 = []) (h2 : s.ecc2 = []) (p : Pkt) :
    let t := s.writeLine p
    let at' := fun k => videoAddr (1 - s.get F.VIN_STAT_front) (pixOf (bodyLe p 8 2 + k) (bodyLe p 6 2))
    (∃ m, t = { s with sram := m }) ∧
      (∀ k < bodyLe p 10 2, t.le (at' k) 2 = bits (bodyLe p (12 + 3 * (k / 2)) 3) (12 * (k % 2)) 12) ∧
      ∀ a, (∀ k < bodyLe p 10 2, a < at' k ∨ at' k + 2 ≤ a) → t.byte a = s.byte a := by
  intro t at'
  obtain ⟨⟨m, hm, -⟩, hle, hbyte⟩ := pixels_stored at' (fun k => bits (bodyLe p (12 + 3 * (k / 2)) 3) (12 * (k % 2)) 12)
    (n := bodyLe p 10 2) (fun i _ j _ h => videoAddr_apart _ _ (by omega)) hs h1 h2
  refine ⟨⟨m, hm⟩, fun k hk => (hle k hk).trans (Nat.mod_eq_of_lt ?_), hbyte⟩
  exact (Nat.mod_lt _ (by decide)).trans (by decide)

/-- A frame is open (R126). -/
def State.frameOpened (s : State) (f : Nat) : State :=
  (((s.put F.PKT_VSTAT_open 1).put F.PKT_VSTAT_cur f).flag F.PKT_VSTAT_bad false).onLink fun l => { l with vcrc := 0 }

/-- A line finds no frame open (R126). -/
theorem openFrame_closed {s : State} (h : s.get F.PKT_VSTAT_open = 0) (f : Nat) : s.openFrame f false = s.frameOpened f := by
  unfold State.openFrame
  dsimp only
  rw [if_neg (by simp [State.on, h])]
  rfl

theorem frameOpened_shows (s : State) (p : Pkt) : let t := s.frameOpened (bodyLe p 4 1)
    t.get F.PKT_VSTAT_open = 1 ∧ t.get F.PKT_VSTAT_cur = bodyLe p 4 1 ∧ t.get F.PKT_VSTAT_bad = 0 ∧
      t.reg R.VIN_STAT = s.reg R.VIN_STAT ∧ t.link = { s.link with vcrc := 0 } := by
  have hlink (u : State) (g : Link → Link) (f : Fld) : (u.onLink g).get f = u.get f := rfl
  refine ⟨?_, ?_, ?_, (reg_put_ne _ _ _ (by decide)).trans ((reg_put_ne _ _ _ (by decide)).trans (reg_put_ne _ _ _ (by decide))), rfl⟩ <;>
    simp (disch := decide) only [State.frameOpened, State.flag, hlink, get_put_apart, get_put_same]
  · rfl
  · exact Nat.mod_eq_of_lt (bodyLe_lt p 4 1)
  · rfl

/-- The back buffer shows as open (R163). -/
def State.showFilling (s : State) : State := if s.get F.VIN_STAT_back = 0 then s.put F.VIN_STAT_back 1 else s

theorem showFilling_eq (s : State) : s.showFilling = s ∨ s.showFilling = s.put F.VIN_STAT_back 1 := by
  unfold State.showFilling
  split
  · exact .inr rfl
  · exact .inl rfl

theorem showFilling_back {s : State} (h : s.get F.VIN_STAT_back ≤ 1) : s.showFilling.get F.VIN_STAT_back = 1 := by
  unfold State.showFilling
  split
  · exact get_put_same _ _ _ (by decide)
  · omega

theorem showFilling_get (s : State) {f : Fld} (h : F.VIN_STAT_back.apart f = true) : s.showFilling.get f = s.get f := by
  rcases showFilling_eq s with e | e
  · rw [e]
  · rw [e, get_put_apart _ _ _ _ h]

theorem showFilling_sram (s : State) : s.showFilling.sram = s.sram := by
  rcases showFilling_eq s with e | e <;> rw [e]
  rfl

theorem showFilling_link (s : State) : s.showFilling.link = s.link := by
  rcases showFilling_eq s with e | e <;> rw [e]
  rfl

/-- A packet that the video pool has room for (R123). -/
theorem videoUnits_room {s : State} (hv : s.link.vwait = []) {p : Pkt} (h : p.len.toNat ≤ 3080) : ¬512 < s.videoUsed + videoUnits p := by
  simp only [State.videoUsed, hv, List.map_nil, List.sum_nil, videoUnits, ceilDiv]
  omega

/-- A line with allowed fields is taken at once where no packet waits and the back buffer is not sealed (R115, R123, R126). -/
theorem exec_vline {l : Fin 4} {p : Pkt} {s : State} (hv : s.link.vwait = []) (ha : s.admits l 0x10 11 3080 p)
    (hok : vlineOk p = true) (hb : s.get F.VIN_STAT_back ≤ 1) : exec (.vline l p) s = .next (s.videoPacket (0, p)) := by
  obtain ⟨-, -, -, -, -, -, hhi, -⟩ := id ha
  show execVline l p s = _
  rw [execVline, pktArrives_admitted ha]
  show Host.Outcome.next (if 512 < s.videoUsed + videoUnits p then (s.pktOver F.PKT_OVR_video).takeVideo (3, p)
    else if vlineOk p then s.takeVideo (0, p) else (s.pktMalf F.PKT_MALF_malf).takeVideo (2, p)) = _
  rw [if_neg (videoUnits_room hv hhi), if_pos hok, State.takeVideo, if_neg]
  rintro (h | ⟨h, -⟩)
  · exact h hv
  · omega

theorem onLink_regs (s : State) (f : Link → Link) : (s.onLink f).regs = s.regs := rfl
theorem onLink_sram (s : State) (f : Link → Link) : (s.onLink f).sram = s.sram := rfl
theorem onLink_link (s : State) (f : Link → Link) : (s.onLink f).link = f s.link := rfl

/-- What a line does to the packet layer once its pixels are written (R123, R126). -/
def State.lineDone (s : State) (p : Pkt) : State :=
  (s.showFilling.onLink fun l => { l with vcrc := crcLinkOn l.vcrc p.body }).onLink fun l => { l with retV := l.retV + videoUnits p }

theorem videoPacket_line (s : State) (p : Pkt) :
    s.videoPacket (0, p) = ((s.openFrame (bodyLe p 4 1) false).writeLine p).lineDone p := by
  simp only [State.videoPacket, State.lineDone, State.showFilling, heldUnits, Nat.zero_le, if_true]

theorem lineDone_shows {s : State} (hb : s.get F.VIN_STAT_back ≤ 1) (p : Pkt) : (s.lineDone p).get F.VIN_STAT_back = 1 ∧
    (∀ f, F.VIN_STAT_back.apart f = true → (s.lineDone p).get f = s.get f) ∧ (s.lineDone p).sram = s.sram ∧
    (s.lineDone p).link = { s.link with vcrc := crcLinkOn s.link.vcrc p.body, retV := s.link.retV + videoUnits p } := by
  have hget (f : Fld) : (s.lineDone p).get f = s.showFilling.get f :=
    get_congr (by rw [State.lineDone, onLink_regs, onLink_regs]) f
  refine ⟨(hget _).trans (showFilling_back hb), fun f hf => (hget f).trans (showFilling_get s hf), ?_, ?_⟩
  · rw [State.lineDone, onLink_sram, onLink_sram, showFilling_sram]
  · rw [State.lineDone, onLink_link, onLink_link, showFilling_link]

/-- A video line opens its frame and fills the back buffer (R113, R126, R163). -/
theorem vline_fills {l : Fin 4} {p : Pkt} {s : State} (hv : s.link.vwait = []) (ha : s.admits l 0x10 11 3080 p)
    (hok : vlineOk p = true) (hb : s.get F.VIN_STAT_back ≤ 1) (ho : s.get F.PKT_VSTAT_open = 0) (h1 : s.ecc1 = []) (h2 : s.ecc2 = [])
    (hs : s.sram.wf = true) : Does (.vline l p) s (P.fault ||| P.link ||| P.draws ||| P.pgPkt ||| P.pgVin) fun t =>
      let at' := fun k => videoAddr (1 - s.get F.VIN_STAT_front) (pixOf (bodyLe p 8 2 + k) (bodyLe p 6 2))
      t.get F.PKT_VSTAT_open = 1 ∧ t.get F.PKT_VSTAT_cur = bodyLe p 4 1 ∧ t.get F.PKT_VSTAT_bad = 0 ∧
        t.get F.VIN_STAT_back = 1 ∧ t.get F.VIN_STAT_front = s.get F.VIN_STAT_front ∧
        (∀ k < bodyLe p 10 2, t.le (at' k) 2 = bits (bodyLe p (12 + 3 * (k / 2)) 3) (12 * (k % 2)) 12) ∧
        (∀ a, (∀ k < bodyLe p 10 2, a < at' k ∨ at' k + 2 ≤ a) → t.byte a = s.byte a) ∧
        t.link.vcrc = crcLinkOn 0 p.body ∧ t.link.retV = s.link.retV + videoUnits p ∧ t.link.vwait = [] := by
  obtain ⟨hopen, hcur, hbad, hstat, hlink⟩ := frameOpened_shows s p
  have hvin {f : Fld} (hf : f.addr = R.VIN_STAT) : (s.frameOpened (bodyLe p 4 1)).get f = s.get f := by
    simp only [State.get, hf, hstat]
  obtain ⟨⟨m, hm⟩, hle, hbyte⟩ := writeLine_writes (s := s.frameOpened (bodyLe p 4 1)) hs h1 h2 p
  have hx := exec_vline hv ha hok hb
  rw [videoPacket_line, openFrame_closed ho] at hx
  rw [hvin rfl] at hle hbyte
  have hw (f : Fld) : ((s.frameOpened (bodyLe p 4 1)).writeLine p).get f = (s.frameOpened (bodyLe p 4 1)).get f := by rw [hm]; rfl
  have hwlink : ((s.frameOpened (bodyLe p 4 1)).writeLine p).link = { s.link with vcrc := 0 } := by rw [hm]; exact hlink
  have honly := execVline_only l p s hx
  generalize (s.frameOpened (bodyLe p 4 1)).writeLine p = w at hle hbyte hx hw hwlink honly
  obtain ⟨hback, hget, hsram, hdone⟩ := lineDone_shows (s := w) (by rw [hw, hvin rfl]; exact hb) p
  rw [hwlink] at hdone
  refine ⟨_, hx, honly, ?_, ?_, ?_, hback, ?_, fun k hk => ?_, fun a hk => ?_, ?_, ?_, ?_⟩
  · rw [hget _ (by decide), hw, hopen]
  · rw [hget _ (by decide), hw, hcur]
  · rw [hget _ (by decide), hw, hbad]
  · rw [hget _ (by decide), hw, hvin rfl]
  · exact (le_congr fun i _ => congrArg (memByte · _) hsram).trans (hle k hk)
  · exact (congrArg (memByte · _) hsram).trans (hbyte a hk)
  · rw [hdone]
  · rw [hdone]
  · rw [hdone]
    exact hv

end Sys2Proof.Machine

end

section
/-! The end of a video frame (O42). -/

set_option Elab.async false

namespace Sys2Proof.Machine

/-- The check value of a frame end and the one it is held to, as they show (R127). -/
def State.showCrc (s : State) (p : Pkt) (v : Nat) : State := (s.setRegN R.PKT_VCRC (bodyLe p 8 4)).setRegN R.PKT_VCALC v

/-- A good frame counts (R127). -/
def State.countGood (s : State) (n : Nat) : State :=
  (((s.inc F.PKT_VCNT_good).put F.PKT_VSTAT_held 0).put F.PKT_VSTAT_good n).noFrame

/-- What the frame end of `p` is held to: the check value of the open frame, or zero (R127). -/
def State.frameCrc (s : State) : Nat := if s.on F.PKT_VSTAT_open then s.link.vcrc else 0

theorem showCrc_get (s : State) (p : Pkt) (v : Nat) {f : Fld} (h : f.addr ≠ R.PKT_VCRC ∧ f.addr ≠ R.PKT_VCALC) :
    (s.showCrc p v).get f = s.get f := (get_setReg_ne _ _ h.2).trans (get_setReg_ne _ _ h.1)

theorem showCrc_mode (s : State) (p : Pkt) (v : Nat) : (s.showCrc p v).mode = s.mode := mode_congr (showCrc_get s p v (by decide))

theorem judgeFrame_eq (s : State) (p : Pkt) : s.judgeFrame p =
    if bodyLe p 8 4 = s.frameCrc ∧ (s.on F.PKT_VSTAT_open = false ∨
        (s.showCrc p s.frameCrc).on F.PKT_VSTAT_bad = false ∧ (s.showCrc p s.frameCrc).get F.PKT_VSTAT_cur = bodyLe p 4 1) then
      if s.on F.PKT_VSTAT_open then (((s.showCrc p s.frameCrc).countGood (bodyLe p 4 1)).onVid fun v =>
        { v with backNum := bodyLe p 4 1 }).sealFrame
      else (s.showCrc p s.frameCrc).countGood (bodyLe p 4 1)
    else (s.showCrc p s.frameCrc).dropFrame := rfl

/-- The open frame is good (R127). -/
theorem judgeFrame_good {s : State} {p : Pkt} (ho : s.get F.PKT_VSTAT_open = 1) (hb : s.get F.PKT_VSTAT_bad = 0)
    (hc : s.get F.PKT_VSTAT_cur = bodyLe p 4 1) (hv : bodyLe p 8 4 = s.link.vcrc) : s.judgeFrame p =
      (((s.showCrc p s.frameCrc).countGood (bodyLe p 4 1)).onVid fun v => { v with backNum := bodyLe p 4 1 }).sealFrame := by
  have hon : s.on F.PKT_VSTAT_open = true := (on_iff ..).mpr ho
  have hbad : (s.showCrc p s.frameCrc).on F.PKT_VSTAT_bad = false := by rw [State.on, showCrc_get _ _ _ (by decide), hb]; rfl
  have hcur : (s.showCrc p s.frameCrc).get F.PKT_VSTAT_cur = bodyLe p 4 1 := (showCrc_get _ _ _ (by decide)).trans hc
  rw [judgeFrame_eq, if_pos ⟨hv.trans (if_pos hon).symm, .inr ⟨hbad, hcur⟩⟩, if_pos hon]

/-- A repeat frame is good (R128). -/
theorem judgeFrame_repeat {s : State} {p : Pkt} (ho : s.get F.PKT_VSTAT_open = 0) (hv : bodyLe p 8 4 = 0) :
    s.judgeFrame p = (s.showCrc p s.frameCrc).countGood (bodyLe p 4 1) := by
  have hon : s.on F.PKT_VSTAT_open = false := by rw [State.on, ho]; rfl
  rw [judgeFrame_eq, if_pos ⟨hv.trans (by rw [State.frameCrc, hon]; rfl), .inl hon⟩, if_neg (by simp [hon])]

/-- The open frame, or a repeat frame, is not good (R128). -/
theorem judgeFrame_drops {s : State} {p : Pkt} (h : s.get F.PKT_VSTAT_open = 1 ∧
      (bodyLe p 8 4 ≠ s.link.vcrc ∨ s.get F.PKT_VSTAT_bad = 1 ∨ s.get F.PKT_VSTAT_cur ≠ bodyLe p 4 1) ∨
    s.get F.PKT_VSTAT_open = 0 ∧ bodyLe p 8 4 ≠ 0) : s.judgeFrame p = (s.showCrc p s.frameCrc).dropFrame := by
  rw [judgeFrame_eq, if_neg]
  rintro ⟨hv, hok⟩
  rcases h with ⟨ho, h⟩ | ⟨ho, h⟩
  · have hon : s.on F.PKT_VSTAT_open = true := (on_iff ..).mpr ho
    obtain ⟨hbad, hcur⟩ := hok.resolve_left (by simp [hon])
    rw [showCrc_get _ _ _ (by decide)] at hcur
    rw [State.on, showCrc_get _ _ _ (by decide)] at hbad
    rcases h with h | h | h
    · exact h (hv.trans (if_pos hon))
    · rw [h] at hbad
      exact absurd hbad (by decide)
    · exact h hcur
  · exact h (hv.trans (by rw [State.frameCrc, State.on, ho]; rfl))

theorem countGood_only (s : State) (p : Pkt) (v n : Nat) : Only P.pgPkt s ((s.showCrc p v).countGood n) :=
  .comp (.put (.put (.inc (.setRegN (.setRegN (.refl ..)))))) (State.noFrame_only ..)

theorem countGood_shows (s : State) (p : Pkt) (v : Nat) : let t := (s.showCrc p v).countGood (bodyLe p 4 1)
    t.get F.PKT_VCNT_good = s.plusOne F.PKT_VCNT_good ∧ t.get F.PKT_VSTAT_held = 0 ∧ t.get F.PKT_VSTAT_good = bodyLe p 4 1 ∧
      t.get F.PKT_VSTAT_open = 0 ∧ t.get F.PKT_VSTAT_cur = 0 := by
  refine ⟨?_, ?_, ?_, ?_, ?_⟩ <;>
    simp (disch := decide) only [State.countGood, State.noFrame, get_put_apart, get_put_same, Nat.zero_mod]
  · rw [inc_get _ _ (by decide), State.plusOne, showCrc_get _ _ _ (by decide), State.plusOne]
  · exact Nat.mod_eq_of_lt (bodyLe_lt p 4 1)

/-- A frame end with allowed fields is judged at once and returns its credit (R113, R123, R127). -/
theorem exec_fend {l : Fin 4} {p : Pkt} {s : State} (hv : s.link.vwait = []) (ha : s.admits l 0x11 8 8 p) (hh : hostHdrOk p = true)
    (hz : bodyLe p 5 3 = 0) : exec (.fend l p) s = .next ((s.judgeFrame p).onLink fun k => { k with retV := k.retV + 1 }) := by
  obtain ⟨-, -, -, -, -, hlo, hhi, -⟩ := id ha
  have hunits : heldUnits (1, p) = 1 := by
    rw [heldUnits, if_pos (show 1 ≤ 2 by decide), videoUnits, show p.len.toNat = 8 by omega]
    rfl
  show execFend l p s = _
  rw [execFend, pktArrives_admitted ha]
  show Host.Outcome.next (if 512 < s.videoUsed + videoUnits p then (s.pktOver F.PKT_OVR_video).takeVideo (4, p)
    else if hostHdrOk p && bodyLe p 5 3 == 0 then s.takeVideo (1, p)
    else (s.onLink fun k => { k with retV := k.retV + videoUnits p }).pktMalf F.PKT_MALF_malf) = _
  rw [if_neg (videoUnits_room hv (by omega)), if_pos (by simp [hh, hz]), State.takeVideo, if_neg (by simp [hv]), State.videoPacket, hunits]
  rfl

/-- What a frame end returns and leaves of the registers (R123). -/
theorem fend_does {l : Fin 4} {p : Pkt} {s : State} (hv : s.link.vwait = []) (ha : s.admits l 0x11 8 8 p) (hh : hostHdrOk p = true)
    (hz : bodyLe p 5 3 = 0) {Q : State → Prop}
    (hq : ∀ t, t.regs = (s.judgeFrame p).regs → t.sram = (s.judgeFrame p).sram → t.vid = (s.judgeFrame p).vid →
      t.link.retV = s.link.retV + 1 → Q t) : Does (.fend l p) s (P.fault ||| P.link ||| P.draws ||| P.pgPkt ||| P.pgVin) Q := by
  have hx := exec_fend hv ha hh hz
  have hlink : (s.judgeFrame p).link = s.link := (State.judgeFrame_only s p).link (by decide)
  refine ⟨_, hx, execFend_only l p s hx, hq _ rfl rfl rfl ?_⟩
  rw [onLink_link, hlink]

theorem onVid_regs (s : State) (f : Video → Video) : (s.onVid f).regs = s.regs := rfl
theorem onVid_vid (s : State) (f : Video → Video) : (s.onVid f).vid = f s.vid := rfl

/-- What a swap event finds out and discards before it swaps (R167, R168, R174). -/
def State.swapReady (s : State) : State :=
  let early := match s.vid.swapEv with
    | some t => decide ((s.now - t) * s.get F.VIN_RATE_max_hz < 400000000)
    | none => false
  let s := if early then (s.inc F.VIN_MISS_early).event 10 2 else s
  let s := if s.on F.VIN_STAT_pend ∨ (s.get F.CMP_STAT_state ≠ 0 ∧ s.vid.fresh) then s.supersede else s
  s.dropPass

/-- Front and back exchanged, as they show (R164). -/
def State.swapShown (s : State) : State :=
  (((s.put F.VIN_STAT_front (1 - s.get F.VIN_STAT_front)).put F.VIN_STAT_back 0).put F.VIN_STAT_pend 1).inc F.VIN_CNT_swaps

theorem swapEvent_eq (s : State) : s.swapEvent = (s.swapReady.swapShown.put F.VIN_STAT_fnum s.swapReady.swapShown.vid.backNum).onVid
    fun v => { v with swapEv := some s.swapReady.swapShown.now, fresh := false,
                      swapDue := if s.swapReady.swapShown.mode = .mirror then none else some s.swapReady.swapShown.nextStart } := rfl

theorem dropPass_backNum (s : State) : s.dropPass.vid.backNum = s.vid.backNum := by
  unfold State.dropPass
  dsimp only
  split <;> rfl

/-- What a swap event swaps and shows stays until it does. -/
def SwapKept (s t : State) : Prop := t.get F.VIN_STAT_front = s.get F.VIN_STAT_front ∧ t.get F.VIN_CNT_swaps = s.get F.VIN_CNT_swaps ∧
  t.now = s.now ∧ t.vid.backNum = s.vid.backNum

theorem SwapKept.trans {s t u : State} (h : SwapKept s t) (k : SwapKept t u) : SwapKept s u :=
  ⟨k.1.trans h.1, k.2.1.trans h.2.1, k.2.2.1.trans h.2.2.1, k.2.2.2.trans h.2.2.2⟩

/-- A count of another field with an event, where its condition holds. -/
theorem SwapKept.countIf (s : State) {c : Prop} [Decidable c] {f : Fld} (n : Nat)
    (h : f.apart F.VIN_STAT_front = true ∧ f.apart F.VIN_CNT_swaps = true) :
    SwapKept s (if c then (s.inc f).event 10 n else s) := by
  split
  · exact ⟨(event_get _ (by decide)).trans (get_inc_apart _ _ _ h.1), (event_get _ (by decide)).trans (get_inc_apart _ _ _ h.2), rfl, rfl⟩
  · exact ⟨rfl, rfl, rfl, rfl⟩

theorem swapReady_kept (s : State) : SwapKept s s.swapReady := by
  have hdrop (u : State) : SwapKept u u.dropPass :=
    ⟨(State.dropPass_only u).get, (State.dropPass_only u).get, (State.dropPass_only u).now (by decide), dropPass_backNum u⟩
  have hearly (c : Prop) [Decidable c] : SwapKept s (if c then (s.inc F.VIN_MISS_early).event 10 2 else s) := .countIf s 2 (by decide)
  have hover (u : State) (c : Prop) [Decidable c] : SwapKept u (if c then u.supersede else u) :=
    .countIf (f := F.VIN_CNT_superseded) u 3 (by decide)
  unfold State.swapReady
  dsimp only
  exact ((hearly _).trans (hover ..)).trans (hdrop _)

/-- A frame is swapped in (R164, R167, R174). -/
theorem swapEvent_shows (s : State) :
    s.swapEvent.get F.VIN_STAT_back = 0 ∧ s.swapEvent.get F.VIN_STAT_front = 1 - s.get F.VIN_STAT_front ∧
      s.swapEvent.get F.VIN_STAT_pend = 1 ∧ s.swapEvent.get F.VIN_STAT_fnum = s.vid.backNum % 256 ∧
      s.swapEvent.get F.VIN_CNT_swaps = s.plusOne F.VIN_CNT_swaps ∧ s.swapEvent.vid.swapEv = some s.now ∧
      s.swapEvent.vid.backNum = s.vid.backNum := by
  obtain ⟨hfront, hswaps, hnow, hback⟩ := swapReady_kept s
  have hget (f : Fld) : s.swapEvent.get f = (s.swapReady.swapShown.put F.VIN_STAT_fnum s.swapReady.swapShown.vid.backNum).get f :=
    get_congr (by rw [swapEvent_eq, onVid_regs]) f
  have hvid : s.swapReady.swapShown.vid = s.swapReady.vid ∧ s.swapReady.swapShown.now = s.swapReady.now := by
    simp only [State.swapShown, State.inc, State.incBy, put_vid, put_now, and_self]
  refine ⟨?_, ?_, ?_, ?_, ?_, ?_, ?_⟩
  · rw [hget]
    simp (disch := decide) only [State.swapShown, get_put_apart, get_inc_apart, get_put_same, Nat.zero_mod]
  · rw [hget]
    simp (disch := decide) only [State.swapShown, get_put_apart, get_inc_apart, get_put_same, hfront]
    exact Nat.mod_eq_of_lt (show 1 - s.get F.VIN_STAT_front < 2 by omega)
  · rw [hget]
    simp (disch := decide) only [State.swapShown, get_put_apart, get_inc_apart, get_put_same]
    rfl
  · rw [hget, get_put_same _ _ _ (by decide), hvid.1, hback]
    rfl
  · rw [hget, get_put_apart _ _ _ _ (by decide), State.swapShown, inc_get _ _ (by decide), State.plusOne]
    simp (disch := decide) only [get_put_apart, hswaps, State.plusOne]
  · rw [swapEvent_eq, onVid_vid, hvid.2, hnow]
  · rw [swapEvent_eq, onVid_vid, put_vid, hvid.1, hback]

/-- The state in which a good frame of `p` is sealed or swapped in (R127, R164). -/
def State.goodFrame (s : State) (p : Pkt) : State :=
  ((s.showCrc p s.frameCrc).countGood (bodyLe p 4 1)).onVid fun v => { v with backNum := bodyLe p 4 1 }

theorem goodFrame_get (s : State) (p : Pkt) (f : Fld) :
    (s.goodFrame p).get f = ((s.showCrc p s.frameCrc).countGood (bodyLe p 4 1)).get f := get_congr (onVid_regs ..) f

theorem goodFrame_only (s : State) (p : Pkt) : Only (P.vid ||| P.pgPkt) s (s.goodFrame p) :=
  .comp (.comp (.refl ..) (countGood_only ..)) (State.onVid_only ..)

theorem goodFrame_backNum (s : State) (p : Pkt) : (s.goodFrame p).vid.backNum = bodyLe p 4 1 := by rw [State.goodFrame, onVid_vid]

theorem sealFrame_sealed {s : State} (h : s.get F.VIN_CFG_swap ≠ 0) : s.sealFrame = s.put F.VIN_STAT_back 2 := if_neg h

theorem sealFrame_swaps {s : State} (h : s.get F.VIN_CFG_swap = 0) : s.sealFrame = s.swapEvent := if_pos h

section

variable {l : Fin 4} {p : Pkt} {s : State} (hv : s.link.vwait = []) (ha : s.admits l 0x11 8 8 p) (hh : hostHdrOk p = true)
  (hz : bodyLe p 5 3 = 0)
include hv ha hh hz

/-- A good frame waits sealed (R127, R164). -/
theorem fend_seals (ho : s.get F.PKT_VSTAT_open = 1) (hb : s.get F.PKT_VSTAT_bad = 0) (hc : s.get F.PKT_VSTAT_cur = bodyLe p 4 1)
    (hcrc : bodyLe p 8 4 = s.link.vcrc) (hw : s.get F.VIN_CFG_swap ≠ 0) :
    Does (.fend l p) s (P.fault ||| P.link ||| P.draws ||| P.pgPkt ||| P.pgVin) fun t =>
      t.get F.PKT_VCNT_good = s.plusOne F.PKT_VCNT_good ∧ t.get F.PKT_VSTAT_held = 0 ∧ t.get F.PKT_VSTAT_good = bodyLe p 4 1 ∧
        t.get F.PKT_VSTAT_open = 0 ∧ t.get F.PKT_VSTAT_cur = 0 ∧ t.get F.VIN_STAT_back = 2 ∧
        t.get F.VIN_STAT_front = s.get F.VIN_STAT_front ∧ t.vid.backNum = bodyLe p 4 1 ∧ t.link.retV = s.link.retV + 1 ∧
        t.sram = s.sram := by
  obtain ⟨hgood, hheld, hnum, hopen, hcur⟩ := countGood_shows s p s.frameCrc
  have honly := goodFrame_only s p
  have hj : s.judgeFrame p = (s.goodFrame p).put F.VIN_STAT_back 2 :=
    (judgeFrame_good ho hb hc hcrc).trans (sealFrame_sealed (by rw [← State.goodFrame, honly.get]; exact hw))
  refine fend_does hv ha hh hz fun t hr hm hvid hret => ?_
  have hget {f : Fld} (hf : F.VIN_STAT_back.apart f = true) : t.get f = (s.goodFrame p).get f := by
    rw [get_congr hr, hj, get_put_apart _ _ _ _ hf]
  have hpkt {f : Fld} (hf : F.VIN_STAT_back.apart f = true) :
      t.get f = ((s.showCrc p s.frameCrc).countGood (bodyLe p 4 1)).get f := (hget hf).trans (goodFrame_get ..)
  refine ⟨(hpkt (by decide)).trans hgood, (hpkt (by decide)).trans hheld, (hpkt (by decide)).trans hnum, (hpkt (by decide)).trans hopen,
    (hpkt (by decide)).trans hcur, ?_, (hget (by decide)).trans honly.get, ?_, hret, ?_⟩
  · rw [get_congr hr, hj]
    exact get_put_same _ _ _ (by decide)
  · rw [hvid, hj, put_vid, goodFrame_backNum]
  · rw [hm, hj, put_sram]
    exact honly.sram (by decide)

/-- A good frame is swapped in at once (R127, R164). -/
theorem fend_swaps (ho : s.get F.PKT_VSTAT_open = 1) (hb : s.get F.PKT_VSTAT_bad = 0) (hc : s.get F.PKT_VSTAT_cur = bodyLe p 4 1)
    (hcrc : bodyLe p 8 4 = s.link.vcrc) (hw : s.get F.VIN_CFG_swap = 0) :
    Does (.fend l p) s (P.fault ||| P.link ||| P.draws ||| P.pgPkt ||| P.pgVin) fun t =>
      t.get F.PKT_VCNT_good = s.plusOne F.PKT_VCNT_good ∧ t.get F.PKT_VSTAT_open = 0 ∧ t.get F.VIN_STAT_back = 0 ∧
        t.get F.VIN_STAT_front = 1 - s.get F.VIN_STAT_front ∧ t.get F.VIN_STAT_pend = 1 ∧ t.vid.backNum = bodyLe p 4 1 ∧
        t.get F.VIN_STAT_fnum = bodyLe p 4 1 ∧ t.get F.VIN_CNT_swaps = s.plusOne F.VIN_CNT_swaps ∧ t.vid.swapEv = some s.now ∧
        t.link.retV = s.link.retV + 1 ∧ t.sram = s.sram := by
  obtain ⟨hgood, -, -, hopen, -⟩ := countGood_shows s p s.frameCrc
  obtain ⟨hback, hfront, hpend, hfnum, hswaps, hev, hnum⟩ := swapEvent_shows (s.goodFrame p)
  have honly := goodFrame_only s p
  have hevent := State.swapEvent_only (s.goodFrame p)
  have hj : s.judgeFrame p = (s.goodFrame p).swapEvent :=
    (judgeFrame_good ho hb hc hcrc).trans (sealFrame_swaps (by rw [← State.goodFrame, honly.get]; exact hw))
  refine fend_does hv ha hh hz fun t hr hm hvid hret => ?_
  have hget (f : Fld) : t.get f = (s.goodFrame p).swapEvent.get f := by rw [get_congr hr, hj]
  refine ⟨?_, ?_, (hget _).trans hback, ?_, (hget _).trans hpend, ?_, ?_, ?_, ?_, hret, ?_⟩
  · rw [hget, hevent.get, goodFrame_get, hgood]
  · rw [hget, hevent.get, goodFrame_get, hopen]
  · rw [hget, hfront, honly.get]
  · rw [hvid, hj, hnum, goodFrame_backNum]
  · rw [hget, hfnum, goodFrame_backNum]
    exact Nat.mod_eq_of_lt (bodyLe_lt p 4 1)
  · rw [hget, hswaps, State.plusOne, honly.get, State.plusOne]
  · rw [hvid, hj, hev, honly.now (by decide)]
  · rw [hm, hj, hevent.sram (by decide), honly.sram (by decide)]

/-- The end of a repeat frame ends the count of held frames (R128). -/
theorem fend_repeats (ho : s.get F.PKT_VSTAT_open = 0) (hcrc : bodyLe p 8 4 = 0) :
    Does (.fend l p) s (P.fault ||| P.link ||| P.draws ||| P.pgPkt ||| P.pgVin) fun t =>
      t.get F.PKT_VCNT_good = s.plusOne F.PKT_VCNT_good ∧ t.get F.PKT_VSTAT_held = 0 ∧ t.get F.PKT_VSTAT_good = bodyLe p 4 1 ∧
        t.reg R.VIN_STAT = s.reg R.VIN_STAT ∧ t.sram = s.sram := by
  obtain ⟨hgood, hheld, hnum, -, -⟩ := countGood_shows s p s.frameCrc
  have honly := countGood_only s p s.frameCrc (bodyLe p 4 1)
  have hj := judgeFrame_repeat ho hcrc
  rw [← hj] at hgood hheld hnum honly
  exact fend_does hv ha hh hz fun t hr hm _ _ => ⟨(get_congr hr _).trans hgood, (get_congr hr _).trans hheld, (get_congr hr _).trans hnum,
    (reg_congr hr _).trans (honly.word _ (by decide)), hm.trans (honly.sram (by decide))⟩

end

/-- A dropped frame as it counts (R128, R139). -/
def State.dropCounted (s : State) : State := (((s.inc F.PKT_VCNT_dropped).event 8 3).inc F.PKT_VSTAT_held).noFrame

/-- A dropped frame, before it may lead to FALLBACK (R128). -/
def State.frameDropped (s : State) : State :=
  if s.dropCounted.get F.VIN_STAT_back = 1 then s.dropCounted.put F.VIN_STAT_back 0 else s.dropCounted

theorem dropFrame_eq (s : State) : s.dropFrame =
    if s.frameDropped.mode = .operate ∧ s.frameDropped.get F.VIN_CFG_hold_lim ≤ s.frameDropped.get F.PKT_VSTAT_held then
      (s.frameDropped.event 8 4).enterFallback else s.frameDropped := rfl

theorem dropCounted_only (s : State) : Only P.pgPkt s s.dropCounted :=
  .comp (.inc (.event (.inc (.refl ..)))) (State.noFrame_only ..)

theorem frameDropped_only (s : State) : Only (P.pgPkt ||| P.pgVin) s s.frameDropped :=
  have h : Only (P.pgPkt ||| P.pgVin) s s.dropCounted := (dropCounted_only s).mono
  .ite (.put h) h

theorem frameDropped_get (s : State) {f : Fld} (hf : F.VIN_STAT_back.apart f = true) : s.frameDropped.get f = s.dropCounted.get f := by
  unfold State.frameDropped
  split
  · exact get_put_apart _ _ _ _ hf
  · rfl

theorem dropCounted_shows (s : State) : let t := s.dropCounted
    t.get F.PKT_VCNT_dropped = s.plusOne F.PKT_VCNT_dropped ∧ t.get F.PKT_VSTAT_held = s.plusOne F.PKT_VSTAT_held ∧
      t.get F.PKT_VSTAT_open = 0 ∧ t.get F.PKT_VSTAT_cur = 0 ∧ t.get F.PKT_VSTAT_bad = 0 ∧
      t.get F.PKT_VCNT_good = s.get F.PKT_VCNT_good := by
  refine ⟨?_, ?_, ?_, ?_, ?_, ?_⟩ <;>
    simp (disch := decide) only [State.dropCounted, State.noFrame, get_put_apart, get_put_same, get_inc_apart, event_get, Nat.zero_mod]
  · exact inc_get _ _ (by decide)
  · rw [inc_get _ _ (by decide), State.plusOne, event_get _ (by decide), get_inc_apart _ _ _ (by decide), State.plusOne]

theorem frameDropped_back {s : State} (h : s.get F.VIN_STAT_back = 1) : s.frameDropped.get F.VIN_STAT_back = 0 := by
  have hd : s.dropCounted.get F.VIN_STAT_back = 1 := (dropCounted_only s).get.trans h
  rw [State.frameDropped, if_pos hd]
  exact get_put_same _ _ _ (by decide)

/-- The fields of the packet and the video page stay as a dropped frame leaves them, in FALLBACK too (R48, R128). -/
theorem dropFrame_get (s : State) {f : Fld} (h : f.addr = R.PKT_VCNT ∨ f.addr = R.PKT_VSTAT ∨ f.addr = R.VIN_STAT) :
    s.dropFrame.get f = s.frameDropped.get f := by
  rw [dropFrame_eq]
  split
  · rw [(State.enterFallback_only _).get (by rcases h with h | h | h <;> rw [h] <;> decide),
      event_get _ (by rcases h with h | h | h <;> rw [h] <;> decide)]
  · rfl

/-- The mode after a dropped frame: FALLBACK from OPERATE at the limit of held frames (R128). -/
theorem dropFrame_mode {s : State} {drops : Bool}
    (hd : drops = (s.mode == .operate && decide (s.get F.VIN_CFG_hold_lim ≤ s.plusOne F.PKT_VSTAT_held)))
    (hf : drops = true → s.boot.dark = none ∧ s.get F.SYS_FBSTAT_valid = 1) :
    s.dropFrame.mode = if drops then .fallback else s.mode := by
  have honly := frameDropped_only s
  have hmode : s.frameDropped.mode = s.mode := honly.modeEq
  have hheld : s.frameDropped.get F.PKT_VSTAT_held = s.plusOne F.PKT_VSTAT_held :=
    (frameDropped_get s (by decide)).trans (dropCounted_shows s).2.1
  have hlim : s.frameDropped.get F.VIN_CFG_hold_lim = s.get F.VIN_CFG_hold_lim :=
    (frameDropped_get s (by decide)).trans (dropCounted_only s).get
  have hiff : drops = true ↔ s.frameDropped.mode = .operate ∧
      s.frameDropped.get F.VIN_CFG_hold_lim ≤ s.frameDropped.get F.PKT_VSTAT_held := by
    rw [hd, Bool.and_eq_true, beq_iff_eq, decide_eq_true_eq, hmode, hlim, hheld]
  rw [dropFrame_eq]
  by_cases h : drops = true
  · obtain ⟨hdark, hvalid⟩ := hf h
    rw [if_pos h, if_pos (hiff.mp h)]
    refine enterFallback_mode ((mode_congr (event_get _ (by decide))).trans (hiff.mp h).1) ?_ ?_
    · exact (congrArg Boot.dark (honly.boot (by decide))).trans hdark
    · rw [event_get _ (by decide), honly.get, hvalid]
  · rw [if_neg h, if_neg fun hc => h (hiff.mpr hc), hmode]

/-- A frame end that does not match drops the frame (R127, R128). -/
theorem fend_drops {l : Fin 4} {p : Pkt} {s : State} (hv : s.link.vwait = []) (ha : s.admits l 0x11 8 8 p) (hh : hostHdrOk p = true)
    (hz : bodyLe p 5 3 = 0) {drops : Bool}
    (h : s.get F.PKT_VSTAT_open = 1 ∧
        (bodyLe p 8 4 ≠ s.link.vcrc ∨ s.get F.PKT_VSTAT_bad = 1 ∨ s.get F.PKT_VSTAT_cur ≠ bodyLe p 4 1) ∨
      s.get F.PKT_VSTAT_open = 0 ∧ bodyLe p 8 4 ≠ 0)
    (hd : drops = (s.mode == .operate && decide (s.get F.VIN_CFG_hold_lim ≤ s.plusOne F.PKT_VSTAT_held)))
    (hf : drops = true → s.boot.dark = none ∧ s.get F.SYS_FBSTAT_valid = 1) :
    Does (.fend l p) s (P.fault ||| P.link ||| P.draws ||| P.pgPkt ||| P.pgVin) fun t =>
      t.get F.PKT_VCNT_dropped = s.plusOne F.PKT_VCNT_dropped ∧ t.get F.PKT_VSTAT_held = s.plusOne F.PKT_VSTAT_held ∧
        t.get F.PKT_VSTAT_open = 0 ∧ t.get F.PKT_VSTAT_cur = 0 ∧ t.get F.PKT_VSTAT_bad = 0 ∧
        (s.get F.VIN_STAT_back = 1 → t.get F.VIN_STAT_back = 0) ∧ t.link.retV = s.link.retV + 1 ∧
        t.get F.PKT_VCNT_good = s.get F.PKT_VCNT_good ∧ t.mode = (if drops then .fallback else s.mode) := by
  have hj := judgeFrame_drops h
  obtain ⟨hdropped, hheld, hopen, hcur, hbad, hgood⟩ := dropCounted_shows (s.showCrc p s.frameCrc)
  have hcrc {f : Fld} (hf : f.addr ≠ R.PKT_VCRC ∧ f.addr ≠ R.PKT_VCALC) : (s.showCrc p s.frameCrc).get f = s.get f := showCrc_get _ _ _ hf
  have hplus {f : Fld} (hf : f.addr ≠ R.PKT_VCRC ∧ f.addr ≠ R.PKT_VCALC) : (s.showCrc p s.frameCrc).plusOne f = s.plusOne f := by
    rw [State.plusOne, hcrc hf, State.plusOne]
  rw [hplus (by decide)] at hdropped hheld
  have hmode : (s.showCrc p s.frameCrc).dropFrame.mode = if drops then .fallback else s.mode := by
    rw [dropFrame_mode (s := s.showCrc p s.frameCrc) (by rw [showCrc_mode, hcrc (by decide), hplus (by decide), hd])
      fun hdr => ⟨(hf hdr).1, (hcrc (by decide)).trans (hf hdr).2⟩, showCrc_mode]
  refine fend_does hv ha hh hz fun t hr _ _ hret => ?_
  rw [hj] at hr
  have hget {f : Fld} (hf : f.addr = R.PKT_VCNT ∨ f.addr = R.PKT_VSTAT) (hb : F.VIN_STAT_back.apart f = true) :
      t.get f = (s.showCrc p s.frameCrc).dropCounted.get f :=
    (get_congr hr f).trans ((dropFrame_get _ (hf.imp_right .inl)).trans (frameDropped_get _ hb))
  refine ⟨(hget (by decide) (by decide)).trans hdropped, (hget (by decide) (by decide)).trans hheld,
    (hget (by decide) (by decide)).trans hopen, (hget (by decide) (by decide)).trans hcur, (hget (by decide) (by decide)).trans hbad,
    fun hback => ?_, hret, ((hget (by decide) (by decide)).trans hgood).trans (hcrc (by decide)),
    (mode_congr (get_congr hr _)).trans hmode⟩
  rw [get_congr hr, dropFrame_get _ (by decide), frameDropped_back (by rw [hcrc (by decide), hback])]

/-- Settles O42: a line fills the back buffer; an end is judged good, as a repeat, or drops the frame. -/
theorem videoPackets : Obligations.VideoPackets := fun _ _ _ hv =>
  ⟨vline_fills hv, fend_seals hv, fend_swaps hv, fend_repeats hv, fun _ ha hh hz => fend_drops hv ha hh hz⟩

end Sys2Proof.Machine

end

section
/-! What a packet that the device sends depends on (R91, R99, R100, R113). -/

set_option Elab.async false

namespace Sys2Proof.Machine

/-- Two records of a lane that send alike, and go on doing so when the same is sent (R91, R92, R100). -/
structure SendsAlike (L : Lane → Lane → Prop) : Prop where
  same : ∀ a b, L a b → b.scrOff = a.scrOff ∧ b.txLfsr = a.txLfsr ∧ b.bndSent = a.bndSent
  lfsr : ∀ a b f, L a b → L { a with txLfsr := f } { b with txLfsr := f }
  wait : ∀ a b w, L a b → L { a with txWait := a.txWait ++ w } { b with txWait := b.txWait ++ w }

theorem sendsAlike_eq : SendsAlike Eq :=
  ⟨fun _ _ h => h ▸ ⟨rfl, rfl, rfl⟩, fun _ _ _ h => h ▸ rfl, fun _ _ _ h => h ▸ rfl⟩

/-- Two states whose lanes send alike: what was sent is the same, and so are the roles and the states of the lanes. -/
structure SameLines (L : Lane → Lane → Prop) (s t : State) : Prop where
  out : t.out = s.out
  role : ∀ n, t.reg (R.LNK_ROLE n) = s.reg (R.LNK_ROLE n)
  stat : ∀ n, t.reg (R.LNK_STAT n) = s.reg (R.LNK_STAT n)
  lane : ∀ k, L (s.lane k) (t.lane k)

variable {L : Lane → Lane → Prop} {s t : State}

/-- States that agree in the lanes' records and pages and in what was sent. -/
theorem SameLines.ofLanes (hl : t.link.lanes = s.link.lanes) (ho : t.out = s.out)
    (hr : ∀ n k, 0x40 ≤ k ∧ k < 0x60 → t.reg (lnkAddr n + k) = s.reg (lnkAddr n + k)) : SameLines Eq s t :=
  ⟨ho, fun n => hr n _ (by decide), fun n => hr n _ (by decide), fun _ => by rw [State.lane, State.lane, hl]⟩

/-- A step beside the lanes. -/
theorem SameLines.ofOnly {E : Nat} (h : Only E s t) (hE : E.testBit 20 = false ∧ E.testBit 24 = false ∧ E.testBit 36 = false := by decide) :
    SameLines Eq s t :=
  .ofLanes (congrArg Link.lanes (h.link hE.1)) (h.out hE.2.1) fun n k hk => h.word _ (leaves_lnk ⟨by omega, hE.2.2⟩)

theorem SameLines.bonded (h : SameLines L s t) (l : Nat) : t.bonded l = s.bonded l :=
  bonded_of_regs (fun n => by rw [State.get, State.get, F.LNK_ROLE_bond, h.role]) l

theorem SameLines.linkLow (h : SameLines L s t) (l : Nat) : t.linkLow l = s.linkLow l := by
  rw [State.linkLow, h.bonded, State.linkLow]

theorem SameLines.linkLanes (h : SameLines L s t) (l : Nat) : t.linkLanes l = s.linkLanes l := by
  rw [State.linkLanes, h.bonded, State.linkLanes]

theorem SameLines.active (h : SameLines L s t) (l : Nat) : t.active l = s.active l := by
  simp only [State.active, State.laneState, State.get, F.LNK_STAT_state, h.stat]

theorem SameLines.hostLanes (h : SameLines L s t) : t.hostLanes = s.hostLanes := by
  unfold State.hostLanes
  refine List.filter_congr fun l _ => ?_
  simp only [h.active, State.hostPath, State.laneRole, State.roleLane, h.bonded, State.get, F.LNK_ROLE_role, F.LNK_STAT_end, h.role, h.stat]

theorem SameLines.hostOut (h : SameLines L s t) : t.hostOut = s.hostOut := by rw [State.hostOut, h.hostLanes, State.hostOut]

theorem SameLines.txLanes (h : SameLines L s t) (l : Nat) : t.txLanes l = s.txLanes l := by
  have hw : t.get (F.LNK_STAT_txw (lowerLane l)) = s.get (F.LNK_STAT_txw (lowerLane l)) := by
    rw [State.get, State.get, F.LNK_STAT_txw, h.stat]
  rw [State.txLanes, h.bonded, hw, State.txLanes]

theorem SameLines.linkOpen (h : SameLines L s t) (hL : SendsAlike L) (l : Nat) : t.linkOpen l = s.linkOpen l := by
  have hb (k : Nat) : (t.lane k).bndSent = (s.lane k).bndSent := (hL.same _ _ (h.lane k)).2.2
  simp only [State.linkOpen, h.linkLanes, h.active, hb]

theorem SameLines.onLane (h : SameLines L s t) (l : Nat) {f g : Lane → Lane} (hf : ∀ a b, L a b → L (f a) (g b)) :
    SameLines L (s.onLane l f) (t.onLane l g) := by
  refine ⟨by rw [onLane_out, onLane_out, h.out], fun n => ?_, fun n => ?_, fun k => ?_⟩
  · rw [reg_congr (onLane_regs ..), reg_congr (onLane_regs ..), h.role]
  · rw [reg_congr (onLane_regs ..), reg_congr (onLane_regs ..), h.stat]
  · by_cases hl : l < 4
    · by_cases hk : k = l
      · rw [hk, lane_onLane s hl, lane_onLane t hl]
        exact hf _ _ (h.lane l)
      · rw [lane_onLane_ne s hk, lane_onLane_ne t hk]
        exact h.lane k
    · rw [State.onLane, State.onLane, dif_neg hl, dif_neg hl]
      exact h.lane k

theorem SameLines.emit (h : SameLines L s t) (o : Out) : SameLines L (s.emit o) (t.emit o) :=
  ⟨congrArg (o :: ·) h.out, h.role, h.stat, h.lane⟩

theorem SameLines.sendWord (h : SameLines L s t) (hL : SendsAlike L) (l : Nat) (w : List (Bool × Nat)) :
    SameLines L (s.sendWord l w) (t.sendWord l w) := by
  obtain ⟨hscr, hlfsr, -⟩ := hL.same _ _ (h.lane l)
  unfold State.sendWord
  rw [hscr, hlfsr]
  split
  · exact h.emit _
  · exact (h.onLane l fun a b => hL.lfsr a b _).emit _

theorem SameLines.sendPacket (h : SameLines L s t) (hL : SendsAlike L) (l typ hdr : Nat) (body : List Byte) :
    SameLines L (s.sendPacket l typ hdr body) (t.sendPacket l typ hdr body) := by
  unfold State.sendPacket
  dsimp only
  rw [h.txLanes]
  exact (List.foldl_rel (r := SameLines L) h fun e _ _ _ hr =>
    hr.sendWord hL ((s.txLanes l).getD (e.2 % max 1 (s.txLanes l).length) l) e.1).emit _

/-- A packet that is sent or waits keeps the lanes alike (R100). -/
theorem SameLines.transmit (h : SameLines L s t) (hL : SendsAlike L) (l typ hdr : Nat) (body : List Byte) :
    SameLines L (s.transmit l typ hdr body) (t.transmit l typ hdr body) := by
  unfold State.transmit
  rw [h.linkOpen hL, h.linkLow]
  split
  · exact h.sendPacket hL ..
  · exact h.onLane _ fun a b => hL.wait a b _

/-- The packet layer changes in the lanes' records alone. -/
def LanesOnly (s t : State) : Prop := ∃ ls, t.link = { s.link with lanes := ls }

theorem LanesOnly.refl (s : State) : LanesOnly s s := ⟨_, rfl⟩

theorem LanesOnly.trans {u : State} (h : LanesOnly s t) (k : LanesOnly t u) : LanesOnly s u := by
  obtain ⟨a, h⟩ := h
  obtain ⟨b, k⟩ := k
  exact ⟨b, by rw [k, h]⟩

theorem onLane_lanesOnly (s : State) (l : Nat) (f : Lane → Lane) : LanesOnly s (s.onLane l f) := by
  unfold State.onLane
  split
  · exact ⟨_, rfl⟩
  · exact .refl s

theorem sendWord_lanesOnly (s : State) (l : Nat) (w : List (Bool × Nat)) : LanesOnly s (s.sendWord l w) := by
  unfold State.sendWord
  split
  · exact ⟨_, rfl⟩
  · exact onLane_lanesOnly ..

theorem sendPacket_lanesOnly (s : State) (l typ hdr : Nat) (body : List Byte) : LanesOnly s (s.sendPacket l typ hdr body) := by
  have hfold (ws : List (List (Bool × Nat) × Nat)) (g : Nat → Nat) : LanesOnly s (ws.foldl (fun t e => t.sendWord (g e.2) e.1) s) :=
    List.foldlRecOn ws _ (.refl s) fun _ hu _ _ => hu.trans (sendWord_lanesOnly ..)
  exact hfold _ fun n => (s.txLanes l).getD (n % max 1 (s.txLanes l).length) l

theorem transmit_lanesOnly (s : State) (l typ hdr : Nat) (body : List Byte) : LanesOnly s (s.transmit l typ hdr body) := by
  unfold State.transmit
  split
  · exact sendPacket_lanesOnly ..
  · exact onLane_lanesOnly ..

/-- The records of the four lanes are what the states say of each. -/
theorem lanes_ext (h : ∀ k, t.lane k = s.lane k) : t.link.lanes = s.link.lanes := by
  refine Vector.ext fun i hi => ?_
  have := h i
  simpa [State.lane, hi] using this

/-- What a packet that is sent leaves of the packet layer, from a state whose lanes are the same. -/
theorem SameLines.transmit_link (h : SameLines Eq s t) (l typ hdr : Nat) (body : List Byte) :
    (t.transmit l typ hdr body).link = { t.link with lanes := (s.transmit l typ hdr body).link.lanes } := by
  obtain ⟨ls, hls⟩ := transmit_lanesOnly t l typ hdr body
  rw [← lanes_ext fun k => ((h.transmit sendsAlike_eq l typ hdr body).lane k).symm, hls]

theorem SameLines.transmit_out (h : SameLines Eq s t) (l typ hdr : Nat) (body : List Byte) :
    (t.transmit l typ hdr body).out = (s.transmit l typ hdr body).out := (h.transmit sendsAlike_eq l typ hdr body).out

/-- A packet that is sent or waits changes no record but in the transmit scrambler and the packets that wait (R92, R100). -/
theorem transmit_part {α : Type} (g : Lane → α) (hg : ∀ (a : Lane) f, g { a with txLfsr := f } = g a)
    (hw : ∀ (a : Lane) w, g { a with txWait := w } = g a) (s : State) (l typ hdr : Nat) (body : List Byte) (k : Nat) :
    g ((s.transmit l typ hdr body).lane k) = g (s.lane k) := by
  unfold State.transmit
  split
  · exact sendPacket_part g hg s l typ hdr body k
  · exact lane_onLane_part g s _ k _ fun a => hw a _

end Sys2Proof.Machine

end

section
/-! What the device sends on the host path (O40). -/

set_option Elab.async false

namespace Sys2Proof.Machine

/-- A packet for the host leaves on the lane of the host path, from a state whose lanes are the same (R99, R117). -/
theorem toHost_eq {s t : State} (h : SameLines Eq s t) {l : Nat} (ho : s.hostOut = some l) (typ : Nat) (body : List Byte) :
    t.toHost typ body = t.transmit l typ t.hostHdr body := by
  rw [State.toHost, h.hostOut, ho]

theorem onLink_out (s : State) (f : Link → Link) : (s.onLink f).out = s.out := rfl

theorem sameLines_refl (s : State) : SameLines Eq s s := .ofLanes rfl rfl fun _ _ _ => rfl

/-- A status PDU and its number (R151). -/
theorem status_sends {l : Nat} {s : State} (hl : s.live = true) (ho : s.hostOut = some l) (hid : s.regN R.SPD_TXID ≠ 0) :
    Does .statusPduSend s (P.link ||| P.out ||| P.spd ||| P.pgSpd) fun t =>
      t.link = (s.transmit l 0x40 s.hostHdr s.statusPdu).link ∧ t.out = (s.transmit l 0x40 s.hostHdr s.statusPdu).out ∧
        t.get F.SPD_TXSEQ_seq = s.spd.txN % 65536 ∧
        t.spd = { s.spd with txN := (s.spd.txN + 1) % 65536, sent := s.statusWords } := by
  have hx : exec .statusPduSend s = .next (((s.transmit l 0x40 s.hostHdr s.statusPdu).put F.SPD_TXSEQ_seq s.spd.txN).onSpd fun d =>
      { d with txN := (d.txN + 1) % 65536, sent := s.statusWords }) := by
    show execStatusPduSend s = _
    rw [execStatusPduSend, if_pos ⟨hl, hid, by rw [ho]; rfl⟩, toHost_eq (sameLines_refl s) ho]
  have hspd : (s.transmit l 0x40 s.hostHdr s.statusPdu).spd = s.spd := (State.transmit_only ..).spd (by decide)
  refine ⟨_, hx, execStatusPduSend_only s hx, rfl, rfl, get_put_same _ _ _ (by decide), ?_⟩
  rw [← hspd]
  rfl

theorem irqSum_put (s : State) {f : Fld} (h : 0x40 ≤ f.addr % 0x1000) (v : Nat) : (s.put f v).irqSum = s.irqSum := by
  have hreg (p k : Nat) (hk : k < 0x40) : (s.put f v).reg (pageAddr p + k) = s.reg (pageAddr p + k) :=
    reg_put_ne _ _ _ fun he => by rw [← he] at h; unfold pageAddr at h; omega
  unfold State.irqSum State.irq R.PIRQ_RAW R.PIRQ_EN
  simp only [hreg _ _ (show 0x10 < 0x40 by decide), hreg _ _ (show 0x14 < 0x40 by decide)]

/-- An interrupt message: its number, the summary and SYS_STAT (R134). -/
theorem irqmsg_sends {l : Nat} {c : Instr} {s u : State} (hl : s.live = true) (ho : s.hostOut = some l) (he : s.get F.PKT_CFG_irq_en = 1)
    (hc : c = .irqmsgSend ∧ BitVec.ofNat 32 s.irqSum ≠ s.link.irqLast ∨ c = .irqmsgRepeat ∧ s.get F.PKT_CFG_repeat ≠ 0 ∧ s.irqSum ≠ 0)
    (hu : u = s.transmit l 0x30 s.hostHdr (leBytes 4 ((s.get F.PKT_IRQSEQ_seq + 1) % 256) ++ leBytes 4 s.irqSum ++
      leBytes 4 (s.regN R.SYS_STAT))) :
    Does c s (P.link ||| P.out ||| P.pgPkt) fun t => t.get F.PKT_IRQSEQ_seq = (s.get F.PKT_IRQSEQ_seq + 1) % 256 ∧
      t.link = { u.link with irqLast := BitVec.ofNat 32 s.irqSum } ∧ t.out = u.out := by
  have hon : s.on F.PKT_CFG_irq_en = true := (on_iff ..).mpr he
  have hsome : s.hostOut.isSome = true := by rw [ho]; rfl
  have hx : exec c s = .next s.irqmsg := by
    rcases hc with ⟨rfl, h⟩ | ⟨rfl, hr, hs⟩
    · show execIrqmsgSend s = _
      rw [execIrqmsgSend, if_pos ⟨hl, hon, h, hsome⟩]
    · show execIrqmsgRepeat s = _
      rw [execIrqmsgRepeat, if_pos ⟨hl, hon, hr, hs, hsome⟩]
  have hseq : (s.put F.PKT_IRQSEQ_seq (s.get F.PKT_IRQSEQ_seq + 1)).get F.PKT_IRQSEQ_seq = (s.get F.PKT_IRQSEQ_seq + 1) % 256 :=
    get_put_same _ _ _ (by decide)
  have hone : Only P.pgPkt s (s.put F.PKT_IRQSEQ_seq (s.get F.PKT_IRQSEQ_seq + 1)) := .put (.refl ..)
  have hirq : (s.put F.PKT_IRQSEQ_seq (s.get F.PKT_IRQSEQ_seq + 1)).irqSum = s.irqSum := irqSum_put s (by decide) _
  have hstat : (s.put F.PKT_IRQSEQ_seq (s.get F.PKT_IRQSEQ_seq + 1)).regN R.SYS_STAT = s.regN R.SYS_STAT :=
    congrArg BitVec.toNat (reg_put_ne _ _ _ (by decide))
  have hhdr : (s.put F.PKT_IRQSEQ_seq (s.get F.PKT_IRQSEQ_seq + 1)).hostHdr = s.hostHdr := by
    rw [State.hostHdr, get_put_ne _ _ (by decide), State.hostHdr]
  generalize hw : s.put F.PKT_IRQSEQ_seq (s.get F.PKT_IRQSEQ_seq + 1) = w at hseq hone hirq hstat hhdr
  have hsame : SameLines Eq s w := .ofOnly hone
  have hmsg : s.irqmsg = (w.transmit l 0x30 s.hostHdr (leBytes 4 ((s.get F.PKT_IRQSEQ_seq + 1) % 256) ++ leBytes 4 s.irqSum ++
      leBytes 4 (s.regN R.SYS_STAT))).onLink fun k => { k with irqLast := BitVec.ofNat 32 s.irqSum } := by
    unfold State.irqmsg
    dsimp only
    rw [hw, toHost_eq hsame ho, hseq, hirq, hstat, hhdr]
  have hget : s.irqmsg.get F.PKT_IRQSEQ_seq = (s.get F.PKT_IRQSEQ_seq + 1) % 256 := by
    rw [hmsg, get_congr (onLink_regs ..), (State.transmit_only ..).get, hseq]
  have honly : Only (P.link ||| P.out ||| P.pgPkt) s s.irqmsg := .comp (.refl ..) (State.irqmsg_only s)
  refine ⟨_, hx, honly, hget, ?_, ?_⟩
  · rw [hmsg, onLink_link, hsame.transmit_link, hone.link (by decide), hu, (sameLines_refl s).transmit_link]
  · rw [hmsg, hu, onLink_out, hsame.transmit_out]

/-- Records that differ in what the credit of their link has sent alone (R124). -/
def ApartInCredit (a b : Lane) : Prop := ∃ x y, b = { a with fcSent := x, fcBase := y }

theorem sendsAlike_credit : SendsAlike ApartInCredit :=
  ⟨by rintro a b ⟨x, y, rfl⟩; exact ⟨rfl, rfl, rfl⟩, by rintro a b f ⟨x, y, rfl⟩; exact ⟨x, y, rfl⟩,
    by rintro a b w ⟨x, y, rfl⟩; exact ⟨x, y, rfl⟩⟩

theorem onLane_credit (s : State) (l : Nat) (y : Nat × Nat × Nat) :
    SameLines ApartInCredit s (s.onLane l fun a => { a with fcSent := true, fcBase := y }) := by
  refine ⟨onLane_out .., fun n => reg_congr (onLane_regs ..) _, fun n => reg_congr (onLane_regs ..) _, fun k => ?_⟩
  by_cases hk : k = l ∧ l < 4
  · rw [hk.1, lane_onLane s hk.2]
    exact ⟨_, _, rfl⟩
  · by_cases hl : l < 4
    · rw [lane_onLane_ne s fun h => hk ⟨h, hl⟩]
      exact ⟨_, _, rfl⟩
    · rw [State.onLane, dif_neg hl]
      exact ⟨_, _, rfl⟩

section

variable {l : Nat} {s : State} (hl : s.live = true) (hh : s.hostLanes = [l]) (ha : s.active l = true) (hb : s.bonded l = false)
include hl hh ha hb

/-- The credit of the one host link (R124). -/
theorem exec_fcSend : exec .fcSend s = .next (if (s.lane l).fcSent then s.transmit l 0x50 s.hostHdr (s.fcBody l)
    else if s.poolsEmpty then
      let t := s.onLane l fun a => { a with fcSent := true, fcBase := (s.link.retV, s.link.retU, s.link.retS) }
      t.transmit l 0x50 s.hostHdr (t.fcBody l)
    else s) := by
  have hlanes : s.linkLanes l = [l] := by rw [State.linkLanes, hb]; rfl
  have hfirst : (s.hostLanes.filter fun k => (s.linkLanes k).find? s.active == some k) = [l] := by
    rw [hh, List.filter_cons_of_pos (by rw [hlanes, List.find?_cons_of_pos ha, beq_self_eq_true]), List.filter_nil]
  show execFcSend s = _
  rw [execFcSend, if_neg (by simp [hl])]
  dsimp only
  rw [hfirst, List.foldl_cons, List.foldl_nil, hlanes, List.foldl_cons, List.foldl_nil]

theorem fcSend_later (hs : (s.lane l).fcSent = true) : Does .fcSend s (P.link ||| P.out) fun t =>
    t.link = (s.transmit l 0x50 s.hostHdr (s.fcBody l)).link ∧ t.out = (s.transmit l 0x50 s.hostHdr (s.fcBody l)).out := by
  have hx := exec_fcSend hl hh ha hb
  rw [if_pos hs] at hx
  exact ⟨_, hx, execFcSend_only s hx, rfl, rfl⟩

theorem fcSend_first (hl4 : l < 4) {u : State} (hs : (s.lane l).fcSent = false) (hp : s.poolsEmpty = true)
    (hu : u = s.transmit l 0x50 s.hostHdr (leBytes 2 512 ++ leBytes 1 16 ++ leBytes 1 8)) : Does .fcSend s (P.link ||| P.out) fun t =>
      t.out = u.out ∧ (t.lane l).fcSent = true ∧ (t.lane l).fcBase = (s.link.retV, s.link.retU, s.link.retS) := by
  have hx := exec_fcSend hl hh ha hb
  rw [if_neg (by simp [hs]), if_pos hp] at hx
  have hcredit := onLane_credit s l (s.link.retV, s.link.retU, s.link.retS)
  have hlane : (s.onLane l fun a => { a with fcSent := true, fcBase := (s.link.retV, s.link.retU, s.link.retS) }).lane l =
      { s.lane l with fcSent := true, fcBase := (s.link.retV, s.link.retU, s.link.retS) } := lane_onLane s hl4 _
  obtain ⟨ls, hlink⟩ := onLane_lanesOnly s l fun a => { a with fcSent := true, fcBase := (s.link.retV, s.link.retU, s.link.retS) }
  dsimp only at hx
  have honly := execFcSend_only s hx
  generalize (s.onLane l fun a => { a with fcSent := true, fcBase := (s.link.retV, s.link.retU, s.link.retS) }) = w
    at hx hcredit hlane hlink honly
  have hbody : w.fcBody l = leBytes 2 512 ++ leBytes 1 16 ++ leBytes 1 8 := by
    rw [State.fcBody, hlane, hlink]
    simp only [Nat.add_sub_cancel_right]
  rw [hbody] at hx honly
  refine ⟨_, hx, honly, ?_, ?_, ?_⟩
  · rw [hu]
    exact (hcredit.transmit sendsAlike_credit ..).out
  · rw [transmit_part Lane.fcSent (fun _ _ => rfl) (fun _ _ => rfl), hlane]
  · rw [transmit_part Lane.fcBase (fun _ _ => rfl) (fun _ _ => rfl), hlane]

theorem fcSend_waits (hs : (s.lane l).fcSent = false) (hp : s.poolsEmpty = false) : exec .fcSend s = .next s := by
  rw [exec_fcSend hl hh ha hb, if_neg (by simp [hs]), if_neg (by simp [hp])]

end

/-- A list in words of four (R91). -/
theorem length_wordsOf {α : Type} : ∀ xs : List α, (wordsOf xs).length = ceilDiv xs.length 4
  | a :: b :: c :: d :: r => by
    rw [wordsOf, List.length_cons, length_wordsOf r]
    simp only [ceilDiv, List.length_cons]
    omega
  | [] => by simp [wordsOf, ceilDiv]
  | [_] => by rw [wordsOf] <;> simp [ceilDiv]
  | [_, _] => by rw [wordsOf] <;> simp [ceilDiv]
  | [_, _, _] => by rw [wordsOf] <;> simp [ceilDiv]

theorem length_packetSyms (typ hdr : Nat) (body : List Byte) :
    ceilDiv (packetSyms typ hdr body).length 4 = ceilDiv (body.length + 10) 4 := by
  simp only [packetSyms, packetBytes, ceilDiv, List.length_append, List.length_map, length_leBytes, List.length_cons, List.length_nil,
    List.length_replicate]
  omega

/-- Each word that leaves adds one to what was sent (R91). -/
theorem length_sendWord (s : State) (l : Nat) (w : List (Bool × Nat)) : (s.sendWord l w).out.length = s.out.length + 1 := by
  unfold State.sendWord
  split
  · rfl
  · rw [emit_out, onLane_out]; rfl

theorem sendPacket_head (s : State) (l typ hdr : Nat) (body : List Byte) :
    (s.sendPacket l typ hdr body).out.head? = some (.packet l typ hdr body) := rfl

theorem length_sendPacket (s : State) (l typ hdr : Nat) (body : List Byte) :
    (s.sendPacket l typ hdr body).out.length = s.out.length + 1 + ceilDiv (body.length + 10) 4 := by
  have hfold (ws : List (List (Bool × Nat) × Nat)) (g : Nat → Nat) (u : State) :
      (ws.foldl (fun t e => t.sendWord (g e.2) e.1) u).out.length = u.out.length + ws.length := by
    induction ws generalizing u with
    | nil => rfl
    | cons e r ih => rw [List.foldl_cons, ih, length_sendWord, List.length_cons]; omega
  have := hfold (wordsOf (packetSyms typ hdr body)).zipIdx (fun n => (s.txLanes l).getD (n % max 1 (s.txLanes l).length) l) s
  rw [List.length_zipIdx, length_wordsOf, length_packetSyms] at this
  unfold State.sendPacket
  rw [emit_out, List.length_cons, this]
  omega

/-- A packet leaves in words of four symbols, or waits for the link's first BND set (R91, R100, R113). -/
theorem transmit_leaves {l : Nat} {s : State} (typ hdr : Nat) (body : List Byte) (hl : l < 4) :
    (s.linkOpen l = true → (s.transmit l typ hdr body).out.head? = some (.packet l typ hdr body) ∧
      (s.transmit l typ hdr body).out.length = s.out.length + 1 + ceilDiv (body.length + 10) 4) ∧
    (s.linkOpen l = false → (s.transmit l typ hdr body).out = s.out ∧
      ((s.transmit l typ hdr body).lane (s.linkLow l)).txWait = (s.lane (s.linkLow l)).txWait ++ [(typ, hdr, body)]) := by
  refine ⟨fun h => ?_, fun h => ?_⟩
  · rw [State.transmit, if_pos h]
    exact ⟨sendPacket_head .., length_sendPacket ..⟩
  · rw [State.transmit, if_neg (by simp [h]), onLane_out, lane_onLane s (linkLow_lt s ⟨l, hl⟩)]
    exact ⟨rfl, rfl⟩

end Sys2Proof.Machine

end

section
/-! Packets that pass through, and words of a lane without errors (O40). -/

set_option Elab.async false

namespace Sys2Proof.Machine

section

variable {l : Fin 4} {typ : Byte} {p : Pkt} {h : Nat} {s : State} (hl : s.live = true) (ha : s.active l = true)
  (ht : typ ∈ ([0x03, 0x30, 0x40, 0x50] : List Byte)) (hr : s.laneRole l = 2) (he : s.get (F.LNK_STAT_end l) = 1) (hp : p.eop = true)
  (hlen : p.body.length = p.len.toNat) (hc : p.crc.toNat = crcLink (pktHead typ.toNat p ++ p.body))
  (hb : (s.lane (s.linkLow l)).rxBad = false) (ho : s.hostOut = some h)
include hl ha ht hr he hp hlen hc hb ho

/-- A whole packet of the device behind goes to the host, or into the return buffer (R100, R117). -/
theorem exec_returnPacket : exec (.returnPacketReceive l typ p) s = .next (
    if s.linkOpen h then s.sendPacket h typ.toNat p.hdr.toNat p.body
    else if 4096 < p.body.length + 8 + (s.link.ret.map fun e => e.2.2.length + 8).sum then (s.inc F.PKT_OVR_ret).event 8 5
    else s.onLink fun k => { k with ret := k.ret ++ [(typ.toNat, p.hdr.toNat, p.body)] }) := by
  have htyp : [0x03, 0x30, 0x40, 0x50].contains typ.toNat = true := by
    simp only [List.mem_cons, List.not_mem_nil, or_false] at ht
    rcases ht with rfl | rfl | rfl | rfl <;> rfl
  have hback : ([0x03, 0x30, 0x40, 0x50].contains typ.toNat && s.laneRole l == 2 && s.get (F.LNK_STAT_end l) == 1) = true := by
    rw [htyp, hr, he]; rfl
  have hwhole : (p.eop && p.body.length == p.len.toNat && s.crcOk l typ.toNat p) = true := by
    simp [hp, hlen, State.crcOk, hc, hb]
  show execReturnPacketReceive l typ p s = _
  rw [execReturnPacketReceive, if_neg (by simp [hl, ha])]
  dsimp only
  rw [if_pos hback, if_neg (by simp [hwhole]), ho]
  rfl

/-- It goes on as it came (R117). -/
theorem returnPacket_goesOn (hopen : s.linkOpen h = true) : Does (.returnPacketReceive l typ p) s (P.link ||| P.out) fun t =>
    t = s.sendPacket h typ.toNat p.hdr.toNat p.body ∧ t.out.head? = some (.packet h typ.toNat p.hdr.toNat p.body) := by
  have hx := exec_returnPacket hl ha ht hr he hp hlen hc hb ho
  rw [if_pos hopen] at hx
  exact ⟨_, hx, State.sendPacket_only .., rfl, sendPacket_head ..⟩

/-- It is stored while the host link waits, and dropped where 4 KiB would not hold it (R100, R117). -/
theorem returnPacket_stored {held : Nat} (hopen : s.linkOpen h = false)
    (hh : held = p.body.length + 8 + (s.link.ret.map fun e => e.2.2.length + 8).sum) :
    (held ≤ 4096 → Does (.returnPacketReceive l typ p) s P.link fun t =>
      t.link = { s.link with ret := s.link.ret ++ [(typ.toNat, p.hdr.toNat, p.body)] }) ∧
    (4096 < held → Does (.returnPacketReceive l typ p) s P.pgPkt fun t =>
      t.get F.PKT_OVR_ret = s.plusOne F.PKT_OVR_ret ∧ t.bit (R.PIRQ_RAW 8) 5 = true) := by
  have hx := exec_returnPacket hl ha ht hr he hp hlen hc hb ho
  rw [if_neg (by simp [hopen]), ← hh] at hx
  refine ⟨fun hfit => ?_, fun hover => ?_⟩
  · rw [if_neg (by omega)] at hx
    exact ⟨_, hx, State.onLink_only .., onLink_link ..⟩
  · rw [if_pos hover] at hx
    refine ⟨_, hx, .event (.inc (.refl ..)), ?_, ?_⟩
    · rw [event_get _ (by decide), inc_get _ _ (by decide)]
    · rw [bit_get]
      exact beq_iff_eq.mpr (get_put_same _ _ _ (by decide))

end

/-- Symbols that are decoded one by one. -/
theorem decodeWord_length (s : State) (l : Nat) (w : List (BitVec 10)) : (s.decodeWord l w).1.length = w.length := by
  have hfold (ws : List (BitVec 10)) (acc : List Sym × Bool) : (ws.foldl (fun acc g =>
      let (y, rd) := decode10 (if s.on (F.LNK_STAT_inv l) then 1023 - g.toNat else g.toNat) acc.2
      (acc.1 ++ [y], rd)) acc).1.length = acc.1.length + ws.length := by
    induction ws generalizing acc with
    | nil => rfl
    | cons g r ih => rw [List.foldl_cons, ih]; simp only [List.length_append, List.length_cons, List.length_nil]; omega
  exact (hfold w _).trans (Nat.zero_add _)

/-- A word without errors, as it counts at its lane (R90, R96). -/
def Lane.goodWord (a : Lane) (rd : Bool) : Lane := { a with rd := rd, bucket := a.bucket - 1 }

/-- A word without errors reaches the packet layer in ACTIVE, and only feeds the loops before (R96, R102). -/
theorem exec_goodWord {l : Fin 4} {w : Vector (BitVec 10) 4} {ys : List Sym} {rd : Bool} {s : State} (hl : s.live = true)
    (hd : s.decodeWord l w.toList = (ys, rd)) (hok : ys.all (fun y => !y.codeErr && !y.dispErr) = true)
    (hst : 2 ≤ s.laneState l ∧ s.laneState l ≤ 4) : ∃ t, t.regs = s.regs ∧ Only P.link s t ∧ t.lane l = (s.lane l).goodWord rd ∧
      (∀ m, m ≠ l.val → t.lane m = s.lane m) ∧
      exec (.laneWordReceive l w) s = .next (if s.active l then t.rxWord l ys else t.onLane l fun a => a.feed 4 0) := by
  have hcode : (ys.any fun y => y.codeErr) = false ∧ (ys.any fun y => y.dispErr) = false := by
    simp only [List.all_eq_true, Bool.and_eq_true, Bool.not_eq_true'] at hok
    exact ⟨List.any_eq_false.mpr fun y hy => by simp [(hok y hy).1], List.any_eq_false.mpr fun y hy => by simp [(hok y hy).2]⟩
  refine ⟨(s.onLane l fun a => { a with rd := rd }).onLane l fun a => { a with bucket := a.bucket - 1 }, ?_, ?_, ?_, fun m hm => ?_, ?_⟩
  · rw [onLane_regs, onLane_regs]
  · exact .comp (State.onLane_only ..) (State.onLane_only ..)
  · rw [lane_onLane_fin, lane_onLane_fin]
    rfl
  · rw [lane_onLane_ne _ hm, lane_onLane_ne _ hm]
  · show execLaneWordReceive l w s = _
    rw [execLaneWordReceive, if_pos ⟨hl, hst⟩, hd]
    dsimp only
    rw [hcode.1, hcode.2]
    simp only [Bool.or_false, Bool.false_eq_true, if_false, State.active, onLane_laneState]
    rfl

theorem feed_plain (a : Lane) (n : Nat) (h : n ≠ 0) : a.feed n 0 = { a with plainN := min 256 (a.plainN + n), dataN := 0 } := by
  rw [Lane.feed, if_neg h, if_pos rfl]

/-- A word without errors in POLL and CAPS (R96, R102). -/
theorem goodWord_training {l : Fin 4} {w : Vector (BitVec 10) 4} {ys : List Sym} {rd : Bool} {s : State} (hl : s.live = true)
    (hd : s.decodeWord l w.toList = (ys, rd)) (hok : ys.all (fun y => !y.codeErr && !y.dispErr) = true)
    (hst : s.laneState l = 2 ∨ s.laneState l = 3) : Does (.laneWordReceive l w) s P.link fun t =>
      (t.lane l).rd = rd ∧ (t.lane l).bucket = (s.lane l).bucket - 1 ∧ (t.lane l).plainN = min 256 ((s.lane l).plainN + 4) ∧
        (t.lane l).dataN = 0 ∧ ∀ m, m ≠ l.val → t.lane m = s.lane m := by
  obtain ⟨t, -, honly, hlane, hother, hx⟩ := exec_goodWord hl hd hok (by omega)
  rw [if_neg (by simp [State.active]; omega)] at hx
  have hlast : (t.onLane l fun a => a.feed 4 0).lane l = ((s.lane l).goodWord rd).feed 4 0 := by rw [lane_onLane_fin, hlane]
  rw [feed_plain _ _ (by decide)] at hlast
  refine ⟨_, hx, honly.comp (State.onLane_only ..), ?_, ?_, ?_, ?_, fun m hm => ?_⟩
  · rw [hlast]; rfl
  · rw [hlast]; rfl
  · rw [hlast]; rfl
  · rw [hlast]
  · rw [lane_onLane_ne _ hm, hother m hm]

/-- A symbol of no packet that starts none only feeds the loops (R92, R102). -/
theorem rxSym_idle {s : State} {l low : Nat} {y : Sym} (hopen : (s.lane low).rxOpen = false) (hy : (y.k && y.val == 0xFB) = false) :
    (s.rxSym l low y).1 = s.onLane l fun a => a.feed 1 0 := by
  unfold State.rxSym
  simp only [hopen, Bool.and_false, Bool.false_eq_true, false_and, if_false]
  by_cases hk : y.k = true
  · have hv : y.val ≠ 0xFB := by simpa [hk] using hy
    rw [if_pos hk, if_neg hv]
  · rw [if_neg hk]

/-- Symbols that each only feed the loops of a lane. -/
theorem foldl_rxSym_idle {l low : Nat} {ys : List Sym} (hy : ys.all (fun y => !(y.k && y.val == 0xFB)) = true) {s : State}
    (hopen : (s.lane low).rxOpen = false) (out : List (Bool × Nat)) :
    (ys.foldl (fun (acc : State × List (Bool × Nat)) y => ((acc.1.rxSym l low y).1, acc.2 ++ [(acc.1.rxSym l low y).2])) (s, out)).1 =
      ys.foldl (fun t _ => t.onLane l fun a => a.feed 1 0) s := by
  induction ys generalizing s out with
  | nil => rfl
  | cons y r ih =>
    rw [List.all_cons, Bool.and_eq_true, Bool.not_eq_true'] at hy
    have hfeed (a : Lane) : (a.feed 1 0).rxOpen = a.rxOpen := by rw [feed_plain _ _ (by decide)]
    have hnext := ih hy.2 (s := s.onLane l fun a => a.feed 1 0) (by rw [lane_onLane_part Lane.rxOpen s l low _ hfeed, hopen])
      (out ++ [(s.rxSym l low y).2])
    simp only [List.foldl_cons]
    rw [rxSym_idle hopen hy.1, hnext]

/-- A word between packets that starts none only feeds the loops of its lane (R99, R102, R105). -/
theorem rxWord_idle {s : State} {l : Nat} {ys : List Sym} (hopen : (s.lane (s.linkLow l)).rxOpen = false)
    (hfwd : (s.lane (s.linkLow l)).rxFwd = false) (hy : ys.all (fun y => !(y.k && y.val == 0xFB)) = true) :
    s.rxWord l ys = ys.foldl (fun t _ => t.onLane l fun a => a.feed 1 0) s := by
  have hkept : ((ys.foldl (fun t _ => t.onLane l fun a => a.feed 1 0) s).lane (s.linkLow l)).rxFwd = false := by
    refine List.foldlRecOn (motive := fun u : State => (u.lane (s.linkLow l)).rxFwd = false) ys _ hfwd fun u hu _ _ => ?_
    rw [lane_onLane_part Lane.rxFwd u l _ _ fun a => by rw [feed_plain _ _ (by decide)], hu]
  have hfold := foldl_rxSym_idle hy hopen (l := l) []
  have hturn (k : Nat) : s.inTurn l (s.linkLow l) k (false || false) = true := rfl
  unfold State.rxWord
  cases ys with
  | nil => simp only [hopen, hturn, hfold, hkept, Bool.true_eq_false, Bool.false_eq_true, if_false]
  | cons y r =>
    rw [List.all_cons, Bool.and_eq_true, Bool.not_eq_true'] at hy
    simp only [hy.1, hopen, hturn, hfold, hkept, Bool.true_eq_false, Bool.false_eq_true, if_false]

/-- Four symbols that feed the loops one by one, from a lane's record. -/
theorem lane_feedFour {l : Fin 4} {s : State} {ys : List Sym} (hn : ys.length = 4) :
    (ys.foldl (fun t _ => t.onLane l fun a => a.feed 1 0) s).lane l =
        { s.lane l with plainN := min 256 ((s.lane l).plainN + 4), dataN := 0 } ∧
      (∀ m, m ≠ l.val → (ys.foldl (fun t _ => t.onLane l fun a => a.feed 1 0) s).lane m = s.lane m) ∧
      Only P.link s (ys.foldl (fun t _ => t.onLane l fun a => a.feed 1 0) s) := by
  obtain ⟨a, b, c, d, rfl⟩ : ∃ a b c d, ys = [a, b, c, d] := by
    match ys, hn with
    | [a, b, c, d], _ => exact ⟨a, b, c, d, rfl⟩
  refine ⟨?_, fun m hm => ?_, .foldl (.refl ..) fun u _ => State.onLane_only ..⟩
  · simp only [List.foldl_cons, List.foldl_nil, lane_onLane_fin, feed_plain _ 1 (by decide)]
    rw [show min 256 (min 256 (min 256 (min 256 ((s.lane l).plainN + 1) + 1) + 1) + 1) = min 256 ((s.lane l).plainN + 4) by omega]
  · simp only [List.foldl_cons, List.foldl_nil, lane_onLane_ne _ hm]

/-- A word without errors in ACTIVE with no packet open or starting (R96, R99, R102). -/
theorem goodWord_active {l : Fin 4} {w : Vector (BitVec 10) 4} {ys : List Sym} {rd : Bool} {s : State} (hl : s.live = true)
    (hd : s.decodeWord l w.toList = (ys, rd)) (hok : ys.all (fun y => !y.codeErr && !y.dispErr) = true) (hst : s.laneState l = 4)
    (hopen : (s.lane (s.linkLow l)).rxOpen = false) (hfwd : (s.lane (s.linkLow l)).rxFwd = false)
    (hy : ys.all (fun y => !(y.k && y.val == 0xFB)) = true) : Does (.laneWordReceive l w) s P.link fun t =>
      (t.lane l).rd = rd ∧ (t.lane l).bucket = (s.lane l).bucket - 1 ∧ (t.lane l).rxOpen = (s.lane l).rxOpen ∧
        (t.lane l).plainN = min 256 ((s.lane l).plainN + 4) ∧ (t.lane l).dataN = 0 ∧ ∀ m, m ≠ l.val → t.lane m = s.lane m := by
  have hn : ys.length = 4 := by
    have := decodeWord_length s l w.toList
    rwa [hd, Vector.length_toList] at this
  obtain ⟨t, hregs, honly, hlane, hother, hx⟩ := exec_goodWord hl hd hok (by omega)
  have hlow : t.linkLow l = s.linkLow l := linkLow_of_regs (fun n => get_congr hregs _) l
  have hsame {α : Type} (g : Lane → α) (hg : ∀ a, g (a.goodWord rd) = g a) (m : Nat) : g (t.lane m) = g (s.lane m) := by
    by_cases hm : m = l.val
    · rw [hm, hlane, hg]
    · rw [hother m hm]
  rw [if_pos (by simp [State.active, hst]), rxWord_idle (by rw [hlow, hsame Lane.rxOpen fun _ => rfl, hopen])
    (by rw [hlow, hsame Lane.rxFwd fun _ => rfl, hfwd]) hy] at hx
  obtain ⟨hfed, hleft, hfeed⟩ := lane_feedFour (s := t) hn
  refine ⟨_, hx, honly.comp hfeed, ?_, ?_, ?_, ?_, ?_, fun m hm => (hleft m hm).trans (hother m hm)⟩
  · rw [hfed, hlane]; rfl
  · rw [hfed, hlane]; rfl
  · rw [hfed, hlane]; rfl
  · rw [hfed, hlane]; rfl
  · rw [hfed]

/-- Settles O40: each packet leaves by `transmit`, and a word between packets feeds the loops of its lane alone. -/
theorem hostPath : Obligations.HostPath :=
  ⟨fun _ _ hl => ⟨status_sends hl, fun _ _ => irqmsg_sends hl, fun hl4 hh ha hb =>
      ⟨fcSend_later hl hh ha hb, fun _ => fcSend_first hl hh ha hb hl4, fcSend_waits hl hh ha hb⟩, transmit_leaves⟩,
    fun _ _ hl => ⟨fun _ _ _ ha ht hr he hp hlen hc hb ho =>
      ⟨returnPacket_goesOn hl ha ht hr he hp hlen hc hb ho, fun _ => returnPacket_stored hl ha ht hr he hp hlen hc hb ho⟩,
      fun _ _ _ hd hok => ⟨goodWord_training hl hd hok, goodWord_active hl hd hok⟩⟩⟩

end Sys2Proof.Machine

end

section
/-! A request from the link that arrives alone is executed at once and answered (R115, R119, R121, R122). -/

set_option Elab.async false

namespace Sys2Proof.Machine

/-- A request leaves the queue when it has been executed (R121). -/
def State.dequeue (s : State) : State := s.onLink fun k => { k with queue := k.queue.tail }

theorem dequeue_only (s : State) : Only P.link s s.dequeue := State.onLink_only ..

theorem dequeue_regs (s : State) : s.dequeue.regs = s.regs := rfl

theorem holding_only (s : State) (l typ : Nat) (p : Pkt) : Only (P.link ||| P.pgPkt) s (s.holding l typ p) :=
  .peak (.mono (State.onLink_only ..))

theorem holding_link (s : State) (l typ : Nat) (p : Pkt) : (s.holding l typ p).link = { s.link with queue := [⟨l, typ, p⟩] } := rfl

/-- A tagged request that is admitted while none waits is executed while its tag is in use, and leaves the queue (R115, R121, R122). -/
theorem request_alone {l typ lo hi : Nat} {update : Bool} {p : Pkt} {s : State} (hq : s.link.queue = []) (hb : s.blocked = false)
    (ha : s.admits l typ lo hi p) (ht : typ ≠ 0x40) :
    s.request l typ lo hi update p = ((s.holding l typ p).runReq ⟨l, typ, p⟩).dequeue := by
  have hused : s.tagUsed p = false := by rw [State.tagUsed, hq]; rfl
  have hbusy : (s.holding l typ p).blocked = false := hb
  have hserve : (s.holding l typ p).serve = ((s.holding l typ p).runReq ⟨l, typ, p⟩).dequeue := by
    rw [State.serve, holding_link, show ([⟨l, typ, p⟩] : List Req).length = 1 from rfl, State.drainReqs, if_neg (by simp [hbusy]),
      holding_link]
    rfl
  rw [← hserve, State.request, pktArrives_admitted ha]
  show (if true = false then s else if s.tagUsed p then s.pktMalf F.PKT_MALF_tag
    else if update ∧ 16 ≤ (s.link.queue.filter fun q => 0x20 ≤ q.typ && q.typ ≤ 0x22).length then s.pktOver F.PKT_OVR_update
    else s.enqueue l typ p) = _
  rw [if_neg (by decide), if_neg (by simp [hused]), if_neg (by simp [hq]), State.enqueue, State.onLink, hq]
  dsimp only
  rw [if_neg ht, List.nil_append, List.filter_cons_of_pos (by simpa using ht)]
  rfl

/-- A packet that is sent or waits changes no register (R91, R100). -/
theorem transmit_regs (s : State) (l typ hdr : Nat) (body : List Byte) : (s.transmit l typ hdr body).regs = s.regs := by
  have hword (u : State) (n : Nat) (w : List (Bool × Nat)) : (u.sendWord n w).regs = u.regs := by
    unfold State.sendWord
    split
    · rfl
    · exact onLane_regs ..
  have hwords (g : Nat → Nat) (ws : List (List (Bool × Nat) × Nat)) : (ws.foldl (fun t e => t.sendWord (g e.2) e.1) s).regs = s.regs :=
    List.foldlRecOn (motive := fun u : State => u.regs = s.regs) ws _ rfl fun u hu _ _ => (hword u _ _).trans hu
  unfold State.transmit
  split
  · exact hwords (fun n => (s.txLanes l).getD (n % max 1 (s.txLanes l).length) l) _
  · exact onLane_regs ..

theorem cpl_regs (s : State) (q : Req) (status done : Nat) (data : List Byte) : (s.cpl q status done data).dequeue.regs = s.regs :=
  transmit_regs ..

/-- A state from which the request `q`, which arrived alone in `s`, is answered: what its completion depends on has not changed, and of
the link's record only the queue and the credit of the update pool have. -/
structure Serves (r : Nat) (q : Req) (s t : State) : Prop where
  lines : SameLines Eq s t
  hdr : t.hostHdr = s.hostHdr
  link : t.link = { s.link with queue := [q], retU := r }

theorem hostHdr_congr {E : Nat} {s t : State} (h : Only E s t) (hE : leaves E R.PKT_POS = true := by decide) : t.hostHdr = s.hostHdr := by
  rw [State.hostHdr, h.get hE, State.hostHdr]

theorem holding_serves (s : State) (l typ : Nat) (p : Pkt) : Serves s.link.retU ⟨l, typ, p⟩ s (s.holding l typ p) := by
  refine ⟨.ofLanes rfl rfl fun n k hk => (holding_only s l typ p).word _ (leaves_lnk ⟨by omega, by decide⟩), ?_, rfl⟩
  rw [State.hostHdr, State.holding, State.peak, get_put_ne _ _ (by decide)]
  rfl

variable {r : Nat} {q : Req} {s t u : State}

/-- A step beside the lanes and the packet layer. -/
theorem Serves.step {E : Nat} (h : Serves r q s t) (k : Only E t u)
    (hE : (E.testBit 20 = false ∧ E.testBit 24 = false ∧ E.testBit 36 = false) ∧ leaves E R.PKT_POS = true := by decide) :
    Serves r q s u := by
  have hl : SameLines Eq t u := .ofOnly k hE.1
  exact ⟨⟨hl.out.trans h.lines.out, fun n => (hl.role n).trans (h.lines.role n), fun n => (hl.stat n).trans (h.lines.stat n),
    fun n => (h.lines.lane n).trans (hl.lane n)⟩, (hostHdr_congr k hE.2).trans h.hdr, (k.link hE.1.1).trans h.link⟩

/-- The credit of an update returns (R123). -/
def State.creditUpdate (s : State) : State := s.onLink fun k => { k with retU := k.retU + 1 }

theorem creditUpdate_only (s : State) : Only P.link s s.creditUpdate := State.onLink_only ..

theorem Serves.credit (h : Serves r q s t) : Serves (r + 1) q s t.creditUpdate :=
  ⟨⟨h.lines.out, h.lines.role, h.lines.stat, h.lines.lane⟩, h.hdr, by
    rw [State.creditUpdate, onLink_link, h.link]⟩

/-- The completion is handed to the link as it would have been before the request came (R119). -/
theorem Serves.answers (h : Serves r q s t) (hq : s.link.queue = []) {status done : Nat} {data : List Byte}
    (hu : u = s.completion q.lane q.typ q.pkt status done data) :
    (t.cpl q status done data).dequeue.link = { u.link with retU := r } ∧ (t.cpl q status done data).dequeue.out = u.out := by
  rw [hu, State.cpl, h.hdr, State.completion]
  refine ⟨?_, h.lines.transmit_out ..⟩
  rw [State.dequeue, onLink_link, h.lines.transmit_link, h.link, (sameLines_refl s).transmit_link, List.tail_cons, ← hq]

end Sys2Proof.Machine

end

section
/-! Register requests of the lane host (O37). -/

set_option Elab.async false

namespace Sys2Proof.Machine

variable {l : Fin 4} {p : Pkt} {s u : State}

theorem exec_rdreq (hq : s.link.queue = []) (hb : s.blocked = false) (ha : s.admits l 1 8 8 p) :
    exec (.rdreq l p) s = .next ((s.holding l 1 p).runRead ⟨l, 1, p⟩).dequeue :=
  congrArg Host.Outcome.next (request_alone hq hb ha (by decide))

theorem exec_wrreq (hq : s.link.queue = []) (hb : s.blocked = false) (ha : s.admits l 2 8 65535 p) :
    exec (.wrreq l p) s = .next ((s.holding l 2 p).runWrite ⟨l, 2, p⟩).dequeue :=
  congrArg Host.Outcome.next (request_alone hq hb ha (by decide))

theorem reqWidth_one (h : bodyLe p 5 1 = 1) : reqWidth p = 4 := by rw [reqWidth, h]; rfl

/-- A completion alone returns no credit. -/
theorem completion_credit {l typ status done : Nat} {data : List Byte} (hu : u = s.completion l typ p status done data) :
    { u.link with retU := s.link.retU } = u.link := by
  rw [hu, State.completion, (sameLines_refl s).transmit_link]

/-- A malformed request is answered and does nothing (R115, R119). -/
theorem malformed_does {c : Instr} {typ : Nat} (hq : s.link.queue = [])
    (hx : exec c s = .next ((s.holding l typ p).cpl ⟨l, typ, p⟩ 0xB 0 []).dequeue) (hu : u = s.completion l typ p 0xB 0 []) :
    Does c s (P.pgPkt ||| P.link ||| P.out) fun t => t.link = u.link ∧ t.out = u.out := by
  obtain ⟨hlink, hout⟩ := (holding_serves s l typ p).answers hq hu
  exact ⟨_, hx, .comp (.comp (.comp (.refl ..) (holding_only ..)) (State.cpl_only ..)) (dequeue_only _),
    hlink.trans (completion_credit hu), hout⟩

/-- One aligned register word is read (R58, R119). -/
theorem readMany_register {a : Nat} (hlt : a < 0x1F000) (h4 : a % 4 = 0) (s : State) :
    s.readMany a 4 1 = (s.readEffect a, leBytes 4 (s.readBy .lane a).toNat, 1, 0) := by
  have hread : s.readWord .lane a 4 = (s.readEffect a, 0, (s.readBy .lane a).toNat) := by
    rw [State.readWord, if_neg (by simp [accessOk, hlt, h4]), if_pos hlt]
  rw [State.readMany, hread]
  show (if 0 ≠ 0 then _ else _) = _
  rw [if_neg (by decide), State.readMany]
  exact congrArg (fun x => (s.readEffect a, x, 1, 0)) (List.append_nil _)

/-- A read request of one word (R118, R119). -/
theorem rdreq_reads {a : Nat} (hq : s.link.queue = []) (hb : s.blocked = false) (ha : s.admits l 1 8 8 p) (hok : regReqOk false p = true)
    (h1 : bodyLe p 5 1 = 1) (haddr : bodyLe p 8 4 = a) (hlt : a < 0x1F000) (h4 : a % 4 = 0)
    (hu : u = s.completion l 1 p 0 1 (leBytes 4 ((s.holding l 1 p).readBy .lane a).toNat)) :
    Does (.rdreq l p) s P.write fun t => t.link = u.link ∧ t.out = u.out := by
  have hrun : (s.holding l 1 p).runRead ⟨l, 1, p⟩ = ((s.holding l 1 p).readEffect a).cpl ⟨l, 1, p⟩ 0 1
      (leBytes 4 ((s.holding l 1 p).readBy .lane a).toNat) := by
    rw [State.runRead, if_neg (by simp [hok]), haddr, reqWidth_one h1, h1, readMany_register hlt h4]
  have hx := exec_rdreq hq hb ha
  rw [hrun] at hx
  obtain ⟨hlink, hout⟩ := ((holding_serves s l 1 p).step (State.readEffect_only ..)).answers hq hu
  exact ⟨_, hx, execRdreq_only _ _ s hx, hlink.trans (completion_credit hu), hout⟩

/-- A named write of PIRQ_EN of a page that the lane host owns (R65, R414). -/
def State.enWritten (s : State) (name k : Nat) (v : Word) : State :=
  (((s.named name).setReg (R.PIRQ_EN k) v).afterWrite (s.named name) .lane (R.PIRQ_EN k) v).named 0

theorem enWritten_only (s : State) (name k : Nat) (v : Word) :
    Only (P.pair ||| P.sio ||| P.pgSio ||| P.bal ||| P.pgAdc) s (s.enWritten name k v) :=
  .comp (.comp (.setReg (.comp (.refl ..) (State.named_only ..)) covers_page) (afterWrite_pirqEn ..).1) (State.named_only ..)

theorem enWritten_reg (s : State) (name k : Nat) (v : Word) : (s.enWritten name k v).reg (R.PIRQ_EN k) = v :=
  (afterWrite_pirqEn ..).2.trans (reg_setReg_same ..)

theorem writeMany_pirqEn {k : Nat} (hk : k < 31) (ho : s.owns .lane k = true) (name v : Nat) :
    s.writeMany name (R.PIRQ_EN k) 4 [v] = (s.enWritten name k (BitVec.ofNat 32 v), 1, 0) := by
  have hlt : R.PIRQ_EN k < 0x1F000 := header_lt hk (by decide)
  have h4 : R.PIRQ_EN k % 4 = 0 := header_aligned k rfl
  have hown : (s.named name).owns .lane k = true := ho
  have hwrite : (s.named name).writeWord .lane (R.PIRQ_EN k) 4 v =
      (((s.named name).setReg (R.PIRQ_EN k) (BitVec.ofNat 32 v)).afterWrite (s.named name) .lane (R.PIRQ_EN k) (BitVec.ofNat 32 v), 0) := by
    rw [State.writeWord, if_neg (by simp [accessOk, hlt, h4]), if_pos hlt, writeReg_pirqEn hk hown]
  rw [State.writeMany, hwrite]
  show (if 0 ≠ 0 then _ else _) = _
  rw [if_neg (by decide), State.writeMany]
  rfl

/-- A write request of one PIRQ_EN (R65, R118, R119). -/
theorem wrreq_writes {k : Fin 31} (hq : s.link.queue = []) (hb : s.blocked = false) (ha : s.admits l 2 8 65535 p)
    (hok : regReqOk true p = true) (h1 : bodyLe p 5 1 = 1) (haddr : bodyLe p 8 4 = R.PIRQ_EN k) (ho : s.owns .lane k = true)
    (hu : u = s.completion l 2 p 0 1 []) : Does (.wrreq l p) s P.write fun t =>
      t.link = u.link ∧ t.out = u.out ∧ t.reg (R.PIRQ_EN k) = BitVec.ofNat 32 (bodyLe p 12 4) := by
  have hown : (s.holding l 2 p).owns .lane k = true := by
    have hb (x n : Nat) (hx : x = R.SYS_OWN0 ∨ x = R.SYS_OWN1) : (s.holding l 2 p).bit x n = s.bit x n := by
      rw [State.bit, State.bit, (holding_only s l 2 p).word x (by rcases hx with rfl | rfl <;> decide)]
    rw [State.owns, hb _ _ (by split <;> simp)]
    exact ho
  have hrun : (s.holding l 2 p).runWrite ⟨l, 2, p⟩ = ((s.holding l 2 p).enWritten (2 ^ 23 + 2 * pktTag p) k
      (BitVec.ofNat 32 (bodyLe p 12 4))).cpl ⟨l, 2, p⟩ 0 1 [] := by
    have hvs : (List.range (bodyLe p 5 1 % 32)).map (fun i => bodyLe p (12 + 4 * i) 4) = [bodyLe p 12 4] := by rw [h1]; rfl
    rw [State.runWrite, if_neg (by simp [hok])]
    dsimp only
    rw [haddr, reqWidth_one h1, hvs, writeMany_pirqEn k.isLt hown]
  have hx := exec_wrreq hq hb ha
  rw [hrun] at hx
  obtain ⟨hlink, hout⟩ := ((holding_serves s l 2 p).step (enWritten_only _ (2 ^ 23 + 2 * pktTag p) k
    (BitVec.ofNat 32 (bodyLe p 12 4)))).answers hq hu
  exact ⟨_, hx, execWrreq_only _ _ s hx, hlink.trans (completion_credit hu), hout, (reg_congr (cpl_regs ..) _).trans (enWritten_reg ..)⟩

end Sys2Proof.Machine

end

section
/-! The agreement rules and the symbols in use do not depend on the count of tags (R71, R78, R121, R130), which the discharger sees from
the addresses of the fields they name. -/

set_option Elab.async false

namespace Sys2Proof.Machine

/-- Two states with the same words but PKT_TAGS. -/
def SameButTags (s t : State) : Prop := ∀ a, a ≠ R.PKT_TAGS → t.reg a = s.reg a

theorem SameButTags.takeWords {s t : State} (h : SameButTags s t) (ws : List (Nat × Word)) :
    SameButTags (s.takeWords ws) (t.takeWords ws) :=
  List.foldl_rel (r := SameButTags) h fun e _ a b hr => by
    split
    · intro c hc
      rw [reg_setReg, reg_setReg, hr c hc]
    · exact hr

section

variable {s t : State} (h : SameButTags s t)
include h

theorem SameButTags.get {f : Fld} (hf : f.addr ≠ R.PKT_TAGS) : t.get f = s.get f := by rw [State.get, h _ hf, State.get]

theorem SameButTags.on {f : Fld} (hf : f.addr ≠ R.PKT_TAGS) : t.on f = s.on f := by rw [State.on, h.get hf, State.on]

theorem SameButTags.defined : t.defined = s.defined := by
  simp (disch := (simp only [F.ASP_CFG_def, R.ASP_CFG, R.PKT_TAGS, aspAddr]; omega)) only [State.defined, h.on]

theorem SameButTags.rulesChain : t.rulesChain = s.rulesChain := by
  have htiles : t.ruleTiles = s.ruleTiles := by
    funext c
    simp (disch := (simp only [F.CHN_CTRL_en, F.CHN_CTRL_tiles, R.CHN_CTRL, R.PKT_TAGS, chnAddr]; omega)) only [State.ruleTiles, h.on, h.get]
  simp (disch := (
      simp only [F.TIL_MAP_en, F.TIL_MAP_chain, F.TIL_MAP_pos, F.CHN_CTRL_en, F.TIL_MAP_index, F.TIL_MAP_rail, F.SPL_CTRL_en, F.PLC_PWM_div,
        F.VIN_RATE_max_hz, F.PRF_CFG_interval, F.SUP_CFG_count, R.CHN_CTRL, R.TIL_MAP, R.SPL_CTRL, R.PLC_PWM, R.VIN_RATE, R.PRF_CFG, R.SUP_CFG,
        R.PKT_TAGS, chnAddr, tilAddr]
      omega)) only [State.rulesChain, State.rule3, State.naming, State.instances, htiles, h.on, h.get]

theorem SameButTags.rulesAspect : t.rulesAspect = s.rulesAspect := by
  have hgroup : t.groupAspects = s.groupAspects := by
    funext g
    simp (disch := (simp only [F.ASP_CFG_group, R.ASP_CFG, R.PKT_TAGS, aspAddr]; omega)) only [State.groupAspects, h.defined, h.get]
  have hlo (k : Nat) : t.reg (R.MSK_RECTLo k) = s.reg (R.MSK_RECTLo k) := h _ (by unfold R.MSK_RECTLo R.PKT_TAGS; omega)
  have hhi (k : Nat) : t.reg (R.MSK_RECTHi k) = s.reg (R.MSK_RECTHi k) := h _ (by unfold R.MSK_RECTHi R.PKT_TAGS; omega)
  simp (disch := (
      simp only [F.ASP_CFG_policy, F.ASP_CFG_class, F.ASP_CFG_count_n, F.ASP_MEMB_kind, F.ASP_MEMB_base, F.ASP_MEMB_len, F.FLT_RCT_action,
        F.FLT_RCT_group, R.ASP_CFG, R.ASP_MEMB, R.FLT_RCT, R.PKT_TAGS, aspAddr]
      omega)) only [State.rulesAspect, hgroup, h.defined, hlo, hhi, h.get]

theorem SameButTags.rulesIo : t.rulesIo = s.rulesIo := by
  simp (disch := (
      simp only [F.SIO_INCFG_en, F.SIO_INCFG_disc, F.SIO_INCFG_tested, F.SIO_INCFG_sa, F.SIO_INCFG_sb, F.SIO_OCFG_test, F.SIO_OCFG_width,
        F.BAL_CTRL_en, F.ADC_CFG_ilv, F.AXO_CFG_pair, F.LNK_ROLE_role, R.SIO_INCFG, R.SIO_OCFG, R.BAL_CTRL, R.ADC_CFG, R.AXO_CFG, R.LNK_ROLE,
        R.PKT_TAGS, lnkAddr]
      omega)) only [State.rulesIo, h.on, h.get]

theorem SameButTags.rule0 (ws : List (Nat × Word)) : t.rule0 ws = s.rule0 ws := by
  have hlock (p : Nat) : t.locked p = s.locked p := by
    have hp : R.PLOCK p ≠ R.PKT_TAGS := header_ne p (by decide)
    rw [State.locked, State.on, State.get, show (F.PLOCK_locked p).addr = R.PLOCK p from rfl, h _ hp]
    rfl
  have hmask : rwsMask R.PKT_TAGS = 0 := by decide
  have hword (e : Nat × Word) : (e.2 ^^^ t.reg e.1) &&& rwsMask e.1 = (e.2 ^^^ s.reg e.1) &&& rwsMask e.1 := by
    by_cases he : e.1 = R.PKT_TAGS
    · rw [he, hmask]
      exact BitVec.and_zero.trans BitVec.and_zero.symm
    · rw [h _ he]
  simp only [State.rule0, hlock, hword]

theorem SameButTags.agree (ws : List (Nat × Word)) : t.agree ws = s.agree ws := by
  have hw := h.takeWords ws
  unfold State.agree
  dsimp only
  rw [h.rule0, hw.rulesChain, hw.rulesAspect, hw.rulesIo]

theorem SameButTags.storeUsed (off n : Nat) : t.storeUsed off n = s.storeUsed off n := by
  have hdesc (k : Nat) : t.symDesc k = s.symDesc k := by
    have hlo : R.MSK_SYMLo k ≠ R.PKT_TAGS := by unfold R.MSK_SYMLo R.PKT_TAGS; omega
    have hhi : R.MSK_SYMHi k ≠ R.PKT_TAGS := by unfold R.MSK_SYMHi R.PKT_TAGS; omega
    rw [State.symDesc, State.regN, State.regN, h _ hlo, h _ hhi]
    rfl
  simp (disch := (simp only [F.ASP_MEMB_kind, F.ASP_MEMB_sym, R.ASP_MEMB, R.PKT_TAGS, aspAddr]; omega)) only
    [State.storeUsed, State.symUsed, hdesc, h.defined, h.on, h.get]

theorem SameButTags.aspupdBarred (p : Pkt) : t.aspupdBarred p = s.aspupdBarred p := by
  simp (disch := (simp only [F.ASP_CTL_en, F.ASP_CFG_class, R.ASP_CTL, R.ASP_CFG, R.PKT_TAGS, aspAddr]; omega)) only
    [State.aspupdBarred, State.regulatory, h.get]

end

end Sys2Proof.Machine

end

section
/-! An update packet that arrives alone: its checks, and the clause that waits for its point of application (O37). -/

set_option Elab.async false

namespace Sys2Proof.Machine

/-- An update packet with allowed fields for a clause of a kind that gives words `ws` comes in (R115, R129 to R131). -/
def State.updateComes (s : State) (c : Instr) (l : Fin 4) (p : Pkt) (typ kind : Nat) (ws : List (Nat × Word)) : Prop :=
  (c = .maskupd l p ∧ s.admits l 0x20 20 268 p ∧ maskupdOk p = true ∧ typ = 0x20 ∧ kind = 1 ∧ ws = maskupdWords p) ∨
    (c = .symupdDescriptor l p ∧ s.admits l 0x21 16 1036 p ∧ symDescOk p = true ∧ bits (bodyLe p 5 1) 2 1 = 1 ∧ typ = 0x21 ∧ kind = 2 ∧
      ws = [(R.MSK_SYMLo (bodyLe p 6 1), BitVec.ofNat 32 (bodyLe p 12 4)),
        (R.MSK_SYMHi (bodyLe p 6 1), BitVec.ofNat 32 (bodyLe p 16 4))]) ∨
    (c = .aspupd l p ∧ s.admits l 0x22 12 44 p ∧ aspupdOk p = true ∧ s.aspupdBarred p = false ∧ typ = 0x22 ∧ kind = 3 ∧
      ws = aspupdWords p)

/-- The state in which an update packet is checked: its tag is in use and its credit has returned (R121, R123). -/
def State.updateHeld (s : State) (l typ : Nat) (p : Pkt) : State := (s.holding l typ p).creditUpdate

/-- The arrival check of an update's clause, from the state in which it is checked (R76, R129). -/
def State.updateTried (s : State) (l typ : Nat) (p : Pkt) (kind : Nat) (ws : List (Nat × Word)) : State × Nat :=
  (s.updateHeld l typ p).submitImplicit kind ws (bodyLe p 5 1 % 4) (bodyLe p 8 4) (pktTag p)

theorem updateHeld_only (s : State) (l typ : Nat) (p : Pkt) : Only (P.link ||| P.pgPkt) s (s.updateHeld l typ p) :=
  (holding_only s l typ p).comp (creditUpdate_only _)

theorem updateHeld_serves (s : State) (l typ : Nat) (p : Pkt) : Serves (s.link.retU + 1) ⟨l, typ, p⟩ s (s.updateHeld l typ p) :=
  (holding_serves ..).credit

theorem updateHeld_regs (s : State) (l typ : Nat) (p : Pkt) : SameButTags s (s.updateHeld l typ p) := fun _ ha =>
  reg_put_ne _ _ _ fun h => ha h

theorem runUpdate_tried {s : State} {l typ kind : Nat} {p : Pkt} {ws : List (Nat × Word)} (hm : s.mode ≠ .hold) :
    (s.holding l typ p).runUpdate ⟨l, typ, p⟩ true kind ws false =
      (s.updateTried l typ p kind ws).1.cpl ⟨l, typ, p⟩ (s.updateTried l typ p kind ws).2 0 [] := by
  have hmode : (s.updateHeld l typ p).mode ≠ .hold := by rwa [(updateHeld_only ..).modeEq]
  rw [State.runUpdate, if_neg (by decide)]
  exact (if_neg hmode).trans (if_neg (by decide))

/-- An update packet with allowed fields is tried and answered (R122, R129). -/
theorem exec_update {c : Instr} {l : Fin 4} {p : Pkt} {typ kind : Nat} {ws : List (Nat × Word)} {s : State} (hq : s.link.queue = [])
    (hb : s.blocked = false) (hm : s.mode ≠ .hold) (h : s.updateComes c l p typ kind ws) :
    exec c s = .next ((s.updateTried l typ p kind ws).1.cpl ⟨l, typ, p⟩ (s.updateTried l typ p kind ws).2 0 []).dequeue := by
  rcases h with ⟨rfl, ha, hok, rfl, rfl, rfl⟩ | ⟨rfl, ha, hok, hkind, rfl, rfl, rfl⟩ | ⟨rfl, ha, hok, hbar, rfl, rfl, rfl⟩
  · rw [← runUpdate_tried hm, ← hok]
    exact congrArg Host.Outcome.next (request_alone hq hb ha (by decide))
  · have hrun : (s.holding l 0x21 p).runReq ⟨l, 0x21, p⟩ = (s.holding l 0x21 p).runUpdate ⟨l, 0x21, p⟩ true 2
        [(R.MSK_SYMLo (bodyLe p 6 1), BitVec.ofNat 32 (bodyLe p 12 4)),
          (R.MSK_SYMHi (bodyLe p 6 1), BitVec.ofNat 32 (bodyLe p 16 4))] false := by
      rw [← hok]
      exact if_neg (by rw [hkind]; decide)
    rw [← runUpdate_tried hm, ← hrun]
    exact congrArg Host.Outcome.next (request_alone hq hb ha (by decide))
  · have hbarred : (s.holding l 0x22 p).aspupdBarred p = false := (SameButTags.aspupdBarred (updateHeld_regs s l 0x22 p) p).trans hbar
    have hrun : (s.holding l 0x22 p).runReq ⟨l, 0x22, p⟩ = (s.holding l 0x22 p).runUpdate ⟨l, 0x22, p⟩ true 3 (aspupdWords p) false := by
      rw [← hok, ← hbarred]
      rfl
    rw [← runUpdate_tried hm, ← hrun]
    exact congrArg Host.Outcome.next (request_alone hq hb ha (by decide))

/-- The point of application that a choice and a target give depends on the mode, the clock and the timing in force (R74). -/
theorem pointOf_congr {E : Nat} {s t : State} (h : Only E s t) (choice target : Nat)
    (hE : (E.testBit 1 = false ∧ E.testBit 2 = false ∧ E.testBit 26 = false) ∧ leaves E R.CLS_PNOW = true ∧
      leaves E R.PLC_PHASE = true := by decide) : t.pointOf choice target = s.pointOf choice target := by
  obtain ⟨⟨hnow, hstart, hmode⟩, hpnow, hd⟩ := hE
  have hlight : t.lightMode = s.lightMode := by rw [State.lightMode, h.modeEq hmode, State.lightMode]
  have hcyc : t.periodCycles = s.periodCycles := congrArg (5000 * ·) (h.get hd)
  have hnext : t.nextStart = s.nextStart := by
    simp only [State.nextStart, State.periodAfter, hcyc, h.pnow hpnow, h.now hnow, h.pstart hstart]
  have huntil : t.until target = s.until target := by
    simp only [State.until, hcyc, h.pnow hpnow, h.now hnow, h.pstart hstart]
  unfold State.pointOf
  rw [hlight, h.pnow hpnow, hnext, huntil]

/-- An implicit clause waits behind those that have arrived (R76, R207). -/
def State.queueClause (s : State) (kind : Nat) (ws : List (Nat × Word)) (point : Due × Bool) (tag : Nat) : State :=
  let t := (s.eventIf point.2 3 2).arrive
  { t with cl := { t.cl with implicit := t.cl.implicit ++ [⟨kind, ws, point.1, tag, t.cl.arrived⟩] } }

theorem queueClause_only (s : State) (kind : Nat) (ws : List (Nat × Word)) (point : Due × Bool) (tag : Nat) :
    Only P.cl s (s.queueClause kind ws point tag) := .upd (.comp (.eventIf (.refl ..)) (State.arrive_only ..))

theorem queueClause_cl (s : State) (kind : Nat) (ws : List (Nat × Word)) (point : Due × Bool) (tag : Nat) :
    (s.queueClause kind ws point tag).cl = { s.cl with
      arrived := s.cl.arrived + 1, implicit := s.cl.implicit ++ [⟨kind, ws, point.1, tag, s.cl.arrived + 1⟩] } := by
  have hcl : (s.eventIf point.2 3 2).cl = s.cl := (Only.eventIf (E := P.cls) (.refl ..)).cl (by decide)
  rw [State.queueClause, State.arrive, hcl]

/-- A name that a DIGEST gave and an update has come for (R418). -/
def State.forgetLost (s : State) (e : Nat × Nat) : State := s.onPair fun a => { a with lost := a.lost.erase e }

/-- A clause that does not agree is not taken up (R76). -/
theorem submitImplicit_fails {s : State} (hc : s.spd.conf = false) {kind : Nat} {ws : List (Nat × Word)} {e : Nat × Nat}
    (ha : s.agree ws = some e) (choice target tag : Nat) :
    s.submitImplicit kind ws choice target tag = (s.implicitFail kind e, 0xA) := by
  rw [State.submitImplicit, if_neg (by simp [hc]), ha]

/-- A clause that agrees waits, unless a DIGEST has named it to a standby before: then it is taken at once (R76, R418). -/
theorem submitImplicit_agrees {s : State} (hc : s.spd.conf = false) {kind : Nat} {ws : List (Nat × Word)} (ha : s.agree ws = none)
    (choice target tag : Nat) : s.submitImplicit kind ws choice target tag =
      ((match s.pair.lost.find? fun e => s.mode == .mirror && e.1 == tag with
        | some e => ((s.queueClause kind ws (s.pointOf choice target) tag).forgetLost e).takeImplicit
            ⟨kind, ws, (s.pointOf choice target).1, tag, s.cl.arrived + 1⟩
        | none => s.queueClause kind ws (s.pointOf choice target) tag), 0) := by
  have hq : Only P.cl s (s.queueClause kind ws (s.pointOf choice target) tag) := queueClause_only ..
  have hnth : s.cl.arrived + 1 = (s.eventIf (s.pointOf choice target).2 3 2).arrive.cl.arrived :=
    (congrArg Clauses.arrived (queueClause_cl s kind ws (s.pointOf choice target) tag)).symm
  rw [State.submitImplicit, if_neg (by simp [hc]), ha, hnth, ← hq.modeEq, ← hq.pair (by decide)]
  generalize hp : s.pointOf choice target = point
  obtain ⟨due, late⟩ := point
  show (match (s.queueClause kind ws (due, late) tag).pair.lost.find? fun e =>
      (s.queueClause kind ws (due, late) tag).mode == .mirror && e.1 == tag with
    | some e => (((s.queueClause kind ws (due, late) tag).forgetLost e).takeImplicit
        ⟨kind, ws, due, tag, (s.eventIf late 3 2).arrive.cl.arrived⟩, 0)
    | none => (s.queueClause kind ws (due, late) tag, 0)) = _
  split <;> rfl

theorem implicitFail_kind (s : State) (kind : Nat) (e : Nat × Nat) : (s.implicitFail kind e).get F.CLS_ISTAT_kind = kind % 4 := by
  simp (disch := decide) only [State.implicitFail, event_get, get_inc_apart, get_put_same]
  rfl

end Sys2Proof.Machine

end

section
/-! What an update packet that arrives alone shows (O37). -/

set_option Elab.async false

namespace Sys2Proof.Machine

variable {c : Instr} {l : Fin 4} {p : Pkt} {typ kind : Nat} {ws : List (Nat × Word)} {s u : State}

theorem updateHeld_agree (s : State) (l typ : Nat) (p : Pkt) (ws : List (Nat × Word)) : (s.updateHeld l typ p).agree ws = s.agree ws :=
  (updateHeld_regs s l typ p).agree ws

theorem updateHeld_conf (hb : s.blocked = false) : (s.updateHeld l typ p).spd.conf = false := (Bool.or_eq_false_iff.mp hb).1

theorem updateComes_kind (h : s.updateComes c l p typ kind ws) : kind < 4 := by
  rcases h with ⟨-, -, -, -, rfl, -⟩ | ⟨-, -, -, -, -, rfl, -⟩ | ⟨-, -, -, -, -, rfl, -⟩ <;> decide

/-- An update that does not agree is discarded and answered so (R76, R129). -/
theorem update_fails {e : Nat × Nat} (hq : s.link.queue = []) (hb : s.blocked = false) (hm : s.mode ≠ .hold)
    (h : s.updateComes c l p typ kind ws) (ha : s.agree ws = some e) (hu : u = s.completion l typ p 0xA 0 []) :
    Does c s (P.link ||| P.out ||| P.pgPkt ||| P.cls) fun t =>
      t.get F.CLS_ISTAT_rule = e.1 % 256 ∧ t.get F.CLS_ISTAT_kind = kind ∧ t.get F.CLS_ISTAT_count = s.plusOne F.CLS_ISTAT_count ∧
      t.link = { u.link with retU := s.link.retU + 1 } ∧ t.out = u.out := by
  have hx := exec_update hq hb hm h
  rw [State.updateTried, submitImplicit_fails (updateHeld_conf hb) ((updateHeld_agree ..).trans ha)] at hx
  have hget {v : State} (f : Fld) : (v.cpl ⟨l, typ, p⟩ 0xA 0 []).dequeue.get f = v.get f := get_congr (cpl_regs ..) f
  obtain ⟨hrule, -, hcount, -, -⟩ := implicitFail_shows (s.updateHeld l typ p) kind e
  refine ⟨_, hx, ?_, (hget _).trans hrule, ?_, ?_, ((updateHeld_serves s l typ p).step (State.implicitFail_only ..)).answers hq hu⟩
  · exact .comp (.comp (.comp (.comp (.refl ..) (updateHeld_only ..)) (State.implicitFail_only ..)) (State.cpl_only ..)) (dequeue_only _)
  · exact (hget _).trans ((implicitFail_kind ..).trans (Nat.mod_eq_of_lt (updateComes_kind h)))
  · rw [hget, hcount, State.plusOne, (updateHeld_only s l typ p).get, State.plusOne]

/-- The clause that an update makes is the one that the state before gives it (R74, R76). -/
theorem updateHeld_queue (s : State) (l typ : Nat) (p : Pkt) (kind : Nat) (ws : List (Nat × Word)) (choice target tag : Nat) :
    ((s.updateHeld l typ p).queueClause kind ws ((s.updateHeld l typ p).pointOf choice target) tag).cl = { s.cl with
      arrived := s.cl.arrived + 1,
      implicit := s.cl.implicit ++ [⟨kind, ws, (s.pointOf choice target).1, tag, s.cl.arrived + 1⟩] } := by
  rw [queueClause_cl, (updateHeld_only s l typ p).cl (by decide), pointOf_congr (updateHeld_only s l typ p)]

/-- An update that agrees waits for its point of application (R76, R129). -/
theorem update_waits (hq : s.link.queue = []) (hb : s.blocked = false) (hm : s.mode ≠ .hold) (h : s.updateComes c l p typ kind ws)
    (ha : s.agree ws = none) (hn : s.mode = .mirror → ∀ e ∈ s.pair.lost, e.1 ≠ pktTag p) (hu : u = s.completion l typ p 0 0 []) :
    Does c s (P.cl ||| P.link ||| P.out ||| P.pgPkt) fun t =>
      t.cl = { s.cl with arrived := s.cl.arrived + 1, implicit := s.cl.implicit ++
        [⟨kind, ws, (s.pointOf (bodyLe p 5 1 % 4) (bodyLe p 8 4)).1, pktTag p, s.cl.arrived + 1⟩] } ∧
      t.link = { u.link with retU := s.link.retU + 1 } ∧ t.out = u.out := by
  have hheld := updateHeld_only s l typ p
  have hnone : (s.updateHeld l typ p).pair.lost.find? (fun e => (s.updateHeld l typ p).mode == .mirror && e.1 == pktTag p) = none := by
    rw [hheld.pair (by decide), hheld.modeEq, List.find?_eq_none]
    intro e he
    by_cases hmir : s.mode = .mirror
    · simp [hn hmir e he]
    · simp [hmir]
  have hx := exec_update hq hb hm h
  rw [State.updateTried, submitImplicit_agrees (updateHeld_conf hb) ((updateHeld_agree ..).trans ha), hnone] at hx
  refine ⟨_, hx, ?_, ?_, ((updateHeld_serves s l typ p).step (queueClause_only ..)).answers hq hu⟩
  · exact .comp (.comp (.comp (.comp (.refl ..) hheld) (queueClause_only ..)) (State.cpl_only ..)) (dequeue_only _)
  · rw [(dequeue_only _).cl (by decide), (State.cpl_only ..).cl (by decide), updateHeld_queue]

end Sys2Proof.Machine

end

section
/-! The data of a symbol (O37). -/

set_option Elab.async false

namespace Sys2Proof.Machine

variable {l : Fin 4} {p : Pkt} {s u : State}

/-- The data of a symbol update that arrives alone are stored, unless a symbol in use lies there (R130, R183). -/
theorem exec_symupdData (hq : s.link.queue = []) (hb : s.blocked = false) (ha : s.admits l 0x21 16 1036 p) (hok : symDataOk p = true)
    (hk : bits (bodyLe p 5 1) 2 1 = 0) : exec (.symupdData l p) s = .next
      (if s.storeUsed (bodyLe p 12 4) (p.body.length - 12) then (s.updateHeld l 0x21 p).cpl ⟨l, 0x21, p⟩ 0xC 0 []
        else ((s.updateHeld l 0x21 p).setBytes (0xE00000 + bodyLe p 12 4) (p.body.drop 12)).cpl ⟨l, 0x21, p⟩ 0 0 []).dequeue := by
  have hused : (s.updateHeld l 0x21 p).storeUsed (bodyLe p 12 4) (p.body.drop 12).length =
      s.storeUsed (bodyLe p 12 4) (p.body.length - 12) := by
    rw [(updateHeld_regs s l 0x21 p).storeUsed, List.length_drop]
  have hrun : (s.holding l 0x21 p).runReq ⟨l, 0x21, p⟩ = (s.holding l 0x21 p).runSymData ⟨l, 0x21, p⟩ := if_pos hk
  rw [← hused]
  refine (congrArg Host.Outcome.next (request_alone hq hb ha (by decide))).trans ?_
  rw [hrun, State.runSymData, if_neg (by simp [hok])]
  rfl

/-- Data for a place that a symbol in use takes are refused (R130). -/
theorem symData_refused (hq : s.link.queue = []) (hb : s.blocked = false) (ha : s.admits l 0x21 16 1036 p) (hok : symDataOk p = true)
    (hk : bits (bodyLe p 5 1) 2 1 = 0) (hused : s.storeUsed (bodyLe p 12 4) (p.body.length - 12) = true)
    (hu : u = s.completion l 0x21 p 0xC 0 []) : Does (.symupdData l p) s (P.link ||| P.out ||| P.pgPkt) fun t =>
      t.link = { u.link with retU := s.link.retU + 1 } ∧ t.out = u.out := by
  have hx := exec_symupdData hq hb ha hok hk
  rw [if_pos hused] at hx
  exact ⟨_, hx, .comp (.comp (.comp (.refl ..) (updateHeld_only ..)) (State.cpl_only ..)) (dequeue_only _),
    (updateHeld_serves s l 0x21 p).answers hq hu⟩

theorem setBytes_sram {s : State} (h : s.ecc2 = []) (a : Nat) (bs : List Byte) : (s.setBytes a bs).sram = memPutBytes s.sram a bs := by
  rw [State.setBytes, State.mend, h]
  rfl

/-- Data for a place that no symbol in use takes are stored (R130, R183). -/
theorem symData_stored (hq : s.link.queue = []) (hb : s.blocked = false) (ha : s.admits l 0x21 16 1036 p) (hok : symDataOk p = true)
    (hk : bits (bodyLe p 5 1) 2 1 = 0) (hwf : s.sram.wf = true) (h2 : s.ecc2 = [])
    (hused : s.storeUsed (bodyLe p 12 4) (p.body.length - 12) = false) (hu : u = s.completion l 0x21 p 0 0 []) :
    Does (.symupdData l p) s (P.sram ||| P.ecc ||| P.link ||| P.out ||| P.pgPkt) fun t =>
      (∀ i, i < p.body.length - 12 → t.byte (0xE00000 + bodyLe p 12 4 + i) = p.body.getD (12 + i) 0) ∧
      (∀ a, a < 0xE00000 + bodyLe p 12 4 ∨ 0xE00000 + bodyLe p 12 4 + (p.body.length - 12) ≤ a → t.byte a = s.byte a) ∧
      t.link = { u.link with retU := s.link.retU + 1 } ∧ t.out = u.out := by
  have hx := exec_symupdData hq hb ha hok hk
  rw [if_neg (by simp [hused])] at hx
  have hheld := updateHeld_only s l 0x21 p
  generalize bodyLe p 12 4 = off at hx ⊢
  have hbyte (a : Nat) : (((s.updateHeld l 0x21 p).setBytes (0xE00000 + off) (p.body.drop 12)).cpl ⟨l, 0x21, p⟩ 0 0 []).dequeue.byte a =
      if 0xE00000 + off ≤ a ∧ a < 0xE00000 + off + (p.body.length - 12) then p.body.getD (12 + (a - (0xE00000 + off))) 0 else s.byte a := by
    have hsram : ((s.updateHeld l 0x21 p).setBytes (0xE00000 + off) (p.body.drop 12)).sram =
        memPutBytes s.sram (0xE00000 + off) (p.body.drop 12) := by rw [setBytes_sram ((hheld.ecc (by decide)).2.trans h2), hheld.sram (by decide)]
    rw [State.byte, (dequeue_only _).sram (by decide), (State.cpl_only ..).sram (by decide), hsram, memByte_memPutBytes hwf,
      List.length_drop, State.byte]
    simp only [List.getD_eq_getElem?_getD, List.getElem?_drop]
  refine ⟨_, hx, ?_, fun i hi => ?_, fun a ha => ?_, ((updateHeld_serves s l 0x21 p).step (State.setBytes_only ..)).answers hq hu⟩
  · exact .comp (.comp (.comp (.comp (.refl ..) hheld) (State.setBytes_only ..)) (State.cpl_only ..)) (dequeue_only _)
  · rw [hbyte, if_pos (by omega), Nat.add_sub_cancel_left]
  · rw [hbyte, if_neg (by omega)]

end Sys2Proof.Machine

end

section
/-! What the application of an implicit clause leaves of the credit that has returned and of the names that wait for their packets (R75,
R123, R418), as a relation of states with a rule per operation. -/

set_option Elab.async false

namespace Sys2Proof.Machine

/-- A step that leaves the credit of the update pool and the names to which no packet has come. -/
structure KeepsCredit (s t : State) : Prop where
  lost : t.pair.lost = s.pair.lost
  credit : t.link.retU = s.link.retU

section

variable {s t u : State}

theorem KeepsCredit.refl (s : State) : KeepsCredit s s := ⟨rfl, rfl⟩

theorem KeepsCredit.comp (h : KeepsCredit s t) (k : KeepsCredit t u) : KeepsCredit s u := ⟨k.lost.trans h.lost, k.credit.trans h.credit⟩

/-- A step beside the packet layer and the pair. -/
theorem KeepsCredit.of {E : Nat} (h : Only E s t) (hE : (!E.testBit 20 && !E.testBit 23) = true := by decide) : KeepsCredit s t := by
  simp only [Bool.and_eq_true, Bool.not_eq_true'] at hE
  exact ⟨by rw [h.pair hE.2], by rw [h.link hE.1]⟩

theorem KeepsCredit.ite {a b : State} {c : Prop} [Decidable c] (ha : KeepsCredit s a) (hb : KeepsCredit s b) :
    KeepsCredit s (if c then a else b) := by
  split <;> assumption

theorem KeepsCredit.iteOn {a b : State} {c : Prop} [Decidable c] (hb : KeepsCredit s b) (ha : KeepsCredit b a) :
    KeepsCredit s (if c then a else b) := .ite (hb.comp ha) hb

theorem KeepsCredit.iteOff {a b : State} {c : Prop} [Decidable c] (ha : KeepsCredit s a) (hb : KeepsCredit a b) :
    KeepsCredit s (if c then a else b) := .ite ha (ha.comp hb)

theorem KeepsCredit.foldl {α : Type} {f : State → α → State} {l : List α} (h : KeepsCredit s t) (hf : ∀ u x, KeepsCredit u (f u x)) :
    KeepsCredit s (l.foldl f t) := List.foldlRecOn (motive := KeepsCredit s) l f h fun u hu x _ => hu.comp (hf u x)

end

theorem dropGroup_keepsCredit (s : State) (a : Nat) : KeepsCredit s (s.dropGroup a) :=
  (KeepsCredit.of (State.endGroup_only s a)).comp ⟨rfl, rfl⟩

theorem ctxFade_keepsCredit (s old : State) (a : Nat) (start : Bool) : KeepsCredit s (s.ctxFade old a start) := by
  unfold State.ctxFade
  dsimp only
  generalize hu : (if old.get (F.ASP_FADE_fgrp a) ≠ s.get (F.ASP_FADE_fgrp a) then s.dropGroup a else s) = u
  have h : KeepsCredit s u := hu ▸ .ite (dropGroup_keepsCredit ..) (.refl s)
  refine .ite (h.comp ?_) (h.comp (.iteOn (.ite ?_ (.ite (.refl u) ?_)) (.of (State.refadeNow_only ..))))
  · exact (dropGroup_keepsCredit u a).comp (.comp (t := (u.dropGroup a).onFade a fun _ => {}) (.of (State.onFade_only ..)) ⟨rfl, rfl⟩)
  · exact (KeepsCredit.of (State.onFade_only ..)).comp (.of (State.beginFade_only ..))
  · exact (KeepsCredit.of (State.dropWaits_only ..)).comp (.of (State.startFade_only ..))

theorem ctxChanged_keepsCredit (s old : State) (a : Nat) (start : Bool) : KeepsCredit s (s.ctxChanged old a start) := by
  have h := ctxFade_keepsCredit s old a start
  unfold State.ctxChanged
  exact .ite (.ite (.refl s) h) ((h.comp (.of (State.markRows_only ..))).comp (.of (State.markRows_only ..)))

theorem LinkKept.keepsCredit {E : Nat} {s t : State} (h : LinkKept s t) (k : Only E s t) (hE : E.testBit 23 = false := by decide) :
    KeepsCredit s t := by
  obtain ⟨ls, ps, hl⟩ := h
  exact ⟨by rw [k.pair hE], by rw [hl]⟩

theorem leaveDown_linkKept (s : State) (l : Nat) : LinkKept s (s.leaveDown l) := by
  unfold State.leaveDown
  split
  · exact .onLane (.refl s) l _
  · exact .refl s

theorem reconfigLane_linkKept (s : State) (l : Nat) : LinkKept s (s.reconfigLane l) := by
  unfold State.reconfigLane
  split
  · exact toDetect_linkKept ..
  · exact leaveActive_linkKept ..
  · exact .same (.onLane (.refl s) l _) ((State.showPos_only ..).link (by decide))
  · exact (leaveDown_linkKept s l).trans (toExit_linkKept ..)

theorem roleChanged_keepsCredit (s old : State) (l : Nat) : KeepsCredit s (s.roleChanged old l) := by
  unfold State.roleChanged
  exact .ite (.refl s) ((reconfigLane_linkKept s l).keepsCredit (State.reconfigLane_only ..))

theorem applied_keepsCredit (s old : State) (ws : List (Nat × Word)) (start : Bool) : KeepsCredit s (s.applied old ws start) := by
  unfold State.applied
  dsimp only
  refine .comp (.comp ?_ (.of (State.updateOff_only ..))) (.of (State.sioDrive_only ..))
  refine .iteOn (.iteOn (.iteOn (.foldl (.iteOn (.iteOff (.foldl (.foldl ?_ ?_) ?_) ?_) ?_) ?_) ?_) ?_) (.of (State.loseCfg_only ..))
  · exact .ite (.of (State.markAll_only ..)) (.refl s)
  · exact fun t a => ctxChanged_keepsCredit ..
  · exact fun t k => .of (State.symChanged_only ..)
  · exact .of (State.maskApply_only ..)
  · exact .comp (.ite (.of (State.setD_only ..)) (.refl _)) (.of (State.showTiming_only ..))
  · exact fun t l => roleChanged_keepsCredit ..
  · exact ⟨rfl, rfl⟩
  · exact .of (State.adcShow_only ..)

/-- An implicit clause that is taken leaves them (R76). -/
theorem takeImplicit_keepsCredit (s : State) (k : ImpClause) : KeepsCredit s (s.takeImplicit k) := by
  have hgroups : KeepsCredit s (s.groupsFirst k) :=
    .foldl ⟨rfl, rfl⟩ fun _ _ => .ite (.of (State.groupBefore_only ..)) (.refl _)
  rw [takeImplicit_eq]
  refine hgroups.comp ?_
  unfold State.applyImplicit
  split
  · exact .of (State.implicitFail_only ..)
  · exact .ite (.comp (.of (State.draw_only _)) (.of (State.implicitFail_only ..)))
      (.comp (.of (State.takeWords_only ..)) (applied_keepsCredit ..))

end Sys2Proof.Machine

end

section
/-! The requests and update packets of the lane host (O37). -/

set_option Elab.async false

namespace Sys2Proof.Machine

theorem updateComes_only {c : Instr} {l : Fin 4} {p : Pkt} {typ kind : Nat} {ws : List (Nat × Word)} {s t : State}
    (h : s.updateComes c l p typ kind ws) (hx : exec c s = .next t) : Only P.write s t := by
  rcases h with ⟨rfl, -⟩ | ⟨rfl, -⟩ | ⟨rfl, -⟩
  · exact execMaskupd_only _ _ s hx
  · exact execSymupdDescriptor_only _ _ s hx
  · exact execAspupd_only _ _ s hx

/-- An update that a DIGEST has named to the standby before it came is taken at once (R418). -/
theorem update_named {c : Instr} {l : Fin 4} {p : Pkt} {typ kind : Nat} {ws : List (Nat × Word)} {s : State} {e : Nat × Nat} {k : ImpClause}
    (hq : s.link.queue = []) (hb : s.blocked = false) (hm : s.mode ≠ .hold) (h : s.updateComes c l p typ kind ws) (ha : s.agree ws = none)
    (hmir : s.mode = .mirror) (he : s.pair.lost.find? (fun e => e.1 == pktTag p) = some e)
    (hk : k = ⟨kind, ws, (s.pointOf (bodyLe p 5 1 % 4) (bodyLe p 8 4)).1, pktTag p, s.cl.arrived + 1⟩) : Does c s P.write fun t =>
      t.pair.lost = s.pair.lost.erase e ∧ t.cl.implicit = (s.cl.implicit ++ [k]).erase k ∧ t.link.retU = s.link.retU + 1 := by
  have hheld := updateHeld_only s l typ p
  have hsome : (s.updateHeld l typ p).pair.lost.find? (fun e => (s.updateHeld l typ p).mode == .mirror && e.1 == pktTag p) = some e := by
    rw [hheld.pair (by decide), hheld.modeEq, hmir]
    exact he
  have hx := exec_update hq hb hm h
  rw [State.updateTried, submitImplicit_agrees (updateHeld_conf hb) ((updateHeld_agree ..).trans ha), hsome] at hx
  dsimp only at hx
  rw [pointOf_congr hheld, hheld.cl (by decide), ← hk] at hx
  generalize hv : ((s.updateHeld l typ p).queueClause kind ws (s.pointOf (bodyLe p 5 1 % 4) (bodyLe p 8 4)) (pktTag p)).forgetLost e = v at hx
  have hclause := queueClause_only (s.updateHeld l typ p) kind ws (s.pointOf (bodyLe p 5 1 % 4) (bodyLe p 8 4)) (pktTag p)
  have hlost : v.pair.lost = s.pair.lost.erase e := by
    rw [← hv]
    exact congrArg (fun a : Pair => a.lost.erase e) ((hclause.pair (by decide)).trans (hheld.pair (by decide)))
  have hqueue : v.cl.implicit = s.cl.implicit ++ [k] := by
    rw [← hv, hk]
    exact (congrArg Clauses.implicit (queueClause_cl ..)).trans (by rw [hheld.cl (by decide)])
  have hcredit : v.link.retU = s.link.retU + 1 := by
    rw [← hv]
    exact congrArg Link.retU (hclause.link (by decide))
  have hkeep := takeImplicit_keepsCredit v k
  have hsent : ((v.takeImplicit k).cpl ⟨l, typ, p⟩ 0 0 []).dequeue.link.retU = (v.takeImplicit k).link.retU := by
    obtain ⟨ls, hls⟩ := transmit_lanesOnly (v.takeImplicit k) l 0x03 (v.takeImplicit k).hostHdr
      (leBytes 1 (pktTag p) ++ leBytes 1 0 ++ leBytes 1 0 ++ leBytes 1 typ ++ leBytes 4 0 ++ [])
    rw [State.dequeue, onLink_link, State.cpl, hls]
  refine ⟨_, hx, updateComes_only h hx, ?_, ?_, ?_⟩
  · rw [(dequeue_only _).pair (by decide), (State.cpl_only ..).pair (by decide), hkeep.lost, hlost]
  · rw [(dequeue_only _).cl (by decide), (State.cpl_only ..).cl (by decide), takeImplicit_queue, hqueue]
  · rw [hsent, hkeep.credit, hcredit]

/-- Settles O37: requests of one register word, update packets with a clause, and the data of a symbol. -/
theorem linkRequests : Obligations.LinkRequests := by
  refine ⟨fun l p s hq hb => ⟨fun ha => ⟨fun a u hok h1 haddr hlt h4 hu => rdreq_reads hq hb ha hok h1 haddr hlt h4 hu, fun u hok hu => ?_⟩,
    fun ha => ⟨fun k u hok h1 haddr ho hu => wrreq_writes hq hb ha hok h1 haddr ho hu, fun u hok hu => ?_⟩⟩,
    fun c l p typ kind ws s u hq hb hm h => ⟨fun e k ha hmir he hk => update_named hq hb hm h ha hmir he hk,
      fun ha hn hu => update_waits hq hb hm h ha hn hu, fun e ha hu => update_fails hq hb hm h ha hu⟩,
    fun l p off s u hq hb ha hok hk hoff hwf h1 h2 => ⟨fun hused hu => ?_, fun hused hu => ?_⟩⟩
  · exact malformed_does hq ((exec_rdreq hq hb ha).trans (by rw [State.runRead, if_pos hok])) hu
  · exact malformed_does hq ((exec_wrreq hq hb ha).trans (by rw [State.runWrite, if_pos hok])) hu
  · subst hoff
    exact symData_stored hq hb ha hok hk hwf h2 hused hu
  · subst hoff
    exact symData_refused hq hb ha hok hk hused hu

end Sys2Proof.Machine

end
